-- ==== Sys2Proof/Word.lean ====
section
/-! DEFINITION. The word types of the SVD-4820 (00 R2, R3 and the table of unit names) and the sparse table
that the state is made of. -/

namespace Sys2Proof
set_option Elab.async false

/-- 8 bits (unit table of file 00). -/
abbrev Byte := BitVec 8
/-- 16 bits. -/
abbrev Half := BitVec 16
/-- 32 bits. -/
abbrev Word := BitVec 32
/-- 64 bits. -/
abbrev Double := BitVec 64
/-- 128 bits. -/
abbrev Quad := BitVec 128

/-- A sparse table: entries by rising key.  A key that is not listed holds the default its reader names. -/
abbrev Table (α : Type) := List (Nat × α)

end Sys2Proof
end

