-- ==== Sys2Proof/Syntax.lean ====
section
/-! DEFINITION. Syntax of the SVD-4820: one constructor per row of spec/opcode_table.json.
The first 140 rows are the 32-bit instruction words of 03 R62 and R70; their fields stand in the order of the
table, high bits first, at the widths the word gives them.  The other 140 rows are the whole and indivisible steps
of the device agents (95_what_each_step_holds.md); they have no encoding, and their natural-number operands say
WHICH pending piece of work the step is about (DESIGN CHOICE, assumption 2). -/

namespace Sys2Proof
set_option Elab.async false

/-- The steps of the machine: instruction words first, device steps after them. (DESIGN CHOICE: assumption 2). -/
inductive Instr
  /-- AADD (R333): Atomically adds a lane operand to a 32-bit word at its home and optionally returns the old value. -/
  | aadd (t a : BitVec 7) (s : BitVec 3) (r : BitVec 2) (p z : BitVec 1) (l : BitVec 4)
  /-- AMIN (R333): Atomically replaces a word by the signed minimum of it and the operand. -/
  | amin (t a : BitVec 7) (s : BitVec 3) (r : BitVec 2) (p z : BitVec 1) (l : BitVec 4)
  /-- AMAX (R333): Atomically replaces a word by the signed maximum of it and the operand. -/
  | amax (t a : BitVec 7) (s : BitVec 3) (r : BitVec 2) (p z : BitVec 1) (l : BitVec 4)
  /-- AAND (R333): Atomically ands the operand into a word. -/
  | aand (t a : BitVec 7) (s : BitVec 3) (r : BitVec 2) (p z : BitVec 1) (l : BitVec 4)
  /-- AOR (R333): Atomically ors the operand into a word. -/
  | aor (t a : BitVec 7) (s : BitVec 3) (r : BitVec 2) (p z : BitVec 1) (l : BitVec 4)
  /-- AXOR (R333): Atomically exclusive-ors the operand into a word. -/
  | axor (t a : BitVec 7) (s : BitVec 3) (r : BitVec 2) (p z : BitVec 1) (l : BitVec 4)
  /-- AXCH (R333): Atomically exchanges a word with the operand. -/
  | axch (t a : BitVec 7) (s : BitVec 3) (r : BitVec 2) (p z : BitVec 1) (l : BitVec 4)
  /-- ACAS (R337): Atomically compares a word with cmp and stores new on a match, returning the old value into the cmp register. -/
  | acas (t a : BitVec 7) (s : BitVec 3) (r : BitVec 2) (p z : BitVec 1) (l : BitVec 4)
  /-- AFADD (R336): Atomically adds an FP32 operand to a word with absent handling and one rounding. -/
  | afadd (t a : BitVec 7) (s : BitVec 3) (r : BitVec 2) (p z : BitVec 1) (l : BitVec 4)
  /-- AMSG (R339): Sends a 56-byte active message to a handler queue of a device in the domain and later receives its status. -/
  | amsg (t b : BitVec 7) (l : BitVec 4)
  /-- AND (R340): Writes the bitwise and of two registers. -/
  | and (d a b : BitVec 7)
  /-- ANDI (R340): Writes the bitwise and of a register and a zero-extended immediate. -/
  | andi (d a : BitVec 7) (i : BitVec 11)
  /-- BAR (R342): Arrives at a named barrier of the crew and waits for the phase to complete. -/
  | bar (c : BitVec 5) (n : BitVec 4)
  /-- BARA (R342): Arrives at a named barrier of the crew without waiting. -/
  | bara (c : BitVec 5) (n : BitVec 4)
  /-- BFI (R344): Inserts a bit field of a register into the destination. -/
  | bfi (d a b : BitVec 7)
  /-- BFX (R344): Extracts a bit field, zero- or sign-extended. -/
  | bfx (d a b : BitVec 7) (s : BitVec 1)
  /-- BRA (R346): Branches every slice of the party unconditionally. -/
  | bra (o : BitVec 18)
  /-- BRA_Z (R346): Branches each slice whose uniform condition reads zero. -/
  | braZ (c : BitVec 7) (o : BitVec 18)
  /-- BRC (R347): Branches per lane, pushing a PATH entry on a mixed condition. -/
  | brc (c : BitVec 7) (o : BitVec 18)
  /-- CALL (R348): Writes the return address to a link pair and branches every slice. -/
  | call (c : BitVec 7) (o : BitVec 18)
  /-- CBT (R350): Loads the gang's palette register from memory. -/
  | cbt (a : BitVec 7) (l : BitVec 4)
  /-- CBT_REG (R350): Loads the gang's palette register from registers. -/
  | cbtReg (b : BitVec 7) (l : BitVec 4)
  /-- CFLUSH (R353): Writes back and invalidates the lines of the thread's own synonym. -/
  | cflush (a : BitVec 7)
  /-- CLZ (R354): Counts leading or trailing zero bits. -/
  | clz (d a : BitVec 7) (z : BitVec 1)
  /-- COAL (R355): Replaces absent elements by the elements of a second operand. -/
  | coal (d a b : BitVec 7) (x : BitVec 1)
  /-- CVT (R358): Converts elements between the two FMT formats through the conversion queue. -/
  | cvt (d a : BitVec 7) (z v : BitVec 1) (l : BitVec 4)
  /-- DMMA (R360): Issues an FP64 digit-mode product into one canvas quadrant. -/
  | dmma (t a b : BitVec 7) (l : BitVec 4)
  /-- DOT8 (R362): Accumulates a packed dot product of four 8-bit elements. -/
  | dot8 (d a b : BitVec 7) (f : BitVec 2)
  /-- DOT4 (R362): Accumulates a packed dot product of eight INT4 elements. -/
  | dot4 (d a b : BitVec 7) (f : BitVec 2)
  /-- DQT (R364): Dequantises a group of codes under block and tensor scales. -/
  | dqt (d a b : BitVec 7) (l : BitVec 4)
  /-- ERET (R365): Leaves the fault handler, restoring saved state and resuming at EPC. -/
  | eret
  /-- ERET_ABANDON (R365): Leaves the fault handler by abandoning the crew. -/
  | eretAbandon
  /-- EXIT (R366): Terminates the active lanes, or ends the sequencer role once its matrix work has completed. -/
  | exit
  /-- FADD (R368): Adds floating-point elements with one rounding. -/
  | fadd (d a b : BitVec 7) (p : BitVec 2)
  /-- FSUB (R368): Subtracts floating-point elements with one rounding. -/
  | fsub (d a b : BitVec 7) (p : BitVec 2)
  /-- FMUL (R368): Multiplies floating-point elements with one rounding. -/
  | fmul (d a b : BitVec 7) (p : BitVec 2)
  /-- FFMA (R368): Fused multiply-add of floating-point elements with d as addend. -/
  | ffma (d a b : BitVec 7) (p : BitVec 2)
  /-- FMIN (R369): Writes the lesser floating-point element. -/
  | fmin (d a b : BitVec 7) (p : BitVec 2)
  /-- FMAX (R369): Writes the greater floating-point element. -/
  | fmax (d a b : BitVec 7) (p : BitVec 2)
  /-- FCMP (R370): Compares two floating-point values and writes 1 or 0. -/
  | fcmp (d a b : BitVec 7) (x : BitVec 1) (c : BitVec 3)
  /-- FRCP (R372): Computes the reciprocal through the special-function queue. -/
  | frcp (d a : BitVec 7) (k : BitVec 1) (l : BitVec 4)
  /-- FRSQ (R372): Computes the reciprocal square root through the special-function queue. -/
  | frsq (d a : BitVec 7) (k : BitVec 1) (l : BitVec 4)
  /-- FSQRT (R372): Computes the square root through the special-function queue. -/
  | fsqrt (d a : BitVec 7) (k : BitVec 1) (l : BitVec 4)
  /-- FEXP2 (R372): Computes 2 to the power x through the special-function queue. -/
  | fexp2 (d a : BitVec 7) (k : BitVec 1) (l : BitVec 4)
  /-- FLOG2 (R372): Computes log2 x through the special-function queue. -/
  | flog2 (d a : BitVec 7) (k : BitVec 1) (l : BitVec 4)
  /-- FSIN (R372): Computes the sine through the special-function queue. -/
  | fsin (d a : BitVec 7) (k : BitVec 1) (l : BitVec 4)
  /-- FCOS (R372): Computes the cosine through the special-function queue. -/
  | fcos (d a : BitVec 7) (k : BitVec 1) (l : BitVec 4)
  /-- FTANH (R372): Computes the hyperbolic tangent through the special-function queue. -/
  | ftanh (d a : BitVec 7) (k : BitVec 1) (l : BitVec 4)
  /-- FENCE (R374): Orders the thread's accesses at a scope without making one. -/
  | fence (s : BitVec 3) (r : BitVec 2)
  /-- FMT (R375): Writes the FMT register of every slice of the party from an immediate. -/
  | fmt (i : BitVec 16)
  /-- GRPL (R377): Makes one GRAPH replay command for the cluster's BTE from registers. -/
  | grpl (t a b : BitVec 7) (l : BitVec 4)
  /-- IADD (R379): Adds two integers with wrap, saturation or 64-bit width. -/
  | iadd (d a b : BitVec 7) (f : BitVec 4)
  /-- ISUB (R379): Subtracts two integers with wrap, saturation or 64-bit width. -/
  | isub (d a b : BitVec 7) (f : BitVec 4)
  /-- IMUL (R379): Multiplies two integers with wrap or saturation. -/
  | imul (d a b : BitVec 7) (f : BitVec 4)
  /-- IMULH (R379): Writes the high word of an integer product. -/
  | imulh (d a b : BitVec 7) (f : BitVec 4)
  /-- IMAD (R379): Multiplies two integers and adds d. -/
  | imad (d a b : BitVec 7) (f : BitVec 4)
  /-- IMIN (R379): Writes the lesser of two integers. -/
  | imin (d a b : BitVec 7) (f : BitVec 4)
  /-- IMAX (R379): Writes the greater of two integers. -/
  | imax (d a b : BitVec 7) (f : BitVec 4)
  /-- IADDI (R380): Adds a sign-extended immediate. -/
  | iaddi (d a : BitVec 7) (i : BitVec 11)
  /-- ICMP (R381): Compares two integers and writes 1 or 0, optionally honouring absent. -/
  | icmp (d a b : BitVec 7) (x : BitVec 1) (c : BitVec 3)
  /-- JDEC (R382): Decrements a join counter and pushes its record when the counter reaches zero. -/
  | jdec (t a : BitVec 7) (s : BitVec 3) (r : BitVec 2) (p z : BitVec 1) (l : BitVec 4)
  /-- JOIN (R383): Pops the reconvergence stack. -/
  | join
  /-- LD (R385): Loads a word. -/
  | ld (t a o : BitVec 7) (l : BitVec 4)
  /-- LDW (R385): Loads a double into a pair. -/
  | ldw (t a o : BitVec 7) (l : BitVec 4)
  /-- LDQ (R385): Loads a quad. -/
  | ldq (t a o : BitVec 7) (l : BitVec 4)
  /-- LDA (R386): Performs a strong load at its scope and order. -/
  | lda (t a : BitVec 7) (s : BitVec 3) (r w : BitVec 1) (l : BitVec 4)
  /-- LDX (R387): Performs an indexed load typed by B_FMT. -/
  | ldx (t a b : BitVec 7) (l : BitVec 4)
  /-- LEA (R388): Forms a 64-bit address from a pair and a scaled index. -/
  | lea (d a b : BitVec 7) (u : BitVec 1) (s : BitVec 3)
  /-- LOOP (R390): Starts a counted loop body from the loop buffer. -/
  | loop (c : BitVec 7) (n : BitVec 8)
  /-- LUI (R391): Loads an immediate shifted left by 14. -/
  | lui (d : BitVec 7) (i : BitVec 18)
  /-- MAPF (R394): Maps first-touch pages from the device pools and writes a status per lane. -/
  | mapf (d a : BitVec 7)
  /-- MCRD (R396): Requests a multicast of lines into core scratchpads of the cluster. -/
  | mcrd (t a b : BitVec 7)
  /-- MFS (R398): Reads a special register. -/
  | mfs (d : BitVec 7) (n : BitVec 5)
  /-- MTS (R398): Writes a special register. -/
  | mts (a : BitVec 7) (n : BitVec 5)
  /-- MKAB (R399): Marks elements absent under a bit mask. -/
  | mkab (d a b : BitVec 7) (v x : BitVec 1)
  /-- MON (R401): Reads a location strongly and arms the slice's monitor. -/
  | mon (t a : BitVec 7) (s : BitVec 3) (r w : BitVec 1) (l : BitVec 4)
  /-- MWAIT (R402): Waits for an event on the slice's monitor and writes its code. -/
  | mwait (d a : BitVec 7)
  /-- NOP (R403): Occupies one issue slot with no effect. -/
  | nop
  /-- OR (R404): Writes the bitwise or of two registers. -/
  | or (d a b : BitVec 7)
  /-- ORI (R404): Writes the bitwise or of a register and a zero-extended immediate. -/
  | ori (d a : BitVec 7) (i : BitVec 11)
  /-- PACK (R405): Interleaves halves of two registers' elements. -/
  | pack (d a b : BitVec 7) (k h : BitVec 1)
  /-- POPC (R406): Counts set bits. -/
  | popc (d a : BitVec 7)
  /-- PROM (R407): Promotes earlier releases on a location without changing it. -/
  | prom (a : BitVec 7) (s : BitVec 3) (r : BitVec 2)
  /-- QADJ_INJECTED (R317): Adds a signed delta to the job entry's INJECTED count. -/
  | qadjInjected (d a : BitVec 7)
  /-- QADJ_CONSUMED (R317): Adds a signed delta to the job entry's CONSUMED count. -/
  | qadjConsumed (d a : BitVec 7)
  /-- QADJ_CLEAR_LOST (R317): Sets the job entry's LOST count to zero. -/
  | qadjClearLost (d a : BitVec 7)
  /-- QADJ_QUERY_TO_LOST (R317): Moves every QUERY message of the job issued from this die to LOST. -/
  | qadjQueryToLost (d a : BitVec 7)
  /-- QBIND (R410): Binds a queue register of the gang to a port queue. -/
  | qbind (p q : BitVec 3)
  /-- QBIND_UN (R410): Removes the binding of a queue register. -/
  | qbindUn (q : BitVec 3)
  /-- QNT (R413): Quantises one block per lane under a computed scale. -/
  | qnt (d a : BitVec 7) (l : BitVec 4)
  /-- QNT_FIX (R413): Quantises one block per lane under a supplied scale. -/
  | qntFix (d a : BitVec 7) (l : BitVec 4)
  /-- QNT_HEALTH (R413): Reads and clears the gang's scale-health counters. -/
  | qntHealth (d : BitVec 7) (l : BitVec 4)
  /-- QSTAT (R414): Returns a snapshot of a port queue's fill and room. -/
  | qstat (d : BitVec 7) (n : BitVec 3)
  /-- QUIET (R316): Waits for the proof wave to decide a job quiet and returns its status. -/
  | quiet (d a b : BitVec 7) (l : BitVec 4)
  /-- RCP (R416): Pushes a RECONV entry naming the join address. -/
  | rcp (o : BitVec 18)
  /-- RDX (R418): Reduces a value over the party's active lanes. -/
  | rdx (d a : BitVec 7) (f : BitVec 4)
  /-- SCAN (R418): Computes an inclusive or exclusive prefix over the party's active lanes. -/
  | scan (d a : BitVec 7) (e : BitVec 1) (f : BitVec 4)
  /-- REGANG (R26): Waits at a gathering point and merges the gang's parties. -/
  | regang
  /-- RET (R420): Returns through a link pair. -/
  | ret (a : BitVec 7)
  /-- RPLY (R421): Replays the party's parked accesses. -/
  | rply
  /-- SEL (R422): Selects one of two words by the condition in d. -/
  | sel (d a b : BitVec 7) (v : BitVec 1)
  /-- SETX (R423): Sets IDX0 or IDX1 of every slice of the party. -/
  | setx (a : BitVec 7) (w : BitVec 1) (o : BitVec 9)
  /-- SHFL (R424): Reads a value from another lane of the gang. -/
  | shfl (d a b : BitVec 7) (m : BitVec 2)
  /-- SHL (R425): Shifts left by a register count. -/
  | shl (d a b : BitVec 7)
  /-- SHR (R425): Shifts right logically by a register count. -/
  | shr (d a b : BitVec 7)
  /-- SHLI (R425): Shifts left by an immediate count. -/
  | shli (d a : BitVec 7) (s : BitVec 5)
  /-- SHRI (R425): Shifts right logically by an immediate count. -/
  | shri (d a : BitVec 7) (s : BitVec 5)
  /-- SRA (R428): Shifts right arithmetically. -/
  | sra (d a b : BitVec 7)
  /-- SPAWN (R426): Reads continuation records and pushes them into scheduler queues. -/
  | spawn (a : BitVec 7)
  /-- SPCFG (R427): Grows or shrinks a die's chip scratchpad. -/
  | spcfg (o z : BitVec 1) (w : BitVec 4)
  /-- ST (R430): Stores a word. -/
  | st (t a o : BitVec 7)
  /-- STW (R430): Stores a double from a pair. -/
  | stw (t a o : BitVec 7)
  /-- STQ (R430): Stores a quad. -/
  | stq (t a o : BitVec 7)
  /-- STL (R431): Performs a strong store at its scope and order. -/
  | stl (t a : BitVec 7) (s : BitVec 3) (r w : BitVec 1)
  /-- TBND (R432): Computes the worst-case bound of a TMMA control word. -/
  | tbnd (t a : BitVec 7) (l : BitVec 4)
  /-- TCFG (R434): Writes an engine's configuration word. -/
  | tcfg (w : BitVec 1) (e g : BitVec 2) (x : BitVec 1) (n : BitVec 5)
  /-- TCLR (R435): Queues the clearing of a canvas, binding a tag in tag form. -/
  | tclr (c x : BitVec 1) (n : BitVec 5)
  /-- TDRN (R437): Issues the drain of a canvas to memory or a port. -/
  | tdrn (d a : BitVec 7) (x : BitVec 6) (k : BitVec 1) (l : BitVec 4)
  /-- TLBI_PAGE (R439): Drops translations of one page of an ASID. -/
  | tlbiPage (a : BitVec 7)
  /-- TLBI_ASID (R439): Drops translations of one ASID. -/
  | tlbiAsid (a : BitVec 7)
  /-- TLBI_ALL (R439): Drops every translation. -/
  | tlbiAll
  /-- TMMA (R442): Issues a term-engine product of A and B into a canvas. -/
  | tmma (t a b : BitVec 7) (l : BitVec 4)
  /-- TRAP (R443): Enters the handler on purpose with a code. -/
  | trap (i : BitVec 18)
  /-- TSTA (R444): Writes a mask of absent elements. -/
  | tsta (d a : BitVec 7) (v x : BitVec 1)
  /-- TSTG (R446): Stages the B image of the next TMMA on a canvas. -/
  | tstg (t b : BitVec 7)
  /-- TSUB (R447): Submits a task descriptor under the dependence table. -/
  | tsub (t a : BitVec 7) (l : BitVec 4)
  /-- TTBL (R449): Loads palettes into an engine. -/
  | ttbl (t a : BitVec 7)
  /-- UNPK (R451): Widens the low or high half of packed elements. -/
  | unpk (d a : BitVec 7) (b s m : BitVec 1)
  /-- UNPK_CB (R452): Expands codebook indices through the gang's palette register. -/
  | unpkCb (d a b : BitVec 7)
  /-- VOTE (R453): Combines a condition across the party's active lanes. -/
  | vote (d a : BitVec 7) (f : BitVec 4)
  /-- WAITP (R454): Waits until a path counter falls to a threshold. -/
  | waitp (a : BitVec 7) (p : BitVec 3)
  /-- WIN (R455): Sets the register window base of every slice of the party. -/
  | win (i : BitVec 18)
  /-- XCP (R220): Hands a packet from registers to the cluster's BTE and writes a ticket. -/
  | xcp (d a : BitVec 7) (x : BitVec 6) (k : BitVec 1) (l : BitVec 4)
  /-- XCPR (R222): Hands a copy into another gang's registers to the BTE. -/
  | xcpr (d a : BitVec 7) (x : BitVec 6) (k : BitVec 1) (l : BitVec 4)
  /-- XQAP (R223): Starts an engine operation that appends a packet to a shared queue. -/
  | xqap (d a : BitVec 7) (x : BitVec 6) (k : BitVec 1)
  /-- XWAIT (R221): Waits for commands up to a ticket and returns and clears the error word. -/
  | xwait (d a : BitVec 7)
  /-- XWAIT_ALL (R221): Waits for every ticket issued and returns and clears the error word. -/
  | xwaitAll (d : BitVec 7)
  /-- XOR (R458): Writes the bitwise exclusive or of two registers. -/
  | xor (d a b : BitVec 7)
  /-- XORI (R458): Writes the bitwise exclusive or of a register and an immediate. -/
  | xori (d a : BitVec 7) (i : BitVec 11)
  /-- YLD (R459): Gives up the party's turn at issue. -/
  | yld
  /-- LOAD_DATA_ARRIVAL (R67): A long-latency load result arrives and is written to its destination registers or queue. -/
  | loadDataArrival (fl part word : Nat)
  /-- ATOMIC_RETURN (R173): An atomic's old value or acknowledgement returns and its path counter falls in order. -/
  | atomicReturn (fl part : Nat)
  /-- STORE_ACK (R173): A store's performance is acknowledged and its path counter falls in order. -/
  | storeAck (fl part : Nat)
  /-- SFQ_RESULT (R372): A special-function queue result arrives in its destination. -/
  | sfqResult (fl part word : Nat)
  /-- CVQ_RESULT (R358): A conversion-queue result of CVT, QNT or DQT arrives in its destination. -/
  | cvqResult (fl part word : Nat)
  /-- PALETTE_ARRIVAL (R351): A CBT's palette bits arrive in the palette register as one event. -/
  | paletteArrival (fl : Nat)
  /-- XCPR_DATA_ARRIVAL (R222): Words of an XCPR arrive in the target gang's registers and clear their scoreboard bits. -/
  | xcprDataArrival (cluster slot row : Nat)
  /-- HOME_REQUEST (R169): A load, store or atomic request arrives at its home slice and is served or sent on. -/
  | homeRequest (fl part : Nat)
  /-- TRANSLATION_REQUEST (R170): A home miss reaches its translation home, is translated and forwarded to the holding controller. -/
  | translationRequest (fl part : Nat)
  /-- FILL_RETURN (R294): Data read from HBM returns to its home and fills the line. -/
  | fillReturn (fill : Nat)
  /-- WRITE_BACK (R184): A dirty line leaves the cache, is translated and converted, and goes to its stripe owner. -/
  | writeBack (asid line : Nat)
  /-- WRITE_BACK_ACK (R294): A stripe owner acknowledges a write-back and the home drops it from its write-back buffer. -/
  | writeBackAck (wb : Nat)
  /-- OWNERSHIP_RELEASE (R198): An engine operation makes its last write to an owned line and held accesses are performed. -/
  | ownershipRelease (owner : Nat)
  /-- FAULT_REPORT (R271): A translation fault returns to the core and the faulting lanes' parts park. -/
  | faultReport (fl part : Nat)
  /-- HANDLER_ENTRY (R272): A party with a pending fault report enters the supervisor handler at an instruction boundary. -/
  | handlerEntry (crew member party : Nat)
  /-- FAULT_LOG_REPLY (R280): A replay of a context that is away completes into the fault log of its save frame. -/
  | faultLogReply (fl part : Nat)
  /-- MCRD_REQUEST_ARRIVAL (R177): A multicast request reaches its server and starts, merges into or late-joins a stream. -/
  | mcrdRequestArrival (fl : Nat)
  /-- MCRD_LINE_SEND (R178): The server reads one line and sends it once along the replication tree. -/
  | mcrdLineSend (stream : Nat)
  /-- MCRD_TAIL_REPLAY (R179): After the last line, missed lines are read afresh and resent to late joiners. -/
  | mcrdTailReplay (stream : Nat)
  /-- MCRD_LINE_DELIVER (R180): A line is written into the named cores and completed MCRDs return. -/
  | mcrdLineDeliver (delivery : Nat)
  /-- SPCFG_COMPLETE (R185): All slices finish draining or releasing ways and the scratchpad size takes its new value. -/
  | spcfgComplete (die : Nat)
  /-- MWAIT_TIMEOUT (R402): A waiting MWAIT's timeout expires and it returns code 3. -/
  | mwaitTimeout (crew member slice : Nat)
  /-- SPURIOUS_WAKE (R206): A monitor wakes spuriously with code 2. -/
  | spuriousWake (crew member slice : Nat)
  /-- YLD_EXPIRE (R459): Thirty-two cycles pass after a YLD and the party is ready again. -/
  | yldExpire (crew member party : Nat)
  /-- QUIET_TIMEOUT (R316): A QUIET's timeout expires and it returns TIMEOUT. -/
  | quietTimeout (crew member party : Nat)
  /-- ENGINE_INSTRUCTION_START (R140): An engine starts the next instruction of its queue once its canvas and operands allow. -/
  | engineInstructionStart (engine pos : Nat)
  /-- TMMA_COMPLETE (R143): A TMMA's last fold is done, tokens are refunded and the completion word is written. -/
  | tmmaComplete (engine pos cycles : Nat)
  /-- DMMA_COMPLETE (R136): A DMMA finishes its 21 cycles and writes its completion word. -/
  | dmmaComplete (engine pos : Nat)
  /-- DRAIN_COMPLETE (R161): A drain finishes writing, clears or releases as asked, and writes its status. -/
  | drainComplete (engine pos : Nat)
  /-- TCLR_COMPLETE (R109): A queued TCLR clears its canvas. -/
  | tclrComplete (engine pos : Nat)
  /-- TSTG_COMPLETE (R446): A TSTG reads its image into the run-ahead buffer and completes. -/
  | tstgComplete (engine pos : Nat)
  /-- TTBL_COMPLETE (R449): A TTBL loads its palettes into the engine and completes. -/
  | ttblComplete (engine pos : Nat)
  /-- TOKEN_ARBITRATION (R258): Each cycle the pool is refilled and pending token requests are granted. -/
  | tokenArbitration
  /-- TOKEN_AGE (R258): A token request reaches TOKEN_AGE cycles and becomes aged. -/
  | tokenAge (easel : Nat)
  /-- RECORD_PUSH (R238): A continuation record enters its queue, spilling to the spill ring if the entries are full. -/
  | recordPush (push : Nat)
  /-- RECORD_POP (R240): A cluster takes the first record it can place and reserves its resources. -/
  | recordPop (cluster : Nat)
  /-- SCHED_AGE (R239): A waiting record's effective priority rises by one after each ageing period. -/
  | schedAge (rec : Nat)
  /-- SKIP_LIMIT (R240): A record reaches SKIP_LIMIT skips and becomes blocking. -/
  | skipLimit (rec : Nat)
  /-- CREW_START (R241): A loaded crew's initial state is complete and all its members start together. -/
  | crewStart (crew : Nat)
  /-- CREW_DONE (R45): Every member of a crew has finished and its completion signals are made and resources released. -/
  | crewDone (crew : Nat)
  /-- PREEMPT_REQUEST (R260): A supervisor write to the pre-emption request double asks to pre-empt a crew. -/
  | preemptRequest (crew : Nat)
  /-- PREEMPT_WAIT (R260): A priority-3 record waits PREEMPT_WAIT periods unplaced and a victim crew is chosen. -/
  | preemptWait (rec : Nat)
  /-- PREEMPT_STOPPED (R261): A stopping crew meets R43, its easel context is saved and the banks rotate. -/
  | preemptStopped (crew : Nat)
  /-- CONTEXT_SAVED (R261): A context in the STREAM bank finishes writing to its frame and becomes SAVED. -/
  | contextSaved (crew : Nat)
  /-- STANDBY_RESUME (R45): A STANDBY crew is rotated back to RUNNING. -/
  | standbyResume (crew : Nat)
  /-- PACKET_ACCEPT (R234): A BTE accepts a packet into its lowest free context slot. -/
  | packetAccept (cluster : Nat)
  /-- QUEUE_LOOK (R217): The BTE reads the next slot of a served queue and consumes it if its stamp matches. -/
  | queueLook (cluster entry : Nat)
  /-- COPY (R224): Transform 0x00 copies a tile, or moves crumb records as such. -/
  | copy (cluster slot : Nat)
  /-- TRANSPOSE (R224): Transform 0x01 copies a tile transposed. -/
  | transpose (cluster slot : Nat)
  /-- CONVERT (R224): Transform 0x02 converts a tile between formats. -/
  | convert (cluster slot : Nat)
  /-- CONVERT_TRANSPOSE (R224): Transform 0x03 converts and transposes a tile. -/
  | convertTranspose (cluster slot : Nat)
  /-- QUANTISE (R224): Transform 0x04 quantises a tile under a tile scale. -/
  | quantise (cluster slot : Nat)
  /-- QUANTISE_TRANSPOSE (R224): Transform 0x05 quantises and transposes a tile. -/
  | quantiseTranspose (cluster slot : Nat)
  /-- CRUMB_ENCODE (R226): Transform 0x06 encodes tile rows into crumb records. -/
  | crumbEncode (cluster slot : Nat)
  /-- CRUMB_DECODE (R226): Transform 0x07 decodes crumb records into dense elements. -/
  | crumbDecode (cluster slot : Nat)
  /-- PALETTE_EXPAND (R224): Transform 0x08 expands CB3 codes through palettes. -/
  | paletteExpand (cluster slot : Nat)
  /-- GATHER (R224): Transform 0x09 reads tile rows from indexed source rows. -/
  | gather (cluster slot : Nat)
  /-- SCATTER (R224): Transform 0x0A writes tile rows to indexed destination rows. -/
  | scatter (cluster slot : Nat)
  /-- SCALE_MAX (R227): Transform 0x0B runs the scale-max phase of an exact reduction. -/
  | scaleMax (cluster slot : Nat)
  /-- ALIGNED_INTEGER_SUM (R227): Transform 0x0C runs the aligned-integer sum phase of an exact reduction. -/
  | alignedIntegerSum (cluster slot : Nat)
  /-- FILL (R224): Transform 0x0D fills a tile with an element value. -/
  | fill (cluster slot : Nat)
  /-- LAUNCH (R246): A LAUNCH command pushes its tasks and tracks them in a launch slot. -/
  | launch (cluster slot : Nat)
  /-- GRAPH (R253): A GRAPH command takes a replay number for a graph object. -/
  | graph (cluster slot : Nat)
  /-- WAITVAL (R213): A WAITVAL command waits until a masked double meets a condition. -/
  | waitval (cluster slot : Nat)
  /-- SIGNAL (R213): A SIGNAL command stores or adds a value to a double with a release. -/
  | signal (cluster slot : Nat)
  /-- WAITVAL_READ (R213): A waiting WAITVAL rereads its double after a write or 4,096 cycles. -/
  | waitvalRead (cluster slot : Nat)
  /-- WAITVAL_TIMEOUT (R213): A WAITVAL's timeout expires and it completes with TIMEOUT. -/
  | waitvalTimeout (cluster slot : Nat)
  /-- LAUNCH_SLOT_GRANT (R246): A waiting LAUNCH or GRAPH command obtains a free launch slot. -/
  | launchSlotGrant (cluster slot : Nat)
  /-- GRAPH_BUFFER_READY (R253): FINISHED reaches n − 1, so the replay copies and patches its parameter buffer. -/
  | graphBufferReady (cluster slot : Nat)
  /-- GRAPH_NODES_START (R253): FINISHED reaches n, so the replay resets WORK and pushes its root nodes. -/
  | graphNodesStart (cluster slot : Nat)
  /-- XQAP_APPEND (R223): An XQAP operation's claimed slot becomes free, it writes the packet and stamp, and it completes. -/
  | xqapAppend (cluster slot : Nat)
  /-- REDUCTION_CONTRIBUTION (R227): A rank's contribution arrives in an exchange buffer and may release a waiting reduction command. -/
  | reductionContribution (cluster slot rank : Nat)
  /-- BTE_SLOT_RESUME (R234): A parked BTE slot's page becomes available and the command resumes. -/
  | bteSlotResume (cluster slot : Nat)
  /-- COMPLETION_RECORD_WRITE (R231): A completing command's record is written to its ring when room allows and WR_INDEX rises. -/
  | completionRecordWrite (cluster slot : Nat)
  /-- RING_COAL_COUNT (R232): A ring's counted records reach COAL_COUNT and its interrupt is raised. -/
  | ringCoalCount (ring : Nat)
  /-- RING_COAL_TIME (R232): COAL_TIME passes after a ring's first counted record and its interrupt is raised. -/
  | ringCoalTime (ring : Nat)
  /-- EVENT_RECORD_DRAIN (R233): A buffered device event record is written to ring 63 when it is enabled and has room. -/
  | eventRecordDrain
  /-- RING_RD_INDEX_WRITE (R231): A consumer writes a ring's RD_INDEX, freeing room for waiting records. -/
  | ringRdIndexWrite (ring : Nat) (value : BitVec 64)
  /-- MIGRATION_START (R282): A write of START checks a migration request and begins COPY or ABORTED. -/
  | migrationStart (unit : Nat)
  /-- MIGRATION_COPY_DONE (R283): The first copy pass of a migration ends. -/
  | migrationCopyDone (unit ecc : Nat)
  /-- MIGRATION_ROUND_DONE (R283): A migration round ends and the unit stays in ROUND or moves to FREEZE. -/
  | migrationRoundDone (unit ecc : Nat)
  /-- MIGRATION_FREEZE (R283): Ownership of the page's lines is released and the freeze begins. -/
  | migrationFreeze (unit : Nat)
  /-- MIGRATION_DONE (R283): The freeze ends with the leaf pointing at the new frame and an EVENT 3 record is written. -/
  | migrationDone (unit : Nat)
  /-- FAULT_RESUME (R278): A write of the fault-resume double without ABORT replays the named context's waiting accesses. -/
  | faultResume (context : Nat)
  /-- FAULT_RESUME_ABORT (R278): A write of the fault-resume double with ABORT abandons or fails the named context. -/
  | faultResumeAbort (context : Nat)
  /-- TLBI_REQUEST_PAGE (R269): A management-window TLBI request drops the translations of one page. -/
  | tlbiRequestPage (asid va : Nat)
  /-- TLBI_REQUEST_ASID (R269): A management-window TLBI request drops the translations of one ASID. -/
  | tlbiRequestAsid (asid : Nat)
  /-- TLBI_REQUEST_ALL (R269): A management-window TLBI request drops every translation. -/
  | tlbiRequestAll
  /-- SEMAPHORE_TAKE (R320): A write of 1 takes a free semaphore for the writer's port. -/
  | semaphoreTake (sem owner : Nat)
  /-- SEMAPHORE_FREE (R320): A write of 0 frees a semaphore held by the writer's port. -/
  | semaphoreFree (sem owner : Nat)
  /-- QUEUE_TABLE_WRITE (R215): A write to a BTE queue-table entry enables a queue after checking its descriptor. -/
  | queueTableWrite (cluster entry : Nat) (value : BitVec 64)
  /-- DOORBELL (R215): A write to a queue's doorbell asks the BTE to look at the queue. -/
  | doorbell (cluster entry : Nat)
  /-- JOB_ENTRY_WRITE (R313): A write enabling a job entry at the root starts the job's first wave. -/
  | jobEntryWrite (die entry : Nat) (value : BitVec 64)
  /-- DROPPED_CLEAR (R233): A write of zero to the device event backlog double clears DROPPED. -/
  | droppedClear
  /-- COUNTER_CLEAR (R330): A write of zero to a stack or port counter double clears it. -/
  | counterClear (offset : Nat)
  /-- ATTESTATION_START (R326): A write of START requests an attestation report, or sets PENDING during a build. -/
  | attestationStart
  /-- ATTESTATION_REPORT_DONE (R326): A signed report is complete, DONE is set and SEQ rises. -/
  | attestationReportDone
  /-- TELEMETRY_REFRESH (R329): The telemetry doubles are refreshed. -/
  | telemetryRefresh
  /-- REGISTER_WRITE (R328): A management-window write to a register with no behaviour of its own stores its value. -/
  | registerWrite (offset : Nat) (value : BitVec 64)
  /-- MESSAGE_INJECT (R311): A port first transmits a fabric message and counts it injected. -/
  | messageInject (msg : Nat)
  /-- MESSAGE_RESPONSE (R305): A fabric response arrives and completes its access. -/
  | messageResponse (msg code : Nat) (payload : List (BitVec 64))
  /-- INBOUND_FABRIC_REQUEST (R304): A fabric request arrives and is performed through an inbound window or refused. -/
  | inboundFabricRequest (origin tag kind offset size job : Nat) (payload : List (BitVec 64))
  /-- AMSG_RECEIVE (R309): An active message arrives and is written to a handler ring and its task pushed, or refused. -/
  | amsgReceive (origin tag job : Nat) (payload : List (BitVec 64))
  /-- RESP_TIMEOUT (R315): A message has no response after RESP_TIMEOUT and enters QUERY. -/
  | respTimeout (msg : Nat)
  /-- QUERY_WAIT (R315): A query has no answer within QUERY_WAIT and is sent again. -/
  | queryWait (msg : Nat)
  /-- QUERY_RECEIVE (R315): A target receives a query and answers PERFORMED or NOT PERFORMED. -/
  | queryReceive (source tag : Nat)
  /-- QUERY_ANSWER (R315): A query answer arrives and the message becomes DELIVERED or LOST. -/
  | queryAnswer (msg performed : Nat)
  /-- WAVE_START (R313): One PERIOD after the previous wave, the root starts a new proof wave. -/
  | waveStart (job : Nat)
  /-- DOWN (R313): A node receives DOWN, reads its job entries and forwards it to its children. -/
  | down (job wave pass : Nat)
  /-- UP (R313): A node receives a child's UP and, with all replies in, sends its sums upward. -/
  | up (job wave pass child : Nat) (payload : List (BitVec 64))
  /-- DECIDE (R314): A node receives DECIDE, sets DECIDED and wakes waiting QUIETs. -/
  | decide (job wave lost : Nat)
  /-- PORT_RETRAIN (R315): A UALink port's link fails and retrains. -/
  | portRetrain (port : Nat)
  /-- RETRAIN_LIMIT (R315): A port fails RETRAIN_LIMIT retrains, goes down and its unacknowledged messages enter QUERY. -/
  | retrainLimit (port : Nat)
  /-- HOST_REQUEST (R319): A host request through BAR2 or CXL.mem is performed through an inbound window at its home. -/
  | hostRequest (port kind offset size : Nat) (payload : List (BitVec 64))
  /-- HOST_HOT_RESET (R323): A PCIe hot reset resets one host link and frees its semaphores. -/
  | hostHotReset (port : Nat)
  /-- HOST_LINK_LOSS (R320): A host port loses its link and its semaphores are freed. -/
  | hostLinkLoss (port : Nat)
  /-- POWER_ON_RESET (R323): Power-on reset puts the device in RESET. -/
  | powerOnReset
  /-- RESET (R323): A write of 1 to RESET in the device status double resets the device. -/
  | reset
  /-- RESET_DONE (R323): RESET work ends, CLOCK starts and the device enters BOOT. -/
  | resetDone
  /-- BOOT_VERIFY (R325): The boot ROM finishes verifying images and enters TRAINING or RECOVERY. -/
  | bootVerify
  /-- TRAINING_DONE (R323): HBM, bridge and mesh training end and the device enters READY. -/
  | trainingDone (failed : Nat)
  /-- BRIDGE_RETRY_FAIL (R16): A bridge segment fails its retry limit. -/
  | bridgeRetryFail (segment : Nat)
  /-- INTERNAL_PARITY_ERROR (R324): An internal parity error in a scheduler or controller table occurs. -/
  | internalParityError
  /-- CONTROLLER_FAILURE (R296): An HBM controller reports an internal failure. -/
  | controllerFailure (stack : Nat)
  /-- UE_LIMIT (R296): UE_LIMIT uncorrectable events on one stack fall within one UE_WINDOW. -/
  | ueLimit (stack : Nat)
  /-- THERMAL_SENSOR_UPDATE (R298): A stack sensor reading crosses a threshold and refresh, throttling or shutdown changes. -/
  | thermalSensorUpdate (sensor celsius : Nat)
  /-- REFRESH (R299): A stack's periodic refresh runs. -/
  | refresh (stack : Nat)
  /-- CALIBRATION (R299): A periodic interface calibration withholds commands for at most 1 µs. -/
  | calibration (stack : Nat)
  /-- SCRUB (R299): The scrubber reads a line, corrects or reconstructs it, and checks stripe parity. -/
  | scrub (stack line ecc : Nat)
  /-- ACTIVATE (R290): The controller activates the segments of a row named by a mask. -/
  | activate (stack bank row mask stream : Nat)
  /-- SUPPLEMENTARY_ACTIVATE (R290): The controller adds segments to an open row before a column access. -/
  | supplementaryActivate (stack bank row mask : Nat)
  /-- PRECHARGE (R290): The controller closes all open segments of a row. -/
  | precharge (stack bank row : Nat)
  /-- SELECT (R291): A multi-subarray stream names the driving subarray. -/
  | select (stack bank subarray : Nat)
  /-- HBM_READ (R295): A controller reads a line, corrects it or has it reconstructed, or marks it undeliverable. -/
  | hbmRead (fill ecc : Nat)
  /-- STRIPE_WRITE (R292): The stripe owner applies gathered write-backs under the stripe lock and updates parity. -/
  | stripeWrite (stripe : Nat)
  /-- PARITY_DELTA (R292): A data controller's old-xor-new delta reaches the stripe owner. -/
  | parityDelta (stripe pos : Nat)
  /-- GATHER_WAIT (R293): A write-back's GATHER_WAIT expires and its stripe update is applied. -/
  | gatherWait (stripe : Nat)
  /-- LINK_LEVEL_REPLAY (R319): A UALink or host link detects a transmission error and replays at the link layer, counting the event in REPLAY. -/
  | linkLevelReplay (port : Nat)
  /-- PORT_TRAINING (R302): A UALink port finishes training, at full or slow rate or on two lanes, after ACCEL_ID is written or at its next training, and comes up. -/
  | portTraining (port lanes : Nat)
  /-- TICKET_WRITE (R221): Two cycles after issue, the ticket of XCP, XCPR or GRPL, or the bound of TBND, is written into the destination register and its scoreboard bit clears. -/
  | ticketWrite (fl part word : Nat)
  deriving DecidableEq, Repr

end Sys2Proof
end

