-- ==== Sys2Proof/Machine/State.lean ====
section
/-! DEFINITION. The state of one SVD-4820 package as plain data: threads, crews, clusters, engines, BTEs, the L2
homes, HBM, translation, the scheduler, the fabric, the host ports and the management window.  Each field names the
rule of spec/ that gives it.  `State.reset` is the device right after power-on reset (14 R323). -/

namespace Sys2Proof.Machine
set_option Elab.async false
open Sys2Proof

/-- Bytes by address: rising addresses, no entry equal to 0, which is what an unlisted byte reads as
(assumption 3). -/
abbrev Memory := List Host.Cell

/-- A fault stops the machine. -/
inductive Fault where
  /-- `exec` was called with an instruction word in a state whose `cur` names no party of a live crew.  `step`
  never does this.  Safe: no run reaches it. -/
  | noIssuer
  deriving DecidableEq, Repr

/-- A refusal: no meaning is given. -/
inductive Refusal where
  /-- Only in `exec`'s arms, for an instruction not yet modelled.  Safe. -/
  | notModelled (mnemonic : String)
  deriving DecidableEq, Repr

/-! ### Threads (02, 03, 11) -/

/-- Cause codes (11 R285). -/
inductive Cause where
  | notPresent | writeProt | execProt | badPte | abandon
  | illegal | priv | regBound | queue | address | align | format | tag | stack | joinPc | regang
  | barCount | barDead | trap | hfault
  deriving DecidableEq, Repr

/-- A reconvergence stack entry (02 R22, R23): a path still to be run, or a join point. -/
structure StackEntry where
  isPath : Bool
  pc   : Double
  mask : BitVec 4
  fmt  : Word
  wb   : Word
  x0   : Word
  x1   : Word
  deriving DecidableEq, Repr

/-- A loop record (16 R390). -/
structure LoopRec where
  start : Double
  last  : Double
  k     : Nat
  buf   : Table Word                -- words of its body already fetched, by address
  inH   : Bool                      -- begun in handler state, so its body is the handler's
  deriving DecidableEq, Repr

/-- A register the scoreboard tracks (03 R66, 15 R351). -/
inductive RegName where
  | v (i : Nat) | s (i : Nat) | g (i : Nat) | h (i : Nat) | palette
  /-- an engine port queue (03 R53, R66) -/
  | port (p : Nat)
  deriving DecidableEq, Repr

/-- One scoreboard bit: the register, the instruction in flight that will write it (its flight number), and how many
instructions of the slice are still in that instruction's lookahead window (03 R66). -/
structure Pend where
  reg : RegName
  fl  : Nat
  win : Nat
  deriving DecidableEq, Repr

/-- The block a monitor watches (08 R205): a global line of an ASID, or a local block. -/
structure Block where
  space : Nat      -- 0 global, 1 + SPACE for a local space
  owner : Nat      -- ASID for a global block; the holder (crew, die or lane) of a local one
  line  : Nat      -- address div 128
  deriving DecidableEq, Repr

/-- A slice's monitor (08 R205, R206): armed block, when it was armed, and the event that has occurred since. -/
structure Monitor where
  block   : Block
  armedAt : Nat
  event   : Option Nat
  deriving DecidableEq, Repr

/-- Why a slice is waiting inside an instruction that keeps something of its wait (the others just issue again). -/
inductive Wait where
  /-- not waiting -/
  | none
  /-- at a REGANG (02 R26) -/
  | regang
  /-- at a BAR on a barrier whose phase it has arrived in (02 R33) -/
  | bar (n : Nat)
  /-- at an MWAIT that started at a given CLOCK with a timeout in cycles, 0 for none (17 R402) -/
  | mwait (since : Nat) (timeout : Nat)
  /-- after a YLD, until the given CLOCK (18 R459) -/
  | yld (til : Nat)
  /-- at a QUIET: job, the WAVE read at the start, start CLOCK, timeout in cycles (13 R316) -/
  | quiet (job : Nat) (w0 : Nat) (since : Nat) (timeout : Nat)
  /-- at an SPCFG whose sequence is not complete (17 R427) -/
  | spcfg (die : Nat)
  /-- at a MAPF whose next lane waits: the statuses of the lanes done (17 R394, 11 R480) -/
  | mapf (done : List Nat)
  /-- a trap raised by another thread's step, still to be taken at the waiting instruction (02 R26, R34) -/
  | trap (c : Cause)
  deriving DecidableEq, Repr

/-- The bindings under which a queue read or write waits (17 R410): those of its gang when it began to, while the party
stands at the same instruction and has issued none since. -/
structure Bound where
  stamp   : Nat
  pc      : Double
  handler : Bool
  ports   : List (Option Nat)
  deriving DecidableEq, Repr

/-- A slice: four lanes with one pc, mask and reconvergence stack (02 R21, R27), and its special registers
(03 R55). -/
structure Slice where
  pc     : Double
  mask   : BitVec 4
  party  : Nat
  finished : Bool
  stack  : List StackEntry          -- top first, at most 32 (02 R22)
  loops  : List LoopRec             -- innermost first, at most three (16 R390)
  fmt    : Word
  wb     : Word
  x0     : Word
  x1     : Word
  lc     : List Word                -- LC0 to LC2
  tstate : Word
  tcause : Word
  tmask  : Double
  epc    : Double
  savedFmt : Word                   -- what HANDLER entry saves beside TSTATE (11 R272)
  savedWb  : Word
  savedX0  : Word
  savedX1  : Word
  savedDepth : Nat
  pend   : List Pend
  wait   : Wait
  savedWait : Wait                  -- a wait at a BAR that handler entry interrupted (15 R342)
  monitor : Option Monitor
  wake   : Option Nat               -- what an MWAIT or QUIET already waiting will return
  spur   : Option Nat               -- CLOCK of the monitor's last spurious wake (08 R206)
  stamp  : Nat                      -- issue count at the last issue of its party (10 R256)
  bound  : Option Bound             -- what a waiting queue read or write keeps (17 R410)
  deriving DecidableEq, Repr

/-- A lane (02 R21): vector registers (32 bits) of a gang, or scalar registers (64 bits) of the sequencer role; the
handler registers of its physical slice while it is in handler state (11 R273); TADDR; lane-private memory
(07 R164). -/
structure Lane where
  v     : Table Word
  s     : Table Double
  h     : Table Word
  hs    : Table Double
  taddr : Double
  priv  : Memory
  deriving DecidableEq, Repr

/-- One counted instruction of an in-flight path (07 R173): its flight number and whether it has returned. -/
structure Counted where
  fl  : Nat
  ret : Bool
  deriving DecidableEq, Repr

/-- Scale-health counters (04 R100), each stopping at 2^32 − 1. -/
structure Health where
  sat     : Nat
  ufl     : Nat
  invalid : Nat
  deriving DecidableEq, Repr

/-- A gang, or (with `isSeq`) the sequencer role of a crew, which is one slice with one lane (02 R24, R27, R30;
03 R59). -/
structure Gang where
  isSeq  : Bool
  width  : Nat                      -- 16, 32 or 64 lanes; 1 for the sequencer role
  core   : Nat                      -- core in cluster, 0 to 15
  group  : Nat                      -- first physical slice of its aligned group (02 R24)
  allot  : Nat                      -- registers per lane (02 R42)
  index  : Nat                      -- gang's index within its role (02 R38)
  kind   : Nat                      -- KIND of its role (02 R36, R37)
  codePtr : Double
  slices : List Slice
  lanes  : List Lane
  g      : List Word                -- g0 to g3 of a gang
  gs     : List Double              -- g0 to g3 of the sequencer role
  paths  : List (List Counted)      -- the six in-flight paths; IFC_p is the length of path p (07 R172, R173)
  qbind  : List (Option Nat)        -- q0 to q7 (17 R409)
  palette : Quad                    -- 15 CBT
  health : Health
  ticket : Word                     -- ticket counter (09 R221)
  err    : Word                     -- error word (09 R221)
  tickets : List Nat                -- tickets issued and not completed
  nextParty : Nat                   -- party numbers not yet used
  holds  : Nat                      -- copies into its registers still in flight (02 R28)
  deriving DecidableEq, Repr

/-- A named barrier (02 R32, R33): the count its phase fixed, participants that have arrived, and the slices of
gangs still arriving that have executed BAR or BARA. -/
structure Barrier where
  count   : Option Nat
  arrived : List Nat
  slices  : List (Nat × Nat)
  deriving DecidableEq, Repr

/-- Crew states (02 R45). -/
inductive CrewState where
  | loading | running | stopping | standby | stream | saved | done
  deriving DecidableEq, Repr

/-- What a crew's finish has to tell beside its join block (13 R310, 10 R248, R253). -/
inductive Origin where
  | plain
  /-- an AMSG handler task: handler entry, source accelerator, its message tag, job (13 R309, R310) -/
  | handler (entry : Nat) (source : Nat) (tag : Nat) (job : Nat)
  /-- a task of a dependence table: die and task number (10 R248) -/
  | task (die : Nat) (id : Nat)
  /-- a node of a graph replay: replay number in the device's list and node (10 R253) -/
  | node (replay : Nat) (node : Nat)
  deriving DecidableEq, Repr

/-- A continuation record: its eight doubles, double 6 as the device set it (10 R237, R238). -/
structure Record where
  d0 : Double
  d1 : Double
  d2 : Double
  d3 : Double
  d4 : Double
  d5 : Double
  d6 : Double
  d7 : Double
  deriving DecidableEq, Repr

/-- What an access does at the place it reaches. -/
inductive AccKind where
  | load | store
  | aadd | amin | amax | aand | aor | axor | axch | acas | afadd
  | jdec | prom | mon | flush | spawn | palette | mcrd | amsg
  /-- a TSUB: its descriptor's address (18 R447) -/
  | tsub
  /-- a FENCE's acquire half still to be met: no access of its own (16 R374) -/
  | fence
  /-- a result of the special-function or conversion queue, or a ticket: no memory access -/
  | result
  deriving DecidableEq, Repr

/-- Where one lane's part of an access stands. -/
inductive PartState where
  /-- on its way to its home, or to the local holder -/
  | sent
  /-- missed at its home; on its way to the translation home (07 R170) -/
  | miss
  /-- translated; the line is being read from HBM (07 R170) -/
  | fill
  /-- sent to another device; message number (13 R305) -/
  | fabric (msg : Nat)
  /-- translation failed; the report is on its way back (11 R271) -/
  | faulted (code : Nat)
  /-- in the core's parked-access table (11 R271) -/
  | parked (code : Nat)
  /-- performed, result on its way back -/
  | performed
  /-- returned -/
  | returned
  deriving DecidableEq, Repr

/-- One lane's part of an access: address, operand data, result. -/
structure Part where
  lane  : Nat
  slice : Nat
  addr  : Double
  size  : Nat                       -- bytes
  fmt   : Word                      -- FMT of its slice at issue
  data  : Quad
  result : Quad
  dst   : List (Nat × RegName)      -- words of the result still to be written, and their registers (03 R67)
  words : Nat                       -- words it pushes when its destination is a queue register (03 R53)
  state : PartState
  deriving DecidableEq, Repr

/-- A fault-log entry of a save frame (11 R280). -/
structure FaultLog where
  context : Nat
  opcode  : Nat
  done    : Bool
  code    : Nat
  dest    : Nat
  size    : Nat
  lanes   : Double
  fl      : Nat
  parts   : List Part               -- answered lanes: results, and the registers they go to
  deriving DecidableEq, Repr

/-- A canvas (05 R109 to R111): mode code, status word, accumulators and counts.  An accumulator that is not listed
holds its mode's empty value (05 R110). -/
structure Canvas where
  mode   : Nat
  status : Nat
  acc    : Table Quad
  count  : Table Nat
  deriving DecidableEq, Repr

/-- What a TSTG staged for the next TMMA of a canvas (18 R446). -/
structure Stage where
  kc     : Nat
  layout : Nat
  cont   : Nat
  fmt    : Word
  image  : Option (List Byte)
  deriving DecidableEq, Repr

/-- A write that reached a crew's SRAM while its context was away (02 R43; 08 R208): 0 lane-private, of a member and a lane,
1 core scratchpad, of a core, or 2 cluster-shared; offset and bytes. -/
structure LateWrite where
  space  : Nat
  member : Nat
  unit   : Nat
  off    : Nat
  data   : List Byte
  deriving DecidableEq, Repr

/-- A crew (02 R30, R45). `id` is its context number (11 R279). -/
structure Crew where
  id      : Nat
  state   : CrewState
  cluster : Nat
  rcd     : Record
  origin  : Origin
  asid    : Nat
  job     : Nat
  launch  : Option Nat
  supervisor : Bool                 -- started by a launch whose ASID is the supervisor's (03 R71)
  hasid   : Word                    -- the ASID register, 0x16 (03 R55; 11 R276)
  feat    : Word
  prio    : Nat
  gangs   : List Gang
  seq     : Option Gang
  barriers : List Barrier           -- sixteen (02 R32)
  coreMem : Table Memory            -- core scratchpad by core (07 R164)
  cluMem  : Table Memory            -- cluster-shared memory: each core's contribution (07 R164, R166)
  ports   : Table (List Word)       -- port queues while the crew is away (06 R148)
  frame   : Option Nat              -- save frame (10 R259)
  log     : List FaultLog
  started : Nat                     -- order of start, for ties of 10 R260
  age     : Nat                     -- age its record had in its queue list (10 R261)
  queue   : Nat                     -- the queue its record was taken from (10 R261)
  victimOf : Option Nat             -- record a pre-emption admits (10 R260)
  abandoned : Bool                  -- stopped by 11 R287
  named  : List (Nat × Nat)         -- canvases its fixed-form instructions have named: engine and canvas (10 R259)
  canvases : List (Nat × Nat × Canvas) -- raw images while the easel is away (05 R112, 10 R259)
  stages : List (Nat × Nat × Stage) -- operand stages while the easel is away (18 R446)
  tags   : Table (Nat × Nat)        -- tags while the easel is away (06 R149)
  begun  : Bool                     -- its gangs have started (10 R256)
  late   : List LateWrite           -- writes that reached its SRAM since its context left its bank
  deriving DecidableEq, Repr

/-- The thread that issues: a crew, a member (gang-in-crew, or 16 for the sequencer role) and a party. -/
structure ThreadRef where
  crew   : Nat
  member : Nat
  party  : Nat
  deriving DecidableEq, Repr

/-! ### Accesses in flight (07, 08) -/

/-- Scope and order of an access (03 R69), with promotion. -/
structure Strength where
  strong  : Bool
  scope   : Nat
  acquire : Bool
  release : Bool
  promoted : Bool
  deriving DecidableEq, Repr

/-- An instruction in flight: a memory access, a special-function or conversion result, a ticket, a multicast read
or an active message.  Its number orders it after every earlier instruction of its thread. -/
structure Flight where
  id     : Nat
  crew   : Nat
  member : Nat
  slices : List Nat                 -- slices that issued it
  kind   : AccKind
  opcode : Nat
  asid   : Nat
  size   : Nat                      -- bytes per lane
  dest   : Nat                      -- absolute first destination register, for the fault log (11 R280)
  port   : Option Nat               -- destination is a queue register bound to this port
  path   : Option Nat
  strength : Strength
  wait   : Nat                      -- JDEC or SPAWN pushes still waiting for room (10 R236)
  parkedOnce : Bool                 -- it has parked on a fault since it issued (08 R196)
  replaying : Bool                  -- it is being replayed (08 R196, 11 R279)
  held   : Bool                     -- escalated by an EMPTY: its party waits for fault-resume (11 R278)
  reported : List Nat               -- slices a fault report has reached that have not taken it yet (11 R272)
  inHandler : Bool
  parts  : List Part
  aux    : List Double              -- what the kind needs beside: message doubles, multicast words, ticket
  returns : Bool                    -- its form returns a value, into a register or a field that discards it (13 R315)
  deriving DecidableEq, Repr

/-- A line held at its home (07 R168, R169, R182, R183, 12 R478).  In dense form its data are the 128 bytes of the virtual
range.  In compact form they are 128 bytes of the frame: `line` is the first dense line of the crumb group, and `part`
says which of the lines that hold the group's records, and after them its overflow records, it is. -/
structure Line where
  asid   : Nat
  line   : Nat                      -- virtual address div 128
  data   : List Byte
  dirty  : Bool                     -- newer than memory
  form   : Option (Nat × Nat)       -- none: dense; some: compact under a CR_FMT and CR_ALLOT (07 R183)
  poison : Option (List Bool)       -- written-byte mask of a poisoned line (12 R478)
  way    : Nat                      -- way of its slice it occupies (07 R168)
  part   : Nat                      -- which frame line of its group, in compact form; 0 in dense form (07 R182)
  deriving DecidableEq, Repr

/-- A copy of a line in a core's or an easel's data cache (07 R168): the cache is 17 times the cluster plus the core, 16
for the easel.  The copies of a line are what the directory at its home records. -/
structure Copy where
  cache : Nat
  asid  : Nat
  line  : Nat
  data  : List Byte
  way   : Nat                       -- way of its set it occupies, 0 to 3
  deriving DecidableEq, Repr

/-- A write-back held in its home's write-back buffer (11 R479, 12 R294). -/
structure WriteBack where
  id     : Nat
  asid   : Nat
  line   : Nat
  data   : List Byte
  poison : Option (List Bool)       -- written-byte mask of a poisoned line (12 R478)
  pas    : List (Nat × List Byte × Bool)   -- physical lines and the bytes they take, once translated, and whether poisoned
  sent   : Bool                     -- at its stripe owner
  waiting : Nat                     -- stripe updates not yet acknowledged
  fault  : Option Nat
  flush  : Option Nat               -- the CFLUSH that made it (15 R353)
  acked  : Bool
  form   : Option (Nat × Nat)       -- the form of its data (07 R183, R184)
  spcfg  : Option Nat               -- the die whose SPCFG made it (07 R185)
  deriving DecidableEq, Repr

/-- A line being read from HBM for a home (07 R170, 12 R294). -/
structure Fill where
  id   : Nat
  asid : Nat
  line : Nat
  pa   : Nat
  crumb : Option (Nat × Nat × Nat × Nat)  -- a crumb page's frame, size, format, record size; then `pa` is an offset
  data : Option (List Byte)
  undeliv : Bool
  way  : Nat                        -- way of its slice it will occupy (07 R185)
  deriving DecidableEq, Repr

/-- A line owned by an engine operation, or a page range it will write (08 R198). -/
structure Owned where
  asid  : Nat
  line  : Nat
  owner : Nat                       -- number of the owning operation
  deriving DecidableEq, Repr

/-- A multicast stream at its server (07 R176 to R179): request, its pairs with the first line each missed, and the
next line to send. -/
structure Stream where
  id     : Nat
  asid   : Nat
  src    : Nat
  count  : Nat
  offset : Nat
  pairs  : List (Nat × Nat × Nat)   -- cluster, core, first line received with the stream
  next   : Nat
  tail   : Nat                      -- next line of the tail replay
  got    : Option (List Byte)       -- the next line, answered by another device
  flights : List Nat
  deriving DecidableEq, Repr

/-- A multicast line that has left its server (07 R178). -/
structure Delivery where
  stream : Nat
  line   : Nat
  offset : Nat
  data   : List Byte
  pairs  : List (Nat × Nat)
  flights : List Nat
  deriving DecidableEq, Repr

/-! ### Engines (05, 06) -/

/-- The operations an engine queue holds (06 R139). -/
inductive EngKind where
  | tmma | dmma | tdrn | tclr | tstg | ttbl
  deriving DecidableEq, Repr

/-- An entry of an engine's instruction queue: control words, configuration and FMT at issue, and the operand images
that have been taken. -/
structure EngOp where
  id     : Nat
  kind   : EngKind
  crew   : Nat
  canvas : Nat                      -- 2 means both (TTBL)
  tag    : Option Nat
  ctl    : Double
  ctl2   : Double
  xf     : Nat
  k      : Bool
  fmt    : Word
  cfg    : Nat
  dst    : Nat                      -- number of the flight that carries the word to its register
  aDesc  : Option (Double × Double)
  bDesc  : Option (Double × Double)
  aImg   : Option (List Byte)
  bImg   : Option (List Byte)
  staged : Option Stage
  wcb    : Nat
  units  : Nat
  started : Bool
  since  : Nat                      -- CLOCK at its start
  deriving DecidableEq, Repr

/-- A term engine (05 R109, R113, R123, 06 R139). -/
structure Engine where
  canvases : List Canvas            -- front, back
  cfg      : Nat
  queue    : List EngOp             -- oldest first, at most four
  palettes : Table (Nat × Quad)     -- entry format and bits
  stages   : List (Option Stage)    -- per canvas
  deriving DecidableEq, Repr

/-- A port queue (06 R146): words, oldest first, and room reserved by drains and by pushes in flight. -/
structure Port where
  words    : List Word
  drains   : Nat
  pushes   : Nat
  deriving DecidableEq, Repr

/-! ### Block-transfer engines (09) -/

/-- Context slot states (09 R234). -/
inductive SlotState where
  | free | active | parked | waiting | completing
  deriving DecidableEq, Repr

/-- Who gave a command to a BTE. -/
inductive Source where
  /-- a thread's registers, with its ticket: crew, member, ticket -/
  | thread (crew : Nat) (member : Nat) (ticket : Nat)
  /-- a queue-table entry of the cluster, and the packet's index in its queue -/
  | queue (entry : Nat) (index : Nat)
  deriving DecidableEq, Repr

/-- The kinds of command a slot runs: packets by TYPE, XCPR, XQAP. -/
inductive CmdKind where
  | packet | xcpr | xqap | grpl
  deriving DecidableEq, Repr

/-- What a waiting command waits for (09 R234). -/
inductive SlotWait where
  | none | slotRoom | value | launchSlot | launchDone | graphBuffer | graphNodes | reduction | data | record
  deriving DecidableEq, Repr

/-- A command: the packet and what it acts under (09 R210, R220, 21 R473). -/
structure Command where
  kind   : CmdKind
  packet : List Double              -- eight
  source : Source
  asid   : Nat
  job    : Nat
  gang   : Option Nat               -- gang of a vector gang's command, whose core SPACE 1 reaches (19 R461)
  crew   : Option Nat
  desc   : Nat                      -- XQAP: descriptor address; XCPR: number of its entry in path 4
  slices : List Nat                 -- slices of the party that issued it (08 R194 item 5)
  before : Nat                      -- flights of its thread with a lower number are earlier in program order
  deriving DecidableEq, Repr

/-- A context slot with the progress and the record of its command (09 R228, R234). -/
structure Slot where
  state  : SlotState
  cmd    : Option Command
  wait   : SlotWait
  since  : Nat                      -- CLOCK at acceptance, or when a wait began
  next   : Nat                      -- elements, tasks or nodes already performed
  status : Nat
  faultCode : Nat
  faultVa : Double
  wrap   : Bool
  absentFill : Bool
  invalid : Bool
  badRec : Bool
  bytes  : Nat
  sat    : Nat
  ufl    : Nat
  index  : Nat                      -- XQAP: claimed slot index; GRAPH: replay number
  ranks  : List Nat                 -- reduction: ranks whose contribution has arrived; LAUNCH, GRAPH: the launch slot held
  rows   : List (Nat × List Word)   -- XCPR: register rows still to arrive
  fetched : List (Nat × List Byte)  -- lines answered by other devices, by number; no bytes where one was not supplied
  reread : Bool                     -- WAITVAL: the line was written since the last read
  readAt : Nat                      -- WAITVAL: CLOCK at the last read (09 R213)
  table  : List Byte                -- rows of a gather or scatter, palettes of an expansion, a block of a reduction
  stream : List Nat                 -- XCPR: destination elements already computed
  done   : List (Nat × Nat)         -- lines already written of the piece under way: which write of it, and the address (09 R234)
  order  : Nat                      -- its place in the order of acceptances (10 R253); COMPLETING: in that of completions (09 R231)
  deriving DecidableEq, Repr

/-- A queue-table entry (09 R215, 21 R473). -/
structure QueueEntry where
  desc   : Double                   -- double 0: ENABLE and DESC
  attrs  : Double                   -- double 2: ASID and JOBID
  faulted : Bool                    -- a look met a fault that is unresolved (11 R480)
  deriving DecidableEq, Repr

/-- A cluster's shared parts: port queues, tags, BTE (01 R9). -/
structure Cluster where
  ports  : List Port                -- P0 to P7
  tags   : Table (Nat × Nat)        -- tag to engine in cluster and canvas (06 R149)
  slots  : List Slot                -- sixteen (09 R234)
  inbox  : List Command             -- commands issued from registers and not yet accepted
  queues : List QueueEntry          -- sixteen
  pending : List Command            -- consumed packets not yet accepted
  turn   : Nat                      -- source last accepted from: 0 registers, 1 + q queue-table entry q (09 R218)
  deriving DecidableEq, Repr

/-! ### Scheduling (10) -/

/-- A record waiting in a hardware queue (10 R236, R239, R240). -/
structure QueuedRec where
  id     : Nat
  rcd    : Record
  origin : Origin
  queue  : Nat                      -- 0 to 23 cluster queues, 24 and 25 die queues
  since  : Nat                      -- CLOCK at its push
  boosts : Nat                      -- ageing steps taken (10 R239)
  topAt  : Nat                      -- CLOCK when its effective priority reached 3
  skips  : Nat
  blocking : Bool
  spilled : Bool
  saved  : Option Nat               -- a SAVED crew waiting to resume (10 R262)
  deriving DecidableEq, Repr

/-- A push waiting to be made (10 R236): the record, where its doubles come from, and who waits on it. -/
structure Push where
  rcd    : Record
  origin : Origin
  queue  : Nat
  fl     : Option Nat               -- SPAWN or JDEC that waits on it
  reply  : Option (Nat × Nat × Double)  -- a peer's JDEC that its push answers: source, tag, old value
  slot   : Option (Nat × Nat)       -- LAUNCH or GRAPH command
  deriving DecidableEq, Repr

/-- A launch slot (10 R246). -/
structure Launch where
  pushed   : Nat
  finished : Nat
  faulted  : Nat
  more     : Bool
  status   : Nat
  faultCode : Nat
  slot     : Option (Nat × Nat)     -- cluster and BTE slot
  deriving DecidableEq, Repr

/-- A submitted task of a die's dependence table (10 R247, R248). -/
structure Task where
  id     : Nat
  die    : Nat
  rcd    : Record
  asid   : Nat
  reads  : List Nat                 -- handle addresses
  writes : List Nat
  bufs   : List Nat                 -- buffers it uses
  deps   : List Nat                 -- unfinished tasks it waits for
  pushed : Bool
  deriving DecidableEq, Repr

/-- A graph replay (10 R253). -/
structure Replay where
  id      : Nat
  cluster : Nat
  slot    : Nat
  graph   : Nat
  asid    : Nat
  job     : Nat
  n       : Nat
  left    : Nat                     -- nodes not yet finished
  launch  : Option Nat
  todo    : List (Nat × Nat)        -- finished nodes, with the successor to step next
  deriving DecidableEq, Repr

/-- Where a shared queue's descriptor lies, whatever address names it: chip scratchpad has no ASID and is a die's (07
R163, R164), and pages of several ASIDs may show one frame of memory. -/
inductive QueueHome where
  | chip (die off : Nat)
  | frame (pa : Nat)
  | named (asid va : Nat)
  deriving DecidableEq, Repr

/-- A packet that a thread's XQAP appended to a shared queue: the command it becomes reaches its gang's core scratchpad (19
R461). -/
structure Appended where
  queue : QueueHome
  index : Nat
  crew  : Nat
  gang  : Option Nat
  deriving DecidableEq, Repr

/-- A contribution to an exact reduction held by an exchange buffer of this device (09 R227): phase 0 exponents,
1 mantissas, 2 results. -/
structure Contribution where
  asid  : Nat
  buf   : Nat
  seq   : Nat
  phase : Nat
  rank  : Nat
  data  : List Int
  deriving DecidableEq, Repr

/-- A request for power tokens (10 R258). -/
structure TokenReq where
  easel : Nat
  units : Nat
  since : Nat
  aged  : Bool
  deriving DecidableEq, Repr

/-! ### Translation (11) -/

/-- A cached leaf translation, or a cached non-leaf entry, of a translation home (11 R268). -/
structure TlbEntry where
  home  : Nat
  asid  : Nat
  level : Nat
  tagVa : Nat                       -- address above the bits the entry's level leaves
  pte   : Double
  deriving DecidableEq, Repr

/-- A migration unit (11 R282, R283). -/
structure Migration where
  d0    : Double
  d1    : Double
  d2    : Double
  state : Nat
  rounds : Nat
  dirty : List Nat                  -- lines of the page set in the rewrite bitmap
  copying : List Nat                -- lines the running round copies
  due   : Bool                      -- the freeze is to begin once ownership of the page's lines is released
  entry : Nat                       -- physical address of the page's leaf
  pte   : Double                    -- the leaf as the request found it
  deriving DecidableEq, Repr

/-- Accesses the device makes on its own behalf that wait on a fault (11 R480, context 0xFFFD). -/
inductive DeviceAccess where
  /-- the JDEC at DONE of a crew (10 R244) -/
  | join (crew : Nat)
  /-- a buffer to return to a rename pool (10 R248): pool, buffer, ASID -/
  | buffer (pool : Nat) (buf : Nat) (asid : Nat)
  /-- an active message to write to a handler ring (13 R309): entry, port it came by, source, tag, job, message -/
  | message (entry : Nat) (port : Nat) (source : Nat) (tag : Nat) (job : Nat) (payload : List Double)
  /-- a record to write to a spill ring (10 R236) -/
  | spill (queue : Nat)
  /-- a record to bring back from a spill ring (10 R236) -/
  | unspill (queue : Nat)
  /-- a read of a frame pool's ring for the step of MAPF (11 R277) -/
  | pool (n : Nat)
  /-- a read or write of the save-frame pool's ring for a crew (10 R259, 14 R477) -/
  | frame (crew : Nat)
  /-- a save frame to return to its pool (14 R477) -/
  | giveFrame (frame : Nat)
  deriving DecidableEq, Repr

/-- An SPCFG in progress (07 R185, R186): the ways it sets, whether it zeroes, its thread, and what was in flight when it
issued: operations numbered below `serial`, and BTE commands by cluster and source. -/
structure Resize where
  ways   : Nat
  zero   : Bool
  thread : ThreadRef
  serial : Nat
  cmds   : List (Nat × Source)
  deriving DecidableEq, Repr

/-! ### HBM (12) -/

/-- An open row of a bank (12 R290, R291). -/
structure OpenRow where
  stack : Nat
  bank  : Nat                       -- pseudo-channel × 16 + bank
  row   : Nat
  mask  : Nat
  stream : Bool
  deriving DecidableEq, Repr

/-- A stripe being gathered or updated (12 R292, R293). -/
structure Gather where
  stripe : Nat
  since  : Nat
  lines  : List (Nat × List Byte × Bool × List Nat)  -- position, data, poisoned, write-backs acknowledged with it
  locked : Bool
  deltas : List (Nat × List Byte)   -- positions whose delta has reached the owner
  taken  : List Nat                 -- positions whose delta has been folded into the parity
  deriving DecidableEq, Repr

/-- A stack's counters (12 R300), in the order of the table. -/
abbrev Counters := List Nat

/-! ### Fabric and hosts (13) -/

/-- States of a message (13 R315). -/
inductive MsgState where
  | ready | outstanding | query
  deriving DecidableEq, Repr

/-- A device agent that reaches into another device on its own behalf (13 R311). -/
inductive FarUser where
  /-- an instruction fetch: crew, member, party -/
  | fetch (crew : Nat) (member : Nat) (party : Nat)
  /-- a look of a served queue: cluster and entry -/
  | look (cluster : Nat) (entry : Nat)
  /-- an instruction in flight -/
  | flight (fl : Nat)
  /-- a record's role block -/
  | record (id : Nat)
  /-- a spill ring's queue -/
  | queue (q : Nat)
  /-- a frame pool's or the save-frame pool's ring -/
  | pool (n : Nat)
  /-- a crew's completion -/
  | crew (id : Nat)
  /-- a handler ring: entry, source, tag -/
  | handler (entry : Nat) (source : Nat) (tag : Nat)
  /-- a graph's node: replay and node -/
  | node (replay : Nat) (node : Nat)
  /-- a buffer that returns to its rename pool: pool and buffer -/
  | buffer (pool : Nat) (buf : Nat)
  /-- the device event ring -/
  | events
  /-- a host port's request -/
  | host (port : Nat)
  deriving DecidableEq, Repr

/-- One request of a device agent to another device. -/
structure FarOp where
  user   : FarUser
  kind   : Nat
  target : Nat
  off    : Nat
  msg    : Nat
  sent   : List Double              -- what it carries
  data   : Option (List Double)     -- its answer
  deriving DecidableEq, Repr

/-- Whose access a fabric message carries. -/
inductive MsgOwner where
  /-- a device agent's -/
  | far (user : FarUser)
  /-- those parts of a flight whose state names the message -/
  | parts (fl : Nat)
  /-- a BTE command's read, write or fetch-and-add: cluster, slot, virtual address of the line read -/
  | slot (cluster : Nat) (slot : Nat) (va : Nat)
  /-- an active message's flight -/
  | amsg (fl : Nat)
  /-- a line written back to another device's memory -/
  | writeBack (wb : Nat)
  /-- the next line of a multicast stream -/
  | stream (id : Nat)
  /-- an inbound request whose page lies in yet another device: the host port and, of a read, where its bytes lie in the line
  and their number, or the peer's number and tag (13 R304) -/
  | relay (port : Option Nat) (source : Nat) (tag : Nat)
  deriving DecidableEq, Repr

/-- A fabric request (13 R305, R311, R315).  `kind` is the code of the request table of Machine/Fabric. -/
structure Message where
  id     : Nat
  owner  : MsgOwner
  crew   : Option Nat
  kind   : Nat
  target : Nat
  pa     : Nat
  offset : Nat
  size   : Nat
  data   : List Double
  job    : Nat
  die    : Nat
  port   : Nat
  state  : MsgState
  since  : Nat
  deriving DecidableEq, Repr

/-- A request a peer sent that this device has performed (13 R315), by source and tag. -/
structure Tag where
  source : Nat
  tag    : Nat
  performed : Bool                  -- false: answered NOT PERFORMED, to be discarded if it arrives
  deriving DecidableEq, Repr

/-- A node's part of a proof wave (13 R313). -/
structure Wave where
  job   : Nat
  w     : Nat
  pass  : Nat
  left  : List Nat                  -- children that have not replied
  sums  : List Nat                  -- I, C, L, P
  first : Option (List Nat)         -- totals of pass 1, at the root
  ended : Option Nat                -- CLOCK when the wave ended, at the root
  deriving DecidableEq, Repr

/-- A control message sent to another node (13 R313 to R315). -/
inductive Control where
  | down (target job w pass : Nat)
  | up (target job w pass : Nat) (sums : List Nat)
  | decide (target job w lost : Nat)
  | query (target msg : Nat)
  | answer (target tag : Nat) (performed : Bool)
  | response (target tag : Nat) (code : Nat) (data : List Double)
  deriving DecidableEq, Repr

/-- A UALink port (13 R301, R302). -/
structure Link where
  up    : Bool
  lanes : Nat
  slow  : Bool
  fails : Nat
  deriving DecidableEq, Repr

/-- Device states (14 R323). -/
inductive DeviceState where
  | reset | boot | training | ready | recovery | fatal
  deriving DecidableEq, Repr

/-- A device event record (11 R278): doubles 0 to 3. -/
structure EventRec where
  d0 : Double
  d1 : Double
  d2 : Double
  deriving DecidableEq, Repr

/-- A completion ring with its interrupt count (09 R230, R232). -/
structure Ring where
  base  : Double
  conf  : Double
  wr    : Double
  rd    : Double
  count : Nat
  since : Nat
  deriving DecidableEq, Repr

/-- What the device sends a host (13 R319, R321): a write to host memory, or an interrupt. -/
inductive HostOut where
  | write (port : Nat) (addr : Nat) (bytes : List Byte)
  | interrupt (port : Nat) (vector : Nat)
  /-- the answer of a request: 0 performed, 1 refused, 2 performed with the poisoned attribute -/
  | answer (port : Nat) (status : Nat) (data : List Double)
  deriving DecidableEq, Repr

/-! ### Moves -/

/-- What happens next: a unit issues, a device step takes place, or the clock ticks. -/
inductive Move where
  /-- the issue slot of a slice group: cluster, core in cluster (16 for the easel), first slice of the group -/
  | issue (cluster : Nat) (core : Nat) (group : Nat)
  /-- a device step of the opcode table -/
  | event (e : Instr)
  /-- one cycle of the arithmetic clock -/
  | tick
  deriving DecidableEq, Repr, Inhabited

/-- The state of the package. -/
structure State where
  /-- model's own: the moves to come, first first (assumption 1) -/
  agenda    : List Move
  /-- model's own: how many moves the arbiter has chosen -/
  arbCount  : Nat
  /-- model's own: how many free values have been used -/
  freeCount : Nat
  /-- model's own: numbers given to flights, commands, records and messages -/
  serial    : Nat
  /-- model's own: instructions issued so far, for the ages of 10 R256 -/
  issued    : Nat
  /-- model's own: the issuing thread -/
  cur       : ThreadRef
  /-- 14 R323 -/
  device    : DeviceState
  fatalCause : Nat
  fwVersion : Nat
  rollbackMin : Nat
  /-- SHA-256 of the bodies of the running firmware and microcode images (14 R327) -/
  fwHash    : List Byte
  ucodeHash : List Byte
  /-- CLOCK, special register 0x13 -/
  clock     : Double
  crews     : List Crew
  nextContext : Nat
  clusters  : Table Cluster
  appended  : List Appended
  contribs  : List Contribution
  engines   : Table Engine
  flights   : List Flight
  /-- L2 homes, and the core and easel data caches (07 R168) -/
  lines     : List Line
  copies    : List Copy
  writeBacks : List WriteBack
  fills     : List Fill
  owned     : List Owned
  streams   : List Stream
  deliveries : List Delivery
  /-- chip scratchpad: ways per die, bytes relative to the background by slice and way (07 R167: way w of slice t at
  16 t + w), and the un-zeroed ranges (07 R185) -/
  chipWays  : List Nat
  chip      : List (Table Memory)
  chipFree  : List (List (Nat × Nat × Nat))
  /-- SPCFG in progress, by die (07 R185, R186) -/
  spcfg     : List (Option Resize)
  /-- HBM bytes by stack × 2^36 + stack offset (12 R288) -/
  hbm       : Memory
  poisonPas : List Nat               -- stored lines with the poison pattern (12 R478)
  /-- lines found undeliverable and not wholly written since (12 R478) -/
  undelivPas : List Nat
  /-- stored lines whose ECC does not read clean, by stack × 2^29 + stack line: 1 correctable, 2 uncorrectable
  (12 R295) -/
  damage    : Table Nat
  lost      : List Bool
  memState  : Nat
  openRows  : List OpenRow
  driving   : Table Nat              -- driving subarray by stack and bank (12 R291)
  /-- model's own: the column accesses of the step under way belong to one of the streams of 12 R291 -/
  streaming : Bool
  gathers   : List Gather
  stackCounters : List Counters
  ueTimes   : List (List Nat)        -- CLOCK of recent uncorrectable events by stack
  /-- readings of each stack's sensors: its sixteen core dies, then its base die (12 R298) -/
  temps     : List (List Nat)
  /-- stacks refreshed at twice the rate, and stacks throttled (12 R298) -/
  fastRefresh : List Bool
  throttled : List Bool
  memCtl    : Double
  thermal   : Double
  /-- translation -/
  tlb       : List TlbEntry
  walkCache : List TlbEntry
  rootTable : Table Double
  migrations : List Migration
  deviceAcc : List DeviceAccess
  /-- scheduler -/
  records   : List QueuedRec
  pushes    : List Push
  launches  : Table Launch
  tasks     : List Task
  /-- buffers taken from rename pools and not returned: ASID, pool, buffer (10 R248) -/
  taken     : List (Nat × Nat × Nat)
  /-- buffers that renaming has replaced, until the last task using them finishes: ASID, pool, buffer (10 R248) -/
  returns   : List (Nat × Nat × Nat)
  replays   : List Replay
  schedCtl  : Double
  tokenCtl  : Double
  tokens    : Nat
  tokenReqs : List TokenReq
  granted   : List (Nat × Nat)       -- easel and units granted but not yet taken by its instruction
  lastGrant : Nat
  /-- rings and events -/
  rings     : Table Ring
  eventBuf  : List EventRec
  /-- a record's write to ring 63 has faulted since its entry was last written (09 R231) -/
  eventStuck : Bool
  dropped   : Nat
  /-- fabric -/
  fabricCtl : Double
  /-- ACCEL_ID has been written since reset (14 R323) -/
  accelSet  : Bool
  windows   : Table Double           -- inbound windows, double k of window n at 4n + k
  handlers  : Table Double           -- handler entries, likewise
  jobs      : Table Double           -- job entries of both dies, double k of entry e of die d at 8(256d + e) + k
  routes    : Table Double
  ports     : List Link
  portCounters : Table Nat           -- counter k of block p at 6p + k
  messages  : List Message
  /-- requests of device agents to other devices (13 R311) -/
  farOps    : List FarOp
  tags      : List Tag
  waves     : List Wave
  control   : List Control
  /-- host ports and management -/
  sems      : List Nat
  hostOut   : List HostOut
  linkUp    : List Bool
  handlerPc : Double
  supAsid   : Nat
  pools     : Table Double           -- pool and spill-ring descriptors, double k of descriptor n at 4n + k
  staging   : Memory
  /-- Whether the staging area has been written since power came on. -/
  staged    : Bool
  telemetry : List Double
  /-- cycles summed over easels that waited for tokens, before a refresh shows them (14 R329) -/
  tokenWait : Double
  attCtl    : List Nat               -- BUSY, DONE, PENDING, SEQ
  nonce     : List Double
  latched   : List Double
  report    : List Byte
  deriving DecidableEq, Repr

/-- The device right after power-on reset: STATE is RESET (14 R323), nothing runs, every register at the value its
layout gives.  Values the spec does not give are named in the assumption log (4). (DESIGN CHOICE: assumption 4). -/
def State.reset : State where
  agenda := []
  arbCount := 0
  freeCount := 0
  serial := 0
  issued := 0
  cur := ⟨0, 0, 0⟩
  device := .reset
  fatalCause := 0
  fwVersion := 0
  rollbackMin := 0
  fwHash := []
  ucodeHash := []
  clock := 0
  crews := []
  nextContext := 0
  clusters := []
  appended := []
  contribs := []
  engines := []
  flights := []
  lines := []
  copies := []
  writeBacks := []
  fills := []
  owned := []
  streams := []
  deliveries := []
  chipWays := [0, 0]
  chip := [[], []]
  chipFree := [[], []]
  spcfg := [none, none]
  hbm := []
  poisonPas := []
  undelivPas := []
  damage := []
  lost := List.replicate 8 false
  memState := 0
  openRows := []
  driving := []
  streaming := false
  gathers := []
  stackCounters := List.replicate 8 (List.replicate 8 0)
  ueTimes := List.replicate 8 []
  temps := List.replicate 8 (List.replicate 17 0)
  fastRefresh := List.replicate 8 false
  throttled := List.replicate 8 false
  memCtl := 0x00218080_0E1010FF#64
  thermal := 0x5F55#64
  tlb := []
  walkCache := []
  rootTable := []
  migrations := List.replicate 8 ⟨0, 0x08100000#64, 0, 0, 0, [], [], false, 0, 0⟩
  deviceAcc := []
  records := []
  pushes := []
  launches := []
  tasks := []
  taken := []
  returns := []
  replays := []
  schedCtl := 0x00401000_00400400#64
  tokenCtl := 0x3000FFFFFF#64
  tokens := 0xFFFFFF
  tokenReqs := []
  granted := []
  lastGrant := 23
  rings := []
  eventBuf := []
  eventStuck := false
  dropped := 0
  fabricCtl := 0x00040040_04000000#64
  accelSet := false
  windows := []
  handlers := []
  jobs := []
  routes := []
  ports := List.replicate 48 ⟨false, 0, false, 0⟩
  portCounters := []
  messages := []
  farOps := []
  tags := []
  waves := []
  control := []
  sems := List.replicate 32 0
  hostOut := []
  linkUp := [true, true]
  handlerPc := 0
  supAsid := 0
  pools := []
  staging := []
  staged := false
  telemetry := [0, 0]
  tokenWait := 0
  attCtl := [0, 0, 0, 0]
  nonce := [0, 0, 0, 0]
  latched := [0, 0, 0, 0]
  report := []

end Sys2Proof.Machine
end

