-- ==== Sys2Proof/Machine/Table.lean ====
section
/-! DEFINITION. Sparse tables and byte memories: the only operations that read or write them, and small helpers over
lists.  A memory is a table of bytes that lists no byte equal to 0, in rising order of address, so that equal
memories are equal lists (assumption 3). -/

namespace Sys2Proof.Machine
set_option Elab.async false
open Sys2Proof

variable {α : Type}

/-- The entry of a key, if it is listed. -/
def tabFind : Table α → Nat → Option α
  | [], _ => none
  | (j, v) :: t, k => if j = k then some v else tabFind t k

/-- The entry of a key, or the default of an unlisted key. -/
def tabGet (t : Table α) (k : Nat) (d : α) : α := (tabFind t k).getD d

/-- Lists a value under a key, keeping keys rising. -/
def tabInsert : Table α → Nat → α → Table α
  | [], k, v => [(k, v)]
  | (j, u) :: t, k, v =>
    if k < j then (k, v) :: (j, u) :: t
    else if k = j then (k, v) :: t
    else (j, u) :: tabInsert t k v

/-- Removes a key. -/
def tabErase : Table α → Nat → Table α
  | [], _ => []
  | (j, u) :: t, k => if j = k then tabErase t k else (j, u) :: tabErase t k

/-- Writes a key of a table whose unlisted keys hold `d`: writing `d` itself unlists the key. -/
def tabPut [DecidableEq α] (d : α) (t : Table α) (k : Nat) (v : α) : Table α :=
  if v = d then tabErase t k else tabInsert t k v

/-- Keys rise strictly and no entry equals the default: the canonical form of a table. -/
def tabCanon [DecidableEq α] (d : α) : Table α → Bool
  | [] => true
  | [(_, v)] => v ≠ d
  | (j, v) :: (k, u) :: t => v ≠ d && j < k && tabCanon d ((k, u) :: t)

/-- The canonical form of a byte memory. -/
abbrev Memory.wf (m : Memory) : Bool := tabCanon (0 : Byte) m

/-- The byte at an address; one that nothing has written reads as 0 (assumption 3). -/
def memByte (m : Memory) (a : Nat) : Byte := tabGet m a 0

/-- Writes one byte. -/
def memSetByte (m : Memory) (a : Nat) (b : Byte) : Memory := tabPut 0 m a b

/-- n bytes from an address up. -/
def memBytes (m : Memory) (a : Nat) : Nat → List Byte
  | 0 => []
  | n + 1 => memByte m a :: memBytes m (a + 1) n

/-- Writes bytes from an address up. -/
def memSetBytes (m : Memory) (a : Nat) : List Byte → Memory
  | [] => m
  | b :: bs => memSetBytes (memSetByte m a b) (a + 1) bs

/-- Little-endian value of bytes (00 R3). -/
def leValue : List Byte → Nat
  | [] => 0
  | b :: bs => b.toNat + 256 * leValue bs

/-- The n little-endian bytes of a value (00 R3). -/
def leBytes : Nat → Nat → List Byte
  | 0, _ => []
  | n + 1, v => BitVec.ofNat 8 v :: leBytes n (v / 256)

/-- Splits a list of bytes into doubles. -/
def doublesOf : List Byte → List Double
  | b0 :: b1 :: b2 :: b3 :: b4 :: b5 :: b6 :: b7 :: bs =>
    BitVec.ofNat 64 (leValue [b0, b1, b2, b3, b4, b5, b6, b7]) :: doublesOf bs
  | _ => []

/-- The bytes of doubles. -/
def bytesOfDoubles (ds : List Double) : List Byte := ds.flatMap fun d => leBytes 8 d.toNat

/-- Double k of a list of doubles, 0 past its end. -/
def dbl (ds : List Double) (k : Nat) : Double := ds.getD k 0

/-- Bits [lo + n − 1 : lo] of a double, as a number. -/
def bitsOf (d : Double) (lo n : Nat) : Nat := d.toNat / 2 ^ lo % 2 ^ n

/-- Bits [lo + n − 1 : lo] of a number. -/
def natBits (v lo n : Nat) : Nat := v / 2 ^ lo % 2 ^ n

/-- Replaces the entry at a position. -/
def listModify (l : List α) (i : Nat) (f : α → α) : List α := l.modify i f

/-- Replaces the entries that satisfy a test. -/
def modifyWhere (p : α → Bool) (f : α → α) (l : List α) : List α := l.map fun x => if p x then f x else x

/-- n items from a function of their index. -/
def tabulate (n : Nat) (f : Nat → α) : List α := (List.range n).map f

/-- Overwrites part of a list. -/
def overlay (l : List α) (off : Nat) (bs : List α) : List α :=
  l.take off ++ bs.take (l.length - off) ++ l.drop (off + bs.length)

/-- Whether a list has no repeats. -/
def dedup (l : List Nat) : List Nat := l.foldl (fun acc x => if acc.contains x then acc else acc ++ [x]) []

/-- Insertion into a rising list of numbers. -/
def insertRising (x : Nat) : List Nat → List Nat
  | [] => [x]
  | y :: ys => if x ≤ y then x :: y :: ys else y :: insertRising x ys

/-- A list of numbers in rising order. -/
def sortRising (l : List Nat) : List Nat := l.foldr insertRising []

end Sys2Proof.Machine
end

