-- ==== Sys2Proof/Machine/Formats.lean ====
section
/-! DEFINITION. Number formats, absent values, rounding, conversions, scales and palettes (04).  Codes are natural
numbers; exact values are signed rationals with a binary exponent, so that nothing is rounded before the one place
where the spec rounds. -/

namespace Sys2Proof.Machine
set_option Elab.async false
open Sys2Proof

/-! ### Format codes (04 R82) -/

/-- Width in bits of a format code; 0 for CRUMB and the reserved codes. -/
def fmtWidth : Nat → Nat
  | 0 => 32 | 1 => 8 | 2 => 8 | 3 => 4 | 4 => 8 | 5 => 8 | 6 => 16 | 7 => 16 | 8 => 32 | 9 => 64 | 10 => 3 | 11 => 8
  | _ => 0

/-- The absent code of a format (04 R82). -/
def absentCode : Nat → Nat
  | 0 => 0x80000000 | 1 => 0x80 | 3 => 0x8 | 6 => 0xFFFF | 7 => 0xFFFF | 8 => 0xFFFFFFFF
  | 9 => 0xFFFFFFFFFFFFFFFF | _ => 0xFF

/-- The integer formats. -/
def isIntFmt (f : Nat) : Bool := f ≤ 3

/-- The floating-point formats. -/
def isFloatFmt (f : Nat) : Bool := 4 ≤ f && f ≤ 9

/-- The five code formats of QNT and DQT (04 R95). -/
def isCodeFmt (f : Nat) : Bool := 1 ≤ f && f ≤ 5

/-- The wide formats of QNT and DQT (17 R412). -/
def isWideFmt (f : Nat) : Bool := 6 ≤ f && f ≤ 9

/-- Fraction width, exponent width and bias of a floating-point format (04 R84). -/
def floatShape : Nat → Nat × Nat × Nat
  | 4 => (3, 4, 7) | 5 => (2, 5, 15) | 6 => (7, 8, 127) | 7 => (10, 5, 15) | 8 => (23, 8, 127) | _ => (52, 11, 1023)

/-- The canonical NaN of a floating-point format (04 R84). -/
def canonNan : Nat → Nat
  | 4 => 0x7F | 5 => 0x7E | 6 => 0x7FC0 | 7 => 0x7E00 | 8 => 0x7FC00000 | _ => 0x7FF8000000000000

/-- The largest magnitude code of a floating-point format that is finite (04 R84). -/
def maxFinite : Nat → Nat
  | 4 => 0x7E | 5 => 0x7B | 6 => 0x7F7F | 7 => 0x7BFF | 8 => 0x7F7FFFFF | _ => 0x7FEFFFFFFFFFFFFF

/-- The infinity of a format that has one. -/
def infCode (f : Nat) : Nat := maxFinite f + 1

/-- Least and greatest value of an integer format (04 R83). -/
def intRange : Nat → Int × Int
  | 0 => (-2147483647, 2147483647) | 1 => (-127, 127) | 2 => (0, 254) | _ => (-7, 7)

/-! ### Exact values -/

/-- The exact value of an element: absent, NaN, an infinity, or ±(num ÷ den) × 2^e. -/
inductive Val where
  | absent
  | nan
  | inf (neg : Bool)
  | fin (neg : Bool) (num den : Nat) (e : Int)
  deriving DecidableEq, Repr

/-- The value zero. -/
def Val.zero : Val := .fin false 0 1 0

/-- The value one. -/
def Val.one : Val := .fin false 1 1 0

/-- An integer as a value. -/
def Val.ofInt (i : Int) : Val := .fin (i < 0) i.natAbs 1 0

/-- Two's complement value of w bits. -/
def signedOf (w c : Nat) : Int := if c < 2 ^ (w - 1) then c else (c : Int) - 2 ^ w

/-- The exact value of an integer code (04 R83, R89). -/
def decodeInt (f c : Nat) : Val := if f = 2 then .ofInt c else .ofInt (signedOf (fmtWidth f) c)

/-- The exact value of a floating-point code that is not absent (04 R84, R85). -/
def decodeFloat (f c : Nat) : Val :=
  let (fw, ew, bias) := floatShape f
  let neg := decide (c / 2 ^ (fw + ew) % 2 = 1)
  let ex := c / 2 ^ fw % 2 ^ ew
  let fr := c % 2 ^ fw
  let mag := c % 2 ^ (fw + ew)
  if f = 4 then
    if mag = 0x7F then .nan
    else if ex = 0 then .fin neg fr 1 (-9) else .fin neg (8 + fr) 1 ((ex : Int) - 10)
  else if ex = 2 ^ ew - 1 then (if fr = 0 then .inf neg else .nan)
  else if ex = 0 then (if f = 6 then .fin neg 0 1 0 else .fin neg fr 1 (1 - (bias : Int) - fw))
  else .fin neg (2 ^ fw + fr) 1 ((ex : Int) - bias - fw)

/-- The value of a block-scale code other than absent (04 R96). -/
def sc8Value (c : Nat) : Val :=
  let ex := c / 8 % 32
  let fr := c % 8
  if ex = 0 then .fin false fr 1 (-17) else .fin false (8 + fr) 1 ((ex : Int) - 18)

/-- Decode of 15 R331: the exact value of a code, absent codes honoured or not (04 R88, R89). -/
def decodeVal (absentOn : Bool) (f c : Nat) : Val :=
  if absentOn && c == absentCode f then .absent
  else if isIntFmt f then decodeInt f c
  else if f = 11 then sc8Value c
  else decodeFloat f c

/-- Whether a value is a number that is not zero. -/
def Val.isNonzero : Val → Bool
  | .fin _ n _ _ => n != 0
  | .inf _ => true
  | _ => false

/-- The sign of a number or an infinity. -/
def Val.isNeg : Val → Bool
  | .fin s _ _ _ => s
  | .inf s => s
  | _ => false

/-- Changes the sign. -/
def Val.negate : Val → Val
  | .fin s n d e => .fin (!s) n d e
  | .inf s => .inf (!s)
  | v => v

/-- The magnitude. -/
def Val.abs : Val → Val
  | .fin _ n d e => .fin false n d e
  | .inf _ => .inf false
  | v => v

/-- 2^k for k ≥ 0, and 1 below. -/
def pow2 (k : Int) : Nat := 2 ^ k.toNat

/-- The signed numerators of two finite values over one denominator and exponent. -/
def alignPair (s1 : Bool) (n1 d1 : Nat) (e1 : Int) (s2 : Bool) (n2 d2 : Nat) (e2 : Int) : Int × Int × Nat × Int :=
  let e := min e1 e2
  let a : Int := (n1 * d2 * pow2 (e1 - e) : Nat)
  let b : Int := (n2 * d1 * pow2 (e2 - e) : Nat)
  (if s1 then -a else a, if s2 then -b else b, d1 * d2, e)

/-- Exact sum; an exact zero is +0 unless both operands are −0 (04 R86). -/
def Val.add : Val → Val → Val
  | .absent, _ => .absent
  | _, .absent => .absent
  | .nan, _ => .nan
  | _, .nan => .nan
  | .inf s, .inf t => if s == t then .inf s else .nan
  | .inf s, _ => .inf s
  | _, .inf t => .inf t
  | .fin s1 n1 d1 e1, .fin s2 n2 d2 e2 =>
    let (a, b, d, e) := alignPair s1 n1 d1 e1 s2 n2 d2 e2
    let c := a + b
    if c = 0 then .fin (s1 && s2 && n1 == 0 && n2 == 0) 0 1 0 else .fin (c < 0) c.natAbs d e

/-- Exact product; a zero takes the exclusive-or of the signs, and infinity times zero is NaN (16 R368). -/
def Val.mul : Val → Val → Val
  | .absent, _ => .absent
  | _, .absent => .absent
  | .nan, _ => .nan
  | _, .nan => .nan
  | .inf s, .inf t => .inf (s != t)
  | .inf s, .fin t n _ _ => if n = 0 then .nan else .inf (s != t)
  | .fin s n _ _, .inf t => if n = 0 then .nan else .inf (s != t)
  | .fin s1 n1 d1 e1, .fin s2 n2 d2 e2 => .fin (s1 != s2) (n1 * n2) (d1 * d2) (e1 + e2)

/-- Exact quotient by a finite value other than zero. -/
def Val.div (x y : Val) : Val :=
  match y with
  | .fin s n d e => x.mul (.fin s d n (-e))
  | _ => .nan

/-- Whether one number or infinity lies below another; zeros are equal. -/
def Val.lt : Val → Val → Bool
  | .inf s, .inf t => s && !t
  | .inf s, .fin _ _ _ _ => s
  | .fin _ _ _ _, .inf t => !t
  | .fin s1 n1 d1 e1, .fin s2 n2 d2 e2 =>
    let (a, b, _, _) := alignPair s1 n1 d1 e1 s2 n2 d2 e2
    a < b
  | _, _ => false

/-- Whether two numbers or infinities are equal; zeros are equal. -/
def Val.eqv : Val → Val → Bool
  | .inf s, .inf t => s == t
  | .fin s1 n1 d1 e1, .fin s2 n2 d2 e2 =>
    let (a, b, _, _) := alignPair s1 n1 d1 e1 s2 n2 d2 e2
    a == b
  | _, _ => false

/-! ### Rounding (04 R91 to R93) -/

/-- floor(log2(num ÷ den)) for num, den > 0. -/
def log2Quot (num den : Nat) : Int :=
  let l : Int := (Nat.log2 num : Int) - Nat.log2 den
  if num * pow2 (-l) < den * pow2 l then l - 1 else l

/-- num ÷ den × 2^e rounded to a multiple of 2^q, ties away from zero, or toward zero. -/
def roundAt (trunc : Bool) (num den : Nat) (e q : Int) : Nat :=
  let n := num * pow2 (e - q)
  let d := den * pow2 (q - e)
  if trunc then n / d else (2 * n + d) / (2 * d)

/-- The exponent of the last place of a float format for a value whose leading bit weighs 2^l.  BF16 has no lower bound
on its exponent (04 R85). -/
def lastPlace (f : Nat) (l : Int) : Int :=
  let (fw, _, bias) := floatShape f
  if f = 6 then l - 7 else max (l - fw) (1 - (bias : Int) - fw)

/-- The code of a magnitude m × 2^q that the format's grid holds; it may lie beyond the largest finite code. -/
def packMagnitude (f m : Nat) (q : Int) : Nat :=
  let (fw, _, bias) := floatShape f
  if m = 0 then 0
  else
    let l : Int := (Nat.log2 m : Int) + q
    if l < 1 - (bias : Int) then (if f = 6 then 0 else m * pow2 (q - (1 - (bias : Int) - fw)))
    else
      (l + bias).toNat * 2 ^ fw + (m * pow2 (q - l + fw) / pow2 (l - fw - q) - 2 ^ fw)

/-- What a rounding does beyond the largest finite magnitude: saturate or give infinity.  FP8E4 has no infinity
(04 R92, R93). -/
def roundFloat (f : Nat) (sat trunc : Bool) : Val → Nat
  | .absent => absentCode f
  | .nan => canonNan f
  | .inf s => (if f = 4 then maxFinite 4 else infCode f) + (if s then 2 ^ (fmtWidth f - 1) else 0)
  | .fin s num den e =>
    let sign := if s then 2 ^ (fmtWidth f - 1) else 0
    if num = 0 then sign
    else
      let q := lastPlace f (log2Quot num den + e)
      let code := packMagnitude f (roundAt trunc num den e q) q
      if code ≤ maxFinite f then code + sign
      else if sat || f == 4 then maxFinite f + sign
      else infCode f + sign

/-- A value clamped and rounded into an integer format (04 R83, R93). -/
def roundInt (f : Nat) (trunc : Bool) : Val → Nat
  | .absent => absentCode f
  | .nan => 0
  | .inf s => let (lo, hi) := intRange f; ((if s then lo else hi) % 2 ^ fmtWidth f).toNat
  | .fin s num den e =>
    let (lo, hi) := intRange f
    let m : Int := roundAt trunc num den e 0
    (max lo (min hi (if s then -m else m)) % 2 ^ fmtWidth f).toNat

/-- Round(F, v) of a conversion (04 R93): `sat` is FMT.SAT, `trunc` the RZ bit. -/
def convVal (f : Nat) (sat trunc : Bool) (v : Val) : Nat :=
  if isIntFmt f then roundInt f trunc v else roundFloat f sat trunc v

/-- Round(F, v) of floating-point arithmetic: overflow gives infinity (04 R92). -/
def roundVal (f : Nat) (v : Val) : Nat := roundFloat f false false v

/-! ### FMT (04 R94) -/

/-- FMT.A_FMT -/
def fmtA (w : Word) : Nat := natBits w.toNat 0 4
/-- FMT.B_FMT -/
def fmtB (w : Word) : Nat := natBits w.toNat 4 4
/-- FMT.SCALE_MODE -/
def fmtScale (w : Word) : Nat := natBits w.toNat 8 2
/-- FMT.CB_BLK, as codes per palette block -/
def fmtCbBlk (w : Word) : Nat := 32 * 2 ^ natBits w.toNat 10 2
/-- FMT.CB_ENTRY, as a format code -/
def fmtCbEntry (w : Word) : Nat := match natBits w.toNat 12 2 with | 0 => 6 | 1 => 7 | _ => 4
/-- FMT.ABSENT -/
def fmtAbsent (w : Word) : Bool := natBits w.toNat 14 1 == 1
/-- FMT.SAT -/
def fmtSat (w : Word) : Bool := natBits w.toNat 15 1 == 1
/-- The reset value of FMT (04 R94). -/
def fmtReset : Word := 0xC088

/-! ### Elements of registers -/

/-- Elem(x, w, k) of 15 R331. -/
def elem (x w k : Nat) : Nat := natBits x (w * k) w

/-- Elements put side by side, element 0 lowest. -/
def packElems (w : Nat) : List Nat → Nat
  | [] => 0
  | c :: cs => c % 2 ^ w + 2 ^ w * packElems w cs

/-- Elements of width w that a 32-bit word holds, 1 for 64-bit elements (15 R355). -/
def elemsPerWord (w : Nat) : Nat := if 32 < w then 1 else 32 / w

/-! ### Scales and block quantisation (04 R96 to R101) -/

/-- Whether the scale mode has a block scale. -/
def hasBlockScale (mode : Nat) : Bool := mode == 1 || mode == 2

/-- Whether the scale mode has a tensor scale. -/
def hasTensorScale (mode : Nat) : Bool := mode == 2 || mode == 3

/-- The largest magnitude of a code format (04 R98). -/
def qmax : Nat → Nat
  | 1 => 127 | 2 => 254 | 3 => 7 | 4 => 448 | _ => 57344

/-- Whether a quotient passes the saturation threshold of its code format (04 R98). -/
def passesMax (f : Nat) (y : Val) : Bool :=
  match f with
  | 4 => (Val.fin false 464 1 0).lt y.abs
  | 5 => (Val.fin false 61440 1 0).lt y.abs
  | _ => !y.abs.lt (.fin false (2 * qmax f + 1) 2 0)

/-- Encode(F, y) of 04 R98: rounding, then clamping to ±qmax. -/
def encodeCode (f : Nat) (y : Val) : Nat :=
  match y with
  | .inf s => if isIntFmt f then roundInt f false y else maxFinite f + (if s then 0x80 else 0)
  | _ => convVal f true false y

/-- The outcome of quantising a block: scale code, codes, and counts SAT, UFL, INVALID. -/
structure Quantised where
  scale : Nat
  codes : List Nat
  sat : Nat
  ufl : Nat
  invalid : Nat
  deriving DecidableEq, Repr

/-- A finite number above zero. -/
def Val.isPositive : Val → Bool
  | .fin s n _ _ => !s && n != 0
  | _ => false

/-- The smallest code in 0x01 to 0xFE whose scale is at least a value, or 0xFE (04 R98). -/
def leastScale (target : Val) : Nat :=
  ((List.range 0xFE).map (· + 1)).find? (fun c => !(sc8Value c).lt target) |>.getD 0xFE

/-- The codes and counts of a block under a scale that divides each element (04 R98, step 4). -/
def quantiseUnder (f : Nat) (divisor : Val) (xs : List Val) : List Nat × Nat × Nat × Nat :=
  xs.foldl (fun (cs, sat, ufl, inv) x =>
    match x with
    | .absent => (cs ++ [absentCode f], sat, ufl, inv)
    | .nan => (cs ++ [if isIntFmt f then 0 else canonNan f], sat, ufl, inv + 1)
    | x =>
      let y := x.div divisor
      let c := encodeCode f y
      let isZero := if isIntFmt f then c == 0 else c % 0x80 == 0
      (cs ++ [c], sat + (if passesMax f y then 1 else 0), ufl + (if x.isNonzero && isZero then 1 else 0), inv))
    ([], 0, 0, 0)

/-- QuantiseBlock of 04 R98.  `block` says whether the mode has a block scale; `supplied` is a scale the program gives
(17 R413: 0xFF and 0x00 make every code absent). (DESIGN CHOICE: assumption 108). -/
def quantiseBlock (f : Nat) (block : Bool) (supplied : Option Nat) (t : Val) (xs : List Val) : Quantised :=
  let allAbsent := xs.map fun _ => absentCode f
  if !t.isPositive then ⟨0xFF, allAbsent, 0, 0, 1⟩
  else if xs.all (· == .absent) then ⟨0xFF, allAbsent, 0, 0, 0⟩
  else if block && supplied == some 0xFF then ⟨0xFF, allAbsent, 0, 0, 0⟩
  else if block && supplied == some 0 then ⟨0, allAbsent, 0, 0, 1⟩
  else
    let m := xs.foldl (fun m x => match x with | .absent | .nan => m | x => if m.lt x.abs then x.abs else m) Val.zero
    let s := match supplied with
      | some c => c
      | none => if m.isNonzero then leastScale (m.div ((Val.fin false (qmax f) 1 0).mul t)) else 0x08
    let divisor := if block then (sc8Value s).mul t else t
    let (cs, sat, ufl, inv) := quantiseUnder f divisor xs
    ⟨s, cs, sat, ufl, inv⟩

/-- DequantiseElement of 04 R101: the exact value of a code under its scales. -/
def dequantise (v s t : Val) : Val :=
  match v, s, t with
  | .absent, _, _ => .absent
  | _, .absent, _ => .absent
  | v, s, .fin a b c d => (v.mul s).mul (.fin a b c d)
  | _, _, _ => .absent

/-- The value of a block-scale code in force, absent codes honoured or not (04 R97, R89). -/
def scaleVal (absentOn : Bool) (c : Nat) : Val := decodeVal absentOn 11 c

/-- Entry k of a palette under an entry format (04 R103). -/
def paletteEntry (p : Nat) (entryFmt k : Nat) : Nat := elem p (fmtWidth entryFmt) k

/-! ### Packed dot products (04 R104, R105) -/

/-- The format pairs DOT8 accepts, for an FP32 or INT32 accumulator (04 R104). -/
def dot8Accepts (accFP : Bool) (a b : Nat) : Bool :=
  ((a == 1 || a == 2) && (b == 1 || b == 2)) || (accFP && (a == 4 || a == 5) && (b == 4 || b == 5))

/-- The exact integer value of a finite value with no fraction. -/
def Val.toInt : Val → Int
  | .fin s n _ e => let m : Int := (n * pow2 e / pow2 (-e) : Nat); if s then -m else m
  | _ => 0

/-- PackedDot of 04 R105 over element values: `c` is the accumulator's value. -/
def packedDot (accFP wrap : Bool) (c : Val) (pairs : List (Val × Val)) : Nat :=
  let products := pairs.filterMap fun (x, y) => if x == .absent || y == .absent then none else some (x.mul y)
  let present := products.length + (if c == .absent then 0 else 1)
  if present = 0 then (if accFP then absentCode 8 else absentCode 0)
  else
    let sum := products.foldl Val.add (if c == .absent then Val.zero else Val.zero.add c)
    if accFP then roundVal 8 sum
    else
      let v := sum.toInt
      if wrap then (v % 2 ^ 32).toNat
      else (max (-2147483647) (min 2147483647 v) % 2 ^ 32).toNat

end Sys2Proof.Machine
end

