-- ==== Sys2Proof/Machine/Crumb.lean ====
section
/-! DEFINITION. Terms and crumb records (05 R115 to R122): the recoder, the encoder, and the expansion of a record. -/

namespace Sys2Proof.Machine
set_option Elab.async false
open Sys2Proof

/-- A signed power of two. -/
structure Term where
  neg : Bool
  exp : Int
  deriving DecidableEq, Repr

/-! ### The recoder (05 R115, R116) -/

/-- The most terms an element of a format has (05 R115). -/
def tmax : Nat → Nat
  | 3 => 2 | 1 => 4 | 2 => 5 | 5 => 2 | 4 => 3 | 6 => 5 | _ => 6

/-- Radix-4 Booth digit k of a number whose bits above its width repeat the sign it was extended with. -/
def boothDigit (x : Int) (k : Nat) : Int :=
  let bit (j : Nat) : Int := x / 2 ^ j % 2
  bit (2 * k) + (if k = 0 then 0 else bit (2 * k - 1)) - 2 * bit (2 * k + 1)

/-- The Booth terms of an integer, largest exponent first. -/
def boothTerms (x : Int) : Nat → List Term
  | 0 => []
  | k + 1 =>
    let d := boothDigit x k
    (if d = 0 then [] else [⟨d < 0, 2 * k + (if d.natAbs = 2 then 1 else 0)⟩]) ++ boothTerms x k

/-- The non-adjacent form of a significand from bit p up, smallest exponent first. -/
def nafTerms : Nat → Nat → Nat → List (Bool × Nat)
  | 0, _, _ => []
  | n + 1, m, p =>
    if m % 2 = 0 then nafTerms n (m / 2) (p + 1)
    else if m % 4 = 3 then (true, p) :: nafTerms n ((m + 1) / 2) (p + 1)
    else (false, p) :: nafTerms n (m / 2) (p + 1)

/-- The terms of a code, largest exponent first; none for zero, absent and special elements (05 R115, R116). -/
def termsOf (f c : Nat) : List Term :=
  if isIntFmt f then boothTerms (if f = 2 then c else signedOf (fmtWidth f) c) (tmax f)
  else
    match decodeFloat f c with
    | .fin s m _ e => (nafTerms 16 m 0).reverse.map fun (n, p) => ⟨s != n, p + e⟩
    | _ => []

/-! ### Encoding a chunk (05 R117 to R120) -/

/-- Bytes of a chunk of 32 elements. -/
def chunkBytes (f : Nat) : Nat := 4 * fmtWidth f

/-- Elements packed in memory order. -/
def packCodes (f : Nat) (cs : List Nat) : List Byte := leBytes (cs.length * fmtWidth f / 8) (packElems (fmtWidth f) cs)

/-- Elements of a dense byte image. -/
def unpackCodes (f n : Nat) (bs : List Byte) : List Nat :=
  let v := leValue bs
  (List.range n).map fun k => elem v (fmtWidth f) k

/-- Whether an element is a NaN or an infinity. -/
def isSpecial (f c : Nat) : Bool :=
  isFloatFmt f && match decodeFloat f c with | .nan | .inf _ => true | _ => false

/-- Whether an element is a zero. -/
def isZeroCode (f c : Nat) : Bool :=
  if isIntFmt f then c == 0 else match decodeFloat f c with | .fin _ m _ _ => m == 0 | _ => false

/-- A bit per element. -/
def bitMask (bs : List Bool) : Nat := packElems 1 (bs.map boolToNat)
where
  /-- 1 or 0 -/
  boolToNat (b : Bool) : Nat := if b then 1 else 0

/-- A term byte (05 R118). -/
def termByte (isInt last : Bool) (e0 : Int) (t : Term) : Byte :=
  BitVec.ofNat 8 ((if last then 128 else 0) + (if t.neg then 64 else 0) + (if isInt then t.exp else e0 - t.exp).toNat)

/-- The header of a record (05 R117). -/
def crumbHeader (present absent baseExp f termCount : Nat) (spill : Bool) (scale ovf : Nat) : List Byte :=
  leBytes 16 (present + 2 ^ 32 * absent + 2 ^ 64 * baseExp + 2 ^ 72 * f + 2 ^ 76 * termCount +
    (if spill then 2 ^ 84 else 0) + 2 ^ 88 * scale + 2 ^ 96 * ovf)

/-- Pads or cuts to a length. -/
def padTo (n : Nat) (b : Byte) (l : List Byte) : List Byte := l.take n ++ List.replicate (n - l.length) b

/-- The record of a chunk, and its overflow record in spill form (05 R119).  `ovf` is the distance from record to
overflow record in bytes.  A BF16 code of exponent field 0 with a fraction is a zero whose bytes term form would lose, so
its chunk spills whatever its sign (05 R184). (DEDUCED: assumption 95). -/
def encodeChunk (f allot scale ovf : Nat) (cs : List Nat) : List Byte × Option (List Byte) :=
  let isAbs (c : Nat) : Bool := c == absentCode f
  let pres := cs.map fun c => !isAbs c && !isZeroCode f c
  let present := bitMask pres
  let absent := bitMask (cs.map isAbs)
  let ts := (cs.filter fun c => !isAbs c && !isZeroCode f c).map (termsOf f)
  let all := ts.flatten
  let e0 : Int := all.foldl (fun m t => max m t.exp) (-1000)
  let fits := all.length ≤ allot - 16 && all.all (fun t => e0 - t.exp ≤ 63) &&
    cs.all fun c => isAbs c || (!isSpecial f c && !(isFloatFmt f && isZeroCode f c && c != 0))
  if fits then
    let base := if isIntFmt f || all.isEmpty then 0 else (e0 + 127).toNat
    let bytes := ts.flatMap fun t => t.mapIdx fun i x => termByte (isIntFmt f) (i + 1 == t.length) e0 x
    (padTo allot 0 (crumbHeader present absent base f all.length false scale 0 ++ bytes), none)
  else (padTo allot 0 (crumbHeader present absent 0 f 0 true scale (ovf / 16)), some (packCodes f cs))

/-! ### Reading a record (05 R118, R121) -/

/-- The fields of a header. -/
structure CrumbHeader where
  present : Nat
  absent : Nat
  baseExp : Nat
  fmt : Nat
  termCount : Nat
  spill : Bool
  reserved : Nat
  scale : Nat
  ovf : Nat
  deriving DecidableEq, Repr

/-- The header of a record. -/
def crumbFields (r : List Byte) : CrumbHeader :=
  let v := leValue (r.take 16)
  ⟨natBits v 0 32, natBits v 32 32, natBits v 64 8, natBits v 72 4, natBits v 76 8, natBits v 84 1 == 1, natBits v 85 3,
    natBits v 88 8, natBits v 96 32⟩

/-- Splits term bytes after each byte with LAST set. -/
def splitTerms : List Nat → List Nat → List (List Nat)
  | acc, [] => if acc.isEmpty then [] else [acc.reverse]
  | acc, b :: bs => if 128 ≤ b then (b :: acc).reverse :: splitTerms [] bs else splitTerms (b :: acc) bs

/-- The term bytes of a record, element by element. -/
def recordTerms (r : List Byte) : List (List Nat) :=
  splitTerms [] (((r.drop 16).take (crumbFields r).termCount).map BitVec.toNat)

/-- Whether a record of format f and allotment `allot` is malformed (05 R121). (DEDUCED: assumption 26). -/
def recordBad (f allot : Nat) (r : List Byte) : Bool :=
  let h := crumbFields r
  let ts := recordTerms r
  h.reserved != 0 || (h.present &&& h.absent) != 0 || h.fmt != f || h.termCount > allot - 16 ||
    (!h.spill && (((((r.drop 16).take h.termCount).map BitVec.toNat).filter (128 ≤ ·)).length !=
        ((List.range 32).filter h.present.testBit).length ||
      ts.any (fun t => t.length > tmax f) || (isFloatFmt f && h.baseExp == 0 && h.termCount != 0)))

/-- The value of a term byte (05 R118). -/
def termOfByte (f baseExp b : Nat) : Term :=
  ⟨b / 64 % 2 == 1, if isIntFmt f then (b % 64 : Nat) else (baseExp : Int) - 127 - (b % 64 : Nat)⟩

/-- The terms of each of the 32 elements of a record in term form.  Bytes after the last one with LAST set belong to no
element. (DESIGN CHOICE: assumption 96). -/
def elementTerms (f : Nat) (r : List Byte) : List (List Term) :=
  let h := crumbFields r
  ((List.range 32).foldl (fun (acc, ts) k =>
      if h.present.testBit k then
        (acc ++ [(ts.headD []).map (termOfByte f h.baseExp)], ts.tail)
      else (acc ++ [[]], ts)) (([] : List (List Term)), recordTerms r)).1

/-- The sum of terms. -/
def termSum (ts : List Term) : Val := ts.foldl (fun v t => v.add (.fin t.neg 1 1 t.exp)) Val.zero

/-- The dense codes of a record, given its overflow record; a malformed record is absent throughout (05 R121). -/
def decodeChunk (f allot : Nat) (r ovf : List Byte) : List Nat :=
  let h := crumbFields r
  if recordBad f allot r then List.replicate 32 (absentCode f)
  else if h.spill then unpackCodes f 32 ovf
  else (elementTerms f r).mapIdx fun k ts =>
    if h.absent.testBit k then absentCode f else convVal f true false (termSum ts)

end Sys2Proof.Machine
end

