-- ==== Sys2Proof/Config.lean ====
section
/-! DEFINITION. What the spec leaves open, as constants with no body: nothing can be proved of their values, so every
claim holds whatever they are.  Those that stand for a fresh value each time are applied to `State.freeCount`, which
the step then advances. -/

namespace Sys2Proof.Config
set_option Elab.async false
open Sys2Proof Sys2Proof.Machine

/-- The next move when the agenda is empty (assumption 1). -/
opaque arbiter : Nat → Move

/-- A 32-bit value the spec leaves undefined: handler registers at entry (11 R273; assumption 5). -/
opaque freeWord : Nat → Word

/-- A 64-bit value the spec leaves undefined: handler registers of an easel (11 R273; assumption 5). -/
opaque freeDouble : Nat → Double

/-- What a byte of un-zeroed chip scratchpad holds: occasion, die and offset (07 R185; assumption 6). -/
opaque freeByte : Nat → Nat → Nat → Byte

/-- What host memory holds when the device reads it: occasion, host port and address (13 R303; assumption 7). -/
opaque hostByte : Nat → Nat → Nat → Byte

/-- The boot ROM's bytes (14 R326; assumption 8). -/
opaque bootRom : List Byte

/-- The certificate's bytes (14 R327; assumption 8). -/
opaque certByte : Nat → Byte

/-- Bytes of the certificate, from 0 up (14 R327; assumption 8). -/
opaque certLen : Nat

/-- The public key whose hash is fused: its point's two coordinates (14 R325; assumption 8). -/
opaque svadarKey : Nat × Nat

/-- The private device identity key (14 R326; assumption 8). -/
opaque deviceKey : Nat

/-- The number that ECDSA draws afresh for each signature (14 R326; assumption 8). -/
opaque signDraw : Nat → Nat

/-- Where in the staging area an image begins: 0 firmware, 1 microcode (14 R325; assumption 104). -/
opaque imageAt : Nat → Nat

/-- Where in an image's header a field begins: 0 magic, 1 version, 2 length, 3 digest, 4 signature (14 R325;
assumption 104). -/
opaque headerAt : Nat → Nat

/-- The images a part comes with (14 R325; assumption 104). -/
opaque factoryByte : Nat → Byte

/-- A version the firmware has fused as ROLLBACK_MIN (14 R325; assumption 76). -/
opaque fused : Nat → Nat

/-- What a telemetry double reads after a refresh (14 R329; assumption 8). -/
opaque telemetry : Nat → Nat → Double

/-- Which cached translation, if any, a walk's home uses while it holds one (11 R269; assumption 9). -/
opaque useCached : Nat → Bool

/-- Whether a home that holds the line still has the permission of a store or fetch checked: R170 has a home ask for a
translation when it misses, and R266 gives the codes of a walk (assumption 13). -/
opaque checksHit : Nat → Bool

/-- Which queue the alternation of 10 R239 begins with: the cluster queue, or the die queue (assumption 18). -/
opaque dieFirst : Nat → Bool

/-- The cores and first slices a scheduler would choose for the gangs of a new crew (assumption 18). -/
opaque placement : Nat → List (Nat × Nat)

/-- Which line a slice whose ways are full gives up for a new one (07 R168; assumption 80). -/
opaque victim : Nat → Nat

/-- Instructions a core's special-function queue holds beyond its first (16 R371; assumption 91). -/
opaque sfqDepth : Nat

/-- Instructions a core's conversion queue holds beyond its first (15 R356; assumption 91). -/
opaque cvqDepth : Nat

end Sys2Proof.Config
end

