-- ==== Sys2Proof/WellFormed.lean ====
section
/-! DEFINITION. Which instruction terms are instructions: the checks of 03 R64, R65, R72 and of the reference entries
that depend on the word alone.  A term that fails its check has no encoding; its word takes a precise ILLEGAL trap. -/

namespace Sys2Proof
set_option Elab.async false

/-- The operand fields 112 to 119 name queue registers (03 R50). -/
def isQueue (f : BitVec 7) : Bool := 112 ≤ f.toNat && f.toNat ≤ 119

/-- The scope code 111 is illegal in every instruction that carries one (03 R69). -/
def synOk (sc : BitVec 3) : Bool := sc != 7

/-- A word the FMT register may hold (04 R94). -/
def fmtOk (w : Word) : Bool :=
  (w.extractLsb' 0 4).toNat ≤ 11 && (w.extractLsb' 4 4).toNat ≤ 11 && w.extractLsb' 12 2 != 3 &&
  w.extractLsb' 16 16 == 0

/-- The check of each instruction's own word.  A device step has no word and is always well formed. -/
def Instr.wellFormed : Instr → Bool
  | .aadd t a s r p z l => synOk s && (p == 0 || r != 0) && (z == 0 || l == 0) && !isQueue t && !isQueue a
  | .amin t a s r p z l => synOk s && (p == 0 || r != 0) && (z == 0 || l == 0) && !isQueue t && !isQueue a
  | .amax t a s r p z l => synOk s && (p == 0 || r != 0) && (z == 0 || l == 0) && !isQueue t && !isQueue a
  | .aand t a s r p z l => synOk s && (p == 0 || r != 0) && (z == 0 || l == 0) && !isQueue t && !isQueue a
  | .aor t a s r p z l => synOk s && (p == 0 || r != 0) && (z == 0 || l == 0) && !isQueue t && !isQueue a
  | .axor t a s r p z l => synOk s && (p == 0 || r != 0) && (z == 0 || l == 0) && !isQueue t && !isQueue a
  | .axch t a s r p z l => synOk s && (p == 0 || r != 0) && (z == 0 || l == 0) && !isQueue t && !isQueue a
  | .acas t a s r p z l => synOk s && (p == 0 || r != 0) && (z == 0 || l == 0) && !isQueue t && !isQueue a
  | .afadd t a s r p z l => synOk s && (p == 0 || r != 0) && (z == 0 || l == 0) && !isQueue t && !isQueue a
  | .amsg t _ _ => !isQueue t
  | .and _ _ _ => true
  | .andi _ _ _ => true
  | .bar c _ => c != 0
  | .bara c _ => c != 0
  | .bfi _ _ _ => true
  | .bfx _ _ _ _ => true
  | .bra _ => true
  | .braZ c _ => !isQueue c && c != 120
  | .brc c _ => !isQueue c
  | .call c _ => !isQueue c && c != 120
  | .cbt _ _ => true
  | .cbtReg _ _ => true
  | .cflush _ => true
  | .clz _ _ _ => true
  | .coal _ _ _ _ => true
  | .cvt _ _ _ _ _ => true
  | .dmma _ _ _ _ => true
  | .dot8 _ _ _ f => f != 3
  | .dot4 _ _ _ f => f != 3
  | .dqt _ _ _ _ => true
  | .eret => true
  | .eretAbandon => true
  | .exit => true
  | .fadd _ _ _ _ => true
  | .fsub _ _ _ _ => true
  | .fmul _ _ _ _ => true
  | .ffma _ _ _ _ => true
  | .fmin _ _ _ _ => true
  | .fmax _ _ _ _ => true
  | .fcmp _ _ _ _ c => c != 7
  | .frcp _ _ _ _ => true
  | .frsq _ _ _ _ => true
  | .fsqrt _ _ _ _ => true
  | .fexp2 _ _ _ _ => true
  | .flog2 _ _ _ _ => true
  | .fsin _ _ _ _ => true
  | .fcos _ _ _ _ => true
  | .ftanh _ _ _ _ => true
  | .fence s _ => synOk s
  | .fmt i => fmtOk (i.zeroExtend 32)
  | .grpl t a b _ => !isQueue t && !isQueue a && !isQueue b
  | .iadd _ _ _ f => f == 0 || f == 1 || f == 2 || f == 4
  | .isub _ _ _ f => f == 0 || f == 1 || f == 2 || f == 4
  | .imul _ _ _ f => f == 0 || f == 1
  | .imulh _ _ _ f => f == 0 || f == 1
  | .imad _ _ _ f => f == 0 || f == 1
  | .imin _ _ _ f => f == 0 || f == 1
  | .imax _ _ _ f => f == 0 || f == 1
  | .iaddi _ _ _ => true
  | .icmp _ _ _ _ _ => true
  | .jdec t _ s r p z l => synOk s && (p == 0 || r != 0) && (z == 0 || l == 0) && (z == 0 || t == 120) && !isQueue t
  | .join => true
  | .ld _ _ _ _ => true
  | .ldw _ _ _ _ => true
  | .ldq _ _ _ _ => true
  | .lda _ _ s _ _ _ => synOk s
  | .ldx _ _ _ _ => true
  | .lea _ _ _ _ s => s.toNat ≤ 4
  | .loop c _ => !isQueue c
  | .lui _ _ => true
  | .mapf d a => !isQueue d && !isQueue a
  | .mcrd t a b => !isQueue t && !isQueue a && !isQueue b
  | .mfs d n => !isQueue d && n.toNat ≤ 0x16
  | .mts a n => !isQueue a && n.toNat ≤ 0x16
  | .mkab _ _ _ _ _ => true
  | .mon t _ s _ _ _ => synOk s && !isQueue t
  | .mwait d a => !isQueue d && !isQueue a
  | .nop => true
  | .or _ _ _ => true
  | .ori _ _ _ => true
  | .pack _ _ _ _ _ => true
  | .popc _ _ => true
  | .prom _ s r => synOk s && r != 0
  | .qadjInjected d a => !isQueue d && !isQueue a
  | .qadjConsumed d a => !isQueue d && !isQueue a
  | .qadjClearLost d a => !isQueue d && !isQueue a
  | .qadjQueryToLost d a => !isQueue d && !isQueue a
  | .qbind _ _ => true
  | .qbindUn _ => true
  | .qnt d a _ => d.toNat < 112 && a.toNat < 112
  | .qntFix d a _ => d.toNat < 112 && a.toNat < 112
  | .qntHealth d _ => d.toNat < 112 || d == 120 || d == 124
  | .qstat _ _ => true
  | .quiet d a b _ => !isQueue d && !isQueue a && !isQueue b
  | .rcp _ => true
  | .rdx _ _ f => f.toNat ≤ 5 || (8 ≤ f.toNat && f.toNat ≤ 11)
  | .scan _ _ _ f => f.toNat ≤ 5 || (8 ≤ f.toNat && f.toNat ≤ 11)
  | .regang => true
  | .ret a => !isQueue a
  | .rply => true
  | .sel _ _ _ _ => true
  | .setx _ _ _ => true
  | .shfl _ a _ _ => !isQueue a
  | .shl _ _ _ => true
  | .shr _ _ _ => true
  | .shli _ _ _ => true
  | .shri _ _ _ => true
  | .sra _ _ _ => true
  | .spawn _ => true
  | .spcfg _ _ w => w.toNat ≤ 8
  | .st _ _ _ => true
  | .stw _ _ _ => true
  | .stq _ _ _ => true
  | .stl _ _ s _ _ => synOk s
  | .tbnd _ _ _ => true
  | .tcfg _ _ _ x n => x == 1 || n.toNat < 8
  | .tclr c x n => (x == 1 || n.toNat < 8) && (x == 0 || c == 0)
  | .tdrn _ _ _ _ _ => true
  | .tlbiPage _ => true
  | .tlbiAsid _ => true
  | .tlbiAll => true
  | .tmma _ _ _ _ => true
  | .trap _ => true
  | .tsta _ _ _ _ => true
  | .tstg _ _ => true
  | .tsub _ _ _ => true
  | .ttbl _ _ => true
  | .unpk _ _ _ _ _ => true
  | .unpkCb _ _ _ => true
  | .vote _ _ f => f.toNat ≤ 4
  | .waitp _ p => p.toNat ≤ 5
  | .win i => i.toNat % 8 == 0 && i.toNat ≤ 504
  | .xcp d a x k _ => !isQueue d && !isQueue a && (k == 0 || x == 0)
  | .xcpr d a x k _ => !isQueue d && !isQueue a && (k == 0 || x == 0)
  | .xqap d a x k => !isQueue d && !isQueue a && (k == 0 || x == 0)
  | .xwait d a => !isQueue d && !isQueue a
  | .xwaitAll d => !isQueue d
  | .xor _ _ _ => true
  | .xori _ _ _ => true
  | .yld => true
  | .loadDataArrival _ _ _ => true
  | .atomicReturn _ _ => true
  | .storeAck _ _ => true
  | .sfqResult _ _ _ => true
  | .cvqResult _ _ _ => true
  | .paletteArrival _ => true
  | .xcprDataArrival _ _ _ => true
  | .homeRequest _ _ => true
  | .translationRequest _ _ => true
  | .fillReturn _ => true
  | .writeBack _ _ => true
  | .writeBackAck _ => true
  | .ownershipRelease _ => true
  | .faultReport _ _ => true
  | .handlerEntry _ _ _ => true
  | .faultLogReply _ _ => true
  | .mcrdRequestArrival _ => true
  | .mcrdLineSend _ => true
  | .mcrdTailReplay _ => true
  | .mcrdLineDeliver _ => true
  | .spcfgComplete _ => true
  | .mwaitTimeout _ _ _ => true
  | .spuriousWake _ _ _ => true
  | .yldExpire _ _ _ => true
  | .quietTimeout _ _ _ => true
  | .engineInstructionStart _ _ => true
  | .tmmaComplete _ _ _ => true
  | .dmmaComplete _ _ => true
  | .drainComplete _ _ => true
  | .tclrComplete _ _ => true
  | .tstgComplete _ _ => true
  | .ttblComplete _ _ => true
  | .tokenArbitration => true
  | .tokenAge _ => true
  | .recordPush _ => true
  | .recordPop _ => true
  | .schedAge _ => true
  | .skipLimit _ => true
  | .crewStart _ => true
  | .crewDone _ => true
  | .preemptRequest _ => true
  | .preemptWait _ => true
  | .preemptStopped _ => true
  | .contextSaved _ => true
  | .standbyResume _ => true
  | .packetAccept _ => true
  | .queueLook _ _ => true
  | .copy _ _ => true
  | .transpose _ _ => true
  | .convert _ _ => true
  | .convertTranspose _ _ => true
  | .quantise _ _ => true
  | .quantiseTranspose _ _ => true
  | .crumbEncode _ _ => true
  | .crumbDecode _ _ => true
  | .paletteExpand _ _ => true
  | .gather _ _ => true
  | .scatter _ _ => true
  | .scaleMax _ _ => true
  | .alignedIntegerSum _ _ => true
  | .fill _ _ => true
  | .launch _ _ => true
  | .graph _ _ => true
  | .waitval _ _ => true
  | .signal _ _ => true
  | .waitvalRead _ _ => true
  | .waitvalTimeout _ _ => true
  | .launchSlotGrant _ _ => true
  | .graphBufferReady _ _ => true
  | .graphNodesStart _ _ => true
  | .xqapAppend _ _ => true
  | .reductionContribution _ _ _ => true
  | .bteSlotResume _ _ => true
  | .completionRecordWrite _ _ => true
  | .ringCoalCount _ => true
  | .ringCoalTime _ => true
  | .eventRecordDrain => true
  | .ringRdIndexWrite _ _ => true
  | .migrationStart _ => true
  | .migrationCopyDone _ _ => true
  | .migrationRoundDone _ _ => true
  | .migrationFreeze _ => true
  | .migrationDone _ => true
  | .faultResume _ => true
  | .faultResumeAbort _ => true
  | .tlbiRequestPage _ _ => true
  | .tlbiRequestAsid _ => true
  | .tlbiRequestAll => true
  | .semaphoreTake _ _ => true
  | .semaphoreFree _ _ => true
  | .queueTableWrite _ _ _ => true
  | .doorbell _ _ => true
  | .jobEntryWrite _ _ _ => true
  | .droppedClear => true
  | .counterClear _ => true
  | .attestationStart => true
  | .attestationReportDone => true
  | .telemetryRefresh => true
  | .registerWrite _ _ => true
  | .messageInject _ => true
  | .messageResponse _ _ _ => true
  | .inboundFabricRequest _ _ _ _ _ _ _ => true
  | .amsgReceive _ _ _ _ => true
  | .respTimeout _ => true
  | .queryWait _ => true
  | .queryReceive _ _ => true
  | .queryAnswer _ _ => true
  | .waveStart _ => true
  | .down _ _ _ => true
  | .up _ _ _ _ _ => true
  | .decide _ _ _ => true
  | .portRetrain _ => true
  | .retrainLimit _ => true
  | .hostRequest _ _ _ _ _ => true
  | .hostHotReset _ => true
  | .hostLinkLoss _ => true
  | .powerOnReset => true
  | .reset => true
  | .resetDone => true
  | .bootVerify => true
  | .trainingDone _ => true
  | .bridgeRetryFail _ => true
  | .internalParityError => true
  | .controllerFailure _ => true
  | .ueLimit _ => true
  | .thermalSensorUpdate _ _ => true
  | .refresh _ => true
  | .calibration _ => true
  | .scrub _ _ _ => true
  | .activate _ _ _ _ _ => true
  | .supplementaryActivate _ _ _ _ => true
  | .precharge _ _ _ => true
  | .select _ _ _ => true
  | .hbmRead _ _ => true
  | .stripeWrite _ => true
  | .parityDelta _ _ => true
  | .gatherWait _ => true
  | .linkLevelReplay _ => true
  | .portTraining _ _ => true
  | .ticketWrite _ _ _ => true

end Sys2Proof
end

