-- ==== Sys2Proof/Decode.lean ====
section
/-! DEFINITION. Decoding and encoding of the 32-bit instruction words (03 R62 to R65, R70, R72).  The device steps of
the second half of the opcode table have no encoding. -/

namespace Sys2Proof
set_option Elab.async false

/-- Why a word is no instruction (03 R72). -/
inductive Reject where
  /-- fewer than four bytes -/
  | short
  /-- the opcode 0x7F -/
  | opcode
  /-- a field marked zero is non-zero, or a function value is not assigned -/
  | reserved
  /-- a combination of fields that the entry forbids -/
  | illFormed
  deriving DecidableEq, Repr

/-- Bits [lo + n − 1 : lo] of a word. -/
def fld (w : Word) (lo n : Nat) : BitVec n := w.extractLsb' lo n

/-- The instruction whose pattern in the opcode table the word matches (03 R62, R70). -/
def decodePattern (w : Word) : Except Reject Instr :=
  match (fld w 25 7).toNat with
  | 0x00 => if fld w 0 25 == 0 then .ok .nop
      else .error .reserved
  | 0x01 => if fld w 18 7 == 120 then .ok (.bra (fld w 0 18))
      else .ok (.braZ (fld w 18 7) (fld w 0 18))
  | 0x02 => .ok (.brc (fld w 18 7) (fld w 0 18))
  | 0x03 => if fld w 18 7 == 0 then .ok (.rcp (fld w 0 18))
      else .error .reserved
  | 0x04 => if fld w 0 25 == 0 then .ok .join
      else .error .reserved
  | 0x05 => .ok (.call (fld w 18 7) (fld w 0 18))
  | 0x06 => if fld w 18 7 == 0 && fld w 0 11 == 0 then .ok (.ret (fld w 11 7))
      else .error .reserved
  | 0x07 => if fld w 0 25 == 0 then .ok .regang
      else .error .reserved
  | 0x08 => if fld w 0 10 == 0 then .ok (.loop (fld w 18 7) (fld w 10 8))
      else .error .reserved
  | 0x09 => if fld w 0 25 == 0 then .ok .exit
      else .error .reserved
  | 0x0a => if fld w 18 7 == 0 then .ok (.trap (fld w 0 18))
      else .error .reserved
  | 0x0b => if fld w 18 7 == 0 then .ok (.win (fld w 0 18))
      else .error .reserved
  | 0x0c => if fld w 18 7 == 0 && fld w 10 1 == 0 then .ok (.setx (fld w 11 7) (fld w 9 1) (fld w 0 9))
      else .error .reserved
  | 0x0d => if fld w 16 9 == 0 then .ok (.fmt (fld w 0 16))
      else .error .reserved
  | 0x0e => if fld w 0 25 == 0 then .ok .yld
      else .error .reserved
  | 0x0f => if fld w 0 25 == 0 then .ok .eret
      else if fld w 0 25 == 1 then .ok .eretAbandon
      else .error .reserved
  | 0x10 => .ok (.iadd (fld w 18 7) (fld w 11 7) (fld w 4 7) (fld w 0 4))
  | 0x11 => .ok (.isub (fld w 18 7) (fld w 11 7) (fld w 4 7) (fld w 0 4))
  | 0x12 => .ok (.imul (fld w 18 7) (fld w 11 7) (fld w 4 7) (fld w 0 4))
  | 0x13 => .ok (.imulh (fld w 18 7) (fld w 11 7) (fld w 4 7) (fld w 0 4))
  | 0x14 => .ok (.imad (fld w 18 7) (fld w 11 7) (fld w 4 7) (fld w 0 4))
  | 0x15 => .ok (.imin (fld w 18 7) (fld w 11 7) (fld w 4 7) (fld w 0 4))
  | 0x16 => .ok (.imax (fld w 18 7) (fld w 11 7) (fld w 4 7) (fld w 0 4))
  | 0x17 => if fld w 0 4 == 0 then .ok (.and (fld w 18 7) (fld w 11 7) (fld w 4 7))
      else .error .reserved
  | 0x18 => if fld w 0 4 == 0 then .ok (.or (fld w 18 7) (fld w 11 7) (fld w 4 7))
      else .error .reserved
  | 0x19 => if fld w 0 4 == 0 then .ok (.xor (fld w 18 7) (fld w 11 7) (fld w 4 7))
      else .error .reserved
  | 0x1a => if fld w 0 4 == 0 then .ok (.shl (fld w 18 7) (fld w 11 7) (fld w 4 7))
      else .error .reserved
  | 0x1b => if fld w 0 4 == 0 then .ok (.shr (fld w 18 7) (fld w 11 7) (fld w 4 7))
      else .error .reserved
  | 0x1c => if fld w 0 4 == 0 then .ok (.sra (fld w 18 7) (fld w 11 7) (fld w 4 7))
      else .error .reserved
  | 0x1d => if fld w 0 11 == 0 then .ok (.popc (fld w 18 7) (fld w 11 7))
      else .error .reserved
  | 0x1e => if fld w 1 10 == 0 then .ok (.clz (fld w 18 7) (fld w 11 7) (fld w 0 1))
      else .error .reserved
  | 0x1f => if fld w 1 3 == 0 then .ok (.bfx (fld w 18 7) (fld w 11 7) (fld w 4 7) (fld w 0 1))
      else .error .reserved
  | 0x20 => if fld w 0 4 == 0 then .ok (.bfi (fld w 18 7) (fld w 11 7) (fld w 4 7))
      else .error .reserved
  | 0x21 => .ok (.icmp (fld w 18 7) (fld w 11 7) (fld w 4 7) (fld w 3 1) (fld w 0 3))
  | 0x22 => if fld w 1 3 == 0 then .ok (.sel (fld w 18 7) (fld w 11 7) (fld w 4 7) (fld w 0 1))
      else .error .reserved
  | 0x23 => .ok (.lea (fld w 18 7) (fld w 11 7) (fld w 4 7) (fld w 3 1) (fld w 0 3))
  | 0x24 => .ok (.iaddi (fld w 18 7) (fld w 11 7) (fld w 0 11))
  | 0x25 => .ok (.andi (fld w 18 7) (fld w 11 7) (fld w 0 11))
  | 0x26 => .ok (.ori (fld w 18 7) (fld w 11 7) (fld w 0 11))
  | 0x27 => .ok (.xori (fld w 18 7) (fld w 11 7) (fld w 0 11))
  | 0x28 => if fld w 5 6 == 0 then .ok (.shli (fld w 18 7) (fld w 11 7) (fld w 0 5))
      else .error .reserved
  | 0x29 => if fld w 5 6 == 0 then .ok (.shri (fld w 18 7) (fld w 11 7) (fld w 0 5))
      else .error .reserved
  | 0x2a => .ok (.lui (fld w 18 7) (fld w 0 18))
  | 0x2b => if fld w 2 2 == 0 then .ok (.fadd (fld w 18 7) (fld w 11 7) (fld w 4 7) (fld w 0 2))
      else .error .reserved
  | 0x2c => if fld w 2 2 == 0 then .ok (.fsub (fld w 18 7) (fld w 11 7) (fld w 4 7) (fld w 0 2))
      else .error .reserved
  | 0x2d => if fld w 2 2 == 0 then .ok (.fmul (fld w 18 7) (fld w 11 7) (fld w 4 7) (fld w 0 2))
      else .error .reserved
  | 0x2e => if fld w 2 2 == 0 then .ok (.ffma (fld w 18 7) (fld w 11 7) (fld w 4 7) (fld w 0 2))
      else .error .reserved
  | 0x2f => if fld w 2 2 == 0 then .ok (.fmin (fld w 18 7) (fld w 11 7) (fld w 4 7) (fld w 0 2))
      else .error .reserved
  | 0x30 => if fld w 2 2 == 0 then .ok (.fmax (fld w 18 7) (fld w 11 7) (fld w 4 7) (fld w 0 2))
      else .error .reserved
  | 0x31 => .ok (.fcmp (fld w 18 7) (fld w 11 7) (fld w 4 7) (fld w 3 1) (fld w 0 3))
  | 0x32 => if fld w 6 5 == 0 then .ok (.cvt (fld w 18 7) (fld w 11 7) (fld w 5 1) (fld w 4 1) (fld w 0 4))
      else .error .reserved
  | 0x33 => if fld w 4 14 == 64 then .ok (.qntHealth (fld w 18 7) (fld w 0 4))
      else if fld w 4 7 == 0 then .ok (.qnt (fld w 18 7) (fld w 11 7) (fld w 0 4))
      else if fld w 4 7 == 32 then .ok (.qntFix (fld w 18 7) (fld w 11 7) (fld w 0 4))
      else .error .reserved
  | 0x34 => .ok (.dqt (fld w 18 7) (fld w 11 7) (fld w 4 7) (fld w 0 4))
  | 0x35 => if fld w 5 6 == 0 then .ok (.frcp (fld w 18 7) (fld w 11 7) (fld w 4 1) (fld w 0 4))
      else .error .reserved
  | 0x36 => if fld w 5 6 == 0 then .ok (.frsq (fld w 18 7) (fld w 11 7) (fld w 4 1) (fld w 0 4))
      else .error .reserved
  | 0x37 => if fld w 5 6 == 0 then .ok (.fsqrt (fld w 18 7) (fld w 11 7) (fld w 4 1) (fld w 0 4))
      else .error .reserved
  | 0x38 => if fld w 5 6 == 0 then .ok (.fexp2 (fld w 18 7) (fld w 11 7) (fld w 4 1) (fld w 0 4))
      else .error .reserved
  | 0x39 => if fld w 5 6 == 0 then .ok (.flog2 (fld w 18 7) (fld w 11 7) (fld w 4 1) (fld w 0 4))
      else .error .reserved
  | 0x3a => if fld w 5 6 == 0 then .ok (.fsin (fld w 18 7) (fld w 11 7) (fld w 4 1) (fld w 0 4))
      else .error .reserved
  | 0x3b => if fld w 5 6 == 0 then .ok (.fcos (fld w 18 7) (fld w 11 7) (fld w 4 1) (fld w 0 4))
      else .error .reserved
  | 0x3c => if fld w 5 6 == 0 then .ok (.ftanh (fld w 18 7) (fld w 11 7) (fld w 4 1) (fld w 0 4))
      else .error .reserved
  | 0x3d => if fld w 2 2 == 0 then .ok (.dot8 (fld w 18 7) (fld w 11 7) (fld w 4 7) (fld w 0 2))
      else .error .reserved
  | 0x3e => if fld w 2 2 == 0 then .ok (.dot4 (fld w 18 7) (fld w 11 7) (fld w 4 7) (fld w 0 2))
      else .error .reserved
  | 0x3f => if fld w 2 2 == 0 then .ok (.pack (fld w 18 7) (fld w 11 7) (fld w 4 7) (fld w 1 1) (fld w 0 1))
      else .error .reserved
  | 0x40 => if fld w 4 7 == 0 && fld w 1 1 == 0 then .ok (.unpk (fld w 18 7) (fld w 11 7) (fld w 3 1) (fld w 2 1) (fld w 0 1))
      else if fld w 0 4 == 2 then .ok (.unpkCb (fld w 18 7) (fld w 11 7) (fld w 4 7))
      else .error .reserved
  | 0x41 => if fld w 2 9 == 0 then .ok (.tsta (fld w 18 7) (fld w 11 7) (fld w 1 1) (fld w 0 1))
      else .error .reserved
  | 0x42 => if fld w 1 3 == 0 then .ok (.coal (fld w 18 7) (fld w 11 7) (fld w 4 7) (fld w 0 1))
      else .error .reserved
  | 0x43 => if fld w 2 2 == 0 then .ok (.mkab (fld w 18 7) (fld w 11 7) (fld w 4 7) (fld w 1 1) (fld w 0 1))
      else .error .reserved
  | 0x44 => if fld w 2 2 == 0 then .ok (.shfl (fld w 18 7) (fld w 11 7) (fld w 4 7) (fld w 0 2))
      else .error .reserved
  | 0x45 => if fld w 4 7 == 0 then .ok (.vote (fld w 18 7) (fld w 11 7) (fld w 0 4))
      else .error .reserved
  | 0x46 => if fld w 4 7 == 0 then .ok (.rdx (fld w 18 7) (fld w 11 7) (fld w 0 4))
      else .error .reserved
  | 0x47 => if fld w 5 6 == 0 then .ok (.scan (fld w 18 7) (fld w 11 7) (fld w 4 1) (fld w 0 4))
      else .error .reserved
  | 0x48 => .ok (.ld (fld w 18 7) (fld w 11 7) (fld w 4 7) (fld w 0 4))
  | 0x49 => .ok (.ldw (fld w 18 7) (fld w 11 7) (fld w 4 7) (fld w 0 4))
  | 0x4a => .ok (.ldq (fld w 18 7) (fld w 11 7) (fld w 4 7) (fld w 0 4))
  | 0x4b => if fld w 0 4 == 0 then .ok (.st (fld w 18 7) (fld w 11 7) (fld w 4 7))
      else .error .reserved
  | 0x4c => if fld w 0 4 == 0 then .ok (.stw (fld w 18 7) (fld w 11 7) (fld w 4 7))
      else .error .reserved
  | 0x4d => if fld w 0 4 == 0 then .ok (.stq (fld w 18 7) (fld w 11 7) (fld w 4 7))
      else .error .reserved
  | 0x4e => .ok (.ldx (fld w 18 7) (fld w 11 7) (fld w 4 7) (fld w 0 4))
  | 0x4f => if fld w 18 7 == 0 && fld w 4 7 == 0 then .ok (.cbt (fld w 11 7) (fld w 0 4))
      else if fld w 11 14 == 128 then .ok (.cbtReg (fld w 4 7) (fld w 0 4))
      else .error .reserved
  | 0x50 => if fld w 0 4 == 0 then .ok (.mcrd (fld w 18 7) (fld w 11 7) (fld w 4 7))
      else .error .reserved
  | 0x51 => if fld w 18 7 == 0 && fld w 0 11 == 0 then .ok (.cflush (fld w 11 7))
      else .error .reserved
  | 0x52 => if fld w 18 7 == 0 && fld w 3 8 == 0 then .ok (.waitp (fld w 11 7) (fld w 0 3))
      else .error .reserved
  | 0x53 => if fld w 7 1 == 0 && fld w 4 1 == 0 then .ok (.lda (fld w 18 7) (fld w 11 7) (fld w 8 3) (fld w 6 1) (fld w 5 1) (fld w 0 4))
      else .error .reserved
  | 0x54 => if fld w 6 1 == 0 && fld w 0 5 == 0 then .ok (.stl (fld w 18 7) (fld w 11 7) (fld w 8 3) (fld w 7 1) (fld w 5 1))
      else .error .reserved
  | 0x55 => if fld w 11 14 == 0 && fld w 0 6 == 0 then .ok (.fence (fld w 8 3) (fld w 6 2))
      else .error .reserved
  | 0x56 => if fld w 18 7 == 0 && fld w 0 6 == 0 then .ok (.prom (fld w 11 7) (fld w 8 3) (fld w 6 2))
      else .error .reserved
  | 0x57 => .ok (.aadd (fld w 18 7) (fld w 11 7) (fld w 8 3) (fld w 6 2) (fld w 5 1) (fld w 4 1) (fld w 0 4))
  | 0x58 => .ok (.amin (fld w 18 7) (fld w 11 7) (fld w 8 3) (fld w 6 2) (fld w 5 1) (fld w 4 1) (fld w 0 4))
  | 0x59 => .ok (.amax (fld w 18 7) (fld w 11 7) (fld w 8 3) (fld w 6 2) (fld w 5 1) (fld w 4 1) (fld w 0 4))
  | 0x5a => .ok (.aand (fld w 18 7) (fld w 11 7) (fld w 8 3) (fld w 6 2) (fld w 5 1) (fld w 4 1) (fld w 0 4))
  | 0x5b => .ok (.aor (fld w 18 7) (fld w 11 7) (fld w 8 3) (fld w 6 2) (fld w 5 1) (fld w 4 1) (fld w 0 4))
  | 0x5c => .ok (.axor (fld w 18 7) (fld w 11 7) (fld w 8 3) (fld w 6 2) (fld w 5 1) (fld w 4 1) (fld w 0 4))
  | 0x5d => .ok (.axch (fld w 18 7) (fld w 11 7) (fld w 8 3) (fld w 6 2) (fld w 5 1) (fld w 4 1) (fld w 0 4))
  | 0x5e => .ok (.acas (fld w 18 7) (fld w 11 7) (fld w 8 3) (fld w 6 2) (fld w 5 1) (fld w 4 1) (fld w 0 4))
  | 0x5f => .ok (.afadd (fld w 18 7) (fld w 11 7) (fld w 8 3) (fld w 6 2) (fld w 5 1) (fld w 4 1) (fld w 0 4))
  | 0x60 => if fld w 7 1 == 0 && fld w 4 1 == 0 then .ok (.mon (fld w 18 7) (fld w 11 7) (fld w 8 3) (fld w 6 1) (fld w 5 1) (fld w 0 4))
      else .error .reserved
  | 0x61 => if fld w 0 11 == 0 then .ok (.mwait (fld w 18 7) (fld w 11 7))
      else .error .reserved
  | 0x62 => if fld w 9 16 == 0 then .ok (.bar (fld w 4 5) (fld w 0 4))
      else .error .reserved
  | 0x63 => if fld w 9 16 == 0 then .ok (.bara (fld w 4 5) (fld w 0 4))
      else .error .reserved
  | 0x64 => if fld w 3 22 == 8 then .ok (.qbindUn (fld w 0 3))
      else if fld w 6 19 == 0 then .ok (.qbind (fld w 3 3) (fld w 0 3))
      else .error .reserved
  | 0x65 => if fld w 3 15 == 0 then .ok (.qstat (fld w 18 7) (fld w 0 3))
      else .error .reserved
  | 0x66 => .ok (.xcp (fld w 18 7) (fld w 11 7) (fld w 5 6) (fld w 4 1) (fld w 0 4))
  | 0x67 => .ok (.xcpr (fld w 18 7) (fld w 11 7) (fld w 5 6) (fld w 4 1) (fld w 0 4))
  | 0x68 => if fld w 0 4 == 0 then .ok (.xqap (fld w 18 7) (fld w 11 7) (fld w 5 6) (fld w 4 1))
      else .error .reserved
  | 0x69 => if fld w 0 18 == 1 then .ok (.xwaitAll (fld w 18 7))
      else if fld w 0 11 == 0 then .ok (.xwait (fld w 18 7) (fld w 11 7))
      else .error .reserved
  | 0x6a => .ok (.tmma (fld w 18 7) (fld w 11 7) (fld w 4 7) (fld w 0 4))
  | 0x6b => .ok (.dmma (fld w 18 7) (fld w 11 7) (fld w 4 7) (fld w 0 4))
  | 0x6c => if fld w 4 7 == 0 then .ok (.tbnd (fld w 18 7) (fld w 11 7) (fld w 0 4))
      else .error .reserved
  | 0x6d => if fld w 11 14 == 0 then .ok (.tcfg (fld w 10 1) (fld w 8 2) (fld w 6 2) (fld w 5 1) (fld w 0 5))
      else .error .reserved
  | 0x6e => .ok (.tdrn (fld w 18 7) (fld w 11 7) (fld w 5 6) (fld w 4 1) (fld w 0 4))
  | 0x6f => if fld w 7 18 == 0 then .ok (.tclr (fld w 6 1) (fld w 5 1) (fld w 0 5))
      else .error .reserved
  | 0x70 => if fld w 11 7 == 0 && fld w 0 4 == 0 then .ok (.tstg (fld w 18 7) (fld w 4 7))
      else .error .reserved
  | 0x71 => if fld w 0 11 == 0 then .ok (.ttbl (fld w 18 7) (fld w 11 7))
      else .error .reserved
  | 0x72 => if fld w 18 7 == 0 && fld w 0 11 == 0 then .ok (.spawn (fld w 11 7))
      else .error .reserved
  | 0x73 => .ok (.jdec (fld w 18 7) (fld w 11 7) (fld w 8 3) (fld w 6 2) (fld w 5 1) (fld w 4 1) (fld w 0 4))
  | 0x74 => if fld w 4 7 == 0 then .ok (.tsub (fld w 18 7) (fld w 11 7) (fld w 0 4))
      else .error .reserved
  | 0x75 => .ok (.grpl (fld w 18 7) (fld w 11 7) (fld w 4 7) (fld w 0 4))
  | 0x76 => .ok (.quiet (fld w 18 7) (fld w 11 7) (fld w 4 7) (fld w 0 4))
  | 0x77 => if fld w 0 11 == 0 then .ok (.qadjInjected (fld w 18 7) (fld w 11 7))
      else if fld w 0 11 == 1 then .ok (.qadjConsumed (fld w 18 7) (fld w 11 7))
      else if fld w 0 11 == 2 then .ok (.qadjClearLost (fld w 18 7) (fld w 11 7))
      else if fld w 0 11 == 3 then .ok (.qadjQueryToLost (fld w 18 7) (fld w 11 7))
      else .error .reserved
  | 0x78 => if fld w 11 7 == 0 then .ok (.amsg (fld w 18 7) (fld w 4 7) (fld w 0 4))
      else .error .reserved
  | 0x79 => if fld w 5 13 == 0 then .ok (.mfs (fld w 18 7) (fld w 0 5))
      else .error .reserved
  | 0x7a => if fld w 18 7 == 0 && fld w 5 6 == 0 then .ok (.mts (fld w 11 7) (fld w 0 5))
      else .error .reserved
  | 0x7b => if fld w 0 25 == 2 then .ok .tlbiAll
      else if fld w 18 7 == 0 && fld w 0 11 == 0 then .ok (.tlbiPage (fld w 11 7))
      else if fld w 18 7 == 0 && fld w 0 11 == 1 then .ok (.tlbiAsid (fld w 11 7))
      else .error .reserved
  | 0x7c => if fld w 0 11 == 0 then .ok (.mapf (fld w 18 7) (fld w 11 7))
      else .error .reserved
  | 0x7d => if fld w 0 25 == 0 then .ok .rply
      else .error .reserved
  | 0x7e => if fld w 6 19 == 0 then .ok (.spcfg (fld w 5 1) (fld w 4 1) (fld w 0 4))
      else .error .reserved
  | _ => .error .opcode

/-- The instruction a word is, or why it is none. -/
def decodeWord (w : Word) : Except Reject Instr := do
  let i ← decodePattern w
  if i.wellFormed then .ok i else .error .illFormed

/-- A word from four bytes, little-endian (00 R3). -/
def wordOfBytes (b0 b1 b2 b3 : Byte) : Word := b3 ++ b2 ++ b1 ++ b0

/-- The four bytes of a word, lowest address first. -/
def bytesOfWord (w : Word) : List Byte :=
  [w.extractLsb' 0 8, w.extractLsb' 8 8, w.extractLsb' 16 8, w.extractLsb' 24 8]

/-- Decoding of bytes as they lie in memory: the instruction and the bytes after it. -/
def decode : List Byte → Except Reject (Instr × List Byte)
  | b0 :: b1 :: b2 :: b3 :: rest => (decodeWord (wordOfBytes b0 b1 b2 b3)).map (·, rest)
  | _ => .error .short

/-- A word from its fixed bits and its fields, each with its lowest bit (03 R62). -/
def packWord (base : Nat) (fs : List (Nat × Nat)) : Word :=
  BitVec.ofNat 32 (fs.foldl (fun acc f => acc + f.1 * 2 ^ f.2) base)

/-- The word of an instruction (03 R62, R70); a device step has none, and NOP's word stands for it. -/
def encodeWord : Instr → Word
  | .aadd t a s r p z l => packWord 0xAE000000 [(t.toNat, 18), (a.toNat, 11), (s.toNat, 8), (r.toNat, 6), (p.toNat, 5), (z.toNat, 4), (l.toNat, 0)]
  | .amin t a s r p z l => packWord 0xB0000000 [(t.toNat, 18), (a.toNat, 11), (s.toNat, 8), (r.toNat, 6), (p.toNat, 5), (z.toNat, 4), (l.toNat, 0)]
  | .amax t a s r p z l => packWord 0xB2000000 [(t.toNat, 18), (a.toNat, 11), (s.toNat, 8), (r.toNat, 6), (p.toNat, 5), (z.toNat, 4), (l.toNat, 0)]
  | .aand t a s r p z l => packWord 0xB4000000 [(t.toNat, 18), (a.toNat, 11), (s.toNat, 8), (r.toNat, 6), (p.toNat, 5), (z.toNat, 4), (l.toNat, 0)]
  | .aor t a s r p z l => packWord 0xB6000000 [(t.toNat, 18), (a.toNat, 11), (s.toNat, 8), (r.toNat, 6), (p.toNat, 5), (z.toNat, 4), (l.toNat, 0)]
  | .axor t a s r p z l => packWord 0xB8000000 [(t.toNat, 18), (a.toNat, 11), (s.toNat, 8), (r.toNat, 6), (p.toNat, 5), (z.toNat, 4), (l.toNat, 0)]
  | .axch t a s r p z l => packWord 0xBA000000 [(t.toNat, 18), (a.toNat, 11), (s.toNat, 8), (r.toNat, 6), (p.toNat, 5), (z.toNat, 4), (l.toNat, 0)]
  | .acas t a s r p z l => packWord 0xBC000000 [(t.toNat, 18), (a.toNat, 11), (s.toNat, 8), (r.toNat, 6), (p.toNat, 5), (z.toNat, 4), (l.toNat, 0)]
  | .afadd t a s r p z l => packWord 0xBE000000 [(t.toNat, 18), (a.toNat, 11), (s.toNat, 8), (r.toNat, 6), (p.toNat, 5), (z.toNat, 4), (l.toNat, 0)]
  | .amsg t b l => packWord 0xF0000000 [(t.toNat, 18), (b.toNat, 4), (l.toNat, 0)]
  | .and d a b => packWord 0x2E000000 [(d.toNat, 18), (a.toNat, 11), (b.toNat, 4)]
  | .andi d a i => packWord 0x4A000000 [(d.toNat, 18), (a.toNat, 11), (i.toNat, 0)]
  | .bar c n => packWord 0xC4000000 [(c.toNat, 4), (n.toNat, 0)]
  | .bara c n => packWord 0xC6000000 [(c.toNat, 4), (n.toNat, 0)]
  | .bfi d a b => packWord 0x40000000 [(d.toNat, 18), (a.toNat, 11), (b.toNat, 4)]
  | .bfx d a b s => packWord 0x3E000000 [(d.toNat, 18), (a.toNat, 11), (b.toNat, 4), (s.toNat, 0)]
  | .bra o => packWord 0x03E00000 [(o.toNat, 0)]
  | .braZ c o => packWord 0x02000000 [(c.toNat, 18), (o.toNat, 0)]
  | .brc c o => packWord 0x04000000 [(c.toNat, 18), (o.toNat, 0)]
  | .call c o => packWord 0x0A000000 [(c.toNat, 18), (o.toNat, 0)]
  | .cbt a l => packWord 0x9E000000 [(a.toNat, 11), (l.toNat, 0)]
  | .cbtReg b l => packWord 0x9E040000 [(b.toNat, 4), (l.toNat, 0)]
  | .cflush a => packWord 0xA2000000 [(a.toNat, 11)]
  | .clz d a z => packWord 0x3C000000 [(d.toNat, 18), (a.toNat, 11), (z.toNat, 0)]
  | .coal d a b x => packWord 0x84000000 [(d.toNat, 18), (a.toNat, 11), (b.toNat, 4), (x.toNat, 0)]
  | .cvt d a z v l => packWord 0x64000000 [(d.toNat, 18), (a.toNat, 11), (z.toNat, 5), (v.toNat, 4), (l.toNat, 0)]
  | .dmma t a b l => packWord 0xD6000000 [(t.toNat, 18), (a.toNat, 11), (b.toNat, 4), (l.toNat, 0)]
  | .dot8 d a b f => packWord 0x7A000000 [(d.toNat, 18), (a.toNat, 11), (b.toNat, 4), (f.toNat, 0)]
  | .dot4 d a b f => packWord 0x7C000000 [(d.toNat, 18), (a.toNat, 11), (b.toNat, 4), (f.toNat, 0)]
  | .dqt d a b l => packWord 0x68000000 [(d.toNat, 18), (a.toNat, 11), (b.toNat, 4), (l.toNat, 0)]
  | .eret => packWord 0x1E000000 []
  | .eretAbandon => packWord 0x1E000001 []
  | .exit => packWord 0x12000000 []
  | .fadd d a b p => packWord 0x56000000 [(d.toNat, 18), (a.toNat, 11), (b.toNat, 4), (p.toNat, 0)]
  | .fsub d a b p => packWord 0x58000000 [(d.toNat, 18), (a.toNat, 11), (b.toNat, 4), (p.toNat, 0)]
  | .fmul d a b p => packWord 0x5A000000 [(d.toNat, 18), (a.toNat, 11), (b.toNat, 4), (p.toNat, 0)]
  | .ffma d a b p => packWord 0x5C000000 [(d.toNat, 18), (a.toNat, 11), (b.toNat, 4), (p.toNat, 0)]
  | .fmin d a b p => packWord 0x5E000000 [(d.toNat, 18), (a.toNat, 11), (b.toNat, 4), (p.toNat, 0)]
  | .fmax d a b p => packWord 0x60000000 [(d.toNat, 18), (a.toNat, 11), (b.toNat, 4), (p.toNat, 0)]
  | .fcmp d a b x c => packWord 0x62000000 [(d.toNat, 18), (a.toNat, 11), (b.toNat, 4), (x.toNat, 3), (c.toNat, 0)]
  | .frcp d a k l => packWord 0x6A000000 [(d.toNat, 18), (a.toNat, 11), (k.toNat, 4), (l.toNat, 0)]
  | .frsq d a k l => packWord 0x6C000000 [(d.toNat, 18), (a.toNat, 11), (k.toNat, 4), (l.toNat, 0)]
  | .fsqrt d a k l => packWord 0x6E000000 [(d.toNat, 18), (a.toNat, 11), (k.toNat, 4), (l.toNat, 0)]
  | .fexp2 d a k l => packWord 0x70000000 [(d.toNat, 18), (a.toNat, 11), (k.toNat, 4), (l.toNat, 0)]
  | .flog2 d a k l => packWord 0x72000000 [(d.toNat, 18), (a.toNat, 11), (k.toNat, 4), (l.toNat, 0)]
  | .fsin d a k l => packWord 0x74000000 [(d.toNat, 18), (a.toNat, 11), (k.toNat, 4), (l.toNat, 0)]
  | .fcos d a k l => packWord 0x76000000 [(d.toNat, 18), (a.toNat, 11), (k.toNat, 4), (l.toNat, 0)]
  | .ftanh d a k l => packWord 0x78000000 [(d.toNat, 18), (a.toNat, 11), (k.toNat, 4), (l.toNat, 0)]
  | .fence s r => packWord 0xAA000000 [(s.toNat, 8), (r.toNat, 6)]
  | .fmt i => packWord 0x1A000000 [(i.toNat, 0)]
  | .grpl t a b l => packWord 0xEA000000 [(t.toNat, 18), (a.toNat, 11), (b.toNat, 4), (l.toNat, 0)]
  | .iadd d a b f => packWord 0x20000000 [(d.toNat, 18), (a.toNat, 11), (b.toNat, 4), (f.toNat, 0)]
  | .isub d a b f => packWord 0x22000000 [(d.toNat, 18), (a.toNat, 11), (b.toNat, 4), (f.toNat, 0)]
  | .imul d a b f => packWord 0x24000000 [(d.toNat, 18), (a.toNat, 11), (b.toNat, 4), (f.toNat, 0)]
  | .imulh d a b f => packWord 0x26000000 [(d.toNat, 18), (a.toNat, 11), (b.toNat, 4), (f.toNat, 0)]
  | .imad d a b f => packWord 0x28000000 [(d.toNat, 18), (a.toNat, 11), (b.toNat, 4), (f.toNat, 0)]
  | .imin d a b f => packWord 0x2A000000 [(d.toNat, 18), (a.toNat, 11), (b.toNat, 4), (f.toNat, 0)]
  | .imax d a b f => packWord 0x2C000000 [(d.toNat, 18), (a.toNat, 11), (b.toNat, 4), (f.toNat, 0)]
  | .iaddi d a i => packWord 0x48000000 [(d.toNat, 18), (a.toNat, 11), (i.toNat, 0)]
  | .icmp d a b x c => packWord 0x42000000 [(d.toNat, 18), (a.toNat, 11), (b.toNat, 4), (x.toNat, 3), (c.toNat, 0)]
  | .jdec t a s r p z l => packWord 0xE6000000 [(t.toNat, 18), (a.toNat, 11), (s.toNat, 8), (r.toNat, 6), (p.toNat, 5), (z.toNat, 4), (l.toNat, 0)]
  | .join => packWord 0x08000000 []
  | .ld t a o l => packWord 0x90000000 [(t.toNat, 18), (a.toNat, 11), (o.toNat, 4), (l.toNat, 0)]
  | .ldw t a o l => packWord 0x92000000 [(t.toNat, 18), (a.toNat, 11), (o.toNat, 4), (l.toNat, 0)]
  | .ldq t a o l => packWord 0x94000000 [(t.toNat, 18), (a.toNat, 11), (o.toNat, 4), (l.toNat, 0)]
  | .lda t a s r w l => packWord 0xA6000000 [(t.toNat, 18), (a.toNat, 11), (s.toNat, 8), (r.toNat, 6), (w.toNat, 5), (l.toNat, 0)]
  | .ldx t a b l => packWord 0x9C000000 [(t.toNat, 18), (a.toNat, 11), (b.toNat, 4), (l.toNat, 0)]
  | .lea d a b u s => packWord 0x46000000 [(d.toNat, 18), (a.toNat, 11), (b.toNat, 4), (u.toNat, 3), (s.toNat, 0)]
  | .loop c n => packWord 0x10000000 [(c.toNat, 18), (n.toNat, 10)]
  | .lui d i => packWord 0x54000000 [(d.toNat, 18), (i.toNat, 0)]
  | .mapf d a => packWord 0xF8000000 [(d.toNat, 18), (a.toNat, 11)]
  | .mcrd t a b => packWord 0xA0000000 [(t.toNat, 18), (a.toNat, 11), (b.toNat, 4)]
  | .mfs d n => packWord 0xF2000000 [(d.toNat, 18), (n.toNat, 0)]
  | .mts a n => packWord 0xF4000000 [(a.toNat, 11), (n.toNat, 0)]
  | .mkab d a b v x => packWord 0x86000000 [(d.toNat, 18), (a.toNat, 11), (b.toNat, 4), (v.toNat, 1), (x.toNat, 0)]
  | .mon t a s r w l => packWord 0xC0000000 [(t.toNat, 18), (a.toNat, 11), (s.toNat, 8), (r.toNat, 6), (w.toNat, 5), (l.toNat, 0)]
  | .mwait d a => packWord 0xC2000000 [(d.toNat, 18), (a.toNat, 11)]
  | .nop => packWord 0x00000000 []
  | .or d a b => packWord 0x30000000 [(d.toNat, 18), (a.toNat, 11), (b.toNat, 4)]
  | .ori d a i => packWord 0x4C000000 [(d.toNat, 18), (a.toNat, 11), (i.toNat, 0)]
  | .pack d a b k h => packWord 0x7E000000 [(d.toNat, 18), (a.toNat, 11), (b.toNat, 4), (k.toNat, 1), (h.toNat, 0)]
  | .popc d a => packWord 0x3A000000 [(d.toNat, 18), (a.toNat, 11)]
  | .prom a s r => packWord 0xAC000000 [(a.toNat, 11), (s.toNat, 8), (r.toNat, 6)]
  | .qadjInjected d a => packWord 0xEE000000 [(d.toNat, 18), (a.toNat, 11)]
  | .qadjConsumed d a => packWord 0xEE000001 [(d.toNat, 18), (a.toNat, 11)]
  | .qadjClearLost d a => packWord 0xEE000002 [(d.toNat, 18), (a.toNat, 11)]
  | .qadjQueryToLost d a => packWord 0xEE000003 [(d.toNat, 18), (a.toNat, 11)]
  | .qbind p q => packWord 0xC8000000 [(p.toNat, 3), (q.toNat, 0)]
  | .qbindUn q => packWord 0xC8000040 [(q.toNat, 0)]
  | .qnt d a l => packWord 0x66000000 [(d.toNat, 18), (a.toNat, 11), (l.toNat, 0)]
  | .qntFix d a l => packWord 0x66000200 [(d.toNat, 18), (a.toNat, 11), (l.toNat, 0)]
  | .qntHealth d l => packWord 0x66000400 [(d.toNat, 18), (l.toNat, 0)]
  | .qstat d n => packWord 0xCA000000 [(d.toNat, 18), (n.toNat, 0)]
  | .quiet d a b l => packWord 0xEC000000 [(d.toNat, 18), (a.toNat, 11), (b.toNat, 4), (l.toNat, 0)]
  | .rcp o => packWord 0x06000000 [(o.toNat, 0)]
  | .rdx d a f => packWord 0x8C000000 [(d.toNat, 18), (a.toNat, 11), (f.toNat, 0)]
  | .scan d a e f => packWord 0x8E000000 [(d.toNat, 18), (a.toNat, 11), (e.toNat, 4), (f.toNat, 0)]
  | .regang => packWord 0x0E000000 []
  | .ret a => packWord 0x0C000000 [(a.toNat, 11)]
  | .rply => packWord 0xFA000000 []
  | .sel d a b v => packWord 0x44000000 [(d.toNat, 18), (a.toNat, 11), (b.toNat, 4), (v.toNat, 0)]
  | .setx a w o => packWord 0x18000000 [(a.toNat, 11), (w.toNat, 9), (o.toNat, 0)]
  | .shfl d a b m => packWord 0x88000000 [(d.toNat, 18), (a.toNat, 11), (b.toNat, 4), (m.toNat, 0)]
  | .shl d a b => packWord 0x34000000 [(d.toNat, 18), (a.toNat, 11), (b.toNat, 4)]
  | .shr d a b => packWord 0x36000000 [(d.toNat, 18), (a.toNat, 11), (b.toNat, 4)]
  | .shli d a s => packWord 0x50000000 [(d.toNat, 18), (a.toNat, 11), (s.toNat, 0)]
  | .shri d a s => packWord 0x52000000 [(d.toNat, 18), (a.toNat, 11), (s.toNat, 0)]
  | .sra d a b => packWord 0x38000000 [(d.toNat, 18), (a.toNat, 11), (b.toNat, 4)]
  | .spawn a => packWord 0xE4000000 [(a.toNat, 11)]
  | .spcfg o z w => packWord 0xFC000000 [(o.toNat, 5), (z.toNat, 4), (w.toNat, 0)]
  | .st t a o => packWord 0x96000000 [(t.toNat, 18), (a.toNat, 11), (o.toNat, 4)]
  | .stw t a o => packWord 0x98000000 [(t.toNat, 18), (a.toNat, 11), (o.toNat, 4)]
  | .stq t a o => packWord 0x9A000000 [(t.toNat, 18), (a.toNat, 11), (o.toNat, 4)]
  | .stl t a s r w => packWord 0xA8000000 [(t.toNat, 18), (a.toNat, 11), (s.toNat, 8), (r.toNat, 7), (w.toNat, 5)]
  | .tbnd t a l => packWord 0xD8000000 [(t.toNat, 18), (a.toNat, 11), (l.toNat, 0)]
  | .tcfg w e g x n => packWord 0xDA000000 [(w.toNat, 10), (e.toNat, 8), (g.toNat, 6), (x.toNat, 5), (n.toNat, 0)]
  | .tclr c x n => packWord 0xDE000000 [(c.toNat, 6), (x.toNat, 5), (n.toNat, 0)]
  | .tdrn d a x k l => packWord 0xDC000000 [(d.toNat, 18), (a.toNat, 11), (x.toNat, 5), (k.toNat, 4), (l.toNat, 0)]
  | .tlbiPage a => packWord 0xF6000000 [(a.toNat, 11)]
  | .tlbiAsid a => packWord 0xF6000001 [(a.toNat, 11)]
  | .tlbiAll => packWord 0xF6000002 []
  | .tmma t a b l => packWord 0xD4000000 [(t.toNat, 18), (a.toNat, 11), (b.toNat, 4), (l.toNat, 0)]
  | .trap i => packWord 0x14000000 [(i.toNat, 0)]
  | .tsta d a v x => packWord 0x82000000 [(d.toNat, 18), (a.toNat, 11), (v.toNat, 1), (x.toNat, 0)]
  | .tstg t b => packWord 0xE0000000 [(t.toNat, 18), (b.toNat, 4)]
  | .tsub t a l => packWord 0xE8000000 [(t.toNat, 18), (a.toNat, 11), (l.toNat, 0)]
  | .ttbl t a => packWord 0xE2000000 [(t.toNat, 18), (a.toNat, 11)]
  | .unpk d a b s m => packWord 0x80000000 [(d.toNat, 18), (a.toNat, 11), (b.toNat, 3), (s.toNat, 2), (m.toNat, 0)]
  | .unpkCb d a b => packWord 0x80000002 [(d.toNat, 18), (a.toNat, 11), (b.toNat, 4)]
  | .vote d a f => packWord 0x8A000000 [(d.toNat, 18), (a.toNat, 11), (f.toNat, 0)]
  | .waitp a p => packWord 0xA4000000 [(a.toNat, 11), (p.toNat, 0)]
  | .win i => packWord 0x16000000 [(i.toNat, 0)]
  | .xcp d a x k l => packWord 0xCC000000 [(d.toNat, 18), (a.toNat, 11), (x.toNat, 5), (k.toNat, 4), (l.toNat, 0)]
  | .xcpr d a x k l => packWord 0xCE000000 [(d.toNat, 18), (a.toNat, 11), (x.toNat, 5), (k.toNat, 4), (l.toNat, 0)]
  | .xqap d a x k => packWord 0xD0000000 [(d.toNat, 18), (a.toNat, 11), (x.toNat, 5), (k.toNat, 4)]
  | .xwait d a => packWord 0xD2000000 [(d.toNat, 18), (a.toNat, 11)]
  | .xwaitAll d => packWord 0xD2000001 [(d.toNat, 18)]
  | .xor d a b => packWord 0x32000000 [(d.toNat, 18), (a.toNat, 11), (b.toNat, 4)]
  | .xori d a i => packWord 0x4E000000 [(d.toNat, 18), (a.toNat, 11), (i.toNat, 0)]
  | .yld => packWord 0x1C000000 []
  | .loadDataArrival _ _ _ => 0
  | .atomicReturn _ _ => 0
  | .storeAck _ _ => 0
  | .sfqResult _ _ _ => 0
  | .cvqResult _ _ _ => 0
  | .paletteArrival _ => 0
  | .xcprDataArrival _ _ _ => 0
  | .homeRequest _ _ => 0
  | .translationRequest _ _ => 0
  | .fillReturn _ => 0
  | .writeBack _ _ => 0
  | .writeBackAck _ => 0
  | .ownershipRelease _ => 0
  | .faultReport _ _ => 0
  | .handlerEntry _ _ _ => 0
  | .faultLogReply _ _ => 0
  | .mcrdRequestArrival _ => 0
  | .mcrdLineSend _ => 0
  | .mcrdTailReplay _ => 0
  | .mcrdLineDeliver _ => 0
  | .spcfgComplete _ => 0
  | .mwaitTimeout _ _ _ => 0
  | .spuriousWake _ _ _ => 0
  | .yldExpire _ _ _ => 0
  | .quietTimeout _ _ _ => 0
  | .engineInstructionStart _ _ => 0
  | .tmmaComplete _ _ _ => 0
  | .dmmaComplete _ _ => 0
  | .drainComplete _ _ => 0
  | .tclrComplete _ _ => 0
  | .tstgComplete _ _ => 0
  | .ttblComplete _ _ => 0
  | .tokenArbitration => 0
  | .tokenAge _ => 0
  | .recordPush _ => 0
  | .recordPop _ => 0
  | .schedAge _ => 0
  | .skipLimit _ => 0
  | .crewStart _ => 0
  | .crewDone _ => 0
  | .preemptRequest _ => 0
  | .preemptWait _ => 0
  | .preemptStopped _ => 0
  | .contextSaved _ => 0
  | .standbyResume _ => 0
  | .packetAccept _ => 0
  | .queueLook _ _ => 0
  | .copy _ _ => 0
  | .transpose _ _ => 0
  | .convert _ _ => 0
  | .convertTranspose _ _ => 0
  | .quantise _ _ => 0
  | .quantiseTranspose _ _ => 0
  | .crumbEncode _ _ => 0
  | .crumbDecode _ _ => 0
  | .paletteExpand _ _ => 0
  | .gather _ _ => 0
  | .scatter _ _ => 0
  | .scaleMax _ _ => 0
  | .alignedIntegerSum _ _ => 0
  | .fill _ _ => 0
  | .launch _ _ => 0
  | .graph _ _ => 0
  | .waitval _ _ => 0
  | .signal _ _ => 0
  | .waitvalRead _ _ => 0
  | .waitvalTimeout _ _ => 0
  | .launchSlotGrant _ _ => 0
  | .graphBufferReady _ _ => 0
  | .graphNodesStart _ _ => 0
  | .xqapAppend _ _ => 0
  | .reductionContribution _ _ _ => 0
  | .bteSlotResume _ _ => 0
  | .completionRecordWrite _ _ => 0
  | .ringCoalCount _ => 0
  | .ringCoalTime _ => 0
  | .eventRecordDrain => 0
  | .ringRdIndexWrite _ _ => 0
  | .migrationStart _ => 0
  | .migrationCopyDone _ _ => 0
  | .migrationRoundDone _ _ => 0
  | .migrationFreeze _ => 0
  | .migrationDone _ => 0
  | .faultResume _ => 0
  | .faultResumeAbort _ => 0
  | .tlbiRequestPage _ _ => 0
  | .tlbiRequestAsid _ => 0
  | .tlbiRequestAll => 0
  | .semaphoreTake _ _ => 0
  | .semaphoreFree _ _ => 0
  | .queueTableWrite _ _ _ => 0
  | .doorbell _ _ => 0
  | .jobEntryWrite _ _ _ => 0
  | .droppedClear => 0
  | .counterClear _ => 0
  | .attestationStart => 0
  | .attestationReportDone => 0
  | .telemetryRefresh => 0
  | .registerWrite _ _ => 0
  | .messageInject _ => 0
  | .messageResponse _ _ _ => 0
  | .inboundFabricRequest _ _ _ _ _ _ _ => 0
  | .amsgReceive _ _ _ _ => 0
  | .respTimeout _ => 0
  | .queryWait _ => 0
  | .queryReceive _ _ => 0
  | .queryAnswer _ _ => 0
  | .waveStart _ => 0
  | .down _ _ _ => 0
  | .up _ _ _ _ _ => 0
  | .decide _ _ _ => 0
  | .portRetrain _ => 0
  | .retrainLimit _ => 0
  | .hostRequest _ _ _ _ _ => 0
  | .hostHotReset _ => 0
  | .hostLinkLoss _ => 0
  | .powerOnReset => 0
  | .reset => 0
  | .resetDone => 0
  | .bootVerify => 0
  | .trainingDone _ => 0
  | .bridgeRetryFail _ => 0
  | .internalParityError => 0
  | .controllerFailure _ => 0
  | .ueLimit _ => 0
  | .thermalSensorUpdate _ _ => 0
  | .refresh _ => 0
  | .calibration _ => 0
  | .scrub _ _ _ => 0
  | .activate _ _ _ _ _ => 0
  | .supplementaryActivate _ _ _ _ => 0
  | .precharge _ _ _ => 0
  | .select _ _ _ => 0
  | .hbmRead _ _ => 0
  | .stripeWrite _ => 0
  | .parityDelta _ _ => 0
  | .gatherWait _ => 0
  | .linkLevelReplay _ => 0
  | .portTraining _ _ => 0
  | .ticketWrite _ _ _ => 0

/-- The bytes of a well-formed instruction. -/
def encode (i : Instr) : List Byte := bytesOfWord (encodeWord i)

/-- Whether the opcode table gives the row an encoding. -/
def Instr.isWord : Instr → Bool
  | .aadd _ _ _ _ _ _ _ => true
  | .amin _ _ _ _ _ _ _ => true
  | .amax _ _ _ _ _ _ _ => true
  | .aand _ _ _ _ _ _ _ => true
  | .aor _ _ _ _ _ _ _ => true
  | .axor _ _ _ _ _ _ _ => true
  | .axch _ _ _ _ _ _ _ => true
  | .acas _ _ _ _ _ _ _ => true
  | .afadd _ _ _ _ _ _ _ => true
  | .amsg _ _ _ => true
  | .and _ _ _ => true
  | .andi _ _ _ => true
  | .bar _ _ => true
  | .bara _ _ => true
  | .bfi _ _ _ => true
  | .bfx _ _ _ _ => true
  | .bra _ => true
  | .braZ _ _ => true
  | .brc _ _ => true
  | .call _ _ => true
  | .cbt _ _ => true
  | .cbtReg _ _ => true
  | .cflush _ => true
  | .clz _ _ _ => true
  | .coal _ _ _ _ => true
  | .cvt _ _ _ _ _ => true
  | .dmma _ _ _ _ => true
  | .dot8 _ _ _ _ => true
  | .dot4 _ _ _ _ => true
  | .dqt _ _ _ _ => true
  | .eret => true
  | .eretAbandon => true
  | .exit => true
  | .fadd _ _ _ _ => true
  | .fsub _ _ _ _ => true
  | .fmul _ _ _ _ => true
  | .ffma _ _ _ _ => true
  | .fmin _ _ _ _ => true
  | .fmax _ _ _ _ => true
  | .fcmp _ _ _ _ _ => true
  | .frcp _ _ _ _ => true
  | .frsq _ _ _ _ => true
  | .fsqrt _ _ _ _ => true
  | .fexp2 _ _ _ _ => true
  | .flog2 _ _ _ _ => true
  | .fsin _ _ _ _ => true
  | .fcos _ _ _ _ => true
  | .ftanh _ _ _ _ => true
  | .fence _ _ => true
  | .fmt _ => true
  | .grpl _ _ _ _ => true
  | .iadd _ _ _ _ => true
  | .isub _ _ _ _ => true
  | .imul _ _ _ _ => true
  | .imulh _ _ _ _ => true
  | .imad _ _ _ _ => true
  | .imin _ _ _ _ => true
  | .imax _ _ _ _ => true
  | .iaddi _ _ _ => true
  | .icmp _ _ _ _ _ => true
  | .jdec _ _ _ _ _ _ _ => true
  | .join => true
  | .ld _ _ _ _ => true
  | .ldw _ _ _ _ => true
  | .ldq _ _ _ _ => true
  | .lda _ _ _ _ _ _ => true
  | .ldx _ _ _ _ => true
  | .lea _ _ _ _ _ => true
  | .loop _ _ => true
  | .lui _ _ => true
  | .mapf _ _ => true
  | .mcrd _ _ _ => true
  | .mfs _ _ => true
  | .mts _ _ => true
  | .mkab _ _ _ _ _ => true
  | .mon _ _ _ _ _ _ => true
  | .mwait _ _ => true
  | .nop => true
  | .or _ _ _ => true
  | .ori _ _ _ => true
  | .pack _ _ _ _ _ => true
  | .popc _ _ => true
  | .prom _ _ _ => true
  | .qadjInjected _ _ => true
  | .qadjConsumed _ _ => true
  | .qadjClearLost _ _ => true
  | .qadjQueryToLost _ _ => true
  | .qbind _ _ => true
  | .qbindUn _ => true
  | .qnt _ _ _ => true
  | .qntFix _ _ _ => true
  | .qntHealth _ _ => true
  | .qstat _ _ => true
  | .quiet _ _ _ _ => true
  | .rcp _ => true
  | .rdx _ _ _ => true
  | .scan _ _ _ _ => true
  | .regang => true
  | .ret _ => true
  | .rply => true
  | .sel _ _ _ _ => true
  | .setx _ _ _ => true
  | .shfl _ _ _ _ => true
  | .shl _ _ _ => true
  | .shr _ _ _ => true
  | .shli _ _ _ => true
  | .shri _ _ _ => true
  | .sra _ _ _ => true
  | .spawn _ => true
  | .spcfg _ _ _ => true
  | .st _ _ _ => true
  | .stw _ _ _ => true
  | .stq _ _ _ => true
  | .stl _ _ _ _ _ => true
  | .tbnd _ _ _ => true
  | .tcfg _ _ _ _ _ => true
  | .tclr _ _ _ => true
  | .tdrn _ _ _ _ _ => true
  | .tlbiPage _ => true
  | .tlbiAsid _ => true
  | .tlbiAll => true
  | .tmma _ _ _ _ => true
  | .trap _ => true
  | .tsta _ _ _ _ => true
  | .tstg _ _ => true
  | .tsub _ _ _ => true
  | .ttbl _ _ => true
  | .unpk _ _ _ _ _ => true
  | .unpkCb _ _ _ => true
  | .vote _ _ _ => true
  | .waitp _ _ => true
  | .win _ => true
  | .xcp _ _ _ _ _ => true
  | .xcpr _ _ _ _ _ => true
  | .xqap _ _ _ _ => true
  | .xwait _ _ => true
  | .xwaitAll _ => true
  | .xor _ _ _ => true
  | .xori _ _ _ => true
  | .yld => true
  | .loadDataArrival _ _ _ => false
  | .atomicReturn _ _ => false
  | .storeAck _ _ => false
  | .sfqResult _ _ _ => false
  | .cvqResult _ _ _ => false
  | .paletteArrival _ => false
  | .xcprDataArrival _ _ _ => false
  | .homeRequest _ _ => false
  | .translationRequest _ _ => false
  | .fillReturn _ => false
  | .writeBack _ _ => false
  | .writeBackAck _ => false
  | .ownershipRelease _ => false
  | .faultReport _ _ => false
  | .handlerEntry _ _ _ => false
  | .faultLogReply _ _ => false
  | .mcrdRequestArrival _ => false
  | .mcrdLineSend _ => false
  | .mcrdTailReplay _ => false
  | .mcrdLineDeliver _ => false
  | .spcfgComplete _ => false
  | .mwaitTimeout _ _ _ => false
  | .spuriousWake _ _ _ => false
  | .yldExpire _ _ _ => false
  | .quietTimeout _ _ _ => false
  | .engineInstructionStart _ _ => false
  | .tmmaComplete _ _ _ => false
  | .dmmaComplete _ _ => false
  | .drainComplete _ _ => false
  | .tclrComplete _ _ => false
  | .tstgComplete _ _ => false
  | .ttblComplete _ _ => false
  | .tokenArbitration => false
  | .tokenAge _ => false
  | .recordPush _ => false
  | .recordPop _ => false
  | .schedAge _ => false
  | .skipLimit _ => false
  | .crewStart _ => false
  | .crewDone _ => false
  | .preemptRequest _ => false
  | .preemptWait _ => false
  | .preemptStopped _ => false
  | .contextSaved _ => false
  | .standbyResume _ => false
  | .packetAccept _ => false
  | .queueLook _ _ => false
  | .copy _ _ => false
  | .transpose _ _ => false
  | .convert _ _ => false
  | .convertTranspose _ _ => false
  | .quantise _ _ => false
  | .quantiseTranspose _ _ => false
  | .crumbEncode _ _ => false
  | .crumbDecode _ _ => false
  | .paletteExpand _ _ => false
  | .gather _ _ => false
  | .scatter _ _ => false
  | .scaleMax _ _ => false
  | .alignedIntegerSum _ _ => false
  | .fill _ _ => false
  | .launch _ _ => false
  | .graph _ _ => false
  | .waitval _ _ => false
  | .signal _ _ => false
  | .waitvalRead _ _ => false
  | .waitvalTimeout _ _ => false
  | .launchSlotGrant _ _ => false
  | .graphBufferReady _ _ => false
  | .graphNodesStart _ _ => false
  | .xqapAppend _ _ => false
  | .reductionContribution _ _ _ => false
  | .bteSlotResume _ _ => false
  | .completionRecordWrite _ _ => false
  | .ringCoalCount _ => false
  | .ringCoalTime _ => false
  | .eventRecordDrain => false
  | .ringRdIndexWrite _ _ => false
  | .migrationStart _ => false
  | .migrationCopyDone _ _ => false
  | .migrationRoundDone _ _ => false
  | .migrationFreeze _ => false
  | .migrationDone _ => false
  | .faultResume _ => false
  | .faultResumeAbort _ => false
  | .tlbiRequestPage _ _ => false
  | .tlbiRequestAsid _ => false
  | .tlbiRequestAll => false
  | .semaphoreTake _ _ => false
  | .semaphoreFree _ _ => false
  | .queueTableWrite _ _ _ => false
  | .doorbell _ _ => false
  | .jobEntryWrite _ _ _ => false
  | .droppedClear => false
  | .counterClear _ => false
  | .attestationStart => false
  | .attestationReportDone => false
  | .telemetryRefresh => false
  | .registerWrite _ _ => false
  | .messageInject _ => false
  | .messageResponse _ _ _ => false
  | .inboundFabricRequest _ _ _ _ _ _ _ => false
  | .amsgReceive _ _ _ _ => false
  | .respTimeout _ => false
  | .queryWait _ => false
  | .queryReceive _ _ => false
  | .queryAnswer _ _ => false
  | .waveStart _ => false
  | .down _ _ _ => false
  | .up _ _ _ _ _ => false
  | .decide _ _ _ => false
  | .portRetrain _ => false
  | .retrainLimit _ => false
  | .hostRequest _ _ _ _ _ => false
  | .hostHotReset _ => false
  | .hostLinkLoss _ => false
  | .powerOnReset => false
  | .reset => false
  | .resetDone => false
  | .bootVerify => false
  | .trainingDone _ => false
  | .bridgeRetryFail _ => false
  | .internalParityError => false
  | .controllerFailure _ => false
  | .ueLimit _ => false
  | .thermalSensorUpdate _ _ => false
  | .refresh _ => false
  | .calibration _ => false
  | .scrub _ _ _ => false
  | .activate _ _ _ _ _ => false
  | .supplementaryActivate _ _ _ _ => false
  | .precharge _ _ _ => false
  | .select _ _ _ => false
  | .hbmRead _ _ => false
  | .stripeWrite _ => false
  | .parityDelta _ _ => false
  | .gatherWait _ => false
  | .linkLevelReplay _ => false
  | .portTraining _ _ => false
  | .ticketWrite _ _ _ => false

/-- The decoder on a word numbered as the opcode table numbers it: one 32-bit word, laid out little-endian. -/
def decodeTableWord (nbits w : Nat) : Option Instr :=
  if nbits = 0 then none
  else
    match decode (bytesOfWord (BitVec.ofNat 32 (w % 2 ^ nbits))) with
    | .ok (i, _) => some i
    | .error _ => none

end Sys2Proof
end

