-- ==== Sys2Proof/Machine/Flags.lean ====
section
/-! DEFINITION. Status words: cause codes and the trap status registers (11 R272, R285), the conditions of the compare
instructions (16 R370, R381), and the special registers that are computed.  The machine has no flags register; FMT's
fields stand in Machine/Formats. -/

namespace Sys2Proof.Machine
set_option Elab.async false
open Sys2Proof

/-- The cause codes (11 R285). -/
def Cause.code : Cause → Nat
  | .notPresent => 0x01 | .writeProt => 0x02 | .execProt => 0x03 | .badPte => 0x04 | .abandon => 0x0F
  | .illegal => 0x10 | .priv => 0x11 | .regBound => 0x12 | .queue => 0x13 | .address => 0x14 | .align => 0x15
  | .format => 0x16 | .tag => 0x17 | .stack => 0x18 | .joinPc => 0x19 | .regang => 0x1A | .barCount => 0x1B
  | .barDead => 0x1C | .trap => 0x1D | .hfault => 0x1E

/-- TSTATE.HANDLER: the slice is in handler state (11 R272). -/
def Slice.inHandler (sl : Slice) : Bool := natBits sl.tstate.toNat 0 1 == 1

/-- TSTATE.SAVED_MASK (11 R272). -/
def Slice.savedMask (sl : Slice) : BitVec 4 := sl.tstate.extractLsb' 1 4

/-- TSTATE at handler entry: HANDLER, SAVED_MASK, FETCH and PARKED (11 R272). -/
def tstateWord (mask : BitVec 4) (fetch : Bool) (parked : Nat) : Word :=
  BitVec.ofNat 32 (1 + 2 * mask.toNat + (if fetch then 32 else 0) + 64 * min parked 255)

/-- TCAUSE at handler entry: CODE, WRITE, MULTI and INFO (11 R272). -/
def tcauseWord (code : Nat) (write multi : Bool) (info : Nat) : Word :=
  BitVec.ofNat 32 (code + (if write then 64 else 0) + (if multi then 128 else 0) + 2 ^ 14 * info)

/-- An MTS to TSTATE may change SAVED_MASK only (11 R272). -/
def tstateWriteOk (old new : Word) : Bool := natBits new.toNat 5 27 == natBits old.toNat 5 27 && new.getLsbD 0 == old.getLsbD 0

/-- Reserved bits of TCAUSE are zero (11 R272). -/
def tcauseWriteOk (w : Word) : Bool := natBits w.toNat 8 6 == 0

/-- The integer conditions of ICMP on two 32-bit values (16 R381). -/
def icmpCond (c a b : Nat) : Bool :=
  match c with
  | 0 => a == b
  | 1 => a != b
  | 2 => signedOf 32 a < signedOf 32 b
  | 3 => signedOf 32 a ≤ signedOf 32 b
  | 4 => signedOf 32 a > signedOf 32 b
  | 5 => signedOf 32 a ≥ signedOf 32 b
  | 6 => a < b
  | _ => a ≥ b

/-- The conditions of FCMP on two exact values (16 R370). -/
def fcmpCond (c : Nat) (x y : Val) : Bool :=
  if x == .absent || y == .absent then false
  else if x == .nan || y == .nan then c == 1 || c == 6
  else
    match c with
    | 0 => x.eqv y
    | 1 => !x.eqv y
    | 2 => x.lt y
    | 3 => x.lt y || x.eqv y
    | 4 => y.lt x
    | 5 => y.lt x || x.eqv y
    | _ => false

/-- 1 or 0. -/
def boolNat (b : Bool) : Nat := if b then 1 else 0

end Sys2Proof.Machine
end

