-- ==== Sys2Proof/Machine/Ops.lean ====
section
/-! DEFINITION. The named operations every family is written in: finding and updating threads, parting (02 R25), the
next program counter with loop records (16 R390), finishing and barriers (02 R28, R33, R34), taking an exception
(11 R272, R284), returning from one (11 R275) and abandoning a crew (11 R287). -/

namespace Sys2Proof.Machine
set_option Elab.async false
open Sys2Proof

/-- How an instruction ends when it does not complete. -/
inductive Stop where
  /-- a precise trap; the address of each lane for ADDRESS and ALIGN (11 R284) -/
  | trap (c : Cause) (addrs : List (Nat × Nat))
  /-- the party is not ready: nothing happens (10 R257) -/
  | wait
  /-- the party is not ready for want of words or of room in a port queue (03 R53) -/
  | queued
  deriving DecidableEq, Repr

/-- A trap without an address. -/
def Stop.of (c : Cause) : Stop := .trap c []

/-- Traps unless a condition holds. -/
def need (b : Bool) (c : Cause) : Except Stop Unit := if b then .ok () else .error (.of c)

/-- Withholds issue unless a condition holds (10 R257). -/
def ready (b : Bool) : Except Stop Unit := if b then .ok () else .error .wait

/-! ### Crews and gangs -/

/-- A crew by its context number. -/
def State.crew? (s : State) (id : Nat) : Option Crew := s.crews.find? (·.id == id)

/-- Updates a crew. -/
def State.mapCrew (s : State) (id : Nat) (f : Crew → Crew) : State :=
  { s with crews := modifyWhere (·.id == id) f s.crews }

/-- A member of a crew: a gang by its gang-in-crew, or the sequencer role as member 16 (02 R30). -/
def Crew.member? (c : Crew) (m : Nat) : Option Gang := if m = 16 then c.seq else c.gangs[m]?

/-- Updates a member. -/
def Crew.mapMember (c : Crew) (m : Nat) (f : Gang → Gang) : Crew :=
  if m = 16 then { c with seq := c.seq.map f } else { c with gangs := listModify c.gangs m f }

/-- Updates a member of a crew. -/
def State.mapGang (s : State) (id m : Nat) (f : Gang → Gang) : State := s.mapCrew id (·.mapMember m f)

/-- The member numbers of a crew. -/
def Crew.members (c : Crew) : List Nat := List.range c.gangs.length ++ (if c.seq.isSome then [16] else [])

/-- A slice that is absent reads as this one. -/
def noSlice : Slice where
  pc := 0
  mask := 0
  party := 0
  finished := true
  stack := []
  loops := []
  fmt := fmtReset
  wb := 0
  x0 := 0
  x1 := 0
  lc := [0, 0, 0]
  tstate := 0
  tcause := 0
  tmask := 0
  epc := 0
  savedFmt := 0
  savedWb := 0
  savedX0 := 0
  savedX1 := 0
  savedDepth := 0
  pend := []
  wait := .none
  savedWait := .none
  monitor := none
  wake := none
  spur := none
  bound := none
  stamp := 0

/-- A lane with every register and byte zero. -/
def noLane : Lane := ⟨[], [], [], [], 0, []⟩

/-- A slice of a gang. -/
def Gang.slice (g : Gang) (i : Nat) : Slice := g.slices.getD i noSlice

/-- A lane of a gang. -/
def Gang.lane (g : Gang) (l : Nat) : Lane := g.lanes.getD l noLane

/-- Updates a slice. -/
def Gang.mapSlice (g : Gang) (i : Nat) (f : Slice → Slice) : Gang := { g with slices := listModify g.slices i f }

/-- Updates several slices. -/
def Gang.mapSlices (g : Gang) (is : List Nat) (f : Slice → Slice) : Gang :=
  { g with slices := g.slices.mapIdx fun i sl => if is.contains i then f sl else sl }

/-- Updates a lane. -/
def Gang.mapLane (g : Gang) (l : Nat) (f : Lane → Lane) : Gang := { g with lanes := listModify g.lanes l f }

/-- The live slices of a party (02 R25). -/
def Gang.partySlices (g : Gang) (p : Nat) : List Nat :=
  (List.range g.slices.length).filter fun i => let sl := g.slice i; !sl.finished && sl.party == p

/-- The live slices of a gang. -/
def Gang.liveSlices (g : Gang) : List Nat := (List.range g.slices.length).filter fun i => !(g.slice i).finished

/-- A gang has finished when all of its slices have (02 R28). -/
def Gang.finished (g : Gang) : Bool := g.liveSlices.isEmpty

/-- The active lanes of some slices, rising; lane i belongs to slice i div 4 (02 R21). -/
def Gang.activeLanes (g : Gang) (sls : List Nat) : List Nat :=
  sls.flatMap fun i => ((List.range 4).filter fun k => (g.slice i).mask.getLsbD k).map fun k => 4 * i + k

/-- The issuing thread, resolved. -/
structure Ctx where
  crew   : Crew
  member : Nat
  gang   : Gang
  party  : Nat
  sls    : List Nat
  lanes  : List Nat
  deriving Repr

/-- The slice the party's common values are read from: its lowest. -/
def Ctx.first (c : Ctx) : Slice := c.gang.slice (c.sls.headD 0)

/-- The address of the instruction (15 R331, base). -/
def Ctx.base (c : Ctx) : Double := c.first.pc

/-- The bindings of the queue registers: the gang's, or those an instruction began to wait under (17 R410). -/
def Ctx.bindings (c : Ctx) : List (Option Nat) :=
  match c.first.bound with
  | some b => if b.stamp = c.first.stamp && b.pc = c.first.pc && b.handler == c.first.inHandler then b.ports else c.gang.qbind
  | none => c.gang.qbind

/-- The party is in handler state; all its slices entered together (11 R272). -/
def Ctx.inHandler (c : Ctx) : Bool := c.first.inHandler

/-- The die of the thread's cluster (01 R7). -/
def Ctx.die (c : Ctx) : Nat := c.crew.cluster / 12

/-- The ASID of data accesses: the crew's, or the handler's ASID register (11 R276). -/
def Ctx.asid (c : Ctx) : Nat := if c.inHandler then natBits c.crew.hasid.toNat 0 12 else c.crew.asid

/-- The thread that `cur` names, if its party lives. -/
def State.issuer? (s : State) : Option Ctx := do
  let c ← s.crew? s.cur.crew
  let g ← c.member? s.cur.member
  let sls := g.partySlices s.cur.party
  if sls.isEmpty then none else some ⟨c, s.cur.member, g, s.cur.party, sls, g.activeLanes sls⟩

/-- Updates the issuing gang. -/
def State.mapIssuer (s : State) (c : Ctx) (f : Gang → Gang) : State := s.mapGang c.crew.id c.member f

/-- The issuing gang as it now stands. -/
def State.gangNow (s : State) (c : Ctx) : Gang := ((s.crew? c.crew.id).bind (·.member? c.member)).getD c.gang

/-- A free context slot. -/
def freeSlot : Slot where
  state := .free
  cmd := none
  wait := .none
  since := 0
  next := 0
  status := 0
  faultCode := 0
  faultVa := 0
  wrap := false
  absentFill := false
  invalid := false
  badRec := false
  bytes := 0
  sat := 0
  ufl := 0
  index := 0
  ranks := []
  rows := []
  fetched := []
  reread := false
  readAt := 0
  table := []
  stream := []
  done := []
  order := 0

/-- A cluster; one that is not listed is at rest. -/
def noCluster : Cluster where
  ports := List.replicate 8 ⟨[], 0, 0⟩
  tags := []
  slots := List.replicate 16 freeSlot
  inbox := []
  queues := List.replicate 16 ⟨0, 0, false⟩
  pending := []
  turn := 0

/-- A cluster by its number. -/
def State.cluster (s : State) (k : Nat) : Cluster := tabGet s.clusters k noCluster

/-- Updates a cluster. -/
def State.mapCluster (s : State) (k : Nat) (f : Cluster → Cluster) : State :=
  { s with clusters := tabPut noCluster s.clusters k (f (s.cluster k)) }

/-! ### Device events -/

/-- Puts an event record in the device event buffer, which holds 256, or counts it as dropped (09 R233). -/
def State.postEvent (s : State) (r : EventRec) : State :=
  if s.eventBuf.length < 256 then { s with eventBuf := s.eventBuf ++ [r] }
  else { s with dropped := min (s.dropped + 1) 0xFFFFFFFF }

/-- An event record of KIND 6 (09 R228, 11 R278): STATUS, FAULT_CODE, double 1 and FAULT_VA. -/
def eventRec (status faultCode d1 va : Nat) : EventRec :=
  ⟨BitVec.ofNat 64 (status + 2 ^ 8 * 6 + 2 ^ 12 * (faultCode % 16)), BitVec.ofNat 64 d1, BitVec.ofNat 64 va⟩

/-- The record of EVENT 1: an escalated fault (11 R278, R480). -/
def faultEvent (context asid code va : Nat) : EventRec :=
  eventRec 3 code (context % 2 ^ 16 + 2 ^ 16 * (asid % 2 ^ 12) + 2 ^ 28) va

/-! ### The next instruction -/

/-- Whether a loop record's body holds an address (16 R390). -/
def LoopRec.holds (r : LoopRec) (a : Double) : Bool := r.start.toNat ≤ a.toNat && a.toNat ≤ r.last.toNat

/-- The records that stay after a move to an address: a record whose body does not hold it is popped with every record
inside it, and their counters become 0 (16 R390).  Innermost first. -/
def leaveLoops (a : Double) : List LoopRec → List Word → List LoopRec × List Word
  | [], lc => ([], lc)
  | r :: rs, lc =>
    let (rs', lc') := leaveLoops a rs lc
    if rs'.length == rs.length && r.holds a then (r :: rs', lc') else (rs', lc'.set r.k 0)

/-- Continues at an address as a taken branch does (16 R390). -/
def Slice.jump (sl : Slice) (a : Double) : Slice :=
  let (rs, lc) := leaveLoops a sl.loops sl.lc
  { sl with pc := a, loops := rs, lc := lc }

/-- The end of loop bodies at an instruction that was their LAST (16 R390). -/
def endLoops (x : Double) : List LoopRec → List Word → Double × List LoopRec × List Word
  | [], lc => (x + 4, [], lc)
  | r :: rs, lc =>
    if r.last ≠ x then (x + 4, r :: rs, lc)
    else
      let n := lc.getD r.k 0 - 1
      let lc := lc.set r.k n
      if n ≠ 0 then (r.start, r :: rs, lc) else endLoops x rs lc

/-- Continues at the next instruction. -/
def Slice.advance (sl : Slice) : Slice :=
  let (pc, rs, lc) := endLoops sl.pc sl.loops sl.lc
  { sl with pc := pc, loops := rs, lc := lc }

/-- One more instruction of the slice has issued: every lookahead window shrinks by one (03 R66). -/
def Slice.countIssue (stamp : Nat) (sl : Slice) : Slice :=
  { sl with stamp := stamp, pend := sl.pend.map fun p => { p with win := p.win - 1 } }

/-- Every lookahead window ends (03 R67). -/
def Slice.endWindows (sl : Slice) : Slice := { sl with pend := sl.pend.map fun p => { p with win := 0 } }

/-- The party splits into one party per distinct program counter; the slices that go with its lowest slice keep its
number (02 R25), and the new parties count their age from now (10 R256). -/
def Gang.part (g : Gang) (p stamp : Nat) : Gang :=
  let sls := g.partySlices p
  let pcs := sls.foldl (fun acc i => let pc := (g.slice i).pc; if acc.contains pc then acc else acc ++ [pc]) []
  let g' := g.mapSlices sls fun sl =>
    let k := pcs.idxOf sl.pc
    if k = 0 then sl else { sl with party := g.nextParty + k - 1, stamp := stamp }
  { g' with nextParty := g.nextParty + (pcs.length - 1) }

/-- Splits every party whose slices differ. -/
def Gang.partAll (stamp : Nat) (g : Gang) : Gang :=
  (dedup (g.liveSlices.map fun i => (g.slice i).party)).foldl (fun g p => g.part p stamp) g

/-- The instruction has issued in every slice of the party, which moves on by `f`. -/
def State.retire (s : State) (c : Ctx) (f : Slice → Slice) : State :=
  State.mapIssuer { s with issued := s.issued + 1 } c fun g =>
    (g.mapSlices c.sls fun sl => f (sl.countIssue (s.issued + 1))).part c.party (s.issued + 1)

/-- The instruction has issued and the party goes on to the next one. -/
def State.retireNext (s : State) (c : Ctx) : State := s.retire c Slice.advance

/-! ### Barriers and finishing (02 R28, R32 to R34) -/

/-- A slice's wait at a BAR, also while the slice is in handler state (15 R342). -/
def Slice.barWait (sl : Slice) : Wait := if sl.inHandler then sl.savedWait else sl.wait

/-- A slice in handler state continues after the instruction at EPC once it returns: the loop bodies of which that was the
LAST end, under the loops that the handler itself has begun (16 R390). (DEDUCED: assumption 122). -/
def Slice.advanceSaved (sl : Slice) : Slice :=
  let (pc, rs, lc) := endLoops sl.epc (sl.loops.dropWhile (·.inH)) sl.lc
  { sl with epc := pc, loops := sl.loops.takeWhile (·.inH) ++ rs, lc := lc }

/-- A completed phase releases a slice that waits on the barrier: it resumes after its BAR (02 R32). -/
def Slice.releaseBar (n : Nat) (sl : Slice) : Slice :=
  if sl.finished || sl.barWait != .bar n then sl
  else if sl.inHandler then ({ sl with savedWait := .none } : Slice).advanceSaved
  else ({ sl with wait := .none } : Slice).advance

/-- A slice that waits on a dead barrier will take BARDEAD at its BAR (02 R34). -/
def Slice.killBar (n : Nat) (sl : Slice) : Slice :=
  if sl.finished || sl.barWait != .bar n then sl
  else if sl.inHandler then { sl with savedWait := .trap .barDead }
  else { sl with wait := .trap .barDead }

/-- Applies a function to the slices of every member. -/
def Crew.mapAllSlices (c : Crew) (f : Slice → Slice) : Crew :=
  { c with
    gangs := c.gangs.map fun g => { g with slices := g.slices.map f }
    seq := c.seq.map fun g => { g with slices := g.slices.map f } }

/-- Arrivals of members all of whose live slices have executed BAR or BARA in the phase (02 R33). -/
def Crew.settleArrivals (c : Crew) (b : Barrier) : Barrier :=
  let now := c.members.filter fun m =>
    match c.member? m with
    | some g => !b.arrived.contains m && !g.finished && g.liveSlices.all fun i => b.slices.contains (m, i)
    | none => false
  { b with arrived := b.arrived ++ now, slices := b.slices.filter fun (m, _) => !now.contains m }

/-- An empty phase. -/
def Barrier.empty : Barrier := ⟨none, [], []⟩

/-- Settles one barrier: arrivals, completion of the phase, and, when a participant has just finished (`finish`), death of
a phase that can no longer complete (02 R32, R33, R34; 95 BARRIER_PHASE_COMPLETE, BARDEAD). -/
def Crew.settleBarrier (c : Crew) (finish : Bool) (stamp n : Nat) : Crew :=
  match (c.barriers.getD n Barrier.empty).count with
  | none => c
  | some k =>
    let b := c.settleArrivals (c.barriers.getD n Barrier.empty)
    let live := c.members.filter fun m => match c.member? m with
      | some g => !g.finished && !b.arrived.contains m
      | none => false
    if b.arrived.length ≥ k then
      let c := c.mapAllSlices (Slice.releaseBar n)
      { c with
        barriers := c.barriers.set n Barrier.empty
        gangs := c.gangs.map (Gang.partAll stamp) }
    else if finish && b.arrived.length + live.length < k then
      let c := c.mapAllSlices (Slice.killBar n)
      { c with barriers := c.barriers.set n Barrier.empty }
    else { c with barriers := c.barriers.set n b }

/-- Settles every barrier. -/
def Crew.settleBarriers (finish : Bool) (stamp : Nat) (c : Crew) : Crew :=
  (List.range 16).foldl (fun c n => c.settleBarrier finish stamp n) c

/-- Every live slice of the gang waits at a REGANG: the parties merge, or each takes the REGANG trap (02 R26; 95
REGANG_MERGE, REGANG_FAIL). -/
def Gang.settleRegang (stamp : Nat) (g : Gang) : Gang :=
  let live := g.liveSlices
  if live.isEmpty || live.any (fun i => (g.slice i).wait != .regang) then g
  else
    let a := g.slice (live.headD 0)
    let same := live.all fun i =>
      let b := g.slice i
      b.pc == a.pc && b.fmt == a.fmt && b.wb == a.wb && b.x0 == a.x0 && b.x1 == a.x1
    if same then (g.mapSlices live fun sl => ({ sl with wait := .none, party := a.party } : Slice).advance).part a.party stamp
    else g.mapSlices live fun sl => { sl with wait := .trap .regang }

/-- The issuing member has finished (02 R28). -/
def State.memberDone (s : State) (c : Ctx) : Bool :=
  match (s.crew? c.crew.id).bind (·.member? c.member) with
  | some g => g.finished
  | none => false

/-- After slices of a gang have arrived or finished: a gathering or a barrier phase that waited for them settles. -/
def State.settle (s : State) (c : Ctx) : State :=
  (s.mapIssuer c (Gang.settleRegang s.issued)).mapCrew c.crew.id (Crew.settleBarriers (s.memberDone c) s.issued)

/-! ### Parked accesses of a party (11 R271) -/

/-- Whether a flight belongs to some slices of a member. -/
def Flight.ofSlices (f : Flight) (crew m : Nat) (sls : List Nat) : Bool :=
  f.crew == crew && f.member == m && f.slices.any sls.contains

/-- Whether a part waits in the parked-access table. -/
def Part.isParked (p : Part) : Bool := match p.state with | .parked _ => true | _ => false

/-- The fault code of a parked part. -/
def Part.code (p : Part) : Nat := match p.state with | .parked c => c | .faulted c => c | _ => 0

/-- The parked instructions of a party, oldest first. -/
def State.parkedOf (s : State) (crew m : Nat) (sls : List Nat) : List Flight :=
  s.flights.filter fun f => f.ofSlices crew m sls && f.parts.any Part.isParked

/-- Whether an access writes (11 R272, R266). -/
def AccKind.writes : AccKind → Bool
  | .load | .mon | .spawn | .palette | .mcrd | .prom | .result | .fence => false
  | _ => true

/-! ### Taking an exception (11 R272, R273, R284, R286, R287) -/

/-- Another party of the same physical slices is in handler state (11 R272). (DEDUCED: assumption 56). -/
def State.handlerBusy (s : State) (c : Ctx) : Bool :=
  let mine := c.sls.map (· + c.gang.group)
  !c.gang.isSeq && s.crews.any fun k => k.cluster == c.crew.cluster && (k.state == .running || k.state == .stopping) &&
    (List.range k.gangs.length).any fun m =>
      !(k.id == c.crew.id && m == c.member) &&
        match k.gangs[m]? with
        | some g => g.core == c.gang.core && (g.liveSlices.any fun i =>
            (g.slice i).inHandler && mine.contains (i + g.group))
        | none => false

/-- An easel's instruction no longer waits for tokens (14 R329). -/
def State.dropRequests (s : State) (easel : Nat) : State :=
  { s with tokenReqs := s.tokenReqs.filter fun r => r.easel != easel }

/-- All members of the crew stop at once, its parked accesses are discarded, and the event is recorded.  The crew's
completion signals are made by its CREW_DONE step (11 R287). (DEDUCED: assumption 78). -/
def State.abandonCrew (s : State) (crew : Nat) (cause : Nat) (va : Nat) : State :=
  match s.crew? crew with
  | none => s
  | some c =>
    if c.abandoned then s
    else
    let s := s.mapCrew crew fun k =>
      { k.mapAllSlices (fun sl : Slice => { sl with finished := true, wait := .none }) with
        abandoned := true
        barriers := List.replicate 16 Barrier.empty }
    let s := if c.seq.isSome && (c.state == .running || c.state == .stopping) then s.dropRequests c.cluster else s
    let s := { s with flights := s.flights.filterMap fun (f : Flight) =>
      if f.crew != crew then some f
      else
        let ps := f.parts.filter fun (p : Part) => !p.isParked && (match p.state with | .faulted _ => false | _ => true)
        if ps.isEmpty then none else some { f with parts := ps, reported := [] } }
    s.postEvent (eventRec 3 0x0F (c.id % 2 ^ 16 + 2 ^ 16 * (c.asid % 2 ^ 12) + 2 ^ 28 * 2 + 2 ^ 32 * cause) va)

/-- What a party enters the handler for. -/
structure Entry where
  code   : Nat
  write  : Bool
  info   : Nat
  fetch  : Bool
  addrs  : List (Nat × Nat)         -- TADDR by lane
  tmask  : List Nat                 -- lanes of TMASK
  narrow : Bool                     -- the active mask becomes the lanes of TMASK
  deriving DecidableEq, Repr

/-- The handler registers of a slice's lanes, undefined at entry (11 R273). (DESIGN CHOICE: assumption 5). -/
def freshHandlerRegs (isSeq : Bool) (n : Nat) (l : Lane) : Lane :=
  if isSeq then { l with hs := tabulate 8 fun k => (k, Config.freeDouble (n + k)) }
  else { l with h := tabulate 8 fun k => (k, Config.freeWord (n + k)) }

/-- The whole party enters the supervisor handler (11 R272). -/
def Ctx.enter (c : Ctx) (e : Entry) (handlerPc : Double) (parked n : Nat) (g : Gang) : Gang :=
  let tmask : Double := if g.isSeq then 0 else BitVec.ofNat 64 ((e.tmask.map (2 ^ ·)).foldl (· + ·) 0)
  let g := { g with slices := g.slices.mapIdx fun i (sl : Slice) =>
    if c.sls.contains i then
      { Slice.endWindows sl with
        savedFmt := sl.fmt, savedWb := sl.wb, savedX0 := sl.x0, savedX1 := sl.x1
        savedDepth := sl.stack.length
        epc := sl.pc
        tmask := tmask
        tcause := tcauseWord e.code e.write (1 < parked) e.info
        tstate := tstateWord sl.mask e.fetch parked
        mask := if e.narrow then
            BitVec.ofNat 4 ((((List.range 4).filter fun k => e.tmask.contains (4 * i + k)).map
              (2 ^ ·)).foldl (· + ·) 0)
          else sl.mask
        pc := handlerPc
        savedWait := match sl.wait with | .bar n => .bar n | .trap c => .trap c | _ => .none
        wait := .none }
    else sl }
  { g with lanes := g.lanes.mapIdx fun l ln =>
    if c.sls.contains (l / 4) then
      let ln := freshHandlerRegs g.isSeq (n + 8 * l) ln
      if g.isSeq then ln
      else { ln with taddr := if e.tmask.contains l then BitVec.ofNat 64 ((e.addrs.lookup l).getD 0) else 0 }
    else ln }

/-- Taking an exception, the one operation for traps, fetch faults and fault reports: in handler state it abandons the
crew (11 R286); while another party of the same physical slices is in handler state it waits (11 R272).
(DESIGN CHOICE: assumption 132). -/
def State.takeEntry (s : State) (c : Ctx) (e : Entry) (abandonCode : Nat) : State :=
  if c.inHandler then
    State.abandonCrew { s with issued := s.issued + 1 } c.crew.id abandonCode ((e.addrs.map Prod.snd).headD 0)
  else if s.handlerBusy c then s
  else
    let parked := (s.parkedOf c.crew.id c.member c.sls).length
    let s' : State := { s with issued := s.issued + 1, freeCount := s.freeCount + 512 }
    (s'.mapCrew c.crew.id fun k => { k with hasid := BitVec.ofNat 32 k.asid }).mapIssuer c fun g =>
      (c.enter e s.handlerPc parked s.freeCount g).mapSlices c.sls fun sl => { sl with stamp := s.issued + 1 }

/-- A precise trap (11 R284). (DEDUCED: assumption 55). -/
def State.takeTrap (s : State) (c : Ctx) (cause : Cause) (addrs : List (Nat × Nat)) (info : Nat) : State :=
  s.takeEntry c ⟨cause.code, false, info, false, addrs, c.lanes, false⟩ cause.code

/-- A fault or trap of an instruction fetch (11 R272): TADDR is the fetch address in every active lane.  In handler state
it abandons the crew, whatever the mask, at the fetch address (11 R276, R286, R287). -/
def State.takeFetchTrap (s : State) (c : Ctx) (code : Nat) : State :=
  if c.inHandler then State.abandonCrew { s with issued := s.issued + 1 } c.crew.id Cause.hfault.code c.base.toNat
  else s.takeEntry c ⟨code, false, 0, true, c.lanes.map (·, c.base.toNat), c.lanes, false⟩ Cause.hfault.code

/-! ### Returning from an exception (11 R275) -/

/-- ERET in one slice: the mask, FMT, WB, IDX0 and IDX1 return, and the slice continues at EPC.  Loop records are left
alone (16 R365). -/
def Slice.eret (sl : Slice) : Slice :=
  { sl with
    mask := sl.savedMask
    fmt := sl.savedFmt
    wb := sl.savedWb
    x0 := sl.savedX0
    x1 := sl.savedX1
    tstate := sl.tstate &&& 0xFFFFFFFE
    pend := sl.pend.filter fun p => match p.reg with | .h _ => false | _ => true
    wait := sl.savedWait
    savedWait := .none
    pc := sl.epc }

/-- The handler registers are lost at ERET (11 R273). -/
def Lane.loseHandlerRegs (l : Lane) : Lane := { l with h := [], hs := [] }

/-! ### Running one instruction of the issuing thread -/

/-- An instruction waits at a queue register: it keeps the bindings it waits under (17 R410). -/
def State.holdBindings (s : State) (c : Ctx) : State :=
  s.mapIssuer c fun g => g.mapSlices c.sls fun sl =>
    { sl with bound := some ⟨c.first.stamp, c.first.pc, c.first.inHandler, c.bindings⟩ }

/-- Runs a meaning: a trap is taken, and a party that is not ready leaves the state as it is, but for the bindings a queue
register waits under. -/
def State.outcome (s : State) (c : Ctx) (info : Nat) : Except Stop State → Host.Outcome State Fault Refusal
  | .ok s' => .next s'
  | .error .wait => .next s
  | .error .queued => .next (s.holdBindings c)
  | .error (.trap cause addrs) => .next (s.takeTrap c cause addrs info)

/-- The major opcode of an instruction (03 R62). -/
def opcodeOf (i : Instr) : Nat := (encodeWord i).toNat / 2 ^ 25

end Sys2Proof.Machine
end

