-- ==== Sys2Proof/Machine/Hbm.lean ====
section
/-! DEFINITION. HBM lines under parity: placement, correction, reconstruction, poison, degraded mode and its counters
(12 R288 to R300, R478). -/

namespace Sys2Proof.Machine
set_option Elab.async false
open Sys2Proof

/-- Bytes of a line. -/
def lineBytes : Nat := 128

/-- Physical lines that name HBM (12 R288). -/
def hbmLines : Nat := 0x7000000000 / 128

/-- The stack that holds a physical line (12 R288). -/
def dataStack (line : Nat) : Nat := (line / 7 % 8 + 1 + line % 7) % 8

/-- The stack that holds a stripe's parity (12 R288). -/
def parityStack (stripe : Nat) : Nat := stripe % 8

/-- Where a stack's line lies in the byte memory of the package. -/
def stackAddr (stack stripe : Nat) : Nat := stack * 2 ^ 36 + stripe * lineBytes

/-- The stored bits of a stack's line. -/
def State.rawLine (s : State) (stack stripe : Nat) : List Byte := memBytes s.hbm (stackAddr stack stripe) lineBytes

/-- A stack's stored line among all stored lines. -/
def stackLine (stack stripe : Nat) : Nat := stack * 2 ^ 29 + stripe

/-- Stores the bits of a stack's line with a sound ECC. -/
def State.setRawLine (s : State) (stack stripe : Nat) (bs : List Byte) : State :=
  { s with
    hbm := memSetBytes s.hbm (stackAddr stack stripe) (bs.take lineBytes)
    damage := tabErase s.damage (stackLine stack stripe) }

/-- Exclusive-or of two lines. -/
def xorLines (a b : List Byte) : List Byte := List.zipWith (· ^^^ ·) a b

/-- A line of zeros. -/
def zeroLine : List Byte := List.replicate lineBytes 0

/-- Whether a stack is lost (12 R296). -/
def State.isLost (s : State) (stack : Nat) : Bool := s.lost.getD stack false

/-- How many stacks are lost. -/
def State.lostCount (s : State) : Nat := (s.lost.filter id).length

/-- Counter numbers of 12 R300, in the order of its table. -/
def ceCount : Nat := 0
/-- UE_COUNT -/
def ueCount : Nat := 1
/-- RECON_COUNT -/
def reconCount : Nat := 2
/-- UNDELIV_COUNT -/
def undelivCount : Nat := 3
/-- LOSTWR_COUNT -/
def lostwrCount : Nat := 4
/-- PARITY_MISMATCH -/
def parityMismatch : Nat := 5
/-- SACT_COUNT -/
def sactCount : Nat := 6
/-- THROTTLE_CYCLES -/
def throttleCycles : Nat := 7

/-- Raises a counter of a stack, which stops at 2^32 − 1 (12 R300). -/
def State.bump (s : State) (stack counter : Nat) : State :=
  { s with stackCounters := listModify s.stackCounters stack fun cs =>
      listModify cs counter fun n => min (n + 1) 0xFFFFFFFF }

/-- Notes an uncorrectable event of a stack and when it happened (12 R295, R296). -/
def State.noteUe (s : State) (stack : Nat) : State :=
  let s := s.bump stack ueCount
  { s with ueTimes := listModify s.ueTimes stack (· ++ [s.clock.toNat]) }

/-! ### Rows and subarrays (12 R289 to R291) -/

/-- Pseudo-channel of a stack line (12 R289). -/
def lineChannel (n : Nat) : Nat := natBits n 0 6

/-- Segment of its row (12 R289). -/
def lineSegment (n : Nat) : Nat := natBits n 6 3

/-- Bank of a stack line, numbered over the pseudo-channels: pseudo-channel × 16 + bank (12 R289). -/
def lineBank (n : Nat) : Nat := lineChannel n * 16 + natBits n 9 4

/-- Row of a stack line (12 R289). -/
def lineRow (n : Nat) : Nat := natBits n 13 16

/-- The core die of a row (12 R289). -/
def coreDie (row : Nat) : Nat := row / 4096

/-- The subarray of a row (12 R289). -/
def subarray (row : Nat) : Nat := row / 2048

/-- Whether an open row lies in a bank. -/
def OpenRow.inBank (r : OpenRow) (stack bank : Nat) : Bool := r.stack == stack && r.bank == bank

/-- Names the driving subarray of a bank. -/
def State.drive (s : State) (stack bank sub : Nat) : State :=
  { s with driving := tabPut 0 s.driving (1024 * stack + bank) sub }

/-- A stored byte of HBM by its physical address. -/
def State.storedByte (s : State) (pa : Nat) : Byte :=
  let line := pa / lineBytes
  (s.rawLine (dataStack line) (line / 7)).getD (pa % lineBytes) 0

/-- The physical lines a fill names: its line, or on a crumb page the lines of its chunks' records and, for the records
stored in spill form, of their overflow records (05 R117, R120). -/
def State.fillNames (s : State) (x : Fill) : List Nat :=
  match x.crumb with
  | none => [x.pa / lineBytes]
  | some (frame, size, f, allot) =>
    let w := 4 * fmtWidth f
    dedup <| (List.range (lineBytes / w)).flatMap fun j =>
      let n := x.pa / w + j
      let at_ := frame + n * allot
      at_ / lineBytes :: (if (s.storedByte (at_ + 10)).getLsbD 4 then [(frame + size / w * allot + n * w) / lineBytes] else [])

/-- The stack lines, with their stacks, that requests queued at the controllers name: fills not yet read, and the lines
of gathers. -/
def State.queuedLines (s : State) : List (Nat × Nat) :=
  ((s.fills.filter (·.data.isNone)).flatMap fun x => (s.fillNames x).map fun line => (dataStack line, line / 7)) ++
  s.gathers.flatMap fun g => (parityStack g.stripe, g.stripe) :: g.lines.map fun l => (dataStack (7 * g.stripe + l.1), g.stripe)

/-- The segment mask of the queued requests to a row (12 R290). -/
def State.queuedMask (s : State) (stack bank row : Nat) : Nat :=
  (s.queuedLines.filter fun (k, n) => k == stack && lineBank n == bank && lineRow n == row).foldl
    (fun m (_, n) => m ||| 2 ^ lineSegment n) 0

/-- Activates a row with a segment mask (12 R290, R291): a request outside the streams closes every other row of its bank
and drives its own subarray; a stream holds rows open in up to four subarrays, in place of its oldest. -/
def State.openRow (s : State) (stack bank row mask : Nat) (stream : Bool) : State :=
  let new : OpenRow := ⟨stack, bank, row, mask, stream⟩
  if stream then
    let here := s.openRows.filter fun r => r.inBank stack bank && subarray r.row != subarray row
    let kept := here.drop (here.length - 3)
    { s with openRows := s.openRows.filter (fun r => !r.inBank stack bank || kept.contains r) ++ [new] }
  else State.drive { s with openRows := s.openRows.filter (fun r => !r.inBank stack bank) ++ [new] } stack bank (subarray row)

/-- A column access to a stack line (12 R290, R291): its row is activated with the segments of the requests queued for
it, a segment outside the open mask by a supplementary activate; the access's subarray drives. -/
def State.column (s : State) (stack n : Nat) : State :=
  let bank := lineBank n
  let row := lineRow n
  let seg := 2 ^ lineSegment n
  let mine (r : OpenRow) : Bool := r.inBank stack bank && r.row == row
  let s := match s.openRows.find? mine with
    | none => s.openRow stack bank row (s.queuedMask stack bank row ||| seg) s.streaming
    | some r =>
      if r.mask &&& seg ≠ 0 then s
      else State.bump { s with openRows := modifyWhere mine (fun r => { r with mask := r.mask ||| seg }) s.openRows } stack sactCount
  s.drive stack bank (subarray row)

/-- A step whose column accesses belong to one of the streams of 12 R291. -/
def State.asStream {α : Type} (s : State) (f : State → α × State) : α × State :=
  let (a, t) := f { s with streaming := true }
  (a, { t with streaming := s.streaming })

/-! ### A stripe under its lock (12 R292, R294) -/

/-- Settles the stripe updates a write-back waited for. -/
def State.ackLines (s : State) (wbs : List Nat) : State :=
  { s with writeBacks := s.writeBacks.map fun w =>
      let n := (wbs.filter (· == w.id)).length
      if n = 0 then w else { w with waiting := w.waiting - n, acked := w.waiting ≤ n } }

/-- Whether a stripe is locked. -/
def State.stripeLocked (s : State) (stripe : Nat) : Bool := s.gathers.any fun g => g.stripe == stripe && g.locked

/-- Stores a line of a stack. -/
def State.putStack (s : State) (stack stripe : Nat) (bs : List Byte) : State := (s.column stack stripe).setRawLine stack stripe bs

/-- Folds one delta into the parity of a locked stripe; the last one acknowledges the gather and unlocks the stripe. -/
def State.foldDelta (s : State) (g : Gather) (pos : Nat) : State :=
  match g.deltas.lookup pos with
  | none => s
  | some d =>
    if g.taken.contains pos then s
    else
      let p := parityStack g.stripe
      let s := (s.asStream fun s => ((), s.putStack p g.stripe (xorLines (s.rawLine p g.stripe) d))).2
      let g' := { g with taken := g.taken ++ [pos] }
      if g'.taken.length = g'.deltas.length then
        State.ackLines { s with gathers := s.gathers.erase g } (g.lines.flatMap fun (_, _, _, wbs) => wbs)
      else { s with gathers := s.gathers.map fun x => if x == g then g' else x }

/-- Folds every delta of a locked gather. -/
def State.foldAll (s : State) (g : Gather) : State :=
  (g.deltas.map Prod.fst).foldl (fun s pos =>
    match s.gathers.find? fun h => h.stripe == g.stripe && h.locked with
    | some h => s.foldDelta h pos
    | none => s) s

/-- Finishes the update that holds a stripe's lock. -/
def State.settleStripe (s : State) (stripe : Nat) : State :=
  (s.gathers.filter fun g => g.stripe == stripe && g.locked).foldl State.foldAll s

/-- Folds every delta still out, so that no stripe is locked: what an owner does before the stacks change (12 R297). -/
def State.settleGathers (s : State) : State := (s.gathers.filter (·.locked)).foldl State.foldAll s

/-! ### Reading (12 R295, R296, R478) -/

/-- Marks a stored line of a stack as one whose ECC does not read clean: 1 correctable, 2 uncorrectable. -/
def State.harm (s : State) (stack stripe kind : Nat) : State :=
  { s with damage := tabPut 0 s.damage (stackLine stack stripe) (max kind (tabGet s.damage (stackLine stack stripe) 0)) }

/-- What a step's `ecc` operand says has happened to stored lines since their last write: `ecc % 4` is what the ECC of the
line read will find, 0 nothing new, 1 correctable, 2 uncorrectable, 3 uncorrectable and so is the next stack's line of the
stripe; a rest above 0 names another stored line, `ecc / 8 − 1` in the numbering of `stackLine`, that has become
correctable or uncorrectable. (DESIGN CHOICE: assumption 85). -/
def State.strike (s : State) (stack stripe ecc : Nat) : State :=
  let s := if ecc % 4 = 0 then s else s.harm stack stripe (min 2 (ecc % 4))
  let s := if ecc % 4 = 3 then s.harm ((stack + 1) % 8) stripe 2 else s
  if ecc < 8 then s else s.harm ((ecc / 8 - 1) / 2 ^ 29 % 8) ((ecc / 8 - 1) % 2 ^ 29) (1 + ecc / 4 % 2)

/-- A controller reads a stored line: corrected and written back, or none for an uncorrectable event (12 R295). -/
def State.readStack (s : State) (stack stripe : Nat) : Option (List Byte) × State :=
  let s := s.column stack stripe
  match tabGet s.damage (stackLine stack stripe) 0 with
  | 0 => (some (s.rawLine stack stripe), s)
  | 1 => (some (s.rawLine stack stripe), (s.setRawLine stack stripe (s.rawLine stack stripe)).bump stack ceCount)
  | _ => (none, s.noteUe stack)

/-- The other seven stacks. -/
def otherStacks (stack : Nat) : List Nat := (List.range 8).filter (· != stack)

/-- The exclusive-or of the stored bits of the other seven lines of a stripe (12 R295). -/
def State.reconstruct (s : State) (stack stripe : Nat) : List Byte :=
  (otherStacks stack).foldl (fun acc k => xorLines acc (s.rawLine k stripe)) zeroLine

/-- Whether any other line of the stripe lies on a lost stack. -/
def State.stripeBroken (s : State) (stack : Nat) : Bool := (otherStacks stack).any s.isLost

/-- The stripe owner reads the other seven lines of a stripe and reconstructs a line; none where it meets a second
uncorrectable line or a lost one (12 R295). -/
def State.rebuild (s : State) (stack stripe : Nat) : Option (List Byte) × State :=
  (otherStacks stack).foldl (fun (acc, s) k =>
    if s.isLost k then (none, s)
    else
      let (d, s) := s.readStack k stripe
      (match acc, d with | some a, some b => some (xorLines a b) | _, _ => none, s)) (some zeroLine, s)

/-- A stack's line, read and corrected, or reconstructed and rewritten (12 R295, R296); none where undeliverable. -/
def State.fetchStack (s : State) (stack stripe : Nat) : Option (List Byte) × State :=
  let (own, s) := if s.isLost stack then (none, s) else s.readStack stack stripe
  match own with
  | some bs => (some bs, s)
  | none =>
    match s.rebuild stack stripe with
    | (none, s) => (none, s)
    | (some d, s) => (some d, (if s.isLost stack then s else s.setRawLine stack stripe d).bump stack reconCount)

/-- Adds a line to a rising list of lines. -/
def markLine (l : List Nat) (line : Nat) : List Nat := if l.contains line then l else insertRising line l

/-- A physical line is found undeliverable; it stays so until it has been wholly written (12 R295, R478). -/
def State.undeliverable (s : State) (line : Nat) : State := { s with undelivPas := markLine s.undelivPas line }

/-- A physical line as its controller reads it, corrected or reconstructed; none where undeliverable.  The poison pattern is
told apart from an uncorrectable error (12 R295, R296, R478). -/
def State.fetchLine (s : State) (line : Nat) : Option (List Byte) × State :=
  let stack := dataStack line
  if s.poisonPas.contains line then (none, s.column stack (line / 7))
  else if s.undelivPas.contains line then (none, if s.isLost stack then s else (s.readStack stack (line / 7)).2)
  else
    match s.fetchStack stack (line / 7) with
    | (none, s) => (none, s.undeliverable line)
    | r => r

/-- Reading a physical line for a requester, after what `ecc` says has happened; none, counted, where undeliverable
(12 R295, R300).  An update that holds the stripe's lock is finished first, so data and parity are not seen apart
(12 R294). -/
def State.readLine (s : State) (line ecc : Nat) : Option (List Byte) × State :=
  match ((s.settleStripe (line / 7)).strike (dataStack line) (line / 7) ecc).fetchLine line with
  | (none, s) => (none, s.bump (dataStack line) undelivCount)
  | r => r

/-- Reads lines for what the reading does to the stored lines and the counters. -/
def State.readLines (s : State) (lines : List Nat) : State := lines.foldl (fun s line => (s.readLine line 0).2) s

/-- What a requester that names no format gets for an undeliverable line (12 R295). -/
def State.fillByte (s : State) : Byte := s.memCtl.extractLsb' 0 8

/-- A line of FILL_BYTE. -/
def State.fillLine (s : State) : List Byte := List.replicate lineBytes s.fillByte

/-! ### Writing under parity (12 R292, R296, R478) -/

/-- The stored bits of a line that an update needs, read as a controller reads: what cannot be delivered counts as it
is stored, since parity is kept over the stored bits (12 R478). -/
def State.storedLine (s : State) (stack stripe : Nat) : List Byte × State :=
  let (d, s') := s.fetchStack stack stripe
  (d.getD (s.rawLine stack stripe), s')

/-- A whole physical line has been written, with the poison pattern or without (12 R478). -/
def State.lineWritten (s : State) (line : Nat) (poisoned : Bool) : State :=
  { s with
    poisonPas := if poisoned then markLine s.poisonPas line else s.poisonPas.filter (· != line)
    undelivPas := s.undelivPas.filter (· != line) }

/-- Stacks of a stripe that hold data and are not a given one. -/
def otherData (stack stripe : Nat) : List Nat := (otherStacks stack).filter (· != parityStack stripe)

/-- The exclusive-or of a line with the other data lines of a stripe, read from the given stacks. -/
def State.parityOf (s : State) (stripe : Nat) (acc : List Byte) (ks : List Nat) : List Byte × State :=
  ks.foldl (fun (acc, s) k => let (d, s) := s.storedLine k stripe; (xorLines acc d, s)) (acc, s)

/-- Writes one data line and keeps its stripe's parity under the row of the memory state in force (12 R292, R296,
R478), once an update that holds its lock is finished: a line on a lost stack lives in the parity, and in DOUBLE such a
write is discarded and counted. -/
def State.writeLine (s : State) (line : Nat) (data : List Byte) (poisoned : Bool) : State :=
  let s := s.settleStripe (line / 7)
  let stack := dataStack line
  let stripe := line / 7
  let p := parityStack stripe
  if 2 ≤ s.lostCount then
    if s.isLost stack then s.bump stack lostwrCount else (s.putStack stack stripe data).lineWritten line poisoned
  else if s.isLost stack then
    let (new, s) := s.parityOf stripe data (otherData stack stripe)
    (s.putStack p stripe new).lineWritten line poisoned
  else if s.isLost p then (s.putStack stack stripe data).lineWritten line poisoned
  else
    let (old, s) := s.storedLine stack stripe
    let (par, s) := s.storedLine p stripe
    ((s.putStack stack stripe data).putStack p stripe (xorLines par (xorLines old data))).lineWritten line poisoned

/-- Writes gathered lines of a stripe of which at least four are new: the parity becomes the exclusive-or of all seven
(12 R292).  Lines: position, data, poisoned. -/
def State.writeStripe (s : State) (stripe : Nat) (lines : List (Nat × List Byte × Bool)) : State :=
  let stack (pos : Nat) : Nat := dataStack (7 * stripe + pos)
  let rest := (List.range 7).filter fun pos => !lines.any (·.1 == pos)
  let (new, s) := s.parityOf stripe (lines.foldl (fun acc l => xorLines acc l.2.1) zeroLine) (rest.map stack)
  let s := lines.foldl (fun s (pos, data, poisoned) =>
    (s.putStack (stack pos) stripe data).lineWritten (7 * stripe + pos) poisoned) s
  s.putStack (parityStack stripe) stripe new

end Sys2Proof.Machine
end

