-- ==== Sys2Proof/Machine/Window.lean ====
section
/-! DEFINITION. The management window (14 R328): what each offset reads as, and which step a write of a double is. -/

namespace Sys2Proof.Machine
set_option Elab.async false
open Sys2Proof

/-- The topology record; every unit is present (01 R19). -/
def topologyDouble (k : Nat) : Double :=
  if k = 0 then 0x300800C008100C02 else if k = 1 then 0x3FFFFFFFF else if k ≤ 25 then 0x3FFFFFF else 0

/-- Codes of the device states (14 R323). -/
def DeviceState.code : DeviceState → Nat
  | .reset => 0 | .boot => 1 | .training => 2 | .ready => 3 | .recovery => 4 | .fatal => 5

/-- The device status double (14 R324). -/
def State.statusDouble (s : State) : Double :=
  BitVec.ofNat 64 (s.device.code + 16 * s.fatalCause + 2 ^ 8 * (s.fwVersion % 2 ^ 24) + 2 ^ 32 * (s.rollbackMin % 2 ^ 24))

/-- A list of flags as bits, first lowest. -/
def flagBits : List Bool → Nat
  | [] => 0
  | b :: bs => (if b then 1 else 0) + 2 * flagBits bs

/-- The thermal and state double (12 R299). -/
def State.thermalDouble (s : State) : Double :=
  BitVec.ofNat 64 (bitsOf s.thermal 0 16 + 2 ^ 16 * flagBits s.lost + 2 ^ 24 * s.memState)

/-- The device event backlog double (09 R233). -/
def State.backlogDouble (s : State) : Double := BitVec.ofNat 64 (s.eventBuf.length + 2 ^ 32 * s.dropped)

/-- A double of a migration request block (11 R282). -/
def Migration.double (m : Migration) : Nat → Double
  | 0 => m.d0 | 1 => m.d1 | 2 => m.d2 | _ => BitVec.ofNat 64 m.state

/-- A ring entry; an unlisted one is all zero (09 R230). -/
def noRing : Ring := ⟨0, 0, 0, 0, 0, 0⟩

/-- A completion ring. -/
def State.ring (s : State) (r : Nat) : Ring := tabGet s.rings r noRing

/-- A double of a ring entry. -/
def Ring.double (r : Ring) : Nat → Double
  | 0 => r.base | 1 => r.conf | 2 => r.wr | _ => r.rd

/-- The attestation control double (14 R326). -/
def State.attestDouble (s : State) : Double :=
  BitVec.ofNat 64 (2 * s.attCtl.getD 0 0 + 4 * s.attCtl.getD 1 0 + 8 * s.attCtl.getD 2 0 + 2 ^ 16 * s.attCtl.getD 3 0)

/-- What double 0 of a job entry reads when nothing has written it: PERIOD 0x00C8 (13 R312). -/
def jobDefault (k : Nat) : Double := if k = 0 then 0x0000C80000000000 else 0

/-- Double k of job entry e of die d (13 R312). -/
def State.jobDouble (s : State) (d e k : Nat) : Double := tabGet s.jobs (8 * (256 * d + e) + k) (jobDefault k)

/-- A queue-table entry (09 R215). -/
def State.queueEntry (s : State) (c e : Nat) : QueueEntry := (s.cluster c).queues.getD e ⟨0, 0, false⟩

/-- The double at an offset of the window that is a multiple of 8 (14 R328); reserved offsets read 0. -/
def State.windowRead (s : State) (off : Nat) : Double :=
  let at_ (base size : Nat) : Bool := base ≤ off && off < base + size
  let k (base : Nat) : Nat := (off - base) / 8
  if at_ 0 0xD0 then topologyDouble (k 0)
  else if off = 0x100 then s.statusDouble
  else if off = 0x108 then s.tokenCtl
  else if off = 0x110 then s.schedCtl
  else if off = 0x118 then s.memCtl
  else if off = 0x120 then s.thermalDouble
  else if off = 0x128 then s.fabricCtl
  else if off = 0x130 then s.handlerPc
  else if off = 0x138 then BitVec.ofNat 64 s.supAsid
  else if off = 0x158 then s.backlogDouble
  else if at_ 0x200 0x100 then BitVec.ofNat 64 (2 * s.sems.getD (k 0x200) 0)
  else if at_ 0x1000 0x800 then (s.ring (k 0x1000 / 4)).double (k 0x1000 % 4)
  else if at_ 0x2000 0x800 then tabGet s.handlers (k 0x2000) 0
  else if at_ 0x3000 0x400 then tabGet s.windows (k 0x3000) 0
  else if at_ 0x4000 0x100 then
    match s.migrations[k 0x4000 / 4]? with
    | some m => m.double (k 0x4000 % 4)
    | none => 0
  else if at_ 0x5000 0x3A0 then tabGet s.pools (k 0x5000) 0
  else if off = 0x6000 then s.attestDouble
  else if at_ 0x6020 0x20 then dbl s.nonce (k 0x6020)
  else if at_ 0x6100 0x5B8 then BitVec.ofNat 64 (leValue ((s.report.drop (off - 0x6100)).take 8))
  else if at_ 0x10000 0x8000 then tabGet s.rootTable (k 0x10000) 0
  else if at_ 0x20000 0x3000 then
    let e := s.queueEntry ((off - 0x20000) / 0x200) ((off - 0x20000) % 0x200 / 32)
    match off % 32 with
    | 0 => e.desc
    | 16 => e.attrs
    | _ => 0
  else if at_ 0x30000 0x8000 then
    s.jobDouble ((off - 0x30000) / 0x4000) ((off - 0x30000) % 0x4000 / 64) (off % 64 / 8)
  else if at_ 0x40000 0x2000 then tabGet s.routes (k 0x40000) 0
  else if at_ 0x80000 0x10 then dbl s.telemetry (k 0x80000)
  else if at_ 0x81000 0x200 then
    BitVec.ofNat 64 ((s.stackCounters.getD ((off - 0x81000) / 64) []).getD (off % 64 / 8) 0)
  else if at_ 0x82000 (64 * 51) && off % 64 / 8 < 6 then
    BitVec.ofNat 64 (tabGet s.portCounters (6 * ((off - 0x82000) / 64) + off % 64 / 8) 0)
  else if at_ 0x1000000 0x1000000 then BitVec.ofNat 64 (leValue (memBytes s.staging (off - 0x1000000) 8))
  else 0

/-- n bytes read from an offset: one aligned double, or zeros (14 R328). -/
def State.windowBytes (s : State) (off n : Nat) : List Byte :=
  if n = 8 && off % 8 = 0 then leBytes 8 (s.windowRead off).toNat else List.replicate n 0

/-- The step a write of a double at an offset is.  `owner` identifies the writer to the semaphores: 1 and 2 the host
ports, 3 the management controller, 0 any other agent, whose write of a semaphore or of RESET does nothing (13 R320,
14 R323). (DEDUCED: assumption 75). -/
def windowStep (owner off : Nat) (v : Double) : Instr :=
  let at_ (base size : Nat) : Bool := base ≤ off && off < base + size
  if off = 0x100 then (if v.getLsbD 3 && owner != 0 then .reset else .registerWrite off v)
  else if off = 0x140 then
    (if v.getLsbD 16 then .faultResumeAbort (bitsOf v 0 16) else .faultResume (bitsOf v 0 16))
  else if off = 0x148 then
    match bitsOf v 12 2 with
    | 0 => .tlbiRequestPage (bitsOf v 0 12) (2 ^ 16 * bitsOf v 24 40)
    | 1 => .tlbiRequestAsid (bitsOf v 0 12)
    | 2 => .tlbiRequestAll
    | _ => .registerWrite off v
  else if off = 0x150 then .preemptRequest (bitsOf v 0 16)
  else if off = 0x158 then (if v = 0 then .droppedClear else .registerWrite off v)
  else if at_ 0x200 0x100 then
    if owner = 0 then .registerWrite off v
    else if v.getLsbD 0 then .semaphoreTake ((off - 0x200) / 8) owner else .semaphoreFree ((off - 0x200) / 8) owner
  else if at_ 0x1000 0x800 && off % 32 = 24 then .ringRdIndexWrite ((off - 0x1000) / 32) v
  else if at_ 0x4000 0x100 && off % 32 = 24 && v.getLsbD 3 then .migrationStart ((off - 0x4000) / 32)
  else if off = 0x6000 && v.getLsbD 0 then .attestationStart
  else if at_ 0x20000 0x3000 && off % 32 = 0 then
    .queueTableWrite ((off - 0x20000) / 0x200) ((off - 0x20000) % 0x200 / 32) v
  else if at_ 0x20000 0x3000 && off % 32 = 8 then .doorbell ((off - 0x20000) / 0x200) ((off - 0x20000) % 0x200 / 32)
  else if at_ 0x30000 0x8000 && off % 64 = 0 then
    .jobEntryWrite ((off - 0x30000) / 0x4000) ((off - 0x30000) % 0x4000 / 64) v
  else if (at_ 0x81000 0x200 || at_ 0x82000 (64 * 51)) && v = 0 then .counterClear off
  else .registerWrite off v

/-- A write of the window reaches the management controller, which performs it as the next step; an access that is not
one aligned double is ignored (14 R328). -/
def State.windowWrite (s : State) (owner off : Nat) (bs : List Byte) : State :=
  if bs.length = 8 && off % 8 = 0 then
    { s with agenda := .event (windowStep owner off (BitVec.ofNat 64 (leValue bs))) :: s.agenda }
  else s

end Sys2Proof.Machine
end

