-- ==== Sys2Proof/Machine/Translate.lean ====
section
/-! DEFINITION. Physical apertures, page tables, walks and the caches of translations (07 R169, R170; 11 R264 to R270;
13 R303; 14 R328). -/

namespace Sys2Proof.Machine
set_option Elab.async false
open Sys2Proof

/-! ### Homes -/

/-- The home slice of a global address (07 R169). -/
def homeOf (va asid : Nat) : Nat :=
  let n := natBits va 11 45
  let h := (natBits n 0 16 ^^^ natBits n 16 16) ^^^ (natBits n 32 13 ^^^ natBits asid 0 12)
  h * 384 / 65536

/-- The translation home of a global address (07 R170). -/
def transHome (va asid : Nat) : Nat :=
  let g := natBits va 16 40
  ((natBits g 0 8 ^^^ natBits g 8 8) ^^^ (natBits g 16 8 ^^^ natBits g 24 8) ^^^
    (natBits g 32 8 ^^^ natBits asid 0 8)) % 8

/-! ### Physical addresses -/

/-- The physical alias ASID (11 R267). -/
def aliasAsid : Nat := 4095

/-- First physical address that is not HBM (12 R288). -/
def hbmEnd : Nat := 0x7000000000

/-- The management window's physical address (14 R328). -/
def windowBase : Nat := 0x8000000000

/-- Bytes of the management window. -/
def windowSize : Nat := 0x4000000

/-- A crumb page (07 R181): frame, page size in bytes, element format, bytes of a record. -/
structure CrumbPage where
  frame : Nat
  size  : Nat
  fmt   : Nat
  allot : Nat
  deriving DecidableEq, Repr

/-- What a translated address names. -/
inductive Phys where
  | hbm (pa : Nat)
  | crumb (p : CrumbPage) (off : Nat)
  | window (off : Nat)
  | fabric (target off : Nat)
  | host (port addr : Nat)
  deriving DecidableEq, Repr

/-- What a physical address names (12 R288, 13 R303, 14 R328). -/
def physOf (pa : Nat) : Option Phys :=
  if pa < hbmEnd then some (.hbm pa)
  else if windowBase ≤ pa && pa < windowBase + windowSize then some (.window (pa - windowBase))
  else if natBits pa 50 14 = 2 then some (.fabric (natBits pa 40 10) (natBits pa 0 40))
  else if natBits pa 50 14 = 3 then some (.host (natBits pa 49 1) (natBits pa 0 49))
  else none

/-! ### Page-table entries (11 R265, R266) -/

/-- VALID -/
def pteValid (e : Double) : Bool := e.getLsbD 0
/-- LEAF -/
def pteLeaf (e : Double) : Bool := e.getLsbD 1
/-- WRITE -/
def pteWrite (e : Double) : Bool := e.getLsbD 2
/-- EXEC -/
def pteExec (e : Double) : Bool := e.getLsbD 3
/-- FIRST_TOUCH -/
def pteFirst (e : Double) : Bool := e.getLsbD 4
/-- CRUMB -/
def pteCrumb (e : Double) : Bool := e.getLsbD 5
/-- CR_FMT -/
def pteCrFmt (e : Double) : Nat := bitsOf e 6 4
/-- CR_ALLOT -/
def pteCrAllot (e : Double) : Nat := bitsOf e 10 2
/-- The physical address in ADDR. -/
def pteAddr (e : Double) : Nat := bitsOf e 12 44 * 256

/-- Lowest address bit an entry of a level leaves to the page or the next table (11 R264). -/
def levelShift : Nat → Nat
  | 0 => 16 | 1 => 21 | 2 => 30 | 3 => 39 | _ => 48

/-- Index bits of a level. -/
def levelIndex (level va : Nat) : Nat :=
  natBits va (levelShift level) (match level with | 0 => 5 | 4 => 8 | _ => 9)

/-- Bytes of a page mapped at a level. -/
def pageSize (level : Nat) : Nat := 2 ^ levelShift level

/-- Bytes of a dense chunk of a crumb page, and of its overflow record (05 R117, R120). -/
def chunkSize (f : Nat) : Nat := 4 * fmtWidth f

/-- The crumb page a leaf maps. -/
def crumbPage (level : Nat) (e : Double) : CrumbPage :=
  ⟨pteAddr e, pageSize level, pteCrFmt e, 32 * 2 ^ pteCrAllot e⟩

/-- Chunks of a crumb page. -/
def CrumbPage.chunks (p : CrumbPage) : Nat := p.size / chunkSize p.fmt

/-- Bytes a crumb page's frame occupies (05 R120, 07 R181). -/
def CrumbPage.frameSize (p : CrumbPage) : Nat := p.chunks * (p.allot + chunkSize p.fmt)

/-- Whether a valid leaf at a level is well formed (11 R266, 07 R181, 13 R303, 14 R328). -/
def leafOk (level : Nat) (e : Double) : Bool :=
  level ≤ 2 && pteAddr e % pageSize level == 0 &&
  (if pteCrumb e then
    1 ≤ pteCrFmt e && pteCrFmt e ≤ 7 && pteCrAllot e ≠ 3 && pteAddr e + (crumbPage level e).frameSize ≤ hbmEnd
  else
    match physOf (pteAddr e) with
    | some (.window off) => off + pageSize level ≤ windowSize
    | some _ => true
    | none => false)

/-- Whether a valid non-leaf entry at a level is well formed (11 R266). -/
def nodeOk (level : Nat) (e : Double) : Bool := level ≠ 0 && (level == 1 || bitsOf e 12 4 == 0)

/-- Whether a valid root-table entry is well formed (11 R264). -/
def rootOk (e : Double) : Bool := bitsOf e 1 11 == 0 && bitsOf e 56 8 == 0 && bitsOf e 12 3 == 0

/-- What a valid leaf makes of an address. -/
def leafPhys (level : Nat) (e : Double) (va : Nat) : Phys :=
  let off := va % pageSize level
  if pteCrumb e then .crumb (crumbPage level e) off else (physOf (pteAddr e + off)).getD (.hbm 0)

/-! ### Reading an entry (11 R268) -/

/-- The dense bytes of a line as its home holds them in dense form, in its cache or its write-back buffer (07 R169, 12
R294); a byte is missing when its line is undeliverable (12 R295, R478). -/
def State.denseBytes? (s : State) (asid line : Nat) : Option (List (Option Byte)) :=
  match s.lines.find? fun l => l.asid == asid && l.line == line && l.form.isNone with
  | some l => some (if l.poison.isSome then l.data.map fun _ => none else l.data.map some)
  | none =>
    (s.writeBacks.reverse.find? fun w => w.asid == asid && w.line == line && w.form.isNone).map fun w =>
      if w.poison.isSome then w.data.map fun _ => none else w.data.map some

/-- A line of HBM, clean or reconstructed, missing where undeliverable. -/
def State.hbmBytes (s : State) (line : Nat) : List (Option Byte) :=
  match (s.readLine line 0).1 with
  | some bs => bs.map some
  | none => List.replicate lineBytes none

/-- A byte, or FILL_BYTE where it cannot be delivered (12 R295). -/
def State.orFill (s : State) (b : Option Byte) : Byte := b.getD s.fillByte

/-- A page-table entry, read as 8 bytes under the physical alias (11 R268); none where the alias faults (14 R328).  What
an entry beyond HBM and the window holds is a free value. (DESIGN CHOICE: assumption 7). -/
def State.readPte? (s : State) (pa : Nat) : Option Double :=
  match physOf pa with
  | some (.hbm _) =>
    let bs := (s.denseBytes? aliasAsid (pa / lineBytes)).getD (s.hbmBytes (pa / lineBytes))
    some (BitVec.ofNat 64 (leValue (((bs.drop (pa % lineBytes)).take 8).map s.orFill)))
  | some (.window off) => some (s.windowRead off)
  | some (.host port a) => some (BitVec.ofNat 64 (leValue (tabulate 8 fun k => Config.hostByte s.freeCount port (a + k))))
  | some (.fabric target off) =>
    some (BitVec.ofNat 64 (leValue (tabulate 8 fun k => Config.hostByte s.freeCount (2 + target) (off + k))))
  | _ => none

/-- A page-table entry, or one with VALID 0 where it cannot be read. -/
def State.readPte (s : State) (pa : Nat) : Double := (s.readPte? pa).getD 0

/-! ### Walks (11 R266) -/

/-- Where a walk ended: level (5 for the root table), the entry's physical address, the entry, and its fault code, 0
for a valid leaf; and the addresses of the entries the walk read. -/
structure WalkEnd where
  level : Nat
  entry : Nat
  pte   : Double
  code  : Nat
  reads : List Nat
  deriving DecidableEq, Repr

/-- A cached entry of a level, when the home holds one and uses it (11 R268, R269). (DESIGN CHOICE: assumption 9). -/
def cached (es : List TlbEntry) (n home asid level va : Nat) : Option Double :=
  ((es.find? fun e => e.home == home && e.asid == asid && e.level == level && e.tagVa == va / 2 ^ levelShift level).filter
    fun _ => Config.useCached (n + level)).map (·.pte)

/-- The walk from a table down, and the non-leaf entries it read. -/
def State.walkDown (s : State) (home asid va table : Nat) : List Nat → WalkEnd × List TlbEntry
  | [] => (⟨0, table, 0, Cause.badPte.code, []⟩, [])
  | level :: rest =>
    let pa := table + 8 * levelIndex level va
    let held := cached s.walkCache s.freeCount home asid level va
    let e := held.getD (s.readPte pa)
    let rd := if held.isSome then [] else [pa]
    if !pteValid e then (⟨level, pa, e, Cause.notPresent.code, rd⟩, [])
    else if pteLeaf e then (⟨level, pa, e, if leafOk level e then 0 else Cause.badPte.code, rd⟩, [])
    else if !nodeOk level e then (⟨level, pa, e, Cause.badPte.code, rd⟩, [])
    else
      let (w, es) := s.walkDown home asid va (pteAddr e) rest
      ({ w with reads := rd ++ w.reads }, ⟨home, asid, level, va / 2 ^ levelShift level, e⟩ :: es)

/-- Where the physical alias leads, which is never walked (11 R267). -/
def aliasPlace (va : Nat) : Option Phys := if va < 2 ^ 52 then physOf va else none

/-- A whole walk. -/
def State.walk (s : State) (asid va : Nat) : WalkEnd × List TlbEntry :=
  if asid = aliasAsid then (⟨5, 0, 0, if (aliasPlace va).isSome then 0 else Cause.notPresent.code, []⟩, [])
  else
    let e := tabGet s.rootTable asid 0
    if !pteValid e then (⟨5, 0, e, Cause.notPresent.code, []⟩, [])
    else if !rootOk e then (⟨5, 0, e, Cause.badPte.code, []⟩, [])
    else s.walkDown (transHome va asid) asid va (pteAddr e) [4, 3, 2, 1, 0]

/-- What reading a walk's entries does to memory and its counters (12 R295, R300): one held at its home is read there. -/
def State.walked (s : State) (w : WalkEnd) : State :=
  (w.reads.filter fun pa => pa < hbmEnd && (s.denseBytes? aliasAsid (pa / lineBytes)).isNone).foldl
    (fun s pa => (s.readLine (pa / lineBytes) 0).2) s

/-- The leaf a home's TLB gives, when it uses one. -/
def State.tlbLeaf? (s : State) (asid va : Nat) : Option WalkEnd :=
  [0, 1, 2].findSome? fun level =>
    (cached s.tlb (s.freeCount + 8) (transHome va asid) asid level va).map fun e => ⟨level, 0, e, 0, []⟩

/-- Puts entries in a cache in place of older ones of the same tag. -/
def cacheEntries (es new : List TlbEntry) : List TlbEntry :=
  (es.filter fun e => !new.any fun m => m.home == e.home && m.asid == e.asid && m.level == e.level && m.tagVa == e.tagVa)
    ++ new

/-- What kind of access is translated. -/
inductive Want where
  | read | write | fetch
  deriving DecidableEq, Repr

/-- The permission a valid leaf gives (11 R266). -/
def wantCode (w : Want) (e : Double) : Nat :=
  match w with
  | .read => 0
  | .write => if pteWrite e then 0 else Cause.writeProt.code
  | .fetch => if pteExec e then 0 else Cause.execProt.code

/-- Translation at the translation home: a physical place, or a fault code (07 R170; 11 R264 to R268). -/
def State.translate (s : State) (asid va : Nat) (w : Want) : Except Nat Phys × State :=
  if asid = aliasAsid then
    (match aliasPlace va with
      | some p => .ok p
      | none => .error Cause.notPresent.code, s)
  else
    let (e, nodes) := match s.tlbLeaf? asid va with
      | some e => (e, [])
      | none => s.walk asid va
    let leaf := if e.code = 0 then [⟨transHome va asid, asid, e.level, va / 2 ^ levelShift e.level, e.pte⟩] else []
    let s := { s.walked e with
      freeCount := s.freeCount + 16
      tlb := cacheEntries s.tlb leaf
      walkCache := cacheEntries s.walkCache nodes }
    if e.code ≠ 0 then (.error e.code, s)
    else if wantCode w e.pte ≠ 0 then (.error (wantCode w e.pte), s)
    else (.ok (leafPhys e.level e.pte va), s)

/-- The protection code that an access to a line its home holds may meet (assumption 13). -/
def State.hitCode (s : State) (asid va : Nat) (w : Want) : Nat × State :=
  if asid = aliasAsid then (0, s)
  else if Config.checksHit s.freeCount then
    match s.translate asid va w with
    | (.error code, s) => (if code = Cause.writeProt.code || code = Cause.execProt.code then code else 0, s)
    | (.ok _, s) => (0, s)
  else (0, { s with freeCount := s.freeCount + 1 })

/-! ### Dropping translations (11 R269, R270) -/

/-- Whether a cached entry covers an address. -/
def TlbEntry.covers (e : TlbEntry) (asid va : Nat) : Bool :=
  e.asid == asid && e.tagVa == va / 2 ^ levelShift e.level

/-- Drops every cached entry, leaf and not, that satisfies a test: what a TLBI does at its completion. -/
def State.dropEntries (s : State) (p : TlbEntry → Bool) : State :=
  { s with tlb := s.tlb.filter (!p ·), walkCache := s.walkCache.filter (!p ·) }

/-- TLBI of a page. -/
def State.tlbiPage (s : State) (asid va : Nat) : State := s.dropEntries (·.covers asid va)
/-- TLBI of an ASID. -/
def State.tlbiAsid (s : State) (asid : Nat) : State := s.dropEntries (·.asid == asid)
/-- TLBI of everything. -/
def State.tlbiAll (s : State) : State := s.dropEntries fun _ => true

/-! ### Migration's freeze (08 R204, 11 R283) -/

/-- Bytes of the page a migration unit serves. -/
def Migration.size (m : Migration) : Nat := if m.d1.getLsbD 12 then 2 ^ 21 else 2 ^ 16

/-- Whether an address lies in the page of a migration request. -/
def Migration.holds (m : Migration) (asid va : Nat) : Bool :=
  bitsOf m.d1 0 12 == asid && va / m.size == bitsOf m.d0 0 56 / m.size

/-- Whether every access to an address is held by a freeze. -/
def State.frozen (s : State) (asid va : Nat) : Bool := s.migrations.any fun m => m.state == 3 && m.holds asid va

/-- Notes that a line of a page in COPY or ROUND has been written (11 R283). -/
def State.noteDirty (s : State) (asid va : Nat) : State :=
  { s with migrations := s.migrations.map fun (m : Migration) =>
      if (m.state == 1 || m.state == 2) && m.holds asid va then
        let k := va % m.size / lineBytes
        if m.dirty.contains k then m else { m with dirty := insertRising k m.dirty }
      else m }

end Sys2Proof.Machine
end

