-- ==== Sys2Proof/Machine/Home.lean ====
section
/-! DEFINITION. Lines at their homes (07 R168 to R171, R181 to R184; 12 R294, R478), monitors' wakes (08 R206), the
coherent accesses device agents make inside one step, and the step of MAPF (11 R277). -/

namespace Sys2Proof.Machine
set_option Elab.async false
open Sys2Proof

/-! ### Crumb pages (07 R181 to R184) -/

/-- A physical line as a group's home sees it: its newest write-back still in the write-back buffer, or HBM. -/
def State.compactLine (s : State) (asid line : Nat) : List (Option Byte) :=
  match s.writeBacks.reverse.findSome? fun w => if w.asid == asid then w.pas.lookup line else none with
  | some (bs, poisoned) => bs.map fun b => if poisoned then none else some b
  | none => s.hbmBytes line

/-- n bytes of the frame of a crumb page; they lie in one line. -/
def State.compactBytes (s : State) (asid pa n : Nat) : List (Option Byte) :=
  ((s.compactLine asid (pa / lineBytes)).drop (pa % lineBytes)).take n

/-- All bytes of a list, if none is missing. -/
def allBytes (l : List (Option Byte)) : Option (List Byte) := l.mapM id

/-- Address of the record of a chunk (05 R120). -/
def CrumbPage.recordAt (p : CrumbPage) (n : Nat) : Nat := p.frame + n * p.allot

/-- Address of the overflow record of a chunk (05 R120). -/
def CrumbPage.overflowAt (p : CrumbPage) (n : Nat) : Nat := p.frame + p.chunks * p.allot + n * chunkSize p.fmt

/-- A chunk of a crumb page as memory holds it: record and overflow record, if deliverable. -/
def State.chunkRecord (s : State) (asid : Nat) (p : CrumbPage) (n : Nat) : Option (List Byte × List Byte) := do
  let r ← allBytes (s.compactBytes asid (p.recordAt n) p.allot)
  if (crumbFields r).spill then
    let o ← allBytes (s.compactBytes asid (p.overflowAt n) (chunkSize p.fmt))
    some (r, o)
  else some (r, [])

/-- The dense bytes of codes of a format. -/
def codeBytes (f : Nat) (cs : List Nat) : List Byte := leBytes (chunkSize f) (packElems (fmtWidth f) cs)

/-- The dense bytes of a chunk (07 R183); missing bytes where it is undeliverable. -/
def State.chunkBytes (s : State) (asid : Nat) (p : CrumbPage) (n : Nat) : List (Option Byte) :=
  match s.chunkRecord asid p n with
  | some (r, o) => (codeBytes p.fmt (decodeChunk p.fmt p.allot r o)).map some
  | none => List.replicate (chunkSize p.fmt) none

/-- A dense line of a crumb page, expanded; one of whose chunks cannot be supplied is undeliverable as a whole.
(DEDUCED: assumption 107). -/
def State.expandLine (s : State) (asid : Nat) (p : CrumbPage) (line : Nat) : List (Option Byte) :=
  let c := lineBytes / chunkSize p.fmt
  let bs := (List.range c).flatMap fun j => s.chunkBytes asid p (c * line + j)
  if bs.contains none then bs.map fun _ => none else bs

/-- The lines of HBM among some physical lines that no write-back of an address space still holds. -/
def State.unbuffered (s : State) (asid : Nat) (lines : List Nat) : List Nat :=
  lines.filter fun k => (s.writeBacks.all fun w => w.asid != asid || (w.pas.lookup k).isNone) && k < hbmLines

/-- Physical lines of the records and overflow records a dense line of a crumb page takes from memory. -/
def State.compactReads (s : State) (asid : Nat) (p : CrumbPage) (line : Nat) : List Nat :=
  let c := lineBytes / chunkSize p.fmt
  s.unbuffered asid <| dedup <| (List.range c).flatMap fun j =>
    let n := c * line + j
    p.recordAt n / lineBytes ::
      match allBytes (s.compactBytes asid (p.recordAt n) p.allot) with
      | some r => if (crumbFields r).spill then [p.overflowAt n / lineBytes] else []
      | none => []

/-- What a translated place holds of a line of HBM or of a crumb page, and the state as the reading leaves it (12 R295). -/
def State.fillFrom (s : State) (asid : Nat) : Phys → List (Option Byte) × State
  | .hbm pa =>
    let (d, s') := s.readLine (pa / lineBytes) 0
    ((d.map fun bs => bs.map some).getD (List.replicate lineBytes none), s')
  | .crumb p off => (s.expandLine asid p (off / lineBytes), s.readLines (s.compactReads asid p (off / lineBytes)))
  | _ => (List.replicate lineBytes none, s)

/-- A record whose overflow record lies at another distance. -/
def placeRecord (rec : List Byte) (dist : Nat) : List Byte :=
  if (crumbFields rec).spill then overlay rec 12 (leBytes 4 (dist / 16)) else rec

/-! ### Compact lines (07 R182 to R184)

A home holds a crumb group in compact form as the 128-byte lines of the frame that hold the group's records and overflow
records.  What a dense line's chunks take of them is its unit: its records, then its overflow records.
(DEDUCED: assumption 87). -/

/-- Record and overflow record of chunk j of a unit. (DEDUCED: assumption 87). -/
def compactRecord (f allot : Nat) (data : List Byte) (j : Nat) : List Byte × List Byte :=
  ((data.drop (j * allot)).take allot, (data.drop (lineBytes / chunkSize f * allot + j * chunkSize f)).take (chunkSize f))

/-- The records of some chunks, each in its allotment. (DEDUCED: assumption 87). -/
def packRecords (allot : Nat) (rs : List (List Byte × Option (List Byte))) : List Byte :=
  rs.flatMap fun (r, _) => (r ++ List.replicate (allot - r.length) 0).take allot

/-- The overflow records of some chunks; one that does not exist reads as zeros. -/
def packOverflow (f : Nat) (rs : List (List Byte × Option (List Byte))) : List Byte :=
  rs.flatMap fun (_, o) => (o.getD []) ++ List.replicate (chunkSize f - (o.getD []).length) 0

/-- The dense bytes of a line in compact form (07 R183). -/
def expandCompact (f allot : Nat) (data : List Byte) : List Byte :=
  (List.range (lineBytes / chunkSize f)).flatMap fun j =>
    let (r, o) := compactRecord f allot data j
    codeBytes f (decodeChunk f allot r o)

/-- The bytes a line in some form stands for in dense form. -/
def denseImage (form : Option (Nat × Nat)) (data : List Byte) : List Byte :=
  match form with
  | none => data
  | some (f, allot) => expandCompact f allot data

/-- A line in dense form. -/
def Line.toDense (l : Line) : Line := { l with data := denseImage l.form l.data, form := none, part := 0 }

/-- Dense lines of a crumb group: 32 chunks (07 R182). -/
def groupDense (f : Nat) : Nat := chunkSize f / 4

/-- First dense line of the group of a dense line (07 R182). -/
def groupBase (f line : Nat) : Nat := line / groupDense f * groupDense f

/-- A line of a group in compact form. -/
def Line.ofGroup (l : Line) (asid base : Nat) : Bool := l.form.isSome && l.asid == asid && l.line == base

/-- Format and allotment of the group its home holds in compact form, if a dense line lies in one (07 R183). -/
def State.groupForm? (s : State) (asid line : Nat) : Option (Nat × Nat) :=
  s.lines.findSome? fun l => match l.form with
    | some (f, a) => if l.asid == asid && l.line == groupBase f line then some (f, a) else none
    | none => none

/-- A frame line of a group in compact form; one that holds no record reads as zeros. -/
def State.groupLine (s : State) (asid base k : Nat) : Line :=
  (s.lines.find? fun l => l.ofGroup asid base && l.part == k).getD ⟨asid, base, zeroLine, false, none, none, 0, k⟩

/-- n bytes of a group's frame lines, and whether a line among them is newer than memory. -/
def State.groupBytes (s : State) (asid base off n : Nat) : List Byte × Bool :=
  let ls := (List.range ((off % lineBytes + n + 127) / lineBytes)).map fun j => s.groupLine asid base (off / lineBytes + j)
  (((ls.flatMap (·.data)).drop (off % lineBytes)).take n, ls.any (·.dirty))

/-- The unit of a dense line, where its home holds its group in compact form (07 R183). -/
def State.compact? (s : State) (asid line : Nat) : Option Line :=
  (s.groupForm? asid line).map fun (f, a) =>
    let base := groupBase f line
    let n := lineBytes / chunkSize f * a
    let r := s.groupBytes asid base ((line - base) * n) n
    let o := s.groupBytes asid base (32 * a + (line - base) * lineBytes) lineBytes
    ⟨asid, line, r.1 ++ o.1, r.2 || o.2, some (f, a), none, 0, 0⟩

/-- A dense line held or waiting at its home, or expanded there from a compact one (07 R169, R183; 12 R294). -/
def State.homeBytes? (s : State) (asid line : Nat) : Option (List (Option Byte)) :=
  (s.lines.find? fun l => l.asid == asid && l.line == line && l.form.isNone).elim
    ((s.compact? asid line).elim
      ((s.writeBacks.reverse.find? fun w => w.asid == asid && w.line == line).map fun w =>
        let d := denseImage w.form w.data
        if w.poison.isSome then d.map fun _ => none else d.map some)
      fun l => some (l.toDense.data.map some))
    fun l => some (if l.poison.isSome then l.data.map fun _ => none else l.data.map some)

/-! ### Writes reach monitors, waiting BTE commands and copies -/

/-- Every core and easel cache drops its copy of a line (07 R168). -/
def State.dropCopies (s : State) (asid line : Nat) : State :=
  { s with copies := s.copies.filter fun c => !(c.asid == asid && c.line == line) }

/-- An event occurs on every monitor of a block that has had none (08 R206). -/
def State.wakeBlock (s : State) (b : Block) : State :=
  { s with crews := s.crews.map fun c => c.mapAllSlices fun sl =>
      match sl.monitor with
      | some m => if m.block == b && m.event.isNone then { sl with monitor := some { m with event := some 0 } } else sl
      | none => sl }

/-- Whether a slot waits on a value of a line (09 R213). -/
def Slot.watches (k : Slot) (asid line : Nat) : Bool :=
  k.state == .waiting && k.wait == .value &&
    match k.cmd with
    | some c => c.asid == asid && (dbl c.packet 1).toNat / lineBytes == line
    | none => false

/-- A line is written: its copies are invalid (07 R168), its monitors wake and WAITVALs will read it again. -/
def State.noteWrite (s : State) (asid line : Nat) : State :=
  let s := (s.dropCopies asid line).wakeBlock ⟨0, asid, line⟩
  { s with clusters := s.clusters.map fun (i, k) =>
      (i, { k with slots := k.slots.map fun sl => if sl.watches asid line then { sl with reread := true } else sl }) }

/-- Whether a line of an ASID is the management window's block of an offset. -/
def State.windowLine (s : State) (asid line off : Nat) : Bool :=
  match (s.translate asid (line * lineBytes) .read).1 with
  | .ok (.window o) => o / lineBytes == off / lineBytes
  | _ => false

/-- A register of the management window is written, by an agent or by the device: the monitors of its block wake (08 R206;
09 R231), under whatever addresses they watch it, and WAITVALs will read it again. -/
def State.noteWindow (s : State) (off : Nat) : State :=
  let wake (sl : Slice) : Slice :=
    match sl.monitor with
    | some m =>
      if m.block.space == 0 && m.event.isNone && s.windowLine m.block.owner m.block.line off then
        { sl with monitor := some { m with event := some 0 } }
      else sl
    | none => sl
  let again (k : Slot) : Slot :=
    match k.cmd with
    | some c =>
      let line := (dbl c.packet 1).toNat / lineBytes
      if k.watches c.asid line && s.windowLine c.asid line off then { k with reread := true } else k
    | none => k
  { s with
    crews := s.crews.map fun c => c.mapAllSlices wake
    clusters := s.clusters.map fun (i, k) => (i, { k with slots := k.slots.map again }) }

/-! ### Lines -/

/-- Sets of four ways of a cache (07 R168): 64 KiB per core, 16 KiB per easel.  Caches are numbered by cluster and core in
cluster, 17 to a cluster, the easel last. -/
def copySets (cache : Nat) : Nat := if cache % 17 = 16 then 32 else 128

/-- A cache takes a copy of a line, in a free way of the line's set or in place of the set's oldest copy (07 R168).
(DESIGN CHOICE: assumption 115). -/
def State.addCopy (s : State) (cache asid line : Nat) (data : List Byte) : State :=
  let same (c : Copy) : Bool := c.cache == cache && c.asid == asid && c.line == line
  let set (c : Copy) : Bool := c.cache == cache && c.line % copySets cache == line % copySets cache
  let mine := s.copies.filter fun c => set c && !same c
  let way := ((List.range 4).find? fun w => mine.all (·.way != w)).getD (((mine.head?).map (·.way)).getD 0)
  { s with copies := s.copies.filter (fun c => !same c && !(set c && c.way == way)) ++ [⟨cache, asid, line, data, way⟩] }

/-- A cache's copy of a line. -/
def State.copy? (s : State) (cache asid line : Nat) : Option Copy :=
  s.copies.find? fun c => c.cache == cache && c.asid == asid && c.line == line

/-- Whether a list has no gap. -/
def fullMask (m : List Bool) : Bool := m.all id

/-- The mask of a line none of whose bytes has been written since it became undeliverable (12 R478). -/
def noneWritten : List Bool := List.replicate lineBytes false

/-- A line as a fill brings it; a line with missing bytes is poisoned (12 R478), and what its home's copy holds of them
is a free value (assumption 10). -/
def freshLine (n asid line : Nat) (bs : List (Option Byte)) : Line :=
  ⟨asid, line, bs.mapIdx fun i b => b.getD (Config.freeByte n 2 i), false, none,
    if bs.contains none then some noneWritten else none, 0, 0⟩

/-- The line a home holds in dense form. -/
def State.line? (s : State) (asid line : Nat) : Option Line :=
  s.lines.find? fun l => l.asid == asid && l.line == line && l.form.isNone

/-- The newest write-back of a line still in its home's buffer (12 R294). -/
def State.writeBack? (s : State) (asid line : Nat) : Option WriteBack :=
  s.writeBacks.reverse.find? fun w => w.asid == asid && w.line == line

/-- A line in the write-back buffer as its home serves it; what had been written of a poisoned one is lost once it is sent
(12 R478). -/
def WriteBack.toLine (w : WriteBack) : Line :=
  ⟨w.asid, w.line, denseImage w.form w.data, false, none, if w.sent then w.poison.map fun _ => noneWritten else w.poison, 0, 0⟩

/-- The dense line a home serves a request from: held so, expanded from a compact line, or in its write-back buffer. -/
def State.served? (s : State) (asid line : Nat) : Option Line :=
  (s.line? asid line).or (((s.compact? asid line).map Line.toDense).or ((s.writeBack? asid line).map WriteBack.toLine))

/-! ### Slices and their ways (07 R168, R185) -/

/-- The slice of a line's home. -/
def lineSlice (asid line : Nat) : Nat := homeOf (line * lineBytes) asid

/-- The slice of a held line. -/
def Line.slice (l : Line) : Nat := lineSlice l.asid l.line

/-- Lines a way of a slice holds: 1 MiB over 16 ways of 128-byte lines (07 R168). -/
def wayLines : Nat := 512

/-- Ways of a slice that lines may be allocated in: those that are not chip scratchpad, nor draining for it (07 R185). -/
def State.cacheWays (s : State) (slice : Nat) : Nat :=
  let die := slice / 192
  16 - max (s.chipWays.getD die 0) (((s.spcfg.getD die none).map (·.ways)).getD 0)

/-- Lines and fills under way that hold a place in a way of a slice. -/
def State.wayCount (s : State) (slice way : Nat) : Nat :=
  (s.lines.filter fun l => l.way == way && l.slice == slice).length +
    (s.fills.filter fun x => x.way == way && lineSlice x.asid x.line == slice).length

/-- The way a new line of a slice takes, if one has room. -/
def State.roomyWay? (s : State) (slice : Nat) : Option Nat :=
  (List.range (s.cacheWays slice)).find? fun w => s.wayCount slice w < wayLines

/-- The operation that owns a line, if one does (08 R198). -/
def State.ownerOf (s : State) (asid line : Nat) : Option Nat :=
  (s.owned.find? fun o => o.asid == asid && o.line == line).map (·.owner)

/-- A line or unit joins its home's write-back buffer, where it waits to be made a write-back (07 R184; 12 R294). -/
def State.buffer (s : State) (l : Line) (flush spcfg : Option Nat) : State :=
  { s with
    serial := s.serial + 1
    writeBacks := s.writeBacks ++ [⟨s.serial, l.asid, l.line, l.data, l.poison, [], false, 0, none, flush, false, l.form, spcfg⟩] }

/-- The units of a group its home holds in compact form. -/
def State.groupUnits (s : State) (f asid line : Nat) : List Line :=
  (List.range (groupDense f)).filterMap fun k => s.compact? asid (groupBase f line + k)

/-- The units of a group in compact form that is newer than memory: all of them, since compact data leaves its form a whole
group at a time; none of a group that is not (07 R184). -/
def State.dirtyGroup (s : State) (f asid line : Nat) : List Line :=
  let units := s.groupUnits f asid line
  if units.any (·.dirty) then units.map fun u => { u with dirty := true } else []

/-- A group in compact form leaves its slice, all its lines together: copies with them, and the whole group for the
write-back buffer where it is newer than memory (07 R168, R184). -/
def State.unloadGroup (s : State) (f asid line : Nat) (flush spcfg : Option Nat) : State :=
  let dirty := s.dirtyGroup f asid line
  let s := (s.groupUnits f asid line).foldl (fun s u => s.dropCopies asid u.line) s
  let s := { s with lines := s.lines.filter (!·.ofGroup asid (groupBase f line)) }
  dirty.foldl (fun s u => s.buffer u (if u.line = line then flush else none) spcfg) s

/-- A line leaves its slice: its copies with it, and a dirty one for the write-back buffer; one in compact form leaves with
its group (07 R168, R184; 12 R294). -/
def State.unload (s : State) (l : Line) (flush spcfg : Option Nat) : State :=
  match l.form with
  | some (f, _) => s.unloadGroup f l.asid l.line flush spcfg
  | none =>
    let s := { s.dropCopies l.asid l.line with lines := s.lines.erase l }
    if !l.dirty then s else s.buffer l flush spcfg

/-- Makes room in a full slice: it gives up a line that no operation owns, where it has one, and none that must stay.
(DESIGN CHOICE: assumption 80). -/
def State.displace (s : State) (slice : Nat) (keep : Line → Bool) : State :=
  let mine := s.lines.filter fun l => l.slice == slice && l.way < s.cacheWays slice && !keep l
  let free := mine.filter fun l => (s.ownerOf l.asid l.line).isNone
  let from_ := if free.isEmpty then mine else free
  match from_[Config.victim s.freeCount % from_.length]? with
  | some l => { s.unload l none none with freeCount := s.freeCount + 1 }
  | none => s

/-- A way for a new line of a slice, displacing a line where every way is full. -/
def State.takeWay (s : State) (slice : Nat) (keep : Line → Bool := fun _ => false) : Nat × State :=
  match s.roomyWay? slice with
  | some w => (w, s)
  | none =>
    let s := s.displace slice keep
    ((s.roomyWay? slice).getD 0, s)

/-- A fill of a line is no longer wanted: its home holds the line, and the requests that waited for it are made again
(12 R294). -/
def State.endFills (s : State) (asid line : Nat) : State :=
  { s with
    fills := s.fills.filter fun x => !(x.asid == asid && x.line == line)
    flights := s.flights.map fun f =>
      if f.asid != asid || f.kind == .flush then f
      else { f with parts := f.parts.map fun p =>
        if p.state == .fill && p.addr.toNat / lineBytes == line && natBits p.addr.toNat 56 8 == 0 then
          { p with state := .sent }
        else p } }

/-- Puts a dense line in its home's cache in place of an older copy, or in a way of its own.
(DESIGN CHOICE: assumption 80). -/
def State.install (s : State) (l : Line) : State :=
  let same (m : Line) : Bool := m.asid == l.asid && m.line == l.line && m.form.isNone
  let s := s.endFills l.asid l.line
  match s.lines.find? same with
  | some m => { s with lines := { l with way := m.way } :: s.lines.filter (!same ·) }
  | none =>
    let (w, s) := s.takeWay l.slice
    { s with lines := { l with way := w } :: s.lines.filter (!same ·) }

/-- Puts a group in its home's cache in compact form, each of its frame lines in a way of its own (07 R182, R183).  `units`
are its dense lines' records and overflow records, and whether they are newer than memory; a line of overflow records
that holds none is not kept. -/
def State.holdGroup (s : State) (f a asid base : Nat) (units : List (List (List Byte × Option (List Byte)) × Bool)) : State :=
  let recs := units.flatMap fun u => packRecords a u.1
  let unit := lineBytes / chunkSize f * a
  let dirty (k : Nat) : Bool := (units.zipIdx.any fun (u, i) => u.2 && i * unit < 128 * (k + 1) && 128 * k < (i + 1) * unit)
  let line (k : Nat) (bs : List Byte) (d : Bool) : Line := ⟨asid, base, bs, d, some (f, a), none, 0, k⟩
  let ls := (List.range (a / 4)).map (fun k => line k ((recs.drop (128 * k)).take 128) (dirty k)) ++
    (units.zipIdx.filter fun (u, _) => u.1.any (·.2.isSome)).map fun (u, i) => line (a / 4 + i) (packOverflow f u.1) u.2
  ls.foldl (fun s l =>
    let (w, s) := s.takeWay l.slice (·.ofGroup asid base)
    { s with lines := { l with way := w } :: s.lines }) s

/-- A home that is to hold a group's dense lines only expands a group newer than memory, but for one line (07 R183). -/
def State.denseGroup (s : State) (asid line : Nat) (but : Option Nat) : State :=
  match s.groupForm? asid line with
  | none => s
  | some (f, _) =>
    let units := (s.dirtyGroup f asid line).filter fun u => some u.line != but
    units.foldl (fun s u => s.install u.toDense) { s with lines := s.lines.filter (!·.ofGroup asid (groupBase f line)) }

/-- Writes bytes of a line; a poisoned line is whole again once every byte has been written (12 R478). -/
def Line.write (l : Line) (off : Nat) (bs : List Byte) : Line :=
  let poison := match l.poison with
    | none => none
    | some m =>
      let m := m.mapIdx fun i b => b || (off ≤ i && i < off + bs.length)
      if fullMask m then none else some m
  { l with data := overlay l.data off bs, dirty := true, form := none, poison := poison }

/-- Writes a line that has left the cache and has not been sent: its write-back takes the bytes (11 R479, 12 R294). -/
def WriteBack.write (w : WriteBack) (off : Nat) (bs : List Byte) : WriteBack :=
  let l := w.toLine.write off bs
  { w with data := l.data, form := none, poison := l.poison }

/-- Writes a line at its home, where the home has it in any form; a write makes its group dense (07 R183). -/
def State.writeHome? (s : State) (asid line off : Nat) (bs : List Byte) : Option State :=
  match (s.line? asid line).or ((s.compact? asid line).map Line.toDense) with
  | some l => some (((s.denseGroup asid line line).install (l.write off bs)).noteWrite asid line)
  | none =>
    (s.writeBack? asid line).map fun w =>
      if w.sent then (s.install (w.toLine.write off bs)).noteWrite asid line
      else State.noteWrite { s with writeBacks := modifyWhere (·.id == w.id) (·.write off bs) s.writeBacks } asid line

/-- Whether an access by someone other than an owner is held at the line's home (08 R198). -/
def State.ownedByOther (s : State) (asid line : Nat) (me : Option Nat) : Bool :=
  match s.ownerOf asid line with
  | some o => some o != me
  | none => false

/-- Whether a write of `me` to a line is held there: another operation owns the line, or `me` does not yet own every line it
has asked for, and so makes no write (08 R198). -/
def State.holdsWrite (s : State) (asid line me : Nat) : Bool :=
  s.ownedByOther asid line (some me) || s.owned.any fun o => o.owner == me && s.ownedByOther o.asid o.line (some me)

/-- Whether an access of n bytes is held by an owner of one of its lines (08 R198). -/
def State.ownedSpan (s : State) (asid va n : Nat) : Bool :=
  (List.range ((va + n - 1) / lineBytes - va / lineBytes + 1)).any fun k => s.ownedByOther asid (va / lineBytes + k) none

/-! ### Requests to other devices (13 R305, R306, R311) -/

/-- The physical address of an inbound offset of another device (13 R303). -/
def fabricPa (target off : Nat) : Nat := 2 ^ 51 + 2 ^ 40 * target + off

/-- A new message, ready to be sent. -/
def State.newMessage (s : State) (owner : MsgOwner) (crew : Option Nat) (kind target off size : Nat)
    (data : List Double) (job die : Nat) : State :=
  { s with
    serial := s.serial + 1
    messages := s.messages ++ [⟨s.serial, owner, crew, kind, target, fabricPa target off, off, size, data, job, die, 50,
      .ready, s.clock.toNat⟩] }

/-- A request of a device agent to another device: its answer, once it has come; it is sent once.
(DESIGN CHOICE: assumption 17). -/
def State.farDo (s : State) (u : FarUser) (kind target off size : Nat) (data : List Double) (crew : Option Nat)
    (job die : Nat) : Option (List Double) × State :=
  match s.farOps.find? fun o => o.user == u && o.kind == kind && o.target == target && o.off == off && o.sent == data with
  | some o => (o.data, s)
  | none =>
    let s' := s.newMessage (.far u) crew kind target off size data job die
    (none, { s' with farOps := s'.farOps ++ [⟨u, kind, target, off, s.serial, data, none⟩] })

/-- A device agent has done what it asked other devices for. -/
def State.farDone (s : State) (u : FarUser) : State := { s with farOps := s.farOps.filter (·.user != u) }

/-! ### Coherent accesses by a device agent, inside one step -/

/-- What reaching for bytes gives. -/
inductive Got where
  /-- the bytes; missing where undeliverable -/
  | bytes (bs : List (Option Byte))
  /-- a translation fault at an address -/
  | fault (code va : Nat)
  /-- they lie in another device: target, inbound offset, and the virtual address asked for -/
  | fabric (target off va : Nat)
  /-- held by a migration's freeze (08 R204) -/
  | held
  deriving DecidableEq, Repr

/-- The number under which a device agent that is no operation meets owned lines: it owns none (08 R198). -/
def deviceOwner : Nat := 2 ^ 65

/-- The number of a host port's writes, which own no line either; the window knows the port by it (13 R320). -/
def portOwner (port : Nat) : Nat := deviceOwner + port + 1

/-- Host memory's bytes: free values (13 R303). (DESIGN CHOICE: assumption 7). -/
def State.hostBytes (s : State) (port addr n : Nat) : List (Option Byte) :=
  tabulate n fun k => some (Config.hostByte s.freeCount port (addr + k))

/-- Reads n bytes of one line. -/
def State.peekSeg (s : State) (asid va n : Nat) : Got × State :=
  if s.frozen asid va then (.held, s)
  else
    let cut (bs : List (Option Byte)) : Got := .bytes ((bs.drop (va % lineBytes)).take n)
    match s.homeBytes? asid (va / lineBytes) with
    | some bs => (cut bs, s)
    | none =>
      match s.translate asid va .read with
      | (.error code, s) => (.fault code va, s)
      | (.ok (.window off), s) => (.bytes ((s.windowBytes off n).map some), s)
      | (.ok (.fabric t off), s) => (.fabric t off va, s)
      | (.ok (.host p a), s) => (.bytes (s.hostBytes p a n), { s with freeCount := s.freeCount + 1 })
      | (.ok ph, s) => let (bs, s) := s.fillFrom asid ph; (cut bs, s)

/-- Reads n bytes, line by line; `fuel` bounds the lines. -/
def State.peekLines (s : State) (asid va n : Nat) : Nat → Got × State
  | 0 => (.bytes [], s)
  | fuel + 1 =>
    if n = 0 then (.bytes [], s)
    else
      let k := min n (lineBytes - va % lineBytes)
      match s.peekSeg asid va k with
      | (.bytes a, s) =>
        match s.peekLines asid (va + k) (n - k) fuel with
        | (.bytes b, s) => (.bytes (a ++ b), s)
        | r => r
      | r => r

/-- Reads n bytes at a global address. -/
def State.peek (s : State) (asid va n : Nat) : Got × State := s.peekLines asid va n (n / lineBytes + 2)

/-- What writing bytes gives. -/
inductive Put where
  | done
  | fault (code va : Nat)
  | fabric (target off va : Nat)
  | held
  /-- held by an operation that owns the line (08 R198) -/
  | owned
  deriving DecidableEq, Repr

/-- Writes bytes of one line, by the owner or agent `me`.  A miss allocates the line, filled from memory (07 R168, R183). -/
def State.pokeSeg (s : State) (me asid va : Nat) (bs : List Byte) : Put × State :=
  if s.frozen asid va then (.held, s)
  else if s.holdsWrite asid (va / lineBytes) me then (.owned, s)
  else
    let line := va / lineBytes
    match s.writeHome? asid line (va % lineBytes) bs with
    | some _ =>
      match s.hitCode asid va .write with
      | (0, s) => (.done, (s.writeHome? asid line (va % lineBytes) bs).getD s)
      | (code, s) => (.fault code va, s)
    | none =>
      match s.translate asid va .write with
      | (.error code, s) => (.fault code va, s)
      | (.ok (.window off), s) => (.done, ((s.windowWrite (me - deviceOwner) off bs).noteWrite asid line).noteWindow off)
      | (.ok (.fabric t off), s) => (.fabric t off va, s)
      | (.ok (.host p a), s) => (.done, State.noteWrite { s with hostOut := s.hostOut ++ [.write p a bs] } asid line)
      | (.ok ph, s) =>
        let (old, s) := s.fillFrom asid ph
        let n := s.freeCount
        (.done, (({ s with freeCount := n + 1 } : State).install ((freshLine n asid line old).write (va % lineBytes) bs)).noteWrite asid line)

/-- Writes bytes, line by line; `fuel` bounds the lines. -/
def State.pokeLines (s : State) (me asid va : Nat) (bs : List Byte) : Nat → Put × State
  | 0 => (.done, s)
  | fuel + 1 =>
    if bs.isEmpty then (.done, s)
    else
      let k := min bs.length (lineBytes - va % lineBytes)
      match s.pokeSeg me asid va (bs.take k) with
      | (.done, s) => s.pokeLines me asid (va + k) (bs.drop k) fuel
      | r => r

/-- Writes bytes at a global address. -/
def State.poke (s : State) (me asid va : Nat) (bs : List Byte) : Put × State :=
  s.pokeLines me asid va bs (bs.length / lineBytes + 2)

/-! ### The step of MAPF (11 R277) -/

/-- Double k of pool descriptor n (14 R477). -/
def State.poolDouble (s : State) (n k : Nat) : Double := tabGet s.pools (4 * n + k) 0

/-- Writes double k of a pool descriptor. -/
def State.setPoolDouble (s : State) (n k : Nat) (v : Double) : State := { s with pools := tabPut 0 s.pools (4 * n + k) v }

/-- Slot of a pool's ring for a count (10 R247). -/
def State.poolSlot (s : State) (n count : Nat) : Nat :=
  (s.poolDouble n 0).toNat + 8 * (count % 2 ^ bitsOf (s.poolDouble n 1) 0 5)

/-- A pool has nothing to take (14 R477). -/
def State.poolEmpty (s : State) (n : Nat) : Bool :=
  s.poolDouble n 0 == 0 || s.poolDouble n 2 == s.poolDouble n 3

/-- Writes zero to n physical lines, and drops what the alias's home caches of them. -/
def State.zeroLines (s : State) (line : Nat) : Nat → State
  | 0 => s
  | n + 1 => (s.writeLine line zeroLine false).zeroLines (line + 1) n

/-- Writes zero to every byte of a frame. -/
def State.zeroFrame (s : State) (frame size : Nat) : State :=
  let s := s.zeroLines (frame / lineBytes) (size / lineBytes)
  { s with
    lines := s.lines.filter fun l => !(l.asid == aliasAsid && frame ≤ l.line * lineBytes && l.line * lineBytes < frame + size)
    copies := s.copies.filter fun l => !(l.asid == aliasAsid && frame ≤ l.line * lineBytes && l.line * lineBytes < frame + size) }

/-- Status codes of MAPF. -/
inductive MapStatus where
  | mapped | already | empty | noft | badpte
  deriving DecidableEq, Repr

/-- Codes of 11 R277. -/
def MapStatus.code : MapStatus → Nat
  | .mapped => 0 | .already => 1 | .empty => 2 | .noft => 3 | .badpte => 4

/-- An access the device makes on its own behalf has met an unresolved fault: it waits, and its event is recorded
(11 R480). -/
def State.deviceFault (s : State) (a : DeviceAccess) (asid code va : Nat) : State :=
  State.postEvent { s with deviceAcc := s.deviceAcc ++ [a] } (faultEvent 0xFFFD asid code va)

/-- Reads n bytes, which lie in one line, as a device agent that waits for other operations' ownership and for other
devices' answers (08 R198, 13 R305): none while it waits. -/
def State.agentRead (s : State) (u : FarUser) (job die asid va n : Nat) : Except (Nat × Nat) (Option (List Byte)) × State :=
  if s.ownedSpan asid va n then (.ok none, s)
  else
    match s.peek asid va n with
    | (.bytes bs, s) => (.ok (some (bs.map s.orFill)), s)
    | (.fault code at_, s) => (.error (code, at_), s)
    | (.held, s) => (.ok none, s)
    | (.fabric t off at_, s) =>
      match s.farDo u 0 t (off / lineBytes * lineBytes) lineBytes [] none job die with
      | (some ds, s) =>
        (.ok (some (((bytesOfDoubles ds).drop (off % lineBytes)).take (n - (at_ - va)))), s)
      | (none, s) => (.ok none, s)

/-- Mask and data of a write within one line: two doubles of mask, sixteen of data. -/
def spanPayload (off : Nat) (bs : List Byte) : List Double :=
  let mask := (2 ^ bs.length - 1) * 2 ^ off
  BitVec.ofNat 64 mask :: BitVec.ofNat 64 (mask / 2 ^ 64) :: doublesOf (overlay zeroLine off bs)

/-- Writes bytes, which lie in one line, as such an agent; false while it waits. -/
def State.agentWrite (s : State) (me : Nat) (u : FarUser) (job die asid va : Nat) (bs : List Byte) :
    Except (Nat × Nat) Bool × State :=
  match s.poke me asid va bs with
  | (.done, s) => (.ok true, s)
  | (.fault code at_, s) => (.error (code, at_), s)
  | (.held, s) | (.owned, s) => (.ok false, s)
  | (.fabric t off _, s) =>
    match s.farDo u 1 t (off / lineBytes * lineBytes) lineBytes (spanPayload (off % lineBytes) bs) none job die with
    | (some _, s) => (.ok true, s.noteWrite asid (va / lineBytes))
    | (none, s) => (.ok false, s)

/-- One lane's step of MAPF, indivisible.  None: the pool's ring or the entry cannot be reached yet, and the step waits.  The
read of the ring is an access of the device: a first-touch fault of it is served by the same step, `fuel` times at most
(11 R277, R480). -/
def State.mapStepFuel (fuel : Nat) (s : State) (asid va : Nat) : Option MapStatus × State :=
  let (w, _) := s.walk asid va
  let s := s.walked w
  if w.code = 0 then (some .already, s)
  else if w.code = Cause.badPte.code then (some .badpte, s)
  else if 1 < w.level || !pteLeaf w.pte || !pteFirst w.pte || pteCrumb w.pte then (some .noft, s)
  else
    let pool := w.level
    if s.poolEmpty pool then (some .empty, s)
    else if s.deviceAcc.contains (.pool pool) then (none, s)
    else
      let head := (s.poolDouble pool 2).toNat
      let ring (s : State) : Except (Nat × Nat) (Option (List Byte)) × State :=
        s.agentRead (.pool pool) 0 (transHome va asid / 4) s.supAsid (s.poolSlot pool head) 8
      let got := match ring s, fuel with
        | (.error (code, at_), s), n + 1 =>
          if code = Cause.notPresent.code then
            match s.mapStepFuel n s.supAsid at_ with
            | (some .mapped, s) | (some .already, s) => ring s
            | (some _, s) => (.error (code, at_), s)
            | (none, s) => (.ok none, s)
          else (.error (code, at_), s)
        | r, _ => r
      match got with
      | (.error (code, at_), s) => (none, s.deviceFault (.pool pool) s.supAsid code at_)
      | (.ok none, s) => (none, s)
      | (.ok (some bs), s) =>
        let f := leValue bs
        let e := (w.pte.toNat - pteAddr w.pte * 16 - 16 + 1) + f / 256 % 2 ^ 44 * 2 ^ 12
        match s.agentWrite deviceOwner (.pool pool) 0 (transHome va asid / 4) aliasAsid w.entry (leBytes 8 e) with
        | (.ok true, s) =>
          (some .mapped, ((s.zeroFrame f (pageSize w.level)).setPoolDouble pool 2 (BitVec.ofNat 64 (head + 1))).farDone (.pool pool))
        | (_, s) => (none, s)

/-- One lane's step of MAPF, whose pool's ring may lie in a page that the other pool maps (11 R277, R480). -/
def State.mapStep (s : State) (asid va : Nat) : Option MapStatus × State := State.mapStepFuel 2 s asid va

/-- Serves a first-touch fault of a device agent by the step of MAPF: true when the access is to be translated again, none
while the step waits (11 R480). -/
def State.firstTouch (s : State) (asid code va : Nat) : Option Bool × State :=
  if code = Cause.notPresent.code then
    match s.mapStep asid va with
    | (some .mapped, s) | (some .already, s) => (some true, s)
    | (some _, s) => (some false, s)
    | (none, s) => (none, s)
  else (some false, s)

/-- Reads as a device agent: a first-touch fault is served by the step of MAPF and the access tried again (11 R480). -/
def State.devPeek (s : State) (asid va n : Nat) : Got × State :=
  match s.peek asid va n with
  | (.fault code at_, s) =>
    match s.firstTouch asid code at_ with
    | (some true, s) => s.peek asid va n
    | (some false, s) => (.fault code at_, s)
    | (none, s) => (.held, s)
  | r => r

/-- Writes as a device agent. -/
def State.devPoke (s : State) (me asid va : Nat) (bs : List Byte) : Put × State :=
  match s.poke me asid va bs with
  | (.fault code at_, s) =>
    match s.firstTouch asid code at_ with
    | (some true, s) => s.poke me asid va bs
    | (some false, s) => (.fault code at_, s)
    | (none, s) => (.held, s)
  | r => r

/-- A device agent's translation of an address: a first-touch fault is served as by `devPoke`; none while that waits. -/
def State.devTranslate (s : State) (asid va : Nat) (w : Want) : Option (Except Nat Phys) × State :=
  match s.translate asid va w with
  | (.error code, s) =>
    match s.firstTouch asid code va with
    | (some true, s) => let (r, s) := s.translate asid va w; (some r, s)
    | (some false, s) => (some (.error code), s)
    | (none, s) => (none, s)
  | (r, s) => (some r, s)

/-- Whether a device agent's write of bytes of one line may go on; nothing is written.  A line its home holds needs no
translation. -/
def State.devReady (s : State) (me asid va : Nat) : Put × State :=
  if s.frozen asid va then (.held, s)
  else if s.holdsWrite asid (va / lineBytes) me then (.owned, s)
  else if (s.writeHome? asid (va / lineBytes) 0 []).isSome then (.done, s)
  else
    match s.devTranslate asid va .write with
    | (some (.ok _), s) => (.done, s)
    | (some (.error code), s) => (.fault code va, s)
    | (none, s) => (.held, s)

/-- Whether a device agent's write of n bytes over several lines may go on at every line; `fuel` bounds the lines. -/
def State.devReadyLines (s : State) (me asid va n : Nat) : Nat → Put × State
  | 0 => (.done, s)
  | fuel + 1 =>
    if n = 0 then (.done, s)
    else
      let m := min n (lineBytes - va % lineBytes)
      match s.devReady me asid va with
      | (.done, s) => s.devReadyLines me asid (va + m) (n - m) fuel
      | r => r

/-- What a device agent that is no engine operation gets: bytes, a fault at an address, or nothing yet. -/
inductive AgentGot where
  | bytes (bs : List Byte)
  | fault (code va : Nat)
  | wait
  deriving DecidableEq, Repr

/-- Reads line by line as such an agent; `fuel` bounds the lines. -/
def State.agentLines (s : State) (u : FarUser) (job die asid va n : Nat) : Nat → AgentGot × State
  | 0 => (.bytes [], s)
  | fuel + 1 =>
    if n = 0 then (.bytes [], s)
    else
      let k := min n (lineBytes - va % lineBytes)
      let more (a : List Byte) (s : State) : AgentGot × State :=
        match s.agentLines u job die asid (va + k) (n - k) fuel with
        | (.bytes b, s) => (.bytes (a ++ b), s)
        | r => r
      if s.ownedSpan asid va k then (.wait, s)
      else
        match s.devPeek asid va k with
        | (.bytes a, s) => more (a.map s.orFill) s
        | (.fault code at_, s) => (.fault code at_, s)
        | (.held, s) => (.wait, s)
        | (.fabric t off _, s) =>
          match s.farDo u 0 t (off / lineBytes * lineBytes) lineBytes [] none job die with
          | (some ds, s) => more (((bytesOfDoubles ds).drop (off % lineBytes)).take k) s
          | (none, s) => (.wait, s)

/-- Reads n bytes as a device agent that is no engine operation: it waits for owners (08 R198), for freezes (08 R204) and
for other devices (13 R305). -/
def State.agentPeek (s : State) (u : FarUser) (job die asid va n : Nat) : AgentGot × State :=
  s.agentLines u job die asid va n (n / lineBytes + 2)

/-- What writing as such an agent gives. -/
inductive AgentPut where
  | done
  | fault (code va : Nat)
  | wait
  deriving DecidableEq, Repr

/-- Writes line by line as such an agent; `fuel` bounds the lines.  A line written again while it waits for a later one
takes the same bytes. -/
def State.agentPutLines (s : State) (u : FarUser) (job die asid va : Nat) (bs : List Byte) : Nat → AgentPut × State
  | 0 => (.done, s)
  | fuel + 1 =>
    if bs.isEmpty then (.done, s)
    else
      let k := min bs.length (lineBytes - va % lineBytes)
      match s.devPoke deviceOwner asid va (bs.take k) with
      | (.done, s) => s.agentPutLines u job die asid (va + k) (bs.drop k) fuel
      | (.fault code at_, s) => (.fault code at_, s)
      | (.held, s) | (.owned, s) => (.wait, s)
      | (.fabric t off _, s) =>
        match s.farDo u 1 t (off / lineBytes * lineBytes) lineBytes (spanPayload (off % lineBytes) (bs.take k)) none job die with
        | (some _, s) => (s.noteWrite asid (va / lineBytes)).agentPutLines u job die asid (va + k) (bs.drop k) fuel
        | (none, s) => (.wait, s)

/-- Writes bytes as a device agent that is no engine operation; done once every line is written, those of other devices
answered included. -/
def State.agentPoke (s : State) (u : FarUser) (job die asid va : Nat) (bs : List Byte) : AgentPut × State :=
  s.agentPutLines u job die asid va bs (bs.length / lineBytes + 2)

end Sys2Proof.Machine
end

