-- ==== Sys2Proof/Machine/Local.lean ====
section
/-! DEFINITION. Address apertures and the local memory spaces (07 R162 to R167, R185, R186). -/

namespace Sys2Proof.Machine
set_option Elab.async false
open Sys2Proof

/-! ### The partition word (07 R165) -/

/-- The partition word of a crew's record. -/
def Crew.partition (c : Crew) : Nat := bitsOf c.rcd.d3 32 32
/-- Lane-private bytes per lane. -/
def Crew.privSize (c : Crew) : Nat := 64 * natBits c.partition 0 8
/-- Core scratchpad bytes per core. -/
def Crew.coreSize (c : Crew) : Nat := 1024 * natBits c.partition 8 10
/-- Cluster-shared bytes. -/
def Crew.cluSize (c : Crew) : Nat := 16 * 1024 * natBits c.partition 18 10

/-- Bytes of one chip scratchpad way over a die (07 R164). -/
def wayBytes : Nat := 12582912

/-- Chip scratchpad bytes of a die that an access issuing now may reach (07 R186). -/
def State.chipSize (s : State) (die : Nat) : Nat :=
  let w0 := s.chipWays.getD die 0
  wayBytes * match s.spcfg.getD die none with
    | some r => min r.ways w0
    | none => w0

/-- The state as an operation sees it that was in flight when an SPCFG issued: the range it had then (07 R186). -/
def State.seenBy (s : State) (older : Resize → Bool) : State :=
  { s with spcfg := s.spcfg.map fun r => r.filter fun x => !older x }

/-! ### Effective addresses -/

/-- Where an effective address leads. -/
inductive Place where
  | global (va : Nat)
  | priv (lane off : Nat)
  | core (core off : Nat)
  | clu (off : Nat)
  | chip (die off : Nat)
  deriving DecidableEq, Repr

/-- Whether a place is in the global aperture. -/
def Place.isGlobal : Place → Bool
  | .global _ => true
  | _ => false

/-- Decoding of an effective address for an access of n bytes (07 R162 to R164).  `crew` is none where the agent has no
crew's local spaces; `core` and `lane` are none where it has no core scratchpad or lane-private space.  Bits [63:56] alone
name the global aperture: an access that runs past its end is misaligned (07 R162). -/
def State.place? (s : State) (crew : Option Crew) (core lane : Option Nat) (die addr n : Nat) : Option Place :=
  match natBits addr 56 8 with
  | 0x00 => some (.global addr)
  | 0xFE =>
    let off := natBits addr 0 32
    let other := natBits addr 52 1
    if natBits addr 32 20 ≠ 0 then none
    else
      match natBits addr 53 3, crew with
      | 0, some c => (lane.filter fun _ => other == 0 && off + n ≤ c.privSize).map (.priv · off)
      | 1, some c => (core.filter fun _ => other == 0 && off + n ≤ c.coreSize).map (.core · off)
      | 2, some c => if other = 0 && off + n ≤ c.cluSize then some (.clu off) else none
      | 3, _ =>
        let d := (die + other) % 2
        if off + n ≤ s.chipSize d then some (.chip d off) else none
      | _, _ => none
  | _ => none

/-- Where the descriptor of a shared queue lies, at an address of an ASID as an agent of a die gives it (07 R163; 09 R214).
(DEDUCED: assumption 134). -/
def State.queueHome (s : State) (asid die addr : Nat) : QueueHome :=
  match s.place? none none none die addr lineBytes with
  | some (.chip d o) => .chip d o
  | _ =>
    match (s.translate asid addr .read).1 with
    | .ok (.hbm pa) => .frame pa
    | _ => .named asid addr

/-- The place a lane's access of n bytes names; the easel has no lane-private or core scratchpad space (07 R164). -/
def Ctx.place? (c : Ctx) (s : State) (lane addr n : Nat) : Option Place :=
  if c.gang.isSeq then s.place? (some c.crew) none none c.die addr n
  else s.place? (some c.crew) (some c.gang.core) (some lane) c.die addr n

/-! ### Where the bytes of a shared space lie (07 R166, R167) -/

/-- The core that holds a cluster-shared offset (07 R166). -/
def cluCore (o : Nat) : Nat := o / 256 % 16

/-- The byte of that core's contribution (07 R166). -/
def cluByte (o : Nat) : Nat := o / 4096 * 256 + o % 256

/-- The die-local slice that holds a chip scratchpad offset (07 R167). -/
def chipSlice (o : Nat) : Nat := o / 256 % 192

/-- The way of that slice (07 R167). -/
def chipWay (o : Nat) : Nat := 15 - o / wayBytes

/-- The byte of that way (07 R167). -/
def chipOffset (o : Nat) : Nat := o % wayBytes / 49152 * 256 + o % 256

/-- The number of a way of a slice in a die's table. -/
def chipKey (o : Nat) : Nat := 16 * chipSlice o + chipWay o

/-- A byte of a table of memories. -/
def tabByte (t : Table Memory) (k a : Nat) : Byte := memByte (tabGet t k []) a

/-- Writes a byte of a table of memories. -/
def tabSetByte (t : Table Memory) (k a : Nat) (b : Byte) : Table Memory := tabPut [] t k (memSetByte (tabGet t k []) a b)

/-- n bytes of cluster-shared memory. -/
def cluBytes (t : Table Memory) (o n : Nat) : List Byte := tabulate n fun i => tabByte t (cluCore (o + i)) (cluByte (o + i))

/-- Writes bytes of cluster-shared memory. -/
def setCluBytes (t : Table Memory) (o : Nat) : List Byte → Table Memory
  | [] => t
  | b :: bs => setCluBytes (tabSetByte t (cluCore o) (cluByte o) b) (o + 1) bs

/-- Writes bytes of a die's chip scratchpad, as its ways keep them. -/
def setChipBytes (t : Table Memory) (o : Nat) : List Byte → Table Memory
  | [] => t
  | b :: bs => setChipBytes (tabSetByte t (chipKey o) (chipOffset o) b) (o + 1) bs

/-! ### Reading and writing local memory -/

/-- What a byte of chip scratchpad that nothing has written since its way came holds (07 R185; assumption 6). -/
def chipBackground (ranges : List (Nat × Nat × Nat)) (die off : Nat) : Byte :=
  match ranges.find? fun (_, lo, hi) => lo ≤ off && off < hi with
  | some (n, _, _) => Config.freeByte n die off
  | none => 0

/-- A byte of a die's chip scratchpad. (DESIGN CHOICE: assumption 6). -/
def State.chipByte (s : State) (die off : Nat) : Byte :=
  tabByte (s.chip.getD die []) (chipKey off) (chipOffset off) ^^^ chipBackground (s.chipFree.getD die []) die off

/-- Writes bytes of a die's chip scratchpad. -/
def State.setChip (s : State) (die off : Nat) (bs : List Byte) : State :=
  let r := s.chipFree.getD die []
  { s with chip := listModify s.chip die fun m =>
      setChipBytes m off (bs.mapIdx fun i b => b ^^^ chipBackground r die (off + i)) }

/-- n bytes of a local place of a crew's member. -/
def State.readLocal (s : State) (crew member : Nat) (p : Place) (n : Nat) : List Byte :=
  match p with
  | .chip d off => tabulate n fun i => s.chipByte d (off + i)
  | .priv lane off =>
    match (s.crew? crew).bind (·.member? member) with
    | some g => memBytes (g.lane lane).priv off n
    | none => List.replicate n 0
  | .core k off =>
    match s.crew? crew with
    | some c => memBytes (tabGet c.coreMem k []) off n
    | none => List.replicate n 0
  | .clu off =>
    match s.crew? crew with
    | some c => cluBytes c.cluMem off n
    | none => List.replicate n 0
  | .global _ => List.replicate n 0

/-- The block a monitor on a local place watches (08 R205). -/
def Place.block (asid crew member : Nat) : Place → Block
  | .global va => ⟨0, asid, va / lineBytes⟩
  | .priv lane off => ⟨1, (crew * 32 + member) * 64 + lane, off / lineBytes⟩
  | .core k off => ⟨2, crew * 16 + k, off / lineBytes⟩
  | .clu off => ⟨3, crew, off / lineBytes⟩
  | .chip d off => ⟨4, d, off / lineBytes⟩

/-- A write of a local place, as a crew whose context is away keeps it for its return (08 R208). -/
def Place.late (p : Place) (member : Nat) (bs : List Byte) : List LateWrite :=
  match p with
  | .priv lane off => [⟨0, member, lane, off, bs⟩]
  | .core k off => [⟨1, member, k, off, bs⟩]
  | .clu off => [⟨2, member, 0, off, bs⟩]
  | .chip .. | .global _ => []

/-- Writes bytes of a local place of a crew's member, and wakes the monitors of their blocks. -/
def State.writeLocal (s : State) (crew member : Nat) (p : Place) (bs : List Byte) : State :=
  let s := s.mapCrew crew fun c =>
    if c.state == .stream || c.state == .saved || (c.state == .loading && c.begun) then { c with late := c.late ++ p.late member bs } else c
  let s' := match p with
    | .chip d off => s.setChip d off bs
    | .priv lane off => s.mapGang crew member fun g => g.mapLane lane fun l => { l with priv := memSetBytes l.priv off bs }
    | .core k off => s.mapCrew crew fun c => { c with coreMem := tabPut [] c.coreMem k (memSetBytes (tabGet c.coreMem k []) off bs) }
    | .clu off => s.mapCrew crew fun c => { c with cluMem := setCluBytes c.cluMem off bs }
    | .global _ => s
  let b := p.block 0 crew member
  let off := match p with | .global o | .priv _ o | .core _ o | .clu o | .chip _ o => o
  (List.range ((off + bs.length - 1) / lineBytes - off / lineBytes + 1)).foldl
    (fun s k => s.wakeBlock { b with line := b.line + k }) s'

end Sys2Proof.Machine
end

