-- ==== Sys2Proof/Machine/Operands.lean ====
section
/-! DEFINITION. Operand fields (03 R50 to R54, R59), the checks of an instruction before any effect in the order of 03
R73, the scoreboard (03 R66), queue registers (03 R53), and the frame every instruction word runs in.  A lane's operand
value is a natural number below 2^32 per word; wider operands have the lowest register in the lowest bits. -/

namespace Sys2Proof.Machine
set_option Elab.async false
open Sys2Proof

/-- One operand of an instruction in one slice. -/
structure Use where
  /-- operand field -/
  f : Nat
  /-- 32-bit registers it spans in a vector thread -/
  span : Nat
  /-- multiple the resolved index must be of -/
  align : Nat
  /-- 64-bit registers it spans on the easel -/
  eregs : Nat
  /-- bits of its value on the easel -/
  bits : Nat
  rd : Bool
  wr : Bool
  deriving DecidableEq, Repr

/-- A 32-bit source. -/
def Use.src (f : BitVec 7) : Use := ⟨f.toNat, 1, 1, 1, 32, true, false⟩
/-- A 32-bit destination. -/
def Use.dst (f : BitVec 7) : Use := ⟨f.toNat, 1, 1, 1, 32, false, true⟩
/-- A 32-bit register read and written. -/
def Use.mod (f : BitVec 7) : Use := ⟨f.toNat, 1, 1, 1, 32, true, true⟩
/-- A 64-bit source: a pair, or one easel register (03 R51, 15 R331). -/
def Use.src64 (f : BitVec 7) : Use := ⟨f.toNat, 2, 2, 1, 64, true, false⟩
/-- A 64-bit destination. -/
def Use.dst64 (f : BitVec 7) : Use := ⟨f.toNat, 2, 2, 1, 64, false, true⟩
/-- A 64-bit register read and written. -/
def Use.mod64 (f : BitVec 7) : Use := ⟨f.toNat, 2, 2, 1, 64, true, true⟩
/-- A 128-bit source: a quad, or an even easel pair. -/
def Use.src128 (f : BitVec 7) : Use := ⟨f.toNat, 4, 4, 2, 128, true, false⟩
/-- A 128-bit destination. -/
def Use.dst128 (f : BitVec 7) : Use := ⟨f.toNat, 4, 4, 2, 128, false, true⟩

/-- Whether a field names a queue register (03 R50). -/
def Use.isQueue (u : Use) : Bool := 112 ≤ u.f && u.f ≤ 119

/-- Whether a field names a queue register. -/
def isQueueField (f : BitVec 7) : Bool := 112 ≤ f.toNat && f.toNat ≤ 119

/-! ### Resolving a field -/

/-- n names from an index up. -/
def namesFrom (mk : Nat → RegName) (i n : Nat) : List RegName := (List.range n).map fun k => mk (i + k)

/-- The index a field names relative to a window base: the field itself, or an index register plus 0 to 3. -/
def fieldIndex (f x0 x1 : Nat) : Nat :=
  if f ≤ 103 then f else if f ≤ 107 then x0 + (f - 104) else x1 + (f - 108)

/-- ResolveVector of 03 R52 for fields 0 to 111, with the handler registers of 11 R273. -/
def resolveVector (sl : Slice) (allot : Nat) (u : Use) : Option (List RegName) :=
  if sl.inHandler && u.f ≤ 7 then
    if u.f % u.align = 0 && u.f + u.span ≤ 8 then some (namesFrom .h u.f u.span) else none
  else
    let i := sl.wb.toNat + fieldIndex u.f sl.x0.toNat sl.x1.toNat
    if i + u.span ≤ allot && i % u.align = 0 then some (namesFrom .v i u.span) else none

/-- Resolution on the easel (03 R59): 104 scalar registers, or the handler's eight (11 R273). -/
def resolveEasel (sl : Slice) (u : Use) : Option (List RegName) :=
  if sl.inHandler && u.f ≤ 7 then (if u.f + u.eregs ≤ 8 && u.f % u.eregs = 0 then some (namesFrom .h u.f u.eregs) else none)
  else
    let i := fieldIndex u.f sl.x0.toNat sl.x1.toNat
    if i + u.eregs ≤ 104 && i % u.eregs = 0 then some (namesFrom .s i u.eregs) else none

/-- The registers a field names in a slice; none when they break a bound, or on the easel name a pair or more from an odd
place (03 R60, 06 R153, 16 R384).  Fields that name no register give []; a descriptor through 124 or 126 lies in g0:g1 or
g2:g3. (DESIGN CHOICE: assumption 88). -/
def resolve (isSeq : Bool) (allot : Nat) (sl : Slice) (u : Use) : Option (List RegName) :=
  if isSeq && 112 ≤ u.f && u.f % max 1 u.eregs ≠ 0 then none
  else if u.f ≤ 111 then (if isSeq then resolveEasel sl u else resolveVector sl allot u)
  else if 124 ≤ u.f then some (namesFrom .g (u.f - 124) (if isSeq then u.eregs else u.span))
  else some []

/-- The registers a use names in one slice of a gang. -/
def Gang.regsOf (g : Gang) (i : Nat) (u : Use) : List RegName := (resolve g.isSeq g.allot (g.slice i) u).getD []

/-! ### Registers as a word finds them (03 R50, R59, R66) -/

/-- The content of a register of a lane. -/
def Gang.readReg (g : Gang) (l : Nat) : RegName → Nat
  | .v i => (tabGet (g.lane l).v i 0).toNat
  | .s i => (tabGet (g.lane l).s i 0).toNat
  | .h i => if g.isSeq then (tabGet (g.lane l).hs i 0).toNat else (tabGet (g.lane l).h i 0).toNat
  | .g i => if g.isSeq then (g.gs.getD i 0).toNat else (g.g.getD i 0).toNat
  | .palette => g.palette.toNat
  | .port _ => 0

/-- Registers put side by side, lowest first. -/
def Gang.readRegs (g : Gang) (l : Nat) : List RegName → Nat
  | [] => 0
  | r :: rs => g.readReg l r + 2 ^ (if g.isSeq then 64 else 32) * g.readRegs l rs

/-- The value a field other than a queue register reads in a lane (03 R50, R59). -/
def Ctx.readField (c : Ctx) (g : Gang) (l : Nat) (u : Use) : Nat :=
  if u.f ≤ 111 || 124 ≤ u.f then
    let v := g.readRegs l (g.regsOf (l / 4) u)
    if g.isSeq then v % 2 ^ u.bits else v
  else if u.f = 121 then (if g.isSeq then 0 else l)
  else if u.f = 122 then (if g.isSeq then 0 else l / 4)
  else if u.f = 123 then (if g.isSeq then 16 else c.member)
  else 0

/-- Whether the scoreboard lets a slice read and write these registers now. -/
def Slice.scoreOk (sl : Slice) (reads writes : List RegName) : Bool :=
  sl.pend.all fun p => !writes.contains p.reg && !(p.win == 0 && reads.contains p.reg)

/-! ### Checks before any effect (03 R73) -/

/-- Which threads an instruction is legal in (03 R71). -/
inductive Kind where
  | any | vector | easel
  deriving DecidableEq, Repr

/-- What an instruction word needs and names. -/
structure OpSpec where
  /-- threads it is legal in -/
  kind : Kind := .any
  /-- feature bits it needs (02 R40, R41) -/
  feat : List Nat := []
  /-- the easel register whose control word names a B layout (06 R142): the slot-sparse and palette ones need SPB (02 R41) -/
  layout : Option (BitVec 7) := none
  /-- a supervisor instruction (03 R71) -/
  priv : Bool := false
  /-- PRIV outside handler state (03 R55, R71) -/
  handlerOnly : Bool := false
  /-- ILLEGAL for a reason the word alone gives: an MTS to a read-only register (03 R55) -/
  bad : Bool := false
  /-- ILLEGAL in handler state (11 R274) -/
  noHandler : Bool := false
  /-- the formats it accepts under a slice's FMT (04 R95) -/
  fmtOk : Slice → Bool := fun _ => true
  /-- registers it reads beside its operands -/
  extraRd : List RegName := []
  /-- registers it writes beside its operands -/
  extraWr : List RegName := []
  /-- its operands in a slice, in the order a, b, d -/
  uses : Slice → List Use := fun _ => []

/-- Whether the thread is of a kind the instruction is legal in. -/
def Kind.admits (k : Kind) (isSeq : Bool) : Bool :=
  match k with
  | .any => true
  | .vector => !isSeq
  | .easel => isSeq

/-- Whether a field may stand where the use has it (03 R50, R51, R59). (DESIGN CHOICE: assumption 113). -/
def Use.legal (isSeq : Bool) (u : Use) : Bool :=
  !(u.wr && 121 ≤ u.f && u.f ≤ 123) &&
  (if isSeq then !u.isQueue
   else
    if u.f ≥ 124 then (if u.span = 1 then true else if u.span = 2 then u.f % 2 == 0 else u.span == 4 && u.f == 124)
    else u.span ≤ 4 || !u.isQueue)

/-- Every use of every issuing slice. -/
def Ctx.allUses (c : Ctx) (o : OpSpec) : List Use := c.sls.flatMap fun i => o.uses (c.gang.slice i)

/-- The queue binding of a field (17 R409, R410). -/
def Ctx.port? (c : Ctx) (u : Use) : Option Nat := if u.isQueue then c.bindings.getD (u.f - 112) none else none

/-- The control word that names a B layout stands in its register, where the layout decides (02 R41; 03 R66). -/
def Ctx.layoutKnown (c : Ctx) (o : OpSpec) : Bool :=
  o.layout.all fun t => c.crew.feat.getLsbD 5 || c.sls.all fun k => (c.gang.slice k).scoreOk (c.gang.regsOf k (.mod64 t)) []

/-- No slot-sparse or palette layout without SPB (02 R41; 18 R440, R445). -/
def Ctx.layoutOk (c : Ctx) (o : OpSpec) : Bool :=
  o.layout.all fun t => c.crew.feat.getLsbD 5 ||
    (let n := natBits (c.readField c.gang 0 (.mod64 t)) 18 3; n != 3 && n != 4)

/-- The checks of 03 R73, steps 1 to 5, in order, and the FORMAT trap of step 6 (04 R95). -/
def Ctx.check (c : Ctx) (i : Instr) (o : OpSpec) : Except Stop Unit := do
  need (i.wellFormed && !o.bad && o.kind.admits c.gang.isSeq && !(o.noHandler && c.inHandler) &&
    (c.allUses o).all (·.legal c.gang.isSeq)) .illegal
  need (o.feat.all c.crew.feat.getLsbD) .illegal
  ready (c.layoutKnown o)
  need (c.layoutOk o) .illegal
  need (c.inHandler || (!o.handlerOnly && (!o.priv || c.crew.supervisor))) .priv
  need (c.sls.all fun k => (o.uses (c.gang.slice k)).all fun u =>
    (resolve c.gang.isSeq c.gang.allot (c.gang.slice k) u).isSome) .regBound
  need ((c.allUses o).all fun u => !u.isQueue || (c.port? u).isSome) .queue
  need (c.sls.all fun k => o.fmtOk (c.gang.slice k)) .format

/-! ### The scoreboard (03 R66) -/

/-- What the scoreboard tracks of a use: its registers, or its port queue (03 R66). -/
def Ctx.tracked (c : Ctx) (i : Nat) (u : Use) : List RegName := c.gang.regsOf i u ++ ((c.port? u).map RegName.port).toList

/-- Whether it lets the party issue. -/
def Ctx.scoreOk (c : Ctx) (o : OpSpec) : Bool :=
  c.sls.all fun i =>
    let us := o.uses (c.gang.slice i)
    (c.gang.slice i).scoreOk (o.extraRd ++ (us.filter (·.rd)).flatMap (c.tracked i))
      (o.extraWr ++ (us.filter (·.wr)).flatMap (c.tracked i))

/-! ### Reading -/

/-- A port queue of a cluster. -/
def State.port (s : State) (k p : Nat) : Port := (s.cluster k).ports.getD p ⟨[], 0, 0⟩

/-- Updates a port queue. -/
def State.mapPort (s : State) (k p : Nat) (f : Port → Port) : State :=
  s.mapCluster k fun cl => { cl with ports := listModify cl.ports p f }

/-- Words a push may still add (17 R414). -/
def Port.room (p : Port) : Nat := 4096 - p.words.length - p.drains - p.pushes

/-- Words put side by side, lowest first. -/
def joinWords : List Word → Nat
  | [] => 0
  | w :: ws => w.toNat + 2 ^ 32 * joinWords ws

/-- The words of a value, lowest first. -/
def splitWords (n v : Nat) : List Word := (List.range n).map fun k => BitVec.ofNat 32 (v / 2 ^ (32 * k))

/-- One operand in every active lane, lanes rising; queue registers pop (03 R53). -/
def Ctx.fetchLanes (c : Ctx) (use : Slice → Use) : List Nat → State → Except Stop (List Nat × State)
  | [], s => .ok ([], s)
  | l :: ls, s =>
    let u := use (c.gang.slice (l / 4))
    match c.port? u with
    | none => do
      let (vs, s) ← c.fetchLanes use ls s
      .ok (c.readField c.gang l u :: vs, s)
    | some p =>
      let q := s.port c.crew.cluster p
      if q.words.length < u.span then .error .queued
      else do
        let (vs, s) ← c.fetchLanes use ls (s.mapPort c.crew.cluster p fun q => { q with words := q.words.drop u.span })
        .ok (joinWords (q.words.take u.span) :: vs, s)

/-- An operand of a list of uses; one past its end reads zero. -/
def useAt (us : List Use) (k : Nat) : Use := us.getD k (Use.src 120)

/-- The operands an instruction reads, in the order of its uses. -/
def Ctx.fetch (c : Ctx) (uses : Slice → List Use) : List Nat → State → Except Stop (List (List Nat) × State)
  | [], s => .ok ([], s)
  | k :: ks, s => do
    let (v, s) ← c.fetchLanes (fun sl => useAt (uses sl) k) c.lanes s
    let (vs, s) ← c.fetch uses ks s
    .ok (v :: vs, s)

/-- Positions of the uses that are read. -/
def readPositions (us : List Use) : List Nat :=
  (List.range us.length).filter fun k => (useAt us k).rd

/-- Words an instruction will push to each port it names as destination. -/
def Ctx.pushWords (c : Ctx) (o : OpSpec) (p : Nat) : Nat :=
  ((c.lanes.flatMap fun l => (o.uses (c.gang.slice (l / 4))).filter fun u => u.wr && c.port? u == some p).map
    (·.span)).foldl (· + ·) 0

/-- Every port has room for what the instruction will push (03 R53). -/
def Ctx.roomOk (c : Ctx) (o : OpSpec) (s : State) : Bool :=
  (List.range 8).all fun p =>
    let n := c.pushWords o p
    n == 0 || n ≤ (s.port c.crew.cluster p).room

/-! ### Writing -/

/-- Writes one register of a lane. -/
def Gang.writeReg (g : Gang) (l : Nat) (r : RegName) (v : Nat) : Gang :=
  match r with
  | .v i => g.mapLane l fun ln => { ln with v := tabPut 0 ln.v i (BitVec.ofNat 32 v) }
  | .s i => g.mapLane l fun ln => { ln with s := tabPut 0 ln.s i (BitVec.ofNat 64 v) }
  | .h i => g.mapLane l fun ln =>
    if g.isSeq then { ln with hs := tabInsert ln.hs i (BitVec.ofNat 64 v) }
    else { ln with h := tabInsert ln.h i (BitVec.ofNat 32 v) }
  | .g i => if g.isSeq then { g with gs := g.gs.set i (BitVec.ofNat 64 v) } else { g with g := g.g.set i (BitVec.ofNat 32 v) }
  | .palette => { g with palette := BitVec.ofNat 128 v }
  | .port _ => g

/-- Writes registers of a lane from a value, lowest first. -/
def Gang.writeRegs (g : Gang) (l : Nat) : List RegName → Nat → Gang
  | [], _ => g
  | r :: rs, v => (g.writeReg l r v).writeRegs l rs (v / 2 ^ (if g.isSeq then 64 else 32))

/-- Writes a value per lane through a field that names registers; g registers take the lowest lane's (03 R50, R54). -/
def Gang.writeLanes (g : Gang) (use : Slice → Use) : List (Nat × Nat) → Gang
  | [] => g
  | (l, v) :: rest =>
    let u := use (g.slice (l / 4))
    if 124 ≤ u.f then g.writeRegs l (g.regsOf (l / 4) u) v
    else (g.writeRegs l (g.regsOf (l / 4) u) v).writeLanes use rest

/-- Whether a long-latency instruction of the gang has still to push to a port queue (03 R53). -/
def State.pushPending (s : State) (c : Ctx) (p : Nat) : Bool :=
  s.flights.any fun f => f.crew == c.crew.id && f.member == c.member && f.port == some p

/-- A push that waits behind earlier ones of its gang and queue (03 R53): an instruction in flight with its result. -/
def State.pushLater (s : State) (c : Ctx) (p : Nat) (ws : List Word) : State :=
  let part (w : Word) : Part :=
    { lane := 0, slice := c.sls.headD 0, addr := 0, size := 4, fmt := 0, data := 0, result := w.setWidth 128, dst := [], words := 1
      state := .returned }
  State.mapPort { s with
    serial := s.serial + 1
    flights := s.flights ++ [
      { id := s.serial, crew := c.crew.id, member := c.member, slices := c.sls, kind := .result, opcode := 0, asid := c.asid
        size := 4, dest := 0, port := some p, path := none, strength := ⟨false, 0, false, false, false⟩, wait := 0
        parkedOnce := false, replaying := false, held := false, reported := [], inHandler := c.inHandler
        parts := ws.map part, aux := [], returns := true }] } c.crew.cluster p fun q => { q with pushes := q.pushes + ws.length }

/-- Writes the result of an instruction through its destination field: registers, a queue, or nothing.  Pushes of one
gang to one queue are made in the order of issue (03 R53). -/
def State.writeField (s : State) (c : Ctx) (use : Slice → Use) (vals : List Nat) : State :=
  match c.port? (use c.first) with
  | some p =>
    let ws := (c.lanes.zip vals).flatMap fun (l, v) => splitWords (use (c.gang.slice (l / 4))).span v
    if s.pushPending c p then s.pushLater c p ws
    else s.mapPort c.crew.cluster p fun q => { q with words := q.words ++ ws }
  | none => s.mapIssuer c fun g => g.writeLanes use (c.lanes.zip vals)

/-! ### The frame of an instruction word -/

/-- Checks, waits for the scoreboard and the queues, fetches the operands and runs the effect. -/
def runOp (i : Instr) (o : OpSpec) (body : Ctx → List (List Nat) → State → Except Stop State) (s : State) :
    Host.Outcome State Fault Refusal :=
  match s.issuer? with
  | none => .fault .noIssuer
  | some c =>
    s.outcome c (opcodeOf i) do
      c.check i o
      ready (c.scoreOk o)
      let (args, s') ← c.fetch o.uses (readPositions (o.uses c.first)) s
      if !c.roomOk o s' then .error .queued
      body c args s'

/-- The k-th value of each argument. -/
def argsAt (args : List (List Nat)) (k : Nat) : List Nat := args.map (·.getD k 0)

/-- A result per active lane from its slice and its arguments. -/
def Ctx.perLane (c : Ctx) (args : List (List Nat)) (f : Slice → List Nat → Nat) : List Nat :=
  c.lanes.mapIdx fun k l => f (c.gang.slice (l / 4)) (argsAt args k)

/-- A short-latency operation lane by lane: `f` gives the result (15 R331). -/
def laneOp (i : Instr) (o : OpSpec) (dst : Slice → Use) (f : Slice → List Nat → Nat) (s : State) :
    Host.Outcome State Fault Refusal :=
  runOp i o (fun c args s => .ok ((s.writeField c dst (c.perLane args f)).retireNext c)) s

/-- The value of the first active lane of a slice, if it has one (15 R331, First). -/
def Ctx.firstOf (c : Ctx) (vals : List Nat) (slice : Nat) : Option Nat :=
  ((c.lanes.zip vals).find? fun (l, _) => l / 4 == slice).map Prod.snd

/-- The value of the party's lowest active lane. -/
def Ctx.firstVal (c : Ctx) (vals : List Nat) : Option Nat := if c.lanes.isEmpty then none else vals.head?

end Sys2Proof.Machine
end

