-- ==== Sys2Proof/Machine/Flight.lean ====
section
/-! DEFINITION. Instructions in flight: their issue with scoreboard bits and path counters (03 R57, R66; 07 R172), the
order in which their parts may be performed (08 R188, R193, R195, R196; 16 R374), the arrival of their results
(03 R67) and their return (07 R173). -/

namespace Sys2Proof.Machine
set_option Elab.async false
open Sys2Proof

/-! ### Issue -/

/-- What an instruction in flight is made of, beside its lanes. -/
structure Launching where
  kind : AccKind
  size : Nat := 4
  /-- destination, when it writes one -/
  dst  : Option (Slice → Use) := none
  /-- lookahead -/
  la   : Nat := 0
  path : Option Nat := none
  strength : Strength := ⟨false, 0, false, false, false⟩
  /-- where its parts stand when it issues -/
  start : PartState := .sent
  aux  : List Double := []

/-- The registers a lane's result goes to, with the word of the result each takes (03 R50, R54). -/
def Ctx.targets (c : Ctx) (use : Slice → Use) (lane : Nat) : List (Nat × RegName) :=
  let sl := c.gang.slice (lane / 4)
  let u := use sl
  if u.isQueue || (124 ≤ u.f && lane ≠ c.lanes.headD 0) then []
  else (c.gang.regsOf (lane / 4) u).mapIdx fun i r => (i, r)

/-- One part per active lane. -/
def Ctx.parts (c : Ctx) (o : Launching) (addrs datas results : List Nat) : List Part :=
  c.lanes.mapIdx fun k l =>
    { lane := l, slice := l / 4, addr := BitVec.ofNat 64 (addrs.getD k 0), size := o.size, fmt := (c.gang.slice (l / 4)).fmt
      data := BitVec.ofNat 128 (datas.getD k 0), result := BitVec.ofNat 128 (results.getD k 0)
      dst := match o.dst with | some u => c.targets u l | none => []
      words := match o.dst with | some u => (u (c.gang.slice (l / 4))).span | none => 0
      state := o.start }

/-- The scoreboard bits an instruction sets in a slice: the registers its parts will write, and the port queue it will
push to (03 R66). -/
def pendOf (fl la : Nat) (port : Option Nat) (ps : List Part) (slice : Nat) : List Pend :=
  let rs := ps.foldl (fun acc p => if p.slice == slice || p.dst.any (fun d => match d.2 with | .g _ => true | _ => false)
    then acc ++ (p.dst.map Prod.snd).filter (!acc.contains ·) else acc) ([] : List RegName)
  (rs ++ (port.map RegName.port).toList).map fun r => ⟨r, fl, la⟩

/-- Sends an instruction in flight.  Its party has already moved on, so its lookahead window is still whole. -/
def State.startFlight (s : State) (c : Ctx) (i : Instr) (o : Launching) (ps : List Part) : State :=
  let fl := s.serial
  let port := o.dst.bind fun u => c.port? (u c.first)
  let dest := match o.dst with
    | some u => match c.gang.regsOf (c.sls.headD 0) (u c.first) with
      | .v n :: _ | .s n :: _ => n
      | _ => 0
    | none => 0
  let f : Flight :=
    { id := fl, crew := c.crew.id, member := c.member, slices := c.sls, kind := o.kind, opcode := opcodeOf i, asid := c.asid
      size := o.size, dest := dest, port := port, path := o.path, strength := o.strength, wait := 0
      parkedOnce := false, replaying := false, held := false, reported := []
      inHandler := c.inHandler, parts := ps, aux := o.aux, returns := o.dst.isSome }
  let s := { s with serial := fl + 1, flights := s.flights ++ [f] }
  let s := match port with
    | some p => s.mapPort c.crew.cluster p fun q => { q with pushes := q.pushes + (ps.map Part.words).sum }
    | none => s
  s.mapIssuer c fun g =>
    { g with
      slices := g.slices.mapIdx fun k sl => if c.sls.contains k then { sl with pend := sl.pend ++ pendOf fl o.la port ps k } else sl
      paths := match o.path with
        | some p => listModify g.paths p (· ++ [⟨fl, false⟩])
        | none => g.paths }

/-- Issues an instruction that makes one part per active lane; with no active lane it makes none (15 R335, 16 R385). -/
def State.issueFlight (s : State) (c : Ctx) (i : Instr) (o : Launching) (addrs datas results : List Nat) : State :=
  let s := s.retireNext c
  if c.lanes.isEmpty then s else s.startFlight c i o (c.parts o addrs datas results)

/-- The length of a path (07 R172). -/
def Gang.ifc (g : Gang) (p : Nat) : Nat := (g.paths.getD p []).length

/-- A path counter has room for one more (03 R57). -/
def Ctx.pathRoom (c : Ctx) (p : Nat) : Bool := c.gang.ifc p < 65535

/-- Entries of a core's or easel's parked-access table in use (11 R271). -/
def State.parkedAt (s : State) (cluster : Nat) (easel : Bool) (core : Nat) : Nat :=
  (s.flights.filter fun f => f.parts.any Part.isParked &&
    match s.crew? f.crew with
    | some k => k.cluster == cluster && (k.state == .running || k.state == .stopping) &&
      match k.member? f.member with
      | some g => g.isSeq == easel && (g.isSeq || g.core == core)
      | none => false
    | none => false).length

/-- Entries of the issuing core's or easel's parked-access table in use. -/
def State.parkedHere (s : State) (c : Ctx) : Nat := s.parkedAt c.crew.cluster c.gang.isSeq c.gang.core

/-- The parked-access table has room, so a global access may issue (11 R271). -/
def State.parkRoom (s : State) (c : Ctx) : Bool := s.parkedHere c < (if c.gang.isSeq then 8 else 64)

/-! ### Order of performance -/

/-- Whether a part has not yet been performed. -/
def PartState.open_ : PartState → Bool
  | .performed | .returned => false
  | _ => true

/-- Whether an access has a read part (08 R189). -/
def AccKind.reads : AccKind → Bool
  | .store | .prom | .flush | .mcrd | .amsg | .result | .fence => false
  | _ => true

/-- Bytes of a part that order it against others: those it touches, and the whole block of a join. -/
def Part.reach (k : AccKind) (p : Part) : Nat := match k with | .jdec | .flush | .tsub => 128 | .spawn => 64 | _ => p.size

/-- Whether two parts touch a byte in common. -/
def overlap (a : Nat) (n : Nat) (b : Nat) (m : Nat) : Bool := a < b + m && b < a + n

/-- Whether one earlier instruction lets some parts of a later one be performed. -/
def Flight.lets (all : List Flight) (e f : Flight) (ps : List Part) : Bool :=
  let sls := ps.map (·.slice)
  if e.kind = .fence then
    all.all fun r => !(r.id < e.id && r.crew == e.crew && r.member == e.member && r.kind.reads) ||
      r.parts.all fun q => !q.state.open_ || !(sls.contains q.slice && e.slices.contains q.slice)
  else
    e.parts.all fun q => !q.state.open_ || !sls.contains q.slice ||
      !(e.strength.acquire || (e.strength.release && e.parkedOnce) || f.strength.release ||
        (e.replaying && f.replaying && !q.isParked) ||
        ps.any fun p => overlap q.addr.toNat (q.reach e.kind) p.addr.toNat (p.reach f.kind) ||
          (e.kind == .tsub && overlap (dbl e.aux 2).toNat 64 p.addr.toNat (p.reach f.kind)))

/-- Whether parts of an instruction may be performed now: after every earlier access of their slices to the same bytes,
every earlier acquire, every earlier release that has parked, and, for a release, every earlier access; replays of one
slice in issue order; a fence's acquire half waits for earlier reads (08 R196).
(DESIGN CHOICE: assumption 81). -/
def State.mayPerform (s : State) (f : Flight) (ps : List Part) : Bool :=
  s.flights.all fun e => !(e.crew == f.crew && e.member == f.member && e.id < f.id) || Flight.lets s.flights e f ps

/-! ### Arrival of results and return -/

/-- A flight by its number. -/
def State.flight? (s : State) (fl : Nat) : Option Flight := s.flights.find? (·.id == fl)

/-- Updates a flight. -/
def State.mapFlight (s : State) (fl : Nat) (f : Flight → Flight) : State :=
  { s with flights := modifyWhere (·.id == fl) f s.flights }

/-- Updates some parts of a flight. -/
def State.mapParts (s : State) (fl : Nat) (idx : List Nat) (f : Part → Part) : State :=
  s.mapFlight fl fun fl => { fl with parts := fl.parts.mapIdx fun i p => if idx.contains i then f p else p }

/-- Whether a register of a slice, or a queue, still waits for a flight. -/
def Flight.awaits (f : Flight) (slice : Nat) (r : RegName) : Bool :=
  (match r with | .port _ => true | _ => false) || f.parts.any fun p => (p.slice == slice || match r with | .g _ => true | _ => false) && p.dst.any fun d => d.2 == r

/-- Clears the scoreboard bits of registers a flight has written in every lane (03 R66, R67). -/
def Gang.clearPend (g : Gang) (f : Flight) : Gang :=
  { g with slices := g.slices.mapIdx fun i sl => { sl with pend := sl.pend.filter fun p => p.fl ≠ f.id || f.awaits i p.reg } }

/-- The atomics, JDEC and PROM: accesses whose lanes combine by location (07 R174). -/
def AccKind.combines : AccKind → Bool
  | .aadd | .amin | .amax | .aand | .aor | .axor | .axch | .acas | .afadd | .jdec | .prom => true
  | _ => false

/-- A lane-private address: one location per lane (07 R164). -/
def privateAddr (a : Nat) : Bool := natBits a 56 8 == 0xFE && natBits a 53 3 == 0

/-- Whether two parts of an instruction are at one location (07 R164, R174). -/
def Part.sharesLocation (p q : Part) : Bool := q.addr == p.addr && (q.lane == p.lane || !privateAddr p.addr.toNat)

/-- Every part has returned and no push waits. -/
def Flight.complete (f : Flight) : Bool := f.wait == 0 && f.parts.all fun p => p.state == .returned

/-- Marks an instruction of a path as returned, and lets the counter fall from its oldest end (07 R173). -/
def Gang.pathReturn (g : Gang) (p fl : Nat) : Gang :=
  { g with paths := listModify g.paths p fun l =>
      (l.map fun k => if k.fl == fl then { k with ret := true } else k).dropWhile (·.ret) }

/-- The words a flight pushes to its port: lanes rising, each lane's words lowest first (03 R53, 06 R146). -/
def Flight.pushed (f : Flight) : List Word := f.parts.flatMap fun p => splitWords p.words p.result.toNat

/-- Clears the scoreboard bits of a flight that has ended (03 R66). -/
def Gang.dropPend (g : Gang) (fl : Nat) : Gang :=
  { g with slices := g.slices.map fun sl => { sl with pend := sl.pend.filter fun p => p.fl ≠ fl } }

/-- A flight whose result cannot reach its crew's registers, or its port queues, while the crew is away: it ends when the
crew is back (06 R148; 11 R280, R281). -/
def State.away (s : State) (f : Flight) : Bool :=
  match s.crew? f.crew with
  | some c => (f.port.isSome && c.state != .running && c.state != .stopping) ||
      ((c.state == .stream || c.state == .saved) && (f.kind == .palette || f.parts.any fun p => !p.dst.isEmpty))
  | none => false

/-- Ends complete flights, oldest first.  One bound for a port waits for the earlier ones of its gang and port. -/
def State.endFlights (s : State) : List Flight → List (Nat × Nat × Nat) → State
  | [], _ => s
  | f :: fs, held =>
    let key := f.port.map fun p => (f.crew, f.member, p)
    let blocked := (match key with | some k => held.contains k | none => false) || s.away f
    let held' := match key with | some k => k :: held | none => held
    if !f.complete || blocked || f.kind == .fence then s.endFlights fs held'
    else
      let s := { s with flights := s.flights.filter (·.id != f.id) }
      let s := match f.port, s.crew? f.crew with
        | some p, some c => s.mapPort c.cluster p fun q =>
          { q with words := q.words ++ f.pushed, pushes := q.pushes - f.pushed.length }
        | _, _ => s
      let s := s.mapGang f.crew f.member fun g =>
        let g := if f.port.isSome then g.dropPend f.id else g
        match f.path with
        | some p => g.pathReturn p f.id
        | none => g
      s.endFlights fs held

/-- Whether a fence still has an earlier read to wait for. -/
def State.fenceOpen (s : State) (e : Flight) : Bool :=
  s.flights.any fun r => r.id < e.id && r.crew == e.crew && r.member == e.member && r.kind.reads &&
    r.parts.any fun q => q.state.open_ && e.slices.contains q.slice

/-- Ends what has completed. -/
def State.settleFlights (s : State) : State :=
  let s := s.endFlights s.flights []
  { s with flights := s.flights.filter fun e => e.kind != .fence || s.fenceOpen e }

/-- Whether a crew's registers are in a bank: results are written there (11 R280). -/
def Crew.inBank (c : Crew) : Bool := c.state == .running || c.state == .stopping || c.state == .standby

/-- Some word of one lane's result arrives in its register (03 R67).  A part with nothing left to write has returned. -/
def State.arrive (s : State) (f : Flight) (part word : Nat) (p : Part) : State :=
  let w := if (((s.crew? f.crew).bind (·.member? f.member)).map (·.isSeq)).getD false then 64 else 32
  let rs := (p.dst.filter (·.1 == word)).map Prod.snd
  let p' := { p with dst := p.dst.filter (·.1 != word) }
  let p' := if p'.dst.isEmpty then { p' with state := .returned } else p'
  let f' := { f with parts := f.parts.set part p' }
  let s := s.mapFlight f.id fun _ => f'
  let s := s.mapGang f.crew f.member fun g =>
    (rs.foldl (fun g r => g.writeReg p.lane r (p.result.toNat / 2 ^ (w * word))) g).clearPend f'
  s.settleFlights

/-- The arrival steps: a performed part of the given kinds, whose crew is in a bank, receives one word.  One that has nothing
to write returns wherever its crew is, but by the fault log where that has an entry for it (11 R280). -/
def State.arrival (s : State) (kinds : AccKind → Bool) (fl part word : Nat) : State :=
  match s.flight? fl with
  | none => s
  | some f =>
    match f.parts[part]?, s.crew? f.crew with
    | some p, some c =>
      if kinds f.kind && p.state == .performed && f.wait == 0 &&
          (c.inBank || (p.dst.isEmpty && !c.log.any (·.fl == f.id))) &&
          (p.dst.isEmpty || p.dst.any fun d => d.1 == word) then s.arrive f part word p
      else s
    | _, _ => s

end Sys2Proof.Machine
end

