-- ==== Sys2Proof/Machine/Lsu.lean ====
section
/-! DEFINITION. Loads, stores, fences, flushes and the palette at issue (15 R349 to R353; 16 R373, R374, R384 to R387;
17 R400, R401; 18 R429 to R431).  Their parts are performed by the steps of Machine/Access. -/

namespace Sys2Proof.Machine
set_option Elab.async false
open Sys2Proof

/-- The checks of an access's addresses, in the order ADDRESS then ALIGN, for every active lane before any access is
made (16 R385). -/
def Ctx.checkAddrs (c : Ctx) (s : State) (addrs : List Nat) (n align : Nat) (ok : Place → Bool) : Except Stop Unit :=
  let at_ := c.lanes.zip addrs
  if at_.any fun (l, a) => ((c.place? s l a n).filter ok).isNone then .error (.trap .address at_)
  else if addrs.any fun a => a % align ≠ 0 then .error (.trap .align at_)
  else .ok ()

/-- Any place will do. -/
def anyPlace (_ : Place) : Bool := true

/-- Whether some lane's address is global. -/
def anyGlobal (addrs : List Nat) : Bool := addrs.any fun a => natBits a 56 8 == 0

/-- The path of a load: 0 when some lane's address is global, else 1 (07 R172, 16 R385). -/
def loadPath (addrs : List Nat) : Nat := if anyGlobal addrs then 0 else 1

/-- Readiness of an access: room on its path and, for a global one, in the parked-access table (03 R57, 11 R271). -/
def Ctx.accessReady (c : Ctx) (s : State) (path : Nat) (addrs : List Nat) : Except Stop Unit :=
  ready (c.lanes.isEmpty || (c.pathRoom path && (!anyGlobal addrs || s.parkRoom c)))

/-- Effective addresses of the MEM format: a 7-bit offset in units of the access size (16 R385). -/
def memAddrs (size : Nat) (o : BitVec 7) (as : List Nat) : List Nat :=
  as.map fun a => (((a : Int) + signedOf 7 o.toNat * size) % 2 ^ 64).toNat

/-- An access at issue: addresses checked, readiness, and one part per lane in flight. -/
def Ctx.access (c : Ctx) (s : State) (i : Instr) (o : Launching) (align : Nat) (ok : Place → Bool)
    (path : List Nat → Nat) (addrs datas : List Nat) : Except Stop State := do
  c.checkAddrs s addrs o.size align ok
  c.accessReady s (path addrs) addrs
  .ok (s.issueFlight c i { o with path := some (path addrs) } addrs datas [])

/-! ### Plain loads and stores -/

/-- The shared meaning of LD, LDW and LDQ (16 R384, R385). -/
def plainLoad (i : Instr) (dst : Use) (a o : BitVec 7) (size la : Nat) : State → Host.Outcome State Fault Refusal :=
  runOp i { uses := fun _ => [.src64 a, dst] } fun c args s =>
    c.access s i { kind := .load, size := size, dst := some fun _ => dst, la := la } size anyPlace loadPath
      (memAddrs size o (args.getD 0 [])) []

/-- LD (16 R385). -/
def execLd (t a o : BitVec 7) (l : BitVec 4) : State → Host.Outcome State Fault Refusal :=
  plainLoad (.ld t a o l) (.dst t) a o 4 l.toNat

/-- LDW (16 R385). -/
def execLdw (t a o : BitVec 7) (l : BitVec 4) : State → Host.Outcome State Fault Refusal :=
  plainLoad (.ldw t a o l) (.dst64 t) a o 8 l.toNat

/-- LDQ (16 R385). -/
def execLdq (t a o : BitVec 7) (l : BitVec 4) : State → Host.Outcome State Fault Refusal :=
  plainLoad (.ldq t a o l) (.dst128 t) a o 16 l.toNat

/-- The shared meaning of ST, STW and STQ (18 R429, R430). -/
def plainStore (i : Instr) (src : Use) (a o : BitVec 7) (size : Nat) : State → Host.Outcome State Fault Refusal :=
  runOp i { uses := fun _ => [.src64 a, src] } fun c args s =>
    c.access s i { kind := .store, size := size } size anyPlace (fun _ => 2)
      (memAddrs size o (args.getD 0 [])) (args.getD 1 [])

/-- ST (18 R430). -/
def execSt (t a o : BitVec 7) : State → Host.Outcome State Fault Refusal := plainStore (.st t a o) (.src t) a o 4

/-- STW (18 R430). -/
def execStw (t a o : BitVec 7) : State → Host.Outcome State Fault Refusal := plainStore (.stw t a o) (.src64 t) a o 8

/-- STQ (18 R430). -/
def execStq (t a o : BitVec 7) : State → Host.Outcome State Fault Refusal := plainStore (.stq t a o) (.src128 t) a o 16

/-- Bytes of an LDX under a slice's FMT (16 R387). -/
def ldxSize (sl : Slice) : Nat := if fmtB sl.fmt = 9 then 8 else 4

/-- The destination of an LDX. -/
def ldxDst (t : BitVec 7) (sl : Slice) : Use := if fmtB sl.fmt = 9 then .dst64 t else .dst t

/-- LDX (16 R387).  Each slice's own FMT gives its lanes' size. -/
def execLdx (t a b : BitVec 7) (l : BitVec 4) : State → Host.Outcome State Fault Refusal :=
  runOp (.ldx t a b l)
    { kind := .vector, fmtOk := fun sl => fmtB sl.fmt ≠ 10, uses := fun sl => [.src64 a, .src b, ldxDst t sl] }
    fun c args s => do
      let addrs := List.zipWith (fun x y => (x + y) % 2 ^ 64) (args.getD 0 []) (args.getD 1 [])
      let sizes := c.lanes.map fun k => ldxSize (c.gang.slice (k / 4))
      let at_ := c.lanes.zip addrs
      if (at_.zip sizes).any fun ((k, x), n) => (c.place? s k x n).isNone then .error (.trap .address at_)
      if (addrs.zip sizes).any fun (x, n) => x % n ≠ 0 then .error (.trap .align at_)
      c.accessReady s (loadPath addrs) addrs
      let o : Launching :=
        { kind := .load, size := sizes.foldl max 4, dst := some (ldxDst t), la := l.toNat, path := some (loadPath addrs) }
      let ps := (c.parts o addrs [] []).mapIdx fun k p => { p with size := sizes.getD k 4 }
      let s := s.retireNext c
      .ok (if c.lanes.isEmpty then s else s.startFlight c (.ldx t a b l) o ps)

/-! ### Strong loads and stores -/

/-- Bytes of a strong access: bit [5], W, selects 8 (16 R386). -/
def strongSize (w : BitVec 1) : Nat := if w == 1 then 8 else 4

/-- LDA (16 R386). -/
def execLda (t a : BitVec 7) (s : BitVec 3) (r w : BitVec 1) (l : BitVec 4) : State → Host.Outcome State Fault Refusal :=
  let dst : Use := if w == 1 then .dst64 t else .dst t
  runOp (.lda t a s r w l) { uses := fun _ => [.src64 a, dst] } fun c args st =>
    c.access st (.lda t a s r w l)
      { kind := .load, size := strongSize w, dst := some fun _ => dst, la := l.toNat
        strength := ⟨true, s.toNat, r == 1, false, false⟩ }
      (strongSize w) anyPlace loadPath (args.getD 0 []) []

/-- MON (17 R400, R401). -/
def execMon (t a : BitVec 7) (s : BitVec 3) (r w : BitVec 1) (l : BitVec 4) : State → Host.Outcome State Fault Refusal :=
  let dst : Use := if w == 1 then .dst64 t else .dst t
  runOp (.mon t a s r w l) { uses := fun _ => [.src64 a, dst] } fun c args st =>
    c.access st (.mon t a s r w l)
      { kind := .mon, size := strongSize w, dst := some fun _ => dst, la := l.toNat
        strength := ⟨true, s.toNat, r == 1, false, false⟩ }
      (strongSize w) anyPlace loadPath (args.getD 0 []) []

/-- STL (18 R431). -/
def execStl (t a : BitVec 7) (s : BitVec 3) (r w : BitVec 1) : State → Host.Outcome State Fault Refusal :=
  let src : Use := if w == 1 then .src64 t else .src t
  runOp (.stl t a s r w) { uses := fun _ => [.src64 a, src] } fun c args st =>
    c.access st (.stl t a s r w)
      { kind := .store, size := strongSize w, strength := ⟨true, s.toNat, false, r == 1, false⟩ }
      (strongSize w) anyPlace (fun _ => 2) (args.getD 0 []) (args.getD 1 [])

/-! ### Fences and flushes -/

/-- Every earlier access of the issuing slices has been performed (16 R374). -/
def Ctx.allPerformed (c : Ctx) (s : State) (kinds : AccKind → Bool) : Bool :=
  s.flights.all fun f => !(f.crew == c.crew.id && f.member == c.member && kinds f.kind) ||
    f.parts.all fun p => !p.state.open_ || !c.sls.contains p.slice

/-- FENCE (16 R373, R374): the release half withholds issue; the acquire half orders later accesses. -/
def execFence (s : BitVec 3) (r : BitVec 2) : State → Host.Outcome State Fault Refusal :=
  runOp (.fence s r) {} fun c _ st => do
    ready (r.toNat < 2 || c.allPerformed st fun _ => true)
    let st := st.retireNext c
    .ok (if r.toNat % 2 == 1 && !c.allPerformed st AccKind.reads then
        st.startFlight c (.fence s r)
          { kind := .fence, strength := ⟨true, s.toNat, true, decide (2 ≤ r.toNat), false⟩ } []
      else st)

/-- The lines that lanes address (15 R353); a local one has nothing to write back, and is done at once. -/
def flushParts (c : Ctx) (o : Launching) (addrs : List Nat) : List Part :=
  ((c.parts o (addrs.map fun a => a / lineBytes * lineBytes) [] []).zip addrs).map fun (p, a) =>
    if natBits a 56 8 == 0 then { p with size := lineBytes } else { p with size := lineBytes, state := .performed }

/-- CFLUSH (15 R352, R353). -/
def execCflush (a : BitVec 7) : State → Host.Outcome State Fault Refusal :=
  runOp (.cflush a) { kind := .vector, uses := fun _ => [.src64 a] } fun c args s => do
    let addrs := args.getD 0 []
    if (c.lanes.zip addrs).any fun (_, x) => natBits x 56 8 ≠ 0 && natBits x 56 8 ≠ 0xFE then
      .error (.trap .address (c.lanes.zip addrs))
    c.accessReady s 2 addrs
    let o : Launching := { kind := .flush, size := lineBytes, path := some 2 }
    let ps := flushParts c o addrs
    let s := s.retireNext c
    .ok (if ps.isEmpty then s else s.startFlight c (.cflush a) o ps)

/-! ### The palette -/

/-- Bytes CBT loads under FMT.CB_ENTRY (15 R350). -/
def paletteSize (sl : Slice) : Nat := if fmtCbEntry sl.fmt = 4 then 8 else 16

/-- Sets the palette's scoreboard bit, one per gang: with CBT's window in the issuing slices, and none in the others
(15 R351). -/
def State.pendPalette (s : State) (c : Ctx) (fl la : Nat) : State :=
  s.mapIssuer c fun g => { g with slices := g.slices.mapIdx fun i sl =>
    { sl with pend := sl.pend ++ [⟨.palette, fl, if c.sls.contains i then la else 0⟩] } }

/-- Starts a palette load of one part, for the party's lowest active lane. -/
def State.startPalette (s : State) (c : Ctx) (i : Instr) (o : Launching) (addr result la : Nat) : State :=
  let fl := s.serial
  let ps := ((c.parts o [addr] [] [result]).take 1).map fun p => { p with dst := [] }
  ((s.retireNext c).startFlight c i o ps).pendPalette c fl la

/-- CBT, memory form (15 R349 to R351). -/
def execCbt (a : BitVec 7) (l : BitVec 4) : State → Host.Outcome State Fault Refusal :=
  runOp (.cbt a l) { kind := .vector, extraWr := [.palette], uses := fun _ => [.src64 a] } fun c args s =>
    match c.firstVal (args.getD 0 []) with
    | none => .ok (s.retireNext c)
    | some x => do
      let n := paletteSize c.first
      if (c.place? s (c.lanes.headD 0) x n).isNone then .error (.trap .address (c.lanes.zip (args.getD 0 [])))
      if x % n ≠ 0 then .error (.trap .align (c.lanes.zip (args.getD 0 [])))
      c.accessReady s (loadPath [x]) [x]
      .ok (s.startPalette c (.cbt a l) { kind := .palette, size := n, path := some (loadPath [x]) } x 0 l.toNat)

/-- CBT, register form (15 R349 to R351). -/
def execCbtReg (b : BitVec 7) (l : BitVec 4) : State → Host.Outcome State Fault Refusal :=
  runOp (.cbtReg b l)
    { kind := .vector, extraWr := [.palette]
      uses := fun sl => [if paletteSize sl = 8 then .src64 b else .src128 b] }
    fun c args s =>
      match c.firstVal (args.getD 0 []) with
      | none => .ok (s.retireNext c)
      | some x =>
        .ok (s.startPalette c (.cbtReg b l) { kind := .palette, size := paletteSize c.first, start := .performed } 0 x l.toNat)

/-- PALETTE_ARRIVAL (15 R351): all sixteen bytes as one event; bytes 8 to 15 are zero for FP8E4 entries. -/
def execPaletteArrival (fl : Nat) (s : State) : Host.Outcome State Fault Refusal :=
  .next <|
    match s.flight? fl with
    | none => s
    | some f =>
      match f.parts, s.crew? f.crew with
      | [p], some c =>
        if f.kind == .palette && p.state == .performed && c.inBank then
          let f' := { f with parts := [{ p with state := .returned }] }
          let s := (s.mapFlight fl fun _ => f').mapGang f.crew f.member fun g =>
            ({ g with palette := BitVec.ofNat 128 (p.result.toNat % 2 ^ (8 * p.size)) } : Gang).clearPend f'
          s.settleFlights
        else s
      | _, _ => s

/-! ### Waiting on a path, and replaying (18 R454, 17 R421) -/

/-- WAITP (18 R454). -/
def execWaitp (a : BitVec 7) (p : BitVec 3) : State → Host.Outcome State Fault Refusal :=
  runOp (.waitp a p) { noHandler := p == 0, uses := fun _ => [.src a] } fun c args s => do
    ready (c.gang.ifc p.toNat ≤ (c.firstVal (args.getD 0 [])).getD 0)
    .ok (s.retireNext c)

/-- Whether a parked part is sent again with those of some slices: one of theirs, or one of an atomic at a location of
theirs, whose lanes are one step wherever they now are (07 R174). (DEDUCED: assumption 120). -/
def Flight.resends (f : Flight) (p : Nat → List Nat → Nat → Bool) (q : Part) : Bool :=
  let named (r : Part) : Bool := r.isParked && p f.member f.slices r.slice
  named q || (f.kind.combines && q.isParked && f.parts.any fun r => named r && r.sharesLocation q)

/-- Sends the parked parts of some slices again (11 R279). -/
def State.replay (s : State) (crew : Nat) (p : Nat → List Nat → Nat → Bool) : State :=
  { s with flights := s.flights.map fun f =>
      if f.crew != crew then f
      else { f with
        replaying := f.replaying || f.parts.any fun q => q.isParked && p f.member f.slices q.slice
        reported := f.reported.filter fun i => !p f.member f.slices i
        parts := f.parts.map fun q => if f.resends p q then { q with state := .sent } else q } }

/-- RPLY (17 R421, 11 R279): outside the handler it takes PRIV. -/
def execRply : State → Host.Outcome State Fault Refusal :=
  runOp .rply { handlerOnly := true } fun c _ s =>
    .ok ((s.retireNext c).replay c.crew.id fun m _ i => m == c.member && c.sls.contains i)

end Sys2Proof.Machine
end

