-- ==== Sys2Proof/Machine/Atomic.lean ====
section
/-! DEFINITION. Atomics, join counters, promotion and spawning (07 R174, 10 R242, R243, 15 R333 to R338, 16 R382,
17 R407, R426): their issue, and the operation a home or a local holder applies. -/

namespace Sys2Proof.Machine
set_option Elab.async false
open Sys2Proof

/-! ### The operation at a location (07 R174) -/

/-- AFADD's step (15 R336). -/
def afaddStep (fmt : Word) (v x : Nat) : Nat :=
  let ab := fmtAbsent fmt
  let vx := decodeVal ab 8 x
  let vv := decodeVal ab 8 v
  if vx == .absent then v
  else if vv == .absent then (if vx == .nan then canonNan 8 else x)
  else roundVal 8 (vv.add vx)

/-- Op(v, x) of 15 R333 on 32-bit words; ACAS has cmp in the low word of its operand and new in the next `w` bits. -/
def atomicOp (k : AccKind) (easel : Bool) (fmt : Word) (v operand : Nat) : Nat :=
  let x := operand % 2 ^ 32
  match k with
  | .aadd => (v + x) % 2 ^ 32
  | .amin => if signedOf 32 x < signedOf 32 v then x else v
  | .amax => if signedOf 32 v < signedOf 32 x then x else v
  | .aand => v &&& x
  | .aor => v ||| x
  | .axor => v ^^^ x
  | .axch => x
  | .acas => if v = x then operand / 2 ^ (if easel then 64 else 32) % 2 ^ 32 else v
  | .afadd => afaddStep fmt v x
  | .jdec => (v + (2 ^ 32 - 1)) % 2 ^ 32
  | _ => v

/-- The lanes' operands applied one after another: each lane's old value, and the final one (07 R174). -/
def atomicFold (k : AccKind) (easel : Bool) : List (Word × Nat) → Nat → List Nat × Nat
  | [], v => ([], v)
  | (fmt, x) :: xs, v =>
    let (olds, w) := atomicFold k easel xs (atomicOp k easel fmt v x)
    (v :: olds, w)

/-! ### Issue -/

/-- The strength a SYN word gives an access (03 R69). -/
def synStrength (s : BitVec 3) (r : BitVec 2) (p : BitVec 1) : Strength :=
  ⟨true, s.toNat, r.toNat % 2 == 1, decide (2 ≤ r.toNat), p == 1⟩

/-- The operand of an atomic: a word, or for ACAS a pair (15 R334, R337). -/
def atomicSrc (k : AccKind) (t : BitVec 7) : Use :=
  if k = .acas then ⟨t.toNat, 2, 2, 2, 128, true, false⟩ else .src t

/-- The shared meaning of the nine atomics (15 R333 to R338). -/
def atomic (i : Instr) (k : AccKind) (t a : BitVec 7) (s : BitVec 3) (r : BitVec 2) (p z : BitVec 1) (l : BitVec 4) :
    State → Host.Outcome State Fault Refusal :=
  runOp i { uses := fun _ => [.src64 a, atomicSrc k t] ++ (if z == 1 then [] else [.dst t]) } fun c args st =>
    c.access st i
      { kind := k, dst := if z == 1 then none else some fun _ => .dst t, la := l.toNat, strength := synStrength s r p }
      4 anyPlace (fun _ => 3) (args.getD 0 []) (args.getD 1 [])

/-- AADD (15 R333, R335). -/
def execAadd (t a : BitVec 7) (s : BitVec 3) (r : BitVec 2) (p z : BitVec 1) (l : BitVec 4) :
    State → Host.Outcome State Fault Refusal :=
  atomic (.aadd t a s r p z l) .aadd t a s r p z l

/-- AMIN (15 R333, R335). -/
def execAmin (t a : BitVec 7) (s : BitVec 3) (r : BitVec 2) (p z : BitVec 1) (l : BitVec 4) :
    State → Host.Outcome State Fault Refusal :=
  atomic (.amin t a s r p z l) .amin t a s r p z l

/-- AMAX (15 R333, R335). -/
def execAmax (t a : BitVec 7) (s : BitVec 3) (r : BitVec 2) (p z : BitVec 1) (l : BitVec 4) :
    State → Host.Outcome State Fault Refusal :=
  atomic (.amax t a s r p z l) .amax t a s r p z l

/-- AAND (15 R333, R335). -/
def execAand (t a : BitVec 7) (s : BitVec 3) (r : BitVec 2) (p z : BitVec 1) (l : BitVec 4) :
    State → Host.Outcome State Fault Refusal :=
  atomic (.aand t a s r p z l) .aand t a s r p z l

/-- AOR (15 R333, R335). -/
def execAor (t a : BitVec 7) (s : BitVec 3) (r : BitVec 2) (p z : BitVec 1) (l : BitVec 4) :
    State → Host.Outcome State Fault Refusal :=
  atomic (.aor t a s r p z l) .aor t a s r p z l

/-- AXOR (15 R333, R335). -/
def execAxor (t a : BitVec 7) (s : BitVec 3) (r : BitVec 2) (p z : BitVec 1) (l : BitVec 4) :
    State → Host.Outcome State Fault Refusal :=
  atomic (.axor t a s r p z l) .axor t a s r p z l

/-- AXCH (15 R333, R335). -/
def execAxch (t a : BitVec 7) (s : BitVec 3) (r : BitVec 2) (p z : BitVec 1) (l : BitVec 4) :
    State → Host.Outcome State Fault Refusal :=
  atomic (.axch t a s r p z l) .axch t a s r p z l

/-- AFADD (15 R333, R336). -/
def execAfadd (t a : BitVec 7) (s : BitVec 3) (r : BitVec 2) (p z : BitVec 1) (l : BitVec 4) :
    State → Host.Outcome State Fault Refusal :=
  atomic (.afadd t a s r p z l) .afadd t a s r p z l

/-- ACAS (15 R333, R337). -/
def execAcas (t a : BitVec 7) (s : BitVec 3) (r : BitVec 2) (p z : BitVec 1) (l : BitVec 4) :
    State → Host.Outcome State Fault Refusal :=
  atomic (.acas t a s r p z l) .acas t a s r p z l

/-- JDEC (16 R382, 10 R243): its addresses name join blocks in the global aperture. -/
def execJdec (t a : BitVec 7) (s : BitVec 3) (r : BitVec 2) (p z : BitVec 1) (l : BitVec 4) :
    State → Host.Outcome State Fault Refusal :=
  runOp (.jdec t a s r p z l) { uses := fun _ => [.src64 a] ++ (if z == 1 then [] else [.dst t]) } fun c args st =>
    c.access st (.jdec t a s r p z l)
      { kind := .jdec, dst := if z == 1 then none else some fun _ => .dst t, la := l.toNat
        strength := { synStrength s r p with release := true } }
      128 Place.isGlobal (fun _ => 3) (args.getD 0 []) []

/-- PROM (17 R407). -/
def execProm (a : BitVec 7) (s : BitVec 3) (r : BitVec 2) : State → Host.Outcome State Fault Refusal :=
  runOp (.prom a s r) { uses := fun _ => [.src64 a] } fun c args st =>
    c.access st (.prom a s r) { kind := .prom, strength := synStrength s r 1 } 4 anyPlace (fun _ => 3) (args.getD 0 []) []

/-- SPAWN (17 R426, 10 R242): its records are read and pushed by later steps; every earlier access of the slice comes
before them. -/
def execSpawn (a : BitVec 7) : State → Host.Outcome State Fault Refusal :=
  runOp (.spawn a) { kind := .vector, uses := fun _ => [.src64 a] } fun c args st =>
    c.access st (.spawn a) { kind := .spawn, size := 64, strength := ⟨true, 5, false, true, false⟩ }
      64 Place.isGlobal (fun _ => 2) (args.getD 0 []) []

end Sys2Proof.Machine
end

