-- ==== Sys2Proof/Machine/Records.lean ====
section
/-! DEFINITION. Continuation records and the pushes that carry them to the queues (10 R236 to R238, R243, R246). -/

namespace Sys2Proof.Machine
set_option Elab.async false
open Sys2Proof

/-- LAUNCH of a record that belongs to no launch; the 1,024 launch slots have smaller numbers (assumption 11). -/
def noLaunch : Nat := 0xFFFF

/-- Double 6 of a record: JOBID, ASID and LAUNCH, set by the device (10 R237). -/
def recordTag (job asid : Nat) (launch : Option Nat) : Double :=
  BitVec.ofNat 64 (job % 2 ^ 24 + 2 ^ 24 * (asid % 2 ^ 12) + 2 ^ 36 * (launch.getD noLaunch % 2 ^ 16))

/-- A record from its 64 bytes; the double 6 held in memory is ignored (10 R238). -/
def recordOf (bs : List Byte) (tag : Double) : Record :=
  let ds := doublesOf bs
  ⟨dbl ds 0, dbl ds 1, dbl ds 2, dbl ds 3, dbl ds 4, dbl ds 5, tag, dbl ds 7⟩

/-- The 64 bytes of a record. -/
def Record.bytes (r : Record) : List Byte := bytesOfDoubles [r.d0, r.d1, r.d2, r.d3, r.d4, r.d5, r.d6, r.d7]

/-- PRIORITY -/
def Record.prio (r : Record) : Nat := bitsOf r.d5 32 2
/-- PLACE -/
def Record.place (r : Record) : Nat := bitsOf r.d5 34 6
/-- FEAT -/
def Record.feat (r : Record) : Nat := bitsOf r.d5 0 32
/-- SHAPE -/
def Record.shape (r : Record) : Nat := bitsOf r.d3 0 32
/-- PARTITION -/
def Record.part (r : Record) : Nat := bitsOf r.d3 32 32
/-- JOBID -/
def Record.job (r : Record) : Nat := bitsOf r.d6 0 24
/-- ASID -/
def Record.asid (r : Record) : Nat := bitsOf r.d6 24 12
/-- LAUNCH, for a record that has one -/
def Record.launch (r : Record) : Option Nat :=
  let l := bitsOf r.d6 36 16
  if l < 1024 then some l else none

/-- The queue a record enters, for a pushing agent on a die (10 R238): 0 to 23 cluster queues, 24 and 25 die queues. -/
def Record.queue (r : Record) (die : Nat) : Nat :=
  if r.place < 24 then r.place else if r.place = 0x3C then 24 else if r.place = 0x3D then 25 else 24 + die

/-- A launch slot at rest. -/
def noLaunchSlot : Launch := ⟨0, 0, 0, false, 0, 0, none⟩

/-- Updates a launch in use. -/
def State.mapLaunch (s : State) (l : Option Nat) (f : Launch → Launch) : State :=
  match l with
  | none => s
  | some k => { s with launches := s.launches.map fun (i, x) => if i = k then (i, f x) else (i, x) }

/-- A record is to be pushed; its launch counts it (10 R246). -/
def State.pushRecord (s : State) (r : Record) (origin : Origin) (die : Nat) (fl : Option Nat) (slot : Option (Nat × Nat)) :
    State :=
  let s := s.mapLaunch r.launch fun l => { l with pushed := l.pushed + 1 }
  { s with pushes := s.pushes ++ [⟨r, origin, r.queue die, fl, none, slot⟩] }

end Sys2Proof.Machine
end

