-- ==== Sys2Proof/Machine/Term.lean ====
section
/-! DEFINITION. The arithmetic of the term engines (05): accumulators and canvases, operand images cut into chunks, the
matching of rows, the folds of the four modes, the worst-case bound, and the values and treatments of a drain
(06 R153 to R160).  Everything is exact until the one rounding of a drain; lanes and cycles do not appear
(05 R129). -/

namespace Sys2Proof.Machine
set_option Elab.async false
open Sys2Proof

/-! ### Accumulators (05 R109, R110) -/

/-- Mode codes (05 R111). -/
def modeInt : Nat := 1
/-- FX -/
def modeFx : Nat := 2
/-- WIN -/
def modeWin : Nat := 3
/-- DGT -/
def modeDgt : Nat := 4

/-- An accumulator taken apart: INT32, FIX or SIG; LSBEXP; STICKY; PINF, NINF, NAN. -/
structure Acc where
  sig    : Int
  lsb    : Int
  sticky : Bool
  pinf   : Bool
  ninf   : Bool
  nan    : Bool
  deriving DecidableEq, Repr

/-- LSBEXP of an accumulator that has none yet. -/
def noLsb : Int := -32768

/-- Bits of an accumulator's significand by mode. -/
def sigBits (mode : Nat) : Nat :=
  if mode = modeInt then 32 else if mode = modeFx then 125 else if mode = modeWin then 96 else 108

/-- The empty value of a mode. -/
def emptyAcc (mode : Nat) : Quad :=
  if mode = modeWin then BitVec.ofNat 128 (0x8000 * 2 ^ 96) else if mode = modeDgt then BitVec.ofNat 128 (0x8000 * 2 ^ 108) else 0

/-- An accumulator from its bits. -/
def accOf (mode : Nat) (q : Quad) : Acc :=
  let n := q.toNat
  let w := sigBits mode
  let windowed := decide (mode = modeWin ∨ mode = modeDgt)
  { sig := signedOf w (natBits n 0 w)
    lsb := if windowed then signedOf 16 (natBits n w 16) else 0
    sticky := windowed && n.testBit (w + 16)
    pinf := mode != modeInt && n.testBit 125
    ninf := mode != modeInt && n.testBit 126
    nan := mode != modeInt && n.testBit 127 }

/-- The bits of an accumulator.  A significand that its field does not hold, which only a first fold of DGT mode can
store, keeps its low bits. (DESIGN CHOICE: assumption 97). -/
def Acc.bits (mode : Nat) (a : Acc) : Quad :=
  let w := sigBits mode
  let flag (b : Bool) (k : Nat) : Nat := if b then 2 ^ k else 0
  let windowed := decide (mode = modeWin ∨ mode = modeDgt)
  BitVec.ofNat 128 ((a.sig % 2 ^ w).toNat + (if windowed then (a.lsb % 2 ^ 16).toNat * 2 ^ w + flag a.sticky (w + 16) else 0)
    + (if mode = modeInt then 0 else flag a.pinf 125 + flag a.ninf 126 + flag a.nan 127))

/-- A cleared canvas (05 R109). -/
def emptyCanvas : Canvas := ⟨0, 0, [], []⟩

/-- An accumulator of a canvas. -/
def Canvas.accAt (c : Canvas) (i j : Nat) : Acc := accOf c.mode (tabGet c.acc (64 * i + j) (emptyAcc c.mode))

/-- A present count of a canvas. -/
def Canvas.countAt (c : Canvas) (i j : Nat) : Nat := tabGet c.count (64 * i + j) 0

/-- The canvas status word (05 R111). -/
def Canvas.word (c : Canvas) : Nat := c.mode ||| c.status

/-- Status bits. -/
def bitSat : Nat := 8
/-- WRAPPED -/
def bitWrapped : Nat := 16
/-- CNT_SAT -/
def bitCntSat : Nat := 32
/-- BADA -/
def bitBadA : Nat := 64
/-- BADB -/
def bitBadB : Nat := 128

/-- What one accumulator becomes: its value, its count, and status bits it sets. -/
structure Cell where
  acc    : Acc
  count  : Nat
  status : Nat
  deriving DecidableEq, Repr

/-- Writes accumulators, given by position, into a canvas. -/
def Canvas.setCells (c : Canvas) : List (Nat × Cell) → Canvas
  | [] => c
  | (k, x) :: rest =>
    ({ c with
      status := c.status ||| x.status
      acc := tabPut (emptyAcc c.mode) c.acc k (x.acc.bits c.mode)
      count := tabPut 0 c.count k x.count } : Canvas).setCells rest

/-! ### Modes and bounds (05 R114, R123, R128) -/

/-- The B-side format: FMT.B_FMT, or the palette's entry format (05 R114). -/
def bSide (fmt : Word) (layout : Nat) : Nat := if layout = 4 then fmtCbEntry fmt else fmtB fmt

/-- The mode a TMMA runs in, if any. -/
def tmmaMode (fmt : Word) (layout : Nat) : Option Nat :=
  let a := fmtA fmt
  let b := bSide fmt layout
  let plain := !hasBlockScale (fmtScale fmt)
  let int (f : Nat) : Bool := 1 ≤ f && f ≤ 3
  let small (f : Nat) : Bool := 1 ≤ f && f ≤ 5
  let any (f : Nat) : Bool := 1 ≤ f && f ≤ 7
  if int a && int b && plain then some modeInt
  else if small a && small b then some modeFx
  else if any a && any b && plain then some modeWin
  else none

/-- Q of a B layout (05 R123). -/
def layoutCost (layout cont : Nat) : Nat :=
  match layout with
  | 1 => 2
  | 2 => 1
  | 3 => 1 + cont
  | _ => 4

/-- WCB of a TMMA (05 R128). -/
def tmmaBound (kc fa layout cont : Nat) : Nat := kc * tmax fa * layoutCost layout cont + 24

/-- WCB of a DMMA. -/
def dmmaBound : Nat := 45

/-- Token units per cycle of bound (06 R152). -/
def unitsPerCycle (mode : Nat) : Nat := if mode = modeInt then 48 else if mode = modeFx then 56 else 64

/-! ### Operand images (05 R123, R124; 06 R145, R147) -/

/-- Bytes of the SC8 vector that begins each chunk, that of a crumb A too (05 R124, 06 R145). (DEDUCED: assumption 23). -/
def scaleBytes (fmt : Word) : Nat := if hasBlockScale (fmtScale fmt) then 64 else 0

/-- Bytes of a slot-sparse record: sixteen column bytes and sixteen weights. -/
def slotBytes (f : Nat) : Nat := 16 + 2 * fmtWidth f

/-- Bytes of one row of B. -/
def bRowBytes (layout cont f : Nat) : Nat :=
  match layout with
  | 0 => 8 * fmtWidth f
  | 1 => 8 + 4 * fmtWidth f
  | 2 => 4 + 2 * fmtWidth f
  | 3 => (1 + cont) * slotBytes f
  | _ => 24

/-- Bytes of one row of A: dense, or a crumb record with its overflow record. -/
def aRowBytes (f : Nat) (allot : Option Nat) : Nat :=
  match allot with
  | none => chunkBytes f
  | some a => a + chunkBytes f

/-- A chunk of an image: its SC8 vector, or nothing, and its rows. -/
structure Chunk where
  scales : List Nat
  rows   : List (List Byte)
  deriving DecidableEq, Repr

/-- Cuts bytes into n rows. -/
def cutRows (size : Nat) (bs : List Byte) : Nat → List (List Byte)
  | 0 => []
  | n + 1 => bs.take size :: cutRows size (bs.drop size) n

/-- Cuts an image into chunks. -/
def cutChunks (scale rows rowSize : Nat) (bs : List Byte) : Nat → List Chunk
  | 0 => []
  | n + 1 =>
    ⟨(bs.take scale).map BitVec.toNat, cutRows rowSize (bs.drop scale) rows⟩ ::
      cutChunks scale rows rowSize (bs.drop (scale + rows * rowSize)) n

/-! ### A -/

/-- One row of a chunk of A: its 32 elements, which of them are matched when B's row is not zero, the largest term
exponent, and its block scale. -/
structure ARow where
  elems : List Val
  live  : List Bool
  e0    : Option Int
  scale : Val
  bad   : Bool
  deriving DecidableEq, Repr

/-- Not a zero, and not absent. -/
def Val.nonzero : Val → Bool
  | .absent => false
  | .fin _ n _ _ => n != 0
  | _ => true

/-- A finite value other than zero. -/
def Val.ordinary : Val → Bool
  | .fin _ n _ _ => n != 0
  | _ => false

/-- The greater of two exponents, one of which may not exist. -/
def maxExp (a : Option Int) (b : Int) : Option Int := some (match a with | none => b | some x => max x b)

/-- The largest exponent of some terms. -/
def maxTerm (ts : List Term) : Option Int := ts.foldl (fun m t => maxExp m t.exp) none

/-- A row of A from dense codes. -/
def denseRow (ab : Bool) (f : Nat) (scale : Val) (cs : List Nat) : ARow :=
  let absent (c : Nat) : Bool := scale == .absent || (ab && c == absentCode f)
  let es := cs.map fun c => if absent c then .absent else decodeVal ab f c
  ⟨es, es.map Val.nonzero, maxTerm ((cs.filter fun c => !absent c).flatMap (termsOf f)), scale, false⟩

/-- A row whose every element is absent, from a malformed record (05 R121). -/
def badRow : ARow := ⟨List.replicate 32 .absent, List.replicate 32 false, none, .one, true⟩

/-- A row of A from a crumb record and its overflow record (05 R118, R119, R121, R122, R134).  A record of an integer
format has BASE_EXP 0, so its E0 comes from its terms. (DEDUCED: assumption 98). (DESIGN CHOICE: assumption 109). -/
def crumbRow (ab scaled : Bool) (f allot : Nat) (bs : List Byte) : ARow :=
  let r := bs.take allot
  let h := crumbFields r
  let scale := if scaled then scaleVal ab h.scale else .one
  if recordBad f allot r then badRow
  else if h.spill then denseRow ab f scale (unpackCodes f 32 (bs.drop allot))
  else if scale == .absent then { badRow with bad := false }
  else
    let ts := elementTerms f r
    let es := ts.mapIdx fun k t =>
      if h.absent.testBit k then (if ab then .absent else decodeVal false f (absentCode f)) else termSum t
    let live := es.mapIdx fun k v => if h.absent.testBit k then v.nonzero else h.present.testBit k
    let absents := if ab || h.absent = 0 then [] else termsOf f (absentCode f)
    let e0 := if isFloatFmt f && !ts.flatten.isEmpty then some ((h.baseExp : Int) - 127) else maxTerm (ts.flatten ++ absents)
    ⟨es, live, e0, scale, false⟩

/-- The rows of a chunk of A. -/
def aRows (fmt : Word) (allot : Option Nat) (c : Chunk) : List ARow :=
  let ab := fmtAbsent fmt
  let f := fmtA fmt
  c.rows.mapIdx fun i bs =>
    match allot with
    | some a => crumbRow ab (hasBlockScale (fmtScale fmt)) f a bs
    | none => denseRow ab f (if c.scales.isEmpty then .one else scaleVal ab (c.scales.getD i 0xFF)) (unpackCodes f 32 bs)

/-! ### B -/

/-- A chunk of B: for each column its listed elements by row, and its scale. -/
structure BChunk where
  cols   : List (List (Nat × Val))
  scales : List Val
  bad    : Bool
  deriving DecidableEq, Repr

/-- The listed elements of a structured row: v of four columns in a group, with strictly rising indices.
(DESIGN CHOICE: assumption 124). -/
def structuredRow (per f : Nat) (ab : Bool) (bs : List Byte) : List (Nat × Val) × Bool :=
  let idx := leValue (bs.take (4 * per))
  let vals := leValue (bs.drop (4 * per))
  let groups := (List.range 16).map fun g =>
    let is := (List.range per).map fun v => natBits idx (2 * (per * g + v)) 2
    let ok := per == 1 || is.getD 0 0 < is.getD 1 0
    (if ok then is.mapIdx fun v i => (4 * g + i, decodeVal ab f (elem vals (fmtWidth f) (per * g + v))) else [], ok)
  (groups.flatMap Prod.fst, groups.any fun g => !g.2)

/-- The listed elements of a slot-sparse row of n records; what follows them are continuation records beyond the declared
depth, of which a VALID pair makes the row malformed (05 R125). (DEDUCED: assumption 24). -/
def slotRow (n f : Nat) (ab : Bool) (bs : List Byte) : List (Nat × Val) × Bool :=
  let recs := cutRows (slotBytes f) bs n
  let deep := (cutRows (slotBytes f) bs (bs.length / slotBytes f)).drop n
  let pairs := recs.flatMap fun r =>
    let vals := leValue (r.drop 16)
    (r.take 16).mapIdx fun v c => (c.toNat, decodeVal ab f (elem vals (fmtWidth f) v))
  let bad (c : Nat) : Bool := c.testBit 6
  ((pairs.filter fun (c, _) => c.testBit 7 && !bad c).map fun (c, x) => (c % 64, x),
    pairs.any (fun (c, _) => bad c) || deep.any fun r => (r.take 16).any fun (c : Byte) => c.getLsbD 7)

/-- The elements of a palette row: code k of row `row` of the stream uses palette (position ÷ CB_BLK) mod 64.
(DESIGN CHOICE: assumption 123). -/
def paletteRow (fmt : Word) (pals : Nat → Nat × Quad) (row : Nat) (bs : List Byte) : List (Nat × Val) :=
  let v := leValue bs
  (List.range 64).map fun j =>
    let (f, p) := pals ((64 * row + j) / fmtCbBlk fmt % 64)
    (j, decodeVal (fmtAbsent fmt) f (paletteEntry p.toNat f (elem v 3 j)))

/-- The listed elements of a row of B, and whether it is malformed (05 R123, R125). -/
def bRow (fmt : Word) (layout cont : Nat) (pals : Nat → Nat × Quad) (row : Nat) (bs : List Byte) :
    List (Nat × Val) × Bool :=
  let ab := fmtAbsent fmt
  let f := fmtB fmt
  match layout with
  | 0 => ((unpackCodes f 64 bs).mapIdx fun j c => (j, decodeVal ab f c), false)
  | 1 => structuredRow 2 f ab bs
  | 2 => structuredRow 1 f ab bs
  | 3 => slotRow (1 + cont) f ab bs
  | _ => (paletteRow fmt pals row bs, false)

/-- A chunk of B, chunk number c of its stream. -/
def bChunk (fmt : Word) (layout cont : Nat) (pals : Nat → Nat × Quad) (c : Nat) (k : Chunk) : BChunk :=
  let rows := k.rows.mapIdx fun i bs => bRow fmt layout cont pals (32 * c + i) bs
  ⟨(List.range 64).map fun j => (rows.mapIdx fun i r => (r.1.filter fun p => p.1 == j).map fun p => (i, p.2)).flatten,
    (List.range 64).map fun j => if k.scales.isEmpty then .one else scaleVal (fmtAbsent fmt) (k.scales.getD j 0xFF),
    rows.any fun r => r.2⟩

/-- The listed elements of a column that are present: none when its scale is absent (05 R124). -/
def BChunk.column (b : BChunk) (j : Nat) : List (Nat × Val) :=
  if b.scales.getD j .one == .absent then [] else b.cols.getD j []

/-- Whether element (k, j) is absent: of two weights that name one place, either makes it absent, and the other's product
still counts (05 R125, R130). (DESIGN CHOICE: assumption 99). -/
def BChunk.absentAt (b : BChunk) (k j : Nat) : Bool :=
  b.scales.getD j .one == .absent || (b.cols.getD j []).any fun p => p.1 == k && p.2 == .absent

/-- The rows that hold a present weight other than zero (05 R124). -/
def BChunk.liveRows (b : BChunk) : List Bool :=
  (List.range 32).map fun k => (List.range 64).any fun j => (b.column j).any fun p => p.1 == k && p.2.nonzero

/-- floor(log2 |v|) of an ordinary value. -/
def Val.log2 : Val → Int
  | .fin _ n d e => log2Quot n d + e
  | _ => 0

/-- The largest floor(log2 |v|) of the ordinary values of a list. -/
def maxLog (vs : List Val) : Option Int := (vs.filter Val.ordinary).foldl (fun m v => maxExp m v.log2) none

/-- eB of a chunk (05 R134). -/
def BChunk.eB (b : BChunk) : Option Int := maxLog ((List.range 64).flatMap fun j => (b.column j).map Prod.snd)

/-! ### Folds (05 R130 to R134, R137) -/

/-- floor(v × 2^k), and whether a part was dropped. -/
def Val.shiftFloor (v : Val) (k : Int) : Int × Bool :=
  match v with
  | .fin s n d e =>
    let m : Int := (n * pow2 (e + k) : Nat)
    let m := if s then -m else m
    let den : Int := (d * pow2 (-(e + k)) : Nat)
    (m / den, m % den != 0)
  | _ => (0, false)

/-- Brings a sum into a width, one bit at a time. -/
def fitWindow (width : Nat) : Nat → Int → Int → Bool → Int × Int × Bool
  | 0, x, e, s => (x, e, s)
  | fuel + 1, x, e, s =>
    if x < -(2 ^ (width - 1)) || 2 ^ (width - 1) ≤ x then fitWindow width fuel (x / 2) (e + 1) (s || x % 2 != 0)
    else (x, e, s)

/-- FoldWindow (05 R134): 32 halvings bring any sum of two 128-bit windows into either width. -/
def foldWindow (a : Acc) (w l : Int) (s : Bool) (width : Nat) : Acc :=
  if a.lsb = noLsb then { a with sig := w, lsb := l, sticky := s }
  else
    let e := max a.lsb l
    let da : Int := 2 ^ (e - a.lsb).toNat
    let dw : Int := 2 ^ (e - l).toNat
    let s := s || a.sticky || a.sig % da != 0 || w % dw != 0
    let (x, e, s) := fitWindow width 32 (a.sig / da + w / dw) e s
    { a with sig := x, lsb := e, sticky := s }

/-- The flags of products that are not ordinary (05 R131). -/
def Acc.flags (a : Acc) (ps : List Val) : Acc :=
  { a with
    nan := a.nan || ps.contains .nan
    pinf := a.pinf || ps.contains (.inf false)
    ninf := a.ninf || ps.contains (.inf true) }

/-- The class of a product of factors other than zero (05 R131): NaN, an infinity, or an ordinary value. -/
def product (a b : Val) : Val := a.mul b

/-- The present count after n more (05 R130). -/
def countUp (count n : Nat) : Nat × Nat := if count + n > 65535 then (65535, bitCntSat) else (count + n, 0)

/-- The fold of INT mode (05 R132). -/
def foldInt (wrap : Bool) (a : Acc) (p : Int) : Acc × Nat :=
  let x := a.sig + p
  if wrap then ({ a with sig := signedOf 32 (x % 2 ^ 32).toNat }, if 2147483647 < x || x < -2147483648 then bitWrapped else 0)
  else if 2147483647 < x then ({ a with sig := 2147483647 }, bitSat)
  else if x < -2147483647 then ({ a with sig := -2147483647 }, bitSat)
  else ({ a with sig := x }, 0)

/-- The fold of FX mode (05 R133). -/
def foldFx (a : Acc) (p : Int) : Acc × Nat :=
  let x := a.sig + p
  if 2 ^ 124 - 1 < x then ({ a with sig := 2 ^ 124 - 1 }, bitSat)
  else if x < -(2 ^ 124) + 1 then ({ a with sig := -(2 ^ 124) + 1 }, bitSat)
  else ({ a with sig := x }, 0)

/-- Truncated products summed over a window, and whether any lost a part. -/
def windowSum (ps : List Val) (l : Int) : Int × Bool :=
  ps.foldl (fun (w, s) p => let (x, d) := p.shiftFloor (-l); (w + x, s || d)) (0, false)

/-- What a chunk of B brings to every row, worked out once. -/
structure BView where
  chunk : BChunk
  live  : List Bool
  eB    : Option Int
  deriving DecidableEq, Repr

/-- One chunk at one accumulator: count, then fold (05 R130). -/
def foldChunk (mode : Nat) (wrap : Bool) (r : ARow) (b : BView) (j : Nat) (x : Cell) : Cell :=
  let present (k : Nat) : Bool := r.elems.getD k .absent != .absent && !b.chunk.absentAt k j
  let (count, st) := countUp x.count ((List.range 32).filter present).length
  let hit (k : Nat) : Bool := r.live.getD k false && b.live.getD k false
  if !(List.range 32).any hit then { x with count := count, status := x.status ||| st }
  else
    let ps := ((b.chunk.column j).filter fun p => hit p.1 && p.2.nonzero).map fun p => product (r.elems.getD p.1 .zero) p.2
    let ord := ps.filter fun p => match p with | .fin .. => true | _ => false
    let a := x.acc.flags ps
    let (a, st2) :=
      if mode = modeInt then foldInt wrap a (ord.foldl (fun n p => n + p.toInt) 0)
      else if mode = modeFx then
        let s := r.scale.mul (b.chunk.scales.getD j .one)
        foldFx a ((((ord.foldl Val.add .zero).mul s).shiftFloor 66).1)
      else
        let ordinary := (List.range 32).any fun k => hit k && match r.elems.getD k .absent with | .fin .. => true | _ => false
        match r.e0, b.eB with
        | some e0, some eB =>
          if ordinary then
            let l := e0 + eB - 87
            let (w, s) := windowSum ord l
            (foldWindow a w l s 96, 0)
          else (a, 0)
        | _, _ => (a, 0)
    ⟨a, count, x.status ||| st ||| st2⟩

/-- A TMMA's chunks at one accumulator, in order. -/
def foldChunks (mode : Nat) (wrap : Bool) (i j : Nat) : List (List ARow × BView) → Cell → Cell
  | [], x => x
  | (rs, b) :: rest, x => foldChunks mode wrap i j rest (foldChunk mode wrap (rs.getD i badRow) b j x)

/-- A TMMA on a canvas: `as` and `bs` are its chunks (05 R130). -/
def Canvas.tmma (c : Canvas) (mode : Nat) (wrap : Bool) (rows : Nat) (as : List (List ARow)) (bs : List BChunk) : Canvas :=
  let c := if c.mode = 0 then { c with mode := mode } else c
  let chunks := as.zip (bs.map fun b => ⟨b, b.liveRows, b.eB⟩)
  let bad := (if as.any (·.any (·.bad)) then bitBadA else 0) ||| (if bs.any (·.bad) then bitBadB else 0)
  let cells := (List.range (64 * rows)).map fun k =>
    (k, foldChunks mode wrap (k / 64) (k % 64) chunks ⟨c.accAt (k / 64) (k % 64), c.countAt (k / 64) (k % 64), 0⟩)
  ({ c with status := c.status ||| bad } : Canvas).setCells cells

/-- One accumulator of a DMMA (05 R137): `a` its row of A, `b` its column of B. -/
def dmmaCell (a b : List Val) (x : Cell) : Cell :=
  let pairs := a.zip b
  let n := (pairs.filter fun (p, q) => p != .absent && q != .absent).length
  let (count, st) := countUp x.count n
  let ps := (pairs.filter fun (p, q) => p.nonzero && q.nonzero).map fun (p, q) => product p q
  let ord := ps.filter fun p => match p with | .fin .. => true | _ => false
  let acc := x.acc.flags ps
  let acc := match maxLog a, maxLog b with
    | some eA, some eB =>
      if ord.isEmpty then acc
      else
        let l := eA + eB - 120
        let (w, s) := windowSum ord l
        foldWindow acc w l s 108
    | _, _ => acc
  ⟨acc, count, x.status ||| st⟩

/-- A DMMA on quadrant q of a canvas (05 R136, R137). -/
def Canvas.dmma (c : Canvas) (ab : Bool) (q : Nat) (aImg bImg : List Byte) : Canvas :=
  let c := if c.mode = 0 then { c with mode := modeDgt } else c
  let as := (cutRows 64 aImg 32).map fun r => (unpackCodes 9 8 r).map (decodeVal ab 9)
  let rows := (cutRows 256 bImg 8).map fun r => (unpackCodes 9 32 r).map (decodeVal ab 9)
  let cells := (List.range 1024).map fun k =>
    let i := 32 * (q / 2) + k / 32
    let j := 32 * (q % 2) + k % 32
    (64 * i + j, dmmaCell (as.getD (k / 32) []) (rows.map fun r => r.getD (k % 32) .absent) ⟨c.accAt i j, c.countAt i j, 0⟩)
  c.setCells cells

/-! ### Drains (05 R135; 06 R153 to R160) -/

/-- The value a drain rounds (05 R135). -/
def Canvas.value (c : Canvas) (i j : Nat) : Val :=
  let a := c.accAt i j
  if c.countAt i j = 0 then .absent
  else if a.nan || (a.pinf && a.ninf) then .nan
  else if a.pinf then .inf false
  else if a.ninf then .inf true
  else
    let at_ (x : Int) (e : Int) : Val := .fin (x < 0) x.natAbs 1 e
    if c.mode = modeInt then at_ a.sig 0
    else if c.mode = modeFx then at_ a.sig (-66)
    else if a.lsb = noLsb then .zero
    else (at_ a.sig a.lsb).add (if a.sticky then .fin false 1 1 (a.lsb - 2) else .zero)

/-- The exact value of a drained element (06 R155). (DESIGN CHOICE: assumption 110). -/
def Canvas.drained (c : Canvas) (mean : Bool) (inScale : Val) (i j : Nat) : Val :=
  let v := c.value i j
  let v := if mean && v != .absent then v.div (.fin false (c.countAt i j) 1 0) else v
  match inScale with
  | .fin _ n _ _ => if n = 0 then .absent else if v == .nan then v else v.mul inScale
  | _ => .absent

/-- Whether IN_SCALE makes every element absent (06 R155). -/
def scaleUnusable (inScale : Val) : Bool := match inScale with | .fin _ n _ _ => n == 0 | _ => true

/-- A block of 32 drained elements in its output format: codes, scale code, counts. -/
def drainBlock (f : Nat) (quantise block sat : Bool) (t : Val) (xs : List Val) : Quantised :=
  if quantise then quantiseBlock f block none t xs
  else ⟨0x78, xs.map (convVal f sat false), 0, 0, 0⟩

/-- The blocks of one copy: tile by tile, row by row.  `at_ i j` is the value of output row i, output column j. -/
def drainTiles (f rows cols : Nat) (quantise block sat : Bool) (t : Val) (at_ : Nat → Nat → Val) : List (List Quantised) :=
  (List.range ((cols + 31) / 32)).map fun tile => (List.range rows).map fun i =>
    drainBlock f quantise block sat t ((List.range 32).map fun k =>
      if 32 * tile + k < cols then at_ i (32 * tile + k) else .absent)

end Sys2Proof.Machine
end

