-- ==== Sys2Proof/Machine/Frame.lean ====
section
/-! DEFINITION. What a save frame holds of a crew, as bytes (05 R112; 10 R259; 11 R280): the easel's canvases, scalar
registers, tags and port queues; then every bank and SRAM partition of the crew and its slice state; then the fault log.
The spec lays out an image and a log entry only; the places of the rest are the model's. (DESIGN CHOICE: assumption 38). -/

namespace Sys2Proof.Machine
set_option Elab.async false
open Sys2Proof

/-! ### Canvases (05 R112) -/

/-- Bytes of the raw image of a canvas (05 R112). -/
def imageBytes : Nat := 73728

/-- The raw image of a canvas (05 R112). -/
def Canvas.image (c : Canvas) : List Byte :=
  ((List.range 4096).flatMap fun k => leBytes 16 (tabGet c.acc k (emptyAcc c.mode)).toNat) ++
    (List.range 4096).flatMap fun k => leBytes 2 (tabGet c.count k 0)

/-- The table of the values of some rows of bytes. -/
def tableOf {α : Type} [BEq α] (rows : List (List Byte)) (of : Nat → α) (empty : α) : Table α :=
  (rows.mapIdx fun k r => (k, of (leValue r))).filter fun (_, v) => v != empty

/-- A canvas with the accumulators and counts of a raw image. -/
def Canvas.ofImage (c : Canvas) (bs : List Byte) : Canvas :=
  { c with
    acc := tableOf (cutRows 16 bs 4096) (BitVec.ofNat 128) (emptyAcc c.mode)
    count := tableOf (cutRows 2 (bs.drop 65536) 4096) id 0 }

/-! ### Registers and slices -/

/-- Scalar registers of an easel (03 R59). -/
def scalarRegs : Nat := 104

/-- Bytes of a lane's registers and private memory. -/
def laneBytes (g : Gang) (priv : Nat) : Nat := if g.isSeq then 8 * scalarRegs + 8 else 4 * g.allot + 8 + priv

/-- A lane's registers, TADDR and private memory. -/
def Lane.bytes (l : Lane) (g : Gang) (priv : Nat) : List Byte :=
  (if g.isSeq then (List.range scalarRegs).flatMap fun k => leBytes 8 (tabGet l.s k 0).toNat
    else (List.range g.allot).flatMap fun k => leBytes 4 (tabGet l.v k 0).toNat) ++
    leBytes 8 l.taddr.toNat ++ (if g.isSeq then [] else memBytes l.priv 0 priv)

/-- A lane as its bytes say. -/
def Lane.ofBytes (l : Lane) (g : Gang) (priv : Nat) (bs : List Byte) : Lane :=
  let n := if g.isSeq then 8 * scalarRegs else 4 * g.allot
  { l with
    s := if g.isSeq then tableOf (cutRows 8 bs scalarRegs) (BitVec.ofNat 64) 0 else l.s
    v := if g.isSeq then l.v else tableOf (cutRows 4 bs g.allot) (BitVec.ofNat 32) 0
    taddr := BitVec.ofNat 64 (leValue ((bs.drop n).take 8))
    priv := if g.isSeq then l.priv else memSetBytes [] 0 ((bs.drop (n + 8)).take priv) }

/-- Doubles of a slice's state: 16 of its own, 4 for each entry of its stack, 3 for each loop record. -/
def sliceDoubles : Nat := 16 + 4 * 32 + 3 * 3

/-- Two words as a double. -/
def twoWords (lo hi : Word) : Nat := lo.toNat + 2 ^ 32 * hi.toNat

/-- The low or the high word of a double. -/
def wordAt (ds : List Double) (k half : Nat) : Word := BitVec.ofNat 32 (bitsOf (dbl ds k) (32 * half) 32)

/-- The doubles of a stack entry. -/
def StackEntry.doubles (e : StackEntry) : List Nat :=
  [e.pc.toNat, e.mask.toNat + (if e.isPath then 16 else 0), twoWords e.fmt e.wb, twoWords e.x0 e.x1]

/-- A stack entry from its doubles. -/
def StackEntry.ofDoubles (ds : List Double) : StackEntry :=
  ⟨(dbl ds 1).getLsbD 4, dbl ds 0, BitVec.ofNat 4 (bitsOf (dbl ds 1) 0 4), wordAt ds 2 0, wordAt ds 2 1, wordAt ds 3 0, wordAt ds 3 1⟩

/-- The doubles of a slice's state. -/
def Slice.doubles (sl : Slice) : List Double :=
  let lc (k : Nat) : Word := sl.lc.getD k 0
  let own := [sl.pc.toNat, sl.mask.toNat + (if sl.finished then 16 else 0), sl.party, sl.stack.length + 2 ^ 32 * sl.loops.length,
    twoWords sl.fmt sl.wb, twoWords sl.x0 sl.x1, twoWords (lc 0) (lc 1), twoWords (lc 2) sl.tstate, sl.tcause.toNat,
    sl.tmask.toNat, sl.epc.toNat, 0, 0, 0, 0, 0]
  let stack := (sl.stack.take 32).flatMap StackEntry.doubles ++ List.replicate (4 * (32 - sl.stack.length)) 0
  let loops := (sl.loops.take 3).flatMap (fun r => [r.start.toNat, r.last.toNat, r.k]) ++ List.replicate (3 * (3 - sl.loops.length)) 0
  (own ++ stack ++ loops).map (BitVec.ofNat 64)

/-- A slice with the state its doubles say. -/
def Slice.ofDoubles (sl : Slice) (ds : List Double) : Slice :=
  let depth := bitsOf (dbl ds 3) 0 32
  let nested := bitsOf (dbl ds 3) 32 32
  { sl with
    pc := dbl ds 0
    mask := BitVec.ofNat 4 (bitsOf (dbl ds 1) 0 4)
    finished := (dbl ds 1).getLsbD 4
    party := (dbl ds 2).toNat
    stack := tabulate (min depth 32) fun k => StackEntry.ofDoubles (ds.drop (16 + 4 * k))
    loops := tabulate (min nested 3) fun k =>
      let at_ := 16 + 4 * 32 + 3 * k
      ⟨dbl ds at_, dbl ds (at_ + 1), (dbl ds (at_ + 2)).toNat, ((sl.loops[k]?).map (·.buf)).getD [], false⟩
    fmt := wordAt ds 4 0
    wb := wordAt ds 4 1
    x0 := wordAt ds 5 0
    x1 := wordAt ds 5 1
    lc := [wordAt ds 6 0, wordAt ds 6 1, wordAt ds 7 0]
    tstate := wordAt ds 7 1
    tcause := BitVec.ofNat 32 (bitsOf (dbl ds 8) 0 32)
    tmask := dbl ds 9
    epc := dbl ds 10 }

/-! ### Members -/

/-- Bytes of what the lanes of a gang share: uniform registers, palette, scale-health counters and bindings. -/
def sharedBytes : Nat := 16 + 32 + 16 + 24 + 8

/-- What the lanes of a gang share. -/
def Gang.shared (g : Gang) : List Byte :=
  padTo 16 0 (g.g.flatMap fun w => leBytes 4 w.toNat) ++ padTo 32 0 (g.gs.flatMap fun d => leBytes 8 d.toNat) ++
    leBytes 16 g.palette.toNat ++ leBytes 8 g.health.sat ++ leBytes 8 g.health.ufl ++ leBytes 8 g.health.invalid ++
    padTo 8 0 (g.qbind.map fun q => BitVec.ofNat 8 ((q.map (· + 1)).getD 0))

/-- Bytes of a member: what its lanes share, its lanes, and its slices. (DESIGN CHOICE: assumption 38). -/
def Gang.frameBytes (g : Gang) (priv : Nat) : List Byte :=
  g.shared ++ (g.lanes.flatMap fun l => l.bytes g priv) ++ g.slices.flatMap fun sl => bytesOfDoubles sl.doubles

/-- How many bytes that is. -/
def Gang.frameLength (g : Gang) (priv : Nat) : Nat :=
  sharedBytes + g.lanes.length * laneBytes g priv + g.slices.length * (8 * sliceDoubles)

/-- A member as its bytes say. -/
def Gang.ofFrame (g : Gang) (priv : Nat) (bs : List Byte) : Gang :=
  let part (off n : Nat) : List Byte := (bs.drop off).take n
  let counter (off : Nat) : Nat := leValue (part off 8)
  let lanes := cutRows (laneBytes g priv) (bs.drop sharedBytes) g.lanes.length
  let slices := cutRows (8 * sliceDoubles) (bs.drop (sharedBytes + g.lanes.length * laneBytes g priv)) g.slices.length
  { g with
    g := (cutRows 4 (part 0 16) 4).map fun r => BitVec.ofNat 32 (leValue r)
    gs := (cutRows 8 (part 16 32) 4).map fun r => BitVec.ofNat 64 (leValue r)
    palette := BitVec.ofNat 128 (leValue (part 48 16))
    health := ⟨counter 64, counter 72, counter 80⟩
    qbind := (part 88 8).map fun b => if b = 0 then none else some (b.toNat - 1)
    lanes := (g.lanes.zip lanes).map fun (l, r) => l.ofBytes g priv r
    slices := (g.slices.zip slices).map fun (sl, r) => sl.ofDoubles (doublesOf r) }

/-! ### The easel's part -/

/-- A tag's binding as 16 bits: 0 for none. -/
def tagBytes (t : Option (Nat × Nat)) : List Byte := leBytes 2 ((t.map fun (e, j) => 1 + 2 * e + j).getD 0)

/-- A tag's binding from 16 bits. -/
def tagOf (n : Nat) : Option (Nat × Nat) := if n = 0 then none else some ((n - 1) / 2, (n - 1) % 2)

/-- The easel's part of the frame of a crew whose easel context is with it (10 R259, R261 step 3). -/
def Crew.easelBytes (c : Crew) : List Byte :=
  match c.seq with
  | none => []
  | some g =>
    (c.canvases.flatMap fun (_, _, k) => k.image) ++ g.frameBytes 0 ++
      ((List.range 32).flatMap fun t => tagBytes (tabFind c.tags t)) ++
      c.ports.flatMap fun (_, ws) => ws.flatMap fun w => leBytes 4 w.toNat

/-- How many bytes that is. -/
def Crew.easelLength (c : Crew) : Nat :=
  match c.seq with
  | none => 0
  | some g => imageBytes * c.canvases.length + g.frameLength 0 + 64 + 4 * (c.ports.map fun (_, ws) => ws.length).sum

/-- The port queues that some bytes hold, as long as they were. -/
def portsOf : Table (List Word) → List Byte → Table (List Word)
  | [], _ => []
  | (i, ws) :: ps, bs =>
    (i, (cutRows 4 bs ws.length).map fun r => BitVec.ofNat 32 (leValue r)) :: portsOf ps (bs.drop (4 * ws.length))

/-- A crew whose easel context is as the easel's part of its frame says. -/
def Crew.ofEasel (c : Crew) (bs : List Byte) : Crew :=
  match c.seq with
  | none => c
  | some g =>
    let n := imageBytes * c.canvases.length
    let rest := bs.drop (n + g.frameLength 0)
    { c with
      canvases := (c.canvases.zip (cutRows imageBytes bs c.canvases.length)).map fun ((e, j, k), r) => (e, j, k.ofImage r)
      seq := some (g.ofFrame 0 (bs.drop n))
      tags := ((cutRows 2 rest 32).mapIdx fun t r => (tagOf (leValue r)).map (t, ·)).filterMap fun x => x
      ports := portsOf c.ports (rest.drop 64) }

/-! ### The banks' part -/

/-- SRAM of a crew: the core scratchpad of each of its cores, and its cluster-shared memory (07 R164 to R166). -/
def Crew.sramBytes (c : Crew) : List Byte :=
  ((dedup (c.gangs.map (·.core))).flatMap fun k => memBytes (tabGet c.coreMem k []) 0 c.coreSize) ++ cluBytes c.cluMem 0 c.cluSize

/-- The banks' part of a crew's frame (10 R259, R261 step 5). -/
def Crew.bankBytes (c : Crew) : List Byte := (c.gangs.flatMap fun g => g.frameBytes c.privSize) ++ c.sramBytes

/-- How many bytes that is. -/
def Crew.bankLength (c : Crew) : Nat :=
  (c.gangs.map fun g => g.frameLength c.privSize).sum + (dedup (c.gangs.map (·.core))).length * c.coreSize + c.cluSize

/-- Members as some bytes say, one after another. -/
def gangsOf (priv : Nat) : List Gang → List Byte → List Gang
  | [], _ => []
  | g :: gs, bs => g.ofFrame priv bs :: gangsOf priv gs (bs.drop (g.frameLength priv))

/-- A write into a crew's SRAM. -/
def Crew.applyLate (c : Crew) (w : LateWrite) : Crew :=
  match w.space with
  | 0 => c.mapMember w.member fun g => g.mapLane w.unit fun l => { l with priv := memSetBytes l.priv w.off w.data }
  | 1 => { c with coreMem := tabPut [] c.coreMem w.unit (memSetBytes (tabGet c.coreMem w.unit []) w.off w.data) }
  | _ => { c with cluMem := setCluBytes c.cluMem w.off w.data }

/-- A crew whose banks and SRAM are as the banks' part of its frame says, with the writes that reached its SRAM while it was
away (08 R208). -/
def Crew.ofBanks (c : Crew) (bs : List Byte) : Crew :=
  let sram := bs.drop (c.gangs.map fun g => g.frameLength c.privSize).sum
  let cores := dedup (c.gangs.map (·.core))
  let mem (rows : List (List Byte)) : Table Memory :=
    (cores.zip rows).foldl (fun t (k, r) => tabPut [] t k (memSetBytes [] 0 r)) c.coreMem
  c.late.foldl Crew.applyLate { c with
    gangs := gangsOf c.privSize c.gangs bs
    coreMem := mem (cutRows c.coreSize sram cores.length)
    cluMem := setCluBytes [] 0 ((sram.drop (cores.length * c.coreSize)).take c.cluSize) }

end Sys2Proof.Machine
end

