-- ==== Sys2Proof/Machine/WriteBack.lean ====
section
/-! DEFINITION. Write-backs from a home to the stripe owners and their acknowledgement (07 R184; 11 R479, R480; 12 R292
to R294, R296, R297). -/

namespace Sys2Proof.Machine
set_option Elab.async false
open Sys2Proof

/-! ### Making a write-back (07 R184) -/

/-- Puts bytes into the physical lines being made for one write-back; a line not yet there is read first, and a byte of it
that cannot be delivered stays missing. -/
def State.mergePas (s : State) (asid : Nat) (pas : List (Nat × List (Option Byte))) (pa : Nat) (bs : List Byte) :
    List (Nat × List (Option Byte)) :=
  let line := pa / lineBytes
  let old := (pas.lookup line).getD (s.compactLine asid line)
  (line, overlay old (pa % lineBytes) (bs.map some)) :: pas.filter (·.1 != line)

/-- The compact lines that take the records and overflow records of a dense line's chunks, by read-modify-write (07 R184);
poisoned where a byte that could not be delivered has not been written (12 R478). -/
def State.placeRecords (s : State) (asid : Nat) (p : CrumbPage) (line : Nat) (rs : List (List Byte × Option (List Byte))) :
    List (Nat × List Byte × Bool) :=
  let c := lineBytes / chunkSize p.fmt
  (rs.zipIdx.foldl (fun pas ((r, o), j) =>
      let n := c * line + j
      let pas := s.mergePas asid pas (p.recordAt n) (placeRecord r (p.overflowAt n - p.recordAt n))
      match o with
      | some o => s.mergePas asid pas (p.overflowAt n) o
      | none => pas) []).map fun (l, bs) => (l, bs.map s.orFill, bs.contains none)

/-- The records a dense line is encoded into, with SCALE 0x78 (05 R119; 07 R183). -/
def encodeRecords (f allot : Nat) (data : List Byte) : List (List Byte × Option (List Byte)) :=
  let w := chunkSize f
  (List.range (lineBytes / w)).map fun j => encodeChunk f allot 0x78 0 (unpackCodes f 32 ((data.drop (j * w)).take w))

/-- The records of a line in compact form, each with its overflow record when it spills. -/
def compactRecords (f allot : Nat) (data : List Byte) : List (List Byte × Option (List Byte)) :=
  (List.range (lineBytes / chunkSize f)).map fun j =>
    let (r, o) := compactRecord f allot data j
    (r, if (crumbFields r).spill then some o else none)

/-- The physical lines a write-back writes to a crumb page (07 R184): compact data of its own format and allotment
unchanged, all other data encoded from its dense image. -/
def State.encodeLine (s : State) (asid : Nat) (p : CrumbPage) (line : Nat) (form : Option (Nat × Nat)) (data : List Byte) :
    List (Nat × List Byte × Bool) :=
  s.placeRecords asid p line <|
    if form = some (p.fmt, p.allot) then compactRecords p.fmt p.allot data else encodeRecords p.fmt p.allot (denseImage form data)

/-- The controller that owns a stripe: that of its parity stack, or of the next sound stack (12 R292). -/
def State.stripeOwner (s : State) (stripe : Nat) : Nat :=
  (((List.range 8).map fun k => (stripe + k) % 8).find? fun k => !s.isLost k).getD (stripe % 8)

/-- Applies a whole gather at once and acknowledges it (12 R292, R296): from four lines up the parity is formed anew while
no stack is lost, else each line is written under the row in force. -/
def State.applyGather (s : State) (g : Gather) : State :=
  let lines := g.lines.map fun (pos, data, poisoned, _) => (pos, data, poisoned)
  let s := (s.asStream fun s => ((), if 4 ≤ lines.length && s.lostCount = 0 then s.writeStripe g.stripe lines
    else lines.foldl (fun s (pos, data, poisoned) => s.writeLine (7 * g.stripe + pos) data poisoned) s)).2
  s.ackLines (g.lines.flatMap fun (_, _, _, wbs) => wbs)

/-- Applies a stripe's gather under its lock.  Four lines or more, and every gather in a degraded state, are written
with their parity at once; fewer write their data first and leave their deltas to be folded in. -/
def State.stripeWrite (s : State) (stripe : Nat) : State :=
  if s.stripeLocked stripe then s
  else
    match s.gathers.find? fun g => g.stripe == stripe with
    | none => s
    | some g =>
      if 4 ≤ g.lines.length || 0 < s.lostCount then State.applyGather { s with gathers := s.gathers.erase g } g
      else
        let stack (pos : Nat) : Nat := dataStack (7 * stripe + pos)
        let (deltas, s) := s.asStream fun s =>
          let s := (s.storedLine (parityStack stripe) stripe).2
          let (ds, s) := g.lines.foldl (fun (ds, s) (pos, data, _, _) =>
            let (old, s) := s.storedLine (stack pos) stripe
            (ds ++ [(pos, xorLines old data)], s)) (([] : List (Nat × List Byte)), s)
          (ds, g.lines.foldl (fun s (pos, data, poisoned, _) =>
            (s.putStack (stack pos) stripe data).lineWritten (7 * stripe + pos) poisoned) s)
        { s with gathers := s.gathers.map fun x => if x == g then { g with locked := true, deltas := deltas } else x }

/-- Applies the oldest gather of an owner whose buffer of 64 stripes is full, after the update that holds its stripe's lock
(12 R292, R293). -/
def State.makeRoom (s : State) (owner : Nat) : State :=
  let mine := s.gathers.filter fun g => s.stripeOwner g.stripe == owner && !g.locked
  if mine.length < 64 then s
  else
    match mine with
    | g :: _ =>
      let s := s.settleStripe g.stripe
      State.applyGather { s with gathers := s.gathers.erase g } g
    | [] => s

/-- A line joins a gather, in place of an earlier write-back of the same line (12 R293). -/
def Gather.join (g : Gather) (pos : Nat) (data : List Byte) (poisoned : Bool) (wb : Nat) : Gather :=
  let older := (g.lines.filter (·.1 == pos)).flatMap fun (_, _, _, ws) => ws
  { g with lines := g.lines.filter (·.1 != pos) ++ [(pos, data, poisoned, older ++ [wb])] }

/-- Whether a gather is one of a stripe that still gathers. -/
def Gather.gathering (g : Gather) (stripe : Nat) : Bool := g.stripe == stripe && !g.locked

/-- A line of a write-back reaches its stripe owner: it joins the stripe's gather or begins one; a gather of all seven
lines waits no longer (12 R293). -/
def State.gatherLine (s : State) (wb line : Nat) (data : List Byte) (poisoned : Bool) : State :=
  let stripe := line / 7
  if s.gathers.any (·.gathering stripe) then
    let gs := modifyWhere (fun g : Gather => g.gathering stripe) (fun g => g.join (line % 7) data poisoned wb) s.gathers
    let s : State := { s with gathers := gs }
    if s.gathers.any fun g => g.gathering stripe && g.lines.length == 7 then (s.settleStripe stripe).stripeWrite stripe else s
  else
    let s := s.makeRoom (s.stripeOwner stripe)
    { s with gathers := s.gathers ++ [⟨stripe, s.clock.toNat, [(line % 7, data, poisoned, [wb])], false, [], []⟩] }

/-- What a write-back becomes under a translation: physical lines, or a write beyond HBM (07 R184).  The compact lines it
takes by read-modify-write are read, as far as no write-back still holds them (12 R295, R300). -/
def State.sendWriteBack (s : State) (w : WriteBack) (ph : Phys) : State :=
  let pas := match ph with
    | .hbm pa => [(pa / lineBytes, denseImage w.form w.data, w.poison.isSome)]
    | .crumb p off => (s.encodeLine w.asid p (off / lineBytes) w.form w.data).map fun (l, bs, bad) => (l, bs, bad || w.poison.isSome)
    | _ => []
  let s : State := match ph with
    | .crumb _ _ => s.readLines (s.unbuffered w.asid (pas.map Prod.fst))
    | .host p a => { s with hostOut := s.hostOut ++ [.write p (a / lineBytes * lineBytes) (denseImage w.form w.data)] }
    | .fabric t off =>
      let o := off / lineBytes * lineBytes
      s.newMessage (.writeBack w.id) none 1 t o lineBytes (spanPayload 0 (denseImage w.form w.data)) 0 (lineSlice w.asid w.line / 192)
    | _ => s
  let s := s.noteDirty w.asid (w.line * lineBytes)
  let away := match ph with | .fabric _ _ => 1 | _ => 0
  let w' := { w with pas := pas, sent := true, waiting := pas.length + away, acked := pas.isEmpty && away == 0, fault := none }
  let s := { s with writeBacks := s.writeBacks.map fun x => if x.id == w.id then w' else x }
  pas.foldl (fun s (line, data, poisoned) => s.gatherLine w.id line data poisoned) s

/-- Makes a buffered write-back, or makes it again: it is translated when it is made; a fault is served at the
translation home, and an unresolved one is recorded and holds it (11 R479, R480).  While its page is frozen it waits, and is
then made under the new translation (08 R204; 11 R283). -/
def State.makeWriteBack (s : State) (w : WriteBack) : State :=
  let va := w.line * lineBytes
  let hold (code : Nat) (s : State) : State :=
    State.postEvent { s with writeBacks := modifyWhere (·.id == w.id) (fun x => { x with fault := some code }) s.writeBacks }
      (faultEvent 0xFFFF w.asid code va)
  if s.frozen w.asid va then s
  else
    match s.devTranslate w.asid va .write with
    | (some (.ok ph), s) => s.sendWriteBack w ph
    | (some (.error code), s) => hold code s
    | (none, s) => s

/-- A line leaves the cache for its home's write-back buffer. -/
def State.bufferLine (s : State) (l : Line) (flush spcfg : Option Nat) : WriteBack × State :=
  let w : WriteBack := ⟨s.serial, l.asid, l.line, l.data, l.poison, [], false, 0, none, flush, false, l.form, spcfg⟩
  (w, s.unload { l with dirty := true } flush spcfg)

/-- Whether a write-back is of a group's units and waits in the buffer to be made. -/
def WriteBack.ofGroup (w : WriteBack) (f asid line : Nat) : Bool :=
  w.asid == asid && groupBase f w.line == groupBase f line && w.form.isSome && !w.sent && w.fault.isNone

/-- The write-backs of a group's units that wait in the buffer are made, the whole group at once (07 R184). -/
def State.makeGroup (s : State) (f asid line : Nat) : State :=
  (s.writeBacks.filter (·.ofGroup f asid line)).foldl State.makeWriteBack s

/-- A line is written back (07 R184); one in compact form with its whole group, each unit under its own translation. -/
def State.writeBackLine (s : State) (l : Line) (spcfg : Option Nat) : State :=
  match l.form with
  | none => let (w, s) := s.bufferLine l none spcfg; s.makeWriteBack w
  | some (f, _) => (s.unloadGroup f l.asid l.line none spcfg).makeGroup f l.asid l.line

/-- The oldest write-back of a line that waits in the buffer to be made (07 R184). -/
def State.unsent? (s : State) (asid line : Nat) : Option WriteBack :=
  s.writeBacks.find? fun w => w.asid == asid && w.line == line && !w.sent && w.fault.isNone

/-- Whether an operation owns a line, or a line of its group (08 R198). -/
def State.lineOwned (s : State) (l : Line) : Bool :=
  match l.form with
  | none => (s.ownerOf l.asid l.line).isSome
  | some (f, _) => (List.range (groupDense f)).any fun k => (s.ownerOf l.asid (groupBase f l.line + k)).isSome

/-- A line leaves its home's cache: a clean one is dropped, a dirty one written back; one that waits in the write-back
buffer, or is held there, goes before any newer copy; what is in compact form goes with its group (07 R184, 12 R294). -/
def State.evict (s : State) (asid line : Nat) : State :=
  match s.unsent? asid line with
  | some w => match w.form with
    | none => s.makeWriteBack w
    | some (f, _) => s.makeGroup f asid line
  | none =>
    if s.writeBacks.any fun w => w.asid == asid && w.line == line && !w.sent then s
    else
      match (s.line? asid line).or (s.compact? asid line) with
      | none => s
      | some l =>
        if s.lineOwned l then s
        else if !l.dirty then s.unload l none none
        else s.writeBackLine l none

/-- WRITE_BACK (07 R184): a line leaves the cache; while an operation owns it, or its page is frozen, it stays.
(DEDUCED: assumption 79). -/
def execWriteBack (asid line : Nat) (s : State) : Host.Outcome State Fault Refusal :=
  .next (if s.frozen asid (line * lineBytes) then s else s.evict asid line)

/-! ### At the stripe owner (12 R292, R293) -/

/-- STRIPE_WRITE (12 R292). -/
def execStripeWrite (stripe : Nat) (s : State) : Host.Outcome State Fault Refusal := .next (s.stripeWrite stripe)

/-- GATHER_WAIT (12 R293): the wait of a gather has run out. -/
def execGatherWait (stripe : Nat) (s : State) : Host.Outcome State Fault Refusal :=
  .next <|
    match s.gathers.find? fun g => g.stripe == stripe with
    | some g => if g.since + bitsOf s.memCtl 32 12 ≤ s.clock.toNat then s.stripeWrite stripe else s
    | none => s

/-- PARITY_DELTA (12 R292). -/
def execParityDelta (stripe pos : Nat) (s : State) : Host.Outcome State Fault Refusal :=
  .next <|
    match s.gathers.find? fun g => g.stripe == stripe && g.locked with
    | some g => s.foldDelta g pos
    | none => s

/-- A write-back has ended, acknowledged or discarded: a CFLUSH that made it has its line done (15 R353). -/
def State.flushEnded (s : State) (w : WriteBack) : State :=
  match w.flush with
  | none => s
  | some fl => s.mapFlight fl fun f => { f with parts := f.parts.map fun p =>
      if p.addr.toNat / lineBytes == w.line && p.state == .fill then { p with state := .performed } else p }

/-- WRITE_BACK_ACK (12 R294): the home drops an acknowledged write-back. -/
def execWriteBackAck (wb : Nat) (s : State) : Host.Outcome State Fault Refusal :=
  .next <|
    match s.writeBacks.find? fun w => w.id == wb && w.sent && w.acked with
    | none => s
    | some w => State.flushEnded { s with writeBacks := s.writeBacks.filter (·.id != wb) } w

end Sys2Proof.Machine
end

