-- ==== Sys2Proof/Machine/Access.lean ====
section
/-! DEFINITION. The life of an access after its issue: at its home or local holder, at the translation home, from HBM,
back to the core, and through the fault handler (07 R168 to R175; 08 R198, R205; 11 R268, R271, R272, R276, R280;
12 R294, R295). -/

namespace Sys2Proof.Machine
set_option Elab.async false
open Sys2Proof

/-! ### What an access does at its place -/

/-- The outcome of parts performed together at one location: their results, the bytes written, the records pushed. -/
structure Effect where
  results : List Nat
  write   : Option (List Byte)
  pushes  : List (List Byte)

/-- The value a load brings (16 R385, R387; 12 R295): an undeliverable one is FILL_BYTE bytes, or absent elements of
B_FMT for LDX. -/
def State.loadValue (s : State) (f : Flight) (p : Part) (old : List (Option Byte)) : Nat :=
  if old.contains none && f.opcode == 0x4E then
    let w := fmtWidth (fmtB p.fmt)
    packElems w (List.replicate (8 * p.size / w) (absentCode (fmtB p.fmt)))
  else leValue (old.map s.orFill)

/-- Applies an access to the bytes of its location: `old` as they are read, `raw` as the holder keeps them. -/
def State.effect (s : State) (f : Flight) (ps : List Part) (old : List (Option Byte)) (raw : List Byte)
    (atHome : Bool) : Effect :=
  match f.kind with
  | .store => ⟨ps.map fun _ => 0, (ps.getLast?).map fun p => leBytes p.size p.data.toNat, []⟩
  | .prom => ⟨ps.map fun _ => 0, if atHome then none else some raw, []⟩
  | .spawn => ⟨ps.map fun _ => 0, none, ps.map fun _ => old.map s.orFill⟩
  | k =>
    if k.combines then
      let (olds, w) := atomicFold k (f.member == 16) (ps.map fun p => (p.fmt, p.data.toNat)) (leValue (raw.take 4))
      ⟨if old.contains none then ps.map fun _ => leValue (List.replicate 4 s.fillByte) else olds, some (leBytes 4 w),
        if k == .jdec then (olds.filter (· == 1)).map fun _ => raw.drop 64 else []⟩
    else ⟨ps.map fun p => s.loadValue f p old, none, []⟩

/-- Bytes a part needs from its location. -/
def Flight.need (f : Flight) (ps : List Part) : Nat := ((ps.head?).map (·.reach f.kind)).getD 0

/-- Parts of an instruction that are performed as one step with a given part: for atomics and flushes, every part at
the same location in the same state (07 R164, R174). -/
def Flight.group (f : Flight) (i : Nat) : List Nat :=
  match f.parts[i]? with
  | none => []
  | some p =>
    if f.kind.combines || f.kind == .flush then
      (List.range f.parts.length).filter fun j => match f.parts[j]? with
        | some q => p.sharesLocation q && q.state == p.state
        | none => false
    else [i]

/-- Parts by index. -/
def Flight.at_ (f : Flight) (idx : List Nat) : List Part := idx.filterMap fun i => f.parts[i]?

/-- Whether a lower lane's part has still to be performed before a higher one's: of one store to the same location, or of one
SPAWN, but for a lane that has parked (08 R188, 17 R426). -/
def Flight.precedes (f : Flight) (q p : Part) : Bool :=
  match f.kind with
  | .store => q.state.open_ && overlap q.addr.toNat q.size p.addr.toNat p.size
  | .spawn => match q.state with
    | .sent | .miss | .fill | .fabric _ => true
    | _ => false
  | _ => false

/-- Lower lanes of one store to the same location, or of one SPAWN, come first (08 R188, 17 R426). -/
def Flight.laneOrder (f : Flight) (i : Nat) : Bool :=
  match f.parts[i]? with
  | none => true
  | some p => (f.parts.take i).all fun q => !f.precedes q p

/-- Arms a slice's monitor (08 R205): a 65th entry of a core's table evicts the one armed longest ago; a monitor whose event
has occurred takes no entry. (DESIGN CHOICE: assumption 90). -/
def State.armMonitor (s : State) (crew member slice : Nat) (b : Block) : State :=
  let s' := { s with serial := s.serial + 1 }.mapGang crew member fun g =>
    g.mapSlice slice fun sl => { sl with monitor := some ⟨b, s.serial, none⟩ }
  match (s.crew? crew).bind (·.member? member) with
  | none => s'
  | some g =>
    if g.isSeq then s'
    else
      let cl := ((s.crew? crew).map (·.cluster)).getD 0
      let armed := s'.crews.flatMap fun c =>
        if c.cluster == cl then c.gangs.flatMap fun h =>
          if h.core == g.core then h.slices.filterMap fun sl => match sl.monitor with
            | some m => if m.event.isNone then some m.armedAt else none
            | none => none
          else []
        else []
      if armed.length ≤ 64 then s'
      else
        let oldest := armed.foldl min (armed.headD 0)
        { s' with crews := s'.crews.map fun c => c.mapAllSlices fun sl =>
            match sl.monitor with
            | some m => if m.armedAt == oldest && m.event.isNone then { sl with monitor := some { m with event := some 1 } } else sl
            | none => sl }

/-- Whether a part's lane is the lowest of its slice among an instruction's parts: the one whose read arms a monitor
(17 R401). -/
def Flight.armsSlice (f : Flight) (p : Part) : Bool := f.parts.all fun q => q.slice != p.slice || p.lane ≤ q.lane

/-- The die of a crew's cluster. -/
def Crew.die (c : Crew) : Nat := c.cluster / 12

/-- A MON's reads arm its slices' monitors; once every slice's is armed it has returned on its path (07 R173, 08 R205). -/
def State.monPerformed (s : State) (f : Flight) (idx : List Nat) (place : Place) : State :=
  let s := (f.at_ idx).foldl (fun s p =>
    if f.armsSlice p then s.armMonitor f.crew f.member p.slice (place.block f.asid f.crew f.member) else s) s
  let all := f.parts.zipIdx.all fun (q, i) => idx.contains i || !q.state.open_ || !f.armsSlice q
  match f.path with
  | some p => if all then s.mapGang f.crew f.member fun g => g.pathReturn p f.id else s
  | none => s

/-- Records what parts performed together have done. -/
def State.performed (s : State) (f : Flight) (idx : List Nat) (place : Place) (e : Effect) : State :=
  let s := s.mapFlight f.id fun f => { f with
    wait := f.wait + e.pushes.length
    parts := f.parts.mapIdx fun i p =>
      if idx.contains i then
        { p with result := BitVec.ofNat 128 (e.results.getD (idx.idxOf i) 0), state := .performed }
      else p }
  let s := if f.kind == .mon then s.monPerformed f idx place else s
  match s.crew? f.crew with
  | some c => e.pushes.foldl (fun s bs =>
      s.pushRecord (recordOf bs (recordTag c.job c.asid c.launch)) .plain c.die (some f.id) none) s
  | none => s

/-- Performs parts at a local holder (07 R175). -/
def State.performLocal (s : State) (f : Flight) (idx : List Nat) (place : Place) : State :=
  let ps := f.at_ idx
  let raw := s.readLocal f.crew f.member place (f.need ps)
  let e := s.effect f ps (raw.map some) raw false
  let s := match e.write with
    | some bs => s.writeLocal f.crew f.member place bs
    | none => s
  s.performed f idx place e

/-- The data cache of the core or easel that issued a flight (07 R168). -/
def State.cacheOf (s : State) (f : Flight) : Option Nat := do
  let c ← s.crew? f.crew
  let g ← c.member? f.member
  some (17 * c.cluster + if g.isSeq then 16 else g.core)

/-- Whether an access reads through the data cache and leaves a copy there (07 R168). -/
def AccKind.cached (k : AccKind) : Bool := k == .load || k == .palette || k == .mon

/-- Performs parts at the home of a line it holds, in its cache or its write-back buffer.  Every copy of a written line but
the writer's own is invalid before the write, which goes through; a load leaves a copy (07 R168). -/
def State.performHome (s : State) (f : Flight) (idx : List Nat) (va : Nat) (l : Line) : State :=
  let ps := f.at_ idx
  let line := va / lineBytes
  let cut := (l.data.drop (va % lineBytes)).take (f.need ps)
  let e := s.effect f ps (cut.map fun b => if l.poison.isSome then none else some b) cut true
  let cache := s.cacheOf f
  let had := (cache.bind fun k => s.copy? k f.asid line).isSome
  let s := match e.write with
    | some bs => (s.writeHome? f.asid line (va % lineBytes) bs).getD s
    | none => s
  let s := match cache, s.line? f.asid line with
    | some k, some m => if m.poison.isNone && (f.kind.cached || (had && f.kind == AccKind.store)) then s.addCopy k f.asid line m.data else s
    | _, _ => s
  s.performed f idx (.global va) e

/-- A load is served by its core's or easel's data cache (07 R168). -/
def State.cacheHit? (s : State) (f : Flight) (va : Nat) : Option Line :=
  if !f.kind.cached then none
  else ((s.cacheOf f).bind fun k => s.copy? k f.asid (va / lineBytes)).map fun c =>
    ⟨f.asid, va / lineBytes, c.data, false, none, none, 0, 0⟩

/-- Where the part's lane reaches its address. -/
def State.placeOf (s : State) (f : Flight) (p : Part) : Option Place := do
  let c ← s.crew? f.crew
  let g ← c.member? f.member
  let a := p.addr.toNat
  if natBits a 56 8 = 0 then some (.global a)
  else
    let off := natBits a 0 32
    match natBits a 53 3 with
    | 0 => some (.priv p.lane off)
    | 1 => some (.core g.core off)
    | 2 => some (.clu off)
    | _ => some (.chip ((c.die + natBits a 52 1) % 2) off)

/-- What its home holds of a line that is not newer than memory, in either form, is dropped with every copy. -/
def State.dropClean (s : State) (asid line : Nat) : State :=
  let s := match s.line? asid line with
    | some l => if l.dirty then s else s.unload l none none
    | none => s
  match s.compact? asid line with
  | some l => if l.dirty then s else s.unload l none none
  | none => s

/-- A CFLUSH at the home of a line (15 R353): a line newer than memory, in whichever form, is written back and its
acknowledgement awaited, one in compact form with its whole group; a fault of that write-back parks as a store fault of
the CFLUSH, and the line stays.  A fill of the line that is under way comes to the home first. -/
def State.flushLine (s : State) (f : Flight) (idx : List Nat) (line : Nat) : State :=
  if (s.writeBack? f.asid line).isSome || s.fills.any fun x => x.asid == f.asid && x.line == line then s
  else
    match ((s.line? f.asid line).filter (·.dirty)).or ((s.compact? f.asid line).filter (·.dirty)) with
    | none => ((s.dropCopies f.asid line).dropClean f.asid line).mapParts f.id idx fun p => { p with state := .performed }
    | some l =>
      match s.translate f.asid (line * lineBytes) .write with
      | (.error code, s) => s.mapParts f.id idx fun p => { p with state := .faulted code }
      | (.ok ph, s) =>
        let (w, s) := (s.dropClean f.asid line).bufferLine l (some f.id) none
        let w := (s.unsent? f.asid line).getD w
        let s := (s.sendWriteBack w ph).mapParts f.id idx fun p => { p with state := .fill }
        match l.form with
        | some (fmt, _) => s.makeGroup fmt f.asid line
        | none => s

/-- The permission an access needs (11 R266). -/
def AccKind.want (k : AccKind) : Want := if k.writes then .write else .read

/-- A home that holds a line in compact form only expands it for a dense request (07 R183). -/
def State.expandHeld (s : State) (asid line : Nat) : State :=
  match s.line? asid line, s.compact? asid line with
  | none, some l => s.install { l.toDense with dirty := false }
  | _, _ => s

/-- A request of one part at its home or local holder: held, performed, or sent on to the translation home. -/
def State.homeRequest (s : State) (f : Flight) (i : Nat) (p : Part) : State :=
  let idx := f.group i
  if p.state != .sent || !f.laneOrder i || !s.mayPerform f (f.at_ idx) then s
  else
    match s.placeOf f p with
    | none => s
    | some (.global va) =>
      let line := va / lineBytes
      if s.frozen f.asid va || s.ownedByOther f.asid line none then s
      else if f.kind == .flush then s.flushLine f idx line
      else
        match s.cacheHit? f va with
        | some l => s.performHome f idx va l
        | none =>
          match s.served? f.asid line with
          | some l =>
            match s.hitCode f.asid va f.kind.want with
            | (0, s) => (s.expandHeld f.asid line).performHome f idx va l
            | (code, s) => s.mapParts f.id idx fun p => { p with state := .faulted code }
          | none => s.mapParts f.id idx fun p => { p with state := .miss }
    | some place => s.performLocal f idx place

/-- Runs a step about one part of a flight. -/
def State.onPart (s : State) (fl part : Nat) (k : Flight → Part → State) : State :=
  match s.flight? fl with
  | none => s
  | some f =>
    match f.parts[part]? with
    | none => s
    | some p => k f p

/-! ### At the translation home (07 R170; 11 R266; 13 R305) -/

/-- Kinds of fabric request (assumption 12): 0 read, 1 write, 2 to 10 the atomics of 15 R333, 11 JDEC, 12 PROM,
13 AMSG, 14 the 64-bit fetch-and-add of 09 R216. -/
def AccKind.message : AccKind → Nat
  | .store => 1 | .aadd => 2 | .amin => 3 | .amax => 4 | .aand => 5 | .aor => 6 | .axor => 7 | .axch => 8 | .acas => 9
  | .afadd => 10 | .jdec => 11 | .prom => 12 | .amsg => 13
  | _ => 0

/-- A lane's part of an atomic as a message carries it: its operand in two doubles, then FMT and whether it is the
easel's (assumption 12). -/
def laneDoubles (p : Part) (easel : Bool) : List Double :=
  [p.data.setWidth 64, (p.data >>> 64).setWidth 64, BitVec.ofNat 64 (p.fmt.toNat + (if easel then 2 ^ 32 else 0))]

/-- Mask and data of the bytes some parts write in one line: two doubles of mask, sixteen of data. -/
def linePayload (ps : List Part) : List Double :=
  let (m, d) := ps.foldl (fun (m, d) p =>
    let off := p.addr.toNat % lineBytes
    (overlay m off (List.replicate p.size true |>.map fun _ => (1 : Byte)), overlay d off (leBytes p.size p.data.toNat)))
    (zeroLine, zeroLine)
  let mask := flagBits (m.map (· == 1))
  BitVec.ofNat 64 mask :: BitVec.ofNat 64 (mask / 2 ^ 64) :: doublesOf d

/-- Parts of an instruction that go into one fabric request with a given part: the location of an atomic, or every part
not yet performed in the line of a load or store, but for those that a lower lane outside the request precedes
(08 R188, 13 R305, 17 R426). -/
def Flight.lineGroup (f : Flight) (i : Nat) : List Nat :=
  match f.parts[i]? with
  | none => []
  | some p =>
    if f.kind.combines then f.group i
    else (List.range f.parts.length).foldl (fun kept j =>
      match f.parts[j]? with
      | some q =>
        let inLine := q.addr.toNat / lineBytes == p.addr.toNat / lineBytes && (q.state == .sent || q.state == .miss)
        let free := (f.parts.take j).zipIdx.all fun (r, k) => kept.contains k || !f.precedes r q
        if inLine && free then kept ++ [j] else kept
      | none => kept) []

/-- The home forwards a request to another device without allocating a line (13 R305). -/
def State.forward (s : State) (f : Flight) (idx : List Nat) (target off : Nat) : State :=
  match s.crew? f.crew with
  | none => s
  | some c =>
    let ps := f.at_ idx
    let lineOff := off / lineBytes * lineBytes
    let id := s.serial
    let s := if f.kind.combines then
        s.newMessage (.parts f.id) (some c.id) f.kind.message target off 4
          (ps.flatMap fun p => laneDoubles p (f.member == 16)) c.job c.die
      else if f.kind == .store then
        s.newMessage (.parts f.id) (some c.id) 1 target lineOff lineBytes (linePayload ps) c.job c.die
      else s.newMessage (.parts f.id) (some c.id) 0 target lineOff lineBytes [] c.job c.die
    s.mapParts f.id idx fun p => { p with state := .fabric id }

/-- Performs parts at a place beyond the homes: the management window or host memory. -/
def State.performBeyond (s : State) (f : Flight) (idx : List Nat) (va : Nat) (ph : Phys) : State :=
  let ps := f.at_ idx
  let n := f.need ps
  let old := match ph with
    | .window off => (s.windowBytes off n).map some
    | .host p a => s.hostBytes p a n
    | _ => []
  let e := s.effect f ps old (old.map s.orFill) true
  let s := { s with freeCount := s.freeCount + 1 }
  let s : State := match e.write, ph with
    | some bs, .window off => ((s.windowWrite 0 off bs).noteWrite f.asid (va / lineBytes)).noteWindow off
    | some bs, .host p a => State.noteWrite { s with hostOut := s.hostOut ++ [.write p a bs] } f.asid (va / lineBytes)
    | _, _ => s
  s.performed f idx (.global va) e

/-- Joins or begins the reading of a line for its home, into a way of its slice (07 R168, R185). -/
def State.startFill (s : State) (f : Flight) (idx : List Nat) (line pa : Nat) (crumb : Option CrumbPage) : State :=
  let s := s.mapParts f.id idx fun p => { p with state := .fill }
  if s.fills.any fun x => x.asid == f.asid && x.line == line then s
  else
    let (w, s) := s.takeWay (lineSlice f.asid line)
    { s with
      serial := s.serial + 1
      fills := s.fills ++ [⟨s.serial, f.asid, line, pa, crumb.map fun c => (c.frame, c.size, c.fmt, c.allot), none, false, w⟩] }

/-- A home miss at its translation home: translated and forwarded, or faulted.  A line that has meanwhile come to its
home is served there, and one that an operation has come to own holds the request (08 R198). -/
def State.translationRequest (s : State) (f : Flight) (i : Nat) (p : Part) : State :=
  let va := p.addr.toNat
  let line := va / lineBytes
  let idx := f.group i
  if p.state != .miss || s.frozen f.asid va || s.ownedByOther f.asid line none then s
  else if (s.homeBytes? f.asid line).isSome then s.mapParts f.id idx fun p => { p with state := .sent }
  else
    match s.translate f.asid va f.kind.want with
    | (.error code, s) => s.mapParts f.id idx fun p => { p with state := .faulted code }
    | (.ok (.fabric t off), s) =>
      let idx := f.lineGroup i
      if idx.contains i && s.mayPerform f (f.at_ idx) then s.forward f idx t off else s
    | (.ok (.hbm pa), s) => s.startFill f idx line (pa / lineBytes * lineBytes) none
    | (.ok (.crumb c off), s) => s.startFill f idx line (off / lineBytes * lineBytes) (some c)
    | (.ok ph, s) => if s.mayPerform f (f.at_ idx) then s.performBeyond f idx va ph else s

/-- TRANSLATION_REQUEST (07 R170, 11 R266). -/
def execTranslationRequest (fl part : Nat) (s : State) : Host.Outcome State Fault Refusal :=
  .next (s.onPart fl part fun f p => s.translationRequest f part p)

/-! ### From HBM to the home (12 R294, R295) -/

/-- The crumb page of a fill. -/
def Fill.page (x : Fill) : Option CrumbPage := x.crumb.map fun (fr, sz, f, a) => ⟨fr, sz, f, a⟩

/-- Physical lines a fill reads. -/
def State.fillLines (s : State) (x : Fill) : List Nat :=
  match x.page with
  | none => [x.pa / lineBytes]
  | some c => s.compactReads x.asid c (x.pa / lineBytes)

/-- A controller reads a fill's line; `ecc` says what has happened to the line, or to the first record's line of a crumb
page (`State.strike`). -/
def State.readFill (s : State) (x : Fill) (ecc : Nat) : List (Option Byte) × State :=
  let n := (s.fillLines x).headD 0
  (if (s.fillLines x).isEmpty then s else s.strike (dataStack n) (n / 7) ecc).fillFrom x.asid <|
    match x.page with
    | none => .hbm x.pa
    | some c => .crumb c x.pa

/-- A fill waits for the lock of a stripe it reads (12 R292). -/
def State.fillLocked (s : State) (x : Fill) : Bool := (s.fillLines x).any fun n => s.stripeLocked (n / 7)

/-- HBM_READ (12 R295): not while a stripe it reads is locked. (DESIGN CHOICE: assumption 85). -/
def execHbmRead (fill ecc : Nat) (s : State) : Host.Outcome State Fault Refusal :=
  .next <|
    match s.fills.find? fun x => x.id == fill && x.data.isNone with
    | none => s
    | some x =>
      if s.fillLocked x then s
      else
        let (bs, s) := s.readFill x ecc
        let x' := { x with data := some (bs.map (·.getD 0)), undeliv := bs.contains none }
        { s with fills := s.fills.map fun y => if y.id == fill then x' else y }

/-- FILL_RETURN (12 R294): the line is installed in the way kept for it, unless its home has come to hold a newer one, and
the requests that waited for it are made again. -/
def execFillReturn (fill : Nat) (s : State) : Host.Outcome State Fault Refusal :=
  .next <|
    match s.fills.find? fun x => x.id == fill with
    | none => s
    | some x =>
      match x.data with
      | none => s
      | some bs =>
        let n := s.freeCount
        let l := freshLine n x.asid x.line (bs.map fun b => if x.undeliv then none else some b)
        let s := State.endFills { s with freeCount := n + 1 } x.asid x.line
        if (s.homeBytes? x.asid x.line).isSome then s else { s with lines := { l with way := x.way } :: s.lines }

/-- The number under which a BTE slot's command owns lines: its context number, above every engine operation's
(11 R279). -/
def slotOwner (cluster slot : Nat) : Nat := 2 ^ 64 + 16 * cluster + slot

/-- Whether a command has no fabric message outstanding. -/
def State.slotQuiet (s : State) (c k : Nat) : Bool :=
  s.messages.all fun m => match m.owner with
    | .slot d j _ => !(d == c && j == k)
    | _ => true

/-- OWNERSHIP_RELEASE (08 R198): an operation that has made its last writes gives up its lines. -/
def execOwnershipRelease (owner : Nat) (s : State) : Host.Outcome State Fault Refusal :=
  .next <|
    let busy := s.engines.any fun (_, e) => e.queue.any fun o => o.id == owner
    let slots := s.clusters.any fun (c, k) => (List.range 16).any fun i =>
      match k.slots[i]? with
      | some sl => sl.state != .free && (sl.state != .completing || !s.slotQuiet c i) && slotOwner c i == owner
      | none => false
    if busy || slots then s else { s with owned := s.owned.filter fun o => o.owner != owner }

/-! ### Back at the core -/

/-- LOAD_DATA_ARRIVAL (03 R67): one word of one lane. -/
def execLoadDataArrival (fl part word : Nat) (s : State) : Host.Outcome State Fault Refusal :=
  .next (s.arrival (fun k => k == .load || k == .mon || k == .tsub || k == .amsg) fl part word)

/-- ATOMIC_RETURN (07 R173): the old value, or the acknowledgement. -/
def execAtomicReturn (fl part : Nat) (s : State) : Host.Outcome State Fault Refusal :=
  .next (s.arrival AccKind.combines fl part 0)

/-- STORE_ACK (07 R173): of a store, a CFLUSH or a SPAWN. -/
def execStoreAck (fl part : Nat) (s : State) : Host.Outcome State Fault Refusal :=
  .next (s.arrival (fun k => k == .store || k == .flush || k == .spawn) fl part 0)

/-- A part that is not performed leaves its flight; a flight without parts ends. -/
def State.dropPart (s : State) (fl part : Nat) : State :=
  let s := s.mapFlight fl fun f => { f with parts := f.parts.eraseIdx part }
  { s with flights := s.flights.filter fun f => f.id != fl || !f.parts.isEmpty }

/-- Whether a crew's replies go to its save frame (11 R280). -/
def Crew.away (c : Crew) : Bool := c.state == .stream || c.state == .saved

/-- The parked-access table of a flight's core or easel has room for one more instruction (11 R271). -/
def State.parkSpace (s : State) (f : Flight) : Bool :=
  match s.crew? f.crew with
  | none => true
  | some c =>
    match c.member? f.member with
    | none => true
    | some g => c.away || s.parkedAt c.cluster g.isSeq g.core < (if g.isSeq then 8 else 64)

/-! ### The fault log of a save frame (10 R259; 11 R280; 14 R481) -/

/-- Lanes a fault-log entry serves, rising. -/
def FaultLog.served (e : FaultLog) : List Nat := (List.range 64).filter fun l => e.lanes.getLsbD l

/-- Bytes of a fault-log entry with the data it has once it is DONE, rounded up to 32. -/
def FaultLog.length (e : FaultLog) : Nat := 32 + if e.done then (e.size * e.served.length + 31) / 32 * 32 else 0

/-- A fault-log entry as its frame holds it (11 R280). -/
def FaultLog.bytes (e : FaultLog) : List Byte :=
  let d0 := e.context % 2 ^ 16 + 2 ^ 16 * (e.opcode % 2 ^ 7) + (if e.done then 2 ^ 23 else 0) + 2 ^ 24 * (e.code % 2 ^ 8) +
    2 ^ 32 * (e.dest % 2 ^ 9) + 2 ^ 48 * (e.size % 2 ^ 16)
  let data := if !e.done then [] else e.served.flatMap fun l =>
    leBytes e.size (((e.parts.find? fun p => p.lane == l).map fun p => p.result.toNat).getD 0)
  padTo e.length 0 (bytesOfDoubles [BitVec.ofNat 64 d0, e.lanes, 0, 0] ++ data)

/-- A fault-log entry as its frame says: its fields, whether it is DONE, and the data of the lanes it serves (11 R281). -/
def FaultLog.ofBytes (e : FaultLog) (bs : List Byte) : FaultLog :=
  let d0 := leValue (bs.take 8)
  let e' : FaultLog := { e with
    context := natBits d0 0 16, opcode := natBits d0 16 7, done := e.done && d0.testBit 23, code := natBits d0 24 8
    dest := natBits d0 32 9, size := natBits d0 48 16, lanes := BitVec.ofNat 64 (leValue ((bs.drop 8).take 8)) }
  let data (p : Part) : Part :=
    match e'.served.findIdx? (· == p.lane) with
    | some i => { p with result := BitVec.ofNat 128 (leValue ((bs.drop (32 + e'.size * i)).take e'.size)) }
    | none => p
  { e' with parts := if e'.size = 0 then e.parts else e.parts.map data }

/-- Fault-log entries as some bytes say, one after another, as long as they were. -/
def logOf : List FaultLog → List Byte → List FaultLog
  | [], _ => []
  | e :: es, bs => e.ofBytes (bs.take e.length) :: logOf es (bs.drop e.length)

/-- An instruction whose lanes have the data of its fault-log entry (11 R281). -/
def Flight.withLog (f : Flight) (e : FaultLog) : Flight :=
  if e.size = 0 then f
  else
    { f with parts := f.parts.map fun p =>
        match e.parts.find? fun q => q.lane == p.lane with
        | some q => { p with result := q.result }
        | none => p }

/-- Writes bytes into a crew's frame, from an offset, under SUP_ASID: false while they cannot be written. -/
def State.writeFrame (s : State) (c : Crew) (off : Nat) (bs : List Byte) : Bool × State :=
  match c.frame with
  | none => (true, s)
  | some f =>
    if s.deviceAcc.contains (.frame c.id) then (false, s)
    else
      match s.agentPoke (.crew c.id) 0 c.die s.supAsid (f + off) bs with
      | (.done, s) => (true, s.farDone (.crew c.id))
      | (.wait, s) => (false, s)
      | (.fault code va, s) => (false, s.deviceFault (.frame c.id) s.supAsid code va)

/-- Some lanes as the bits of LANES. -/
def laneBits (ls : List Nat) : Double := BitVec.ofNat 64 ((dedup ls).map (2 ^ ·)).sum

/-- A fault-log entry for the lanes of an instruction that have parked; one that returns no data has SIZE 0 (11 R280). -/
def logEntry (f : Flight) (context : Nat) (ls : List Nat) : FaultLog :=
  { context := context, opcode := f.opcode, done := false, code := 0, dest := f.dest
    size := if f.returns || f.kind == .palette then max 4 f.size else 0
    lanes := laneBits ls, fl := f.id, parts := [] }

/-- The log of a context that is away when lanes of an instruction fault: lanes it held have been replayed and fault again,
which CODE says; others, and an instruction it did not hold, park now (11 R280). -/
def noteFault (f : Flight) (context code : Nat) (ls : List Nat) (log : List FaultLog) : List FaultLog :=
  if log.any (·.fl == f.id) then
    log.map fun e =>
      if e.fl != f.id then e
      else if ls.all e.served.contains then { e with code := code }
      else { e with lanes := e.lanes ||| laneBits ls }
  else log ++ [logEntry f context ls]

/-- The log of a context that is away when a lane of an instruction has been replayed: the entry is DONE once every lane
has, and its CODE stays while another lane is parked. -/
def noteReply (f : Flight) (part : Nat) (p : Part) (log : List FaultLog) : List FaultLog :=
  let others := f.parts.eraseIdx part
  log.map fun e =>
    if e.fl == f.id then
      { e with
        parts := e.parts ++ [p]
        done := others.all fun q => q.state == .returned
        code := if others.any Part.isParked then e.code else 0 }
    else e

/-- Writes the bytes of a crew's fault log into its frame; a fault waits for fault-resume (11 R480). -/
def State.writeLog (s : State) (c : Crew) (log : List FaultLog) : Bool × State :=
  s.writeFrame c (c.easelLength + c.bankLength) (log.flatMap FaultLog.bytes)

/-- Changes a crew's fault log, in its frame and with the crew; false while the frame cannot be written. -/
def State.changeLog (s : State) (crew : Nat) (f : List FaultLog → List FaultLog) : Bool × State :=
  match s.crew? crew with
  | none => (true, s)
  | some c =>
    match s.writeLog c (f c.log) with
    | (true, s) => (true, s.mapCrew crew fun c => { c with log := f c.log })
    | r => r

/-- FAULT_REPORT (11 R271, R276): the part parks once the table has room, the whole location of an atomic together (07 R174),
and its instruction's slices have a report, but for one an EMPTY has escalated (11 R278); in handler state the crew is abandoned; a part of a crew already abandoned is discarded (11 R287). -/
def execFaultReport (fl part : Nat) (s : State) : Host.Outcome State Fault Refusal :=
  .next <| s.onPart fl part fun f p =>
    match p.state with
    | .faulted code =>
      if ((s.crew? f.crew).map Crew.abandoned).getD true then s.dropPart fl part
      else if f.inHandler then s.abandonCrew f.crew Cause.hfault.code p.addr.toNat
      else if !f.parts.any Part.isParked && !s.parkSpace f then s
      else
        let park (s : State) : State :=
          (s.mapParts fl (f.group part) fun p => { p with state := .parked code }).mapFlight fl fun f =>
            { f with parkedOnce := true, reported := if f.held then f.reported else f.slices }
        if ((s.crew? f.crew).map Crew.away).getD false then
          match s.changeLog f.crew (noteFault f f.crew code ((f.at_ (f.group part)).map (·.lane))) with
          | (true, s) => park s
          | (false, s) => s
        else park s
    | _ => s

/-- A thread by name, if its party lives. -/
def State.thread? (s : State) (crew member party : Nat) : Option Ctx :=
  ({ s with cur := ⟨crew, member, party⟩ } : State).issuer?

/-- The oldest parked address of each lane of some slices (11 R272). -/
def parkedAddrs (fs : List Flight) (sls : List Nat) : List (Nat × Nat) :=
  fs.foldl (fun acc f => f.parts.foldl (fun acc p =>
    if p.isParked && sls.contains p.slice && (acc.lookup p.lane).isNone then acc ++ [(p.lane, p.addr.toNat)] else acc) acc) []

/-- Whether the fault of a parked instruction was met by a write (11 R272); a TSUB notes which of its accesses met it. -/
def Flight.faultWrites (f : Flight) : Bool := if f.kind == .tsub then dbl f.aux 1 == 1 else f.kind.writes

/-- A party with a report it has not taken enters the handler at an instruction boundary (11 R272); one inside an SPCFG
or a MAPF has not reached it (17 R427). -/
def State.enterForFaults (s : State) (c : Ctx) : State :=
  let fs := s.parkedOf c.crew.id c.member c.sls
  match fs.find? fun f => f.reported.any c.sls.contains with
  | none => s
  | some f =>
    if c.inHandler || s.handlerBusy c || (match c.first.wait with | .spcfg _ | .mapf _ => true | _ => false) then s
    else
      let code := ((f.parts.find? Part.isParked).map Part.code).getD 0
      let addrs := parkedAddrs fs c.sls
      let s := s.takeEntry c ⟨code, f.faultWrites, 0, false, addrs, addrs.map Prod.fst, true⟩ code
      { s with flights := s.flights.map fun f =>
          if f.crew == c.crew.id && f.member == c.member then
            { f with reported := f.reported.filter fun i => !c.sls.contains i }
          else f }

/-- HANDLER_ENTRY (11 R272): only a RUNNING party enters. -/
def execHandlerEntry (crew member party : Nat) (s : State) : Host.Outcome State Fault Refusal :=
  .next <|
    match s.thread? crew member party with
    | some c => if c.crew.state == .running then s.enterForFaults c else s
    | none => s

/-- FAULT_LOG_REPLY (11 R280): a replayed lane of a context that is away is answered into its fault log; its data reach the
registers on resumption (11 R281).  A lane that has faulted again parks again by FAULT_REPORT. -/
def execFaultLogReply (fl part : Nat) (s : State) : Host.Outcome State Fault Refusal :=
  .next <| s.onPart fl part fun f p =>
    match s.crew? f.crew with
    | none => s
    | some c =>
      if !c.away || p.state != .performed || f.kind == .mcrd then s
      else
        match s.changeLog c.id (noteReply f part p) with
        | (true, s) => (s.mapParts fl [part] fun p => { p with state := .returned }).settleFlights
        | (false, s) => s

end Sys2Proof.Machine
end

