-- ==== Sys2Proof/Machine/Arith.lean ====
section
/-! DEFINITION. Integer, logic, shift, bit-field and address instructions (15 to 18).  None treats any code as absent
except ICMP.ab (04 R87); on the easel all but the 64-bit forms act on the low 32 bits (03 R71). -/

namespace Sys2Proof.Machine
set_option Elab.async false
open Sys2Proof

/-- The result of two sources. -/
def f2 (f : Nat → Nat → Nat) : Slice → List Nat → Nat := fun _ xs => f (xs.getD 0 0) (xs.getD 1 0)

/-- The result of two sources and the old destination. -/
def f3 (f : Nat → Nat → Nat → Nat) : Slice → List Nat → Nat :=
  fun _ xs => f (xs.getD 0 0) (xs.getD 1 0) (xs.getD 2 0)

/-- d from a and b. -/
def opRR (i : Instr) (d a b : BitVec 7) (f : Nat → Nat → Nat) : State → Host.Outcome State Fault Refusal :=
  laneOp i { uses := fun _ => [.src a, .src b, .dst d] } (fun _ => .dst d) (f2 f)

/-- d from a. -/
def opR (i : Instr) (d a : BitVec 7) (f : Nat → Nat) : State → Host.Outcome State Fault Refusal :=
  laneOp i { uses := fun _ => [.src a, .dst d] } (fun _ => .dst d) (f2 fun x _ => f x)

/-- d from a, b and d. -/
def opRRD (i : Instr) (d a b : BitVec 7) (f : Nat → Nat → Nat → Nat) : State → Host.Outcome State Fault Refusal :=
  laneOp i { uses := fun _ => [.src a, .src b, .mod d] } (fun _ => .dst d) (f3 f)

/-- An integer as 32 bits of two's complement. -/
def word32 (v : Int) : Nat := (v % 2 ^ 32).toNat

/-- The least of three and the greatest. -/
def clampInt (lo hi v : Int) : Int := max lo (min hi v)

/-- Signed saturation, which never gives INT32's absent code (16 R379). -/
def satSigned (v : Int) : Nat := word32 (clampInt (-2147483647) 2147483647 v)

/-! ### Bitwise (15 R340, 17 R404, 18 R458) -/

/-- AND (15 R340). -/
def execAnd (d a b : BitVec 7) : State → Host.Outcome State Fault Refusal := opRR (.and d a b) d a b (· &&& ·)
/-- ANDI (15 R340). -/
def execAndi (d a : BitVec 7) (i : BitVec 11) : State → Host.Outcome State Fault Refusal :=
  opR (.andi d a i) d a (· &&& i.toNat)
/-- OR (17 R404). -/
def execOr (d a b : BitVec 7) : State → Host.Outcome State Fault Refusal := opRR (.or d a b) d a b (· ||| ·)
/-- ORI (17 R404). -/
def execOri (d a : BitVec 7) (i : BitVec 11) : State → Host.Outcome State Fault Refusal :=
  opR (.ori d a i) d a (· ||| i.toNat)
/-- XOR (18 R458). -/
def execXor (d a b : BitVec 7) : State → Host.Outcome State Fault Refusal := opRR (.xor d a b) d a b (· ^^^ ·)
/-- XORI (18 R458). -/
def execXori (d a : BitVec 7) (i : BitVec 11) : State → Host.Outcome State Fault Refusal :=
  opR (.xori d a i) d a (· ^^^ i.toNat)

/-! ### Shifts (17 R425, 18 R428) -/

/-- A left shift; a count of 32 or more gives 0. -/
def shlVal (x n : Nat) : Nat := if 32 ≤ n then 0 else x * 2 ^ n % 2 ^ 32

/-- A logical right shift. -/
def shrVal (x n : Nat) : Nat := if 32 ≤ n then 0 else x / 2 ^ n

/-- An arithmetic right shift (18 R428). -/
def sraVal (x n : Nat) : Nat :=
  if 32 ≤ n then (if signedOf 32 x < 0 then 0xFFFFFFFF else 0) else word32 (signedOf 32 x / 2 ^ n)

/-- SHL (17 R425). -/
def execShl (d a b : BitVec 7) : State → Host.Outcome State Fault Refusal := opRR (.shl d a b) d a b shlVal
/-- SHR (17 R425). -/
def execShr (d a b : BitVec 7) : State → Host.Outcome State Fault Refusal := opRR (.shr d a b) d a b shrVal
/-- SHLI (17 R425). -/
def execShli (d a : BitVec 7) (n : BitVec 5) : State → Host.Outcome State Fault Refusal :=
  opR (.shli d a n) d a (shlVal · n.toNat)
/-- SHRI (17 R425). -/
def execShri (d a : BitVec 7) (n : BitVec 5) : State → Host.Outcome State Fault Refusal :=
  opR (.shri d a n) d a (shrVal · n.toNat)
/-- SRA (18 R428). -/
def execSra (d a b : BitVec 7) : State → Host.Outcome State Fault Refusal := opRR (.sra d a b) d a b sraVal

/-! ### Bit fields and counts (15 R343, R344, R354, 17 R406) -/

/-- Position and width of a field descriptor (15 R343). -/
def fieldPos (b : Nat) : Nat := natBits b 0 5
/-- The width used: the requested one, cut at bit 31. -/
def fieldWidth (b : Nat) : Nat := min (natBits b 5 6) (32 - fieldPos b)

/-- BFX: the field, zero- or sign-extended (15 R344). -/
def bfxVal (sign : Bool) (x b : Nat) : Nat :=
  let w := fieldWidth b
  let v := natBits x (fieldPos b) w
  if sign && 0 < w && natBits v (w - 1) 1 == 1 then word32 ((v : Int) - 2 ^ w) else v

/-- BFI: the field of d replaced by the low bits of a (15 R344). -/
def bfiVal (x b old : Nat) : Nat :=
  let p := fieldPos b
  let w := fieldWidth b
  old % 2 ^ p + x % 2 ^ w * 2 ^ p + old / 2 ^ (p + w) * 2 ^ (p + w)

/-- BFX (15 R344). -/
def execBfx (d a b : BitVec 7) (s : BitVec 1) : State → Host.Outcome State Fault Refusal :=
  opRR (.bfx d a b s) d a b (bfxVal (s == 1))
/-- BFI (15 R344). -/
def execBfi (d a b : BitVec 7) : State → Host.Outcome State Fault Refusal := opRRD (.bfi d a b) d a b bfiVal

/-- Set bits among the n lowest (17 R406). -/
def popcount (v : Nat) : Nat → Nat
  | 0 => 0
  | n + 1 => boolNat (v.testBit n) + popcount v n

/-- Zero bits above the highest set bit (15 R354). -/
def clzVal (v : Nat) : Nat := if v = 0 then 32 else 31 - Nat.log2 v

/-- Zero bits below the lowest set bit, looking from bit k up (15 R354). -/
def ctzFrom (v : Nat) : Nat → Nat → Nat
  | 0, _ => 0
  | n + 1, k => if v.testBit k then 0 else 1 + ctzFrom v n (k + 1)

/-- CLZ (15 R354). -/
def execClz (d a : BitVec 7) (z : BitVec 1) : State → Host.Outcome State Fault Refusal :=
  opR (.clz d a z) d a fun x => if z == 1 then ctzFrom x 32 0 else clzVal x
/-- POPC (17 R406). -/
def execPopc (d a : BitVec 7) : State → Host.Outcome State Fault Refusal := opR (.popc d a) d a (popcount · 32)

/-! ### Integer arithmetic (16 R378 to R381) -/

/-- A sum or difference narrowed by its form (16 R379). -/
def narrowSum (f : Nat) (sv uv : Int) : Nat :=
  match f with
  | 1 => satSigned sv
  | 2 => (clampInt 0 4294967295 uv).toNat
  | _ => word32 uv

/-- The shape of IADD and ISUB: the `.w` form is 64 bits wide. -/
def addSub (i : Instr) (d a b : BitVec 7) (f : Nat) (g : Int → Int → Int) : State → Host.Outcome State Fault Refusal :=
  if f = 4 then
    laneOp i { uses := fun _ => [.src64 a, .src64 b, .dst64 d] } (fun _ => .dst64 d)
      (f2 fun x y => (g x y % 2 ^ 64).toNat)
  else opRR i d a b fun x y => narrowSum f (g (signedOf 32 x) (signedOf 32 y)) (g x y)

/-- IADD (16 R379). -/
def execIadd (d a b : BitVec 7) (f : BitVec 4) : State → Host.Outcome State Fault Refusal :=
  addSub (.iadd d a b f) d a b f.toNat (· + ·)
/-- ISUB (16 R379). -/
def execIsub (d a b : BitVec 7) (f : BitVec 4) : State → Host.Outcome State Fault Refusal :=
  addSub (.isub d a b f) d a b f.toNat (· - ·)

/-- A product or product and sum, wrapped or saturated (16 R379). -/
def narrowProduct (f : Nat) (v : Int) : Nat := if f = 1 then satSigned v else word32 v

/-- IMUL (16 R379). -/
def execImul (d a b : BitVec 7) (f : BitVec 4) : State → Host.Outcome State Fault Refusal :=
  opRR (.imul d a b f) d a b fun x y => narrowProduct f.toNat (signedOf 32 x * signedOf 32 y)
/-- IMULH (16 R379). -/
def execImulh (d a b : BitVec 7) (f : BitVec 4) : State → Host.Outcome State Fault Refusal :=
  opRR (.imulh d a b f) d a b fun x y =>
    if f.toNat = 1 then x * y / 2 ^ 32 else word32 (signedOf 32 x * signedOf 32 y / 2 ^ 32)
/-- IMAD (16 R379). -/
def execImad (d a b : BitVec 7) (f : BitVec 4) : State → Host.Outcome State Fault Refusal :=
  opRRD (.imad d a b f) d a b fun x y z =>
    narrowProduct f.toNat (signedOf 32 x * signedOf 32 y + signedOf 32 z)
/-- IMIN (16 R379). -/
def execImin (d a b : BitVec 7) (f : BitVec 4) : State → Host.Outcome State Fault Refusal :=
  opRR (.imin d a b f) d a b fun x y =>
    if f.toNat = 1 then min x y else if signedOf 32 x ≤ signedOf 32 y then x else y
/-- IMAX (16 R379). -/
def execImax (d a b : BitVec 7) (f : BitVec 4) : State → Host.Outcome State Fault Refusal :=
  opRR (.imax d a b f) d a b fun x y =>
    if f.toNat = 1 then max x y else if signedOf 32 x ≤ signedOf 32 y then y else x
/-- IADDI (16 R380). -/
def execIaddi (d a : BitVec 7) (i : BitVec 11) : State → Host.Outcome State Fault Refusal :=
  opR (.iaddi d a i) d a fun x => word32 (x + i.toInt)

/-- ICMP: the condition, false when `.ab` finds an absent operand (16 R381). -/
def icmpVal (x c : Nat) (sl : Slice) (u v : Nat) : Nat :=
  if x == 1 && fmtAbsent sl.fmt && (u == 0x80000000 || v == 0x80000000) then 0 else boolNat (icmpCond c u v)

/-- ICMP (16 R381). -/
def execIcmp (d a b : BitVec 7) (x : BitVec 1) (c : BitVec 3) : State → Host.Outcome State Fault Refusal :=
  laneOp (.icmp d a b x c) { uses := fun _ => [.src a, .src b, .dst d] } (fun _ => .dst d) fun sl xs =>
    icmpVal x.toNat c.toNat sl (xs.getD 0 0) (xs.getD 1 0)

/-! ### Address, constant and selection (16 R388, R391, 17 R422) -/

/-- LEA (16 R388). -/
def execLea (d a b : BitVec 7) (u : BitVec 1) (n : BitVec 3) : State → Host.Outcome State Fault Refusal :=
  laneOp (.lea d a b u n) { uses := fun _ => [.src64 a, .src b, .dst64 d] } (fun _ => .dst64 d) <| f2 fun x y =>
    ((x + (if u == 1 then (y : Int) else signedOf 32 y) * 2 ^ n.toNat) % 2 ^ 64).toNat
/-- LUI (16 R391). -/
def execLui (d : BitVec 7) (i : BitVec 18) : State → Host.Outcome State Fault Refusal :=
  laneOp (.lui d i) { uses := fun _ => [.dst d] } (fun _ => .dst d) fun _ _ => i.toNat * 2 ^ 14

/-- The condition register of SEL: 32 bits, or the whole of an easel register, which SEL selects whole (17 R422). -/
def selUse (f : BitVec 7) (rd wr : Bool) : Use := ⟨f.toNat, 1, 1, 1, 64, rd, wr⟩

/-- SEL (17 R422). -/
def execSel (d a b : BitVec 7) (v : BitVec 1) : State → Host.Outcome State Fault Refusal :=
  laneOp (.sel d a b v) { uses := fun _ => [selUse a true false, selUse b true false, selUse d true true] }
    (fun _ => selUse d false true) <| f3 fun x y c => if (c != 0) != (v == 1) then x else y

end Sys2Proof.Machine
end

