-- ==== Sys2Proof/Machine/Bte.lean ====
section
/-! DEFINITION. The block-transfer engines (09): commands from registers and from shared queues, the checks of packets,
context slots, and the accesses a command makes. -/

namespace Sys2Proof.Machine
set_option Elab.async false
open Sys2Proof

/-! ### Slots and commands -/

/-- A context slot. -/
def State.slot (s : State) (c k : Nat) : Slot := (s.cluster c).slots.getD k freeSlot

/-- Updates a context slot. -/
def State.mapSlot (s : State) (c k : Nat) (f : Slot → Slot) : State :=
  s.mapCluster c fun cl => { cl with slots := listModify cl.slots k f }

/-- Slots that a further command may be given. -/
def Cluster.room (cl : Cluster) : Nat :=
  (cl.slots.filter (·.state == .free)).length - cl.inbox.length - cl.pending.length

/-- TYPE -/
def pktType (p : List Double) : Nat := bitsOf (dbl p 0) 0 8
/-- XF -/
def pktXf (p : List Double) : Nat := bitsOf (dbl p 0) 8 6

/-- A command of a slot, with its place. -/
structure BteRef where
  cluster : Nat
  slot : Nat
  cmd : Command
  deriving Repr

/-- The number under which a slot owns lines; a look of a queue, which has no slot, owns none. -/
def BteRef.owner (r : BteRef) : Nat := if r.slot = 16 then deviceOwner else slotOwner r.cluster r.slot

/-- A look of a queue, as it reaches into other devices. -/
def BteRef.looker (r : BteRef) : FarUser := .look r.cluster (match r.cmd.source with | .queue q _ => q | .thread .. => 16)

/-- The context number of a slot (11 R279). -/
def slotContext (cluster slot : Nat) : Nat := 0x8000 + 16 * cluster + slot

/-! ### Why a command does not go on -/

/-- What stops a command inside an event. -/
inductive Halt where
  /-- it ends with a status (09 R229) -/
  | stop (status : Nat)
  /-- it ends with FAULT, a fault code and an address, without waiting for a resume (09 R226) -/
  | fail (code va : Nat)
  /-- it parks on a fault (09 R234) -/
  | fault (code va : Nat)
  /-- it parks on a frozen page (08 R204) -/
  | freeze
  /-- its access is held at a line another operation owns (08 R198) -/
  | owned
  /-- it asks another device for a line (13 R305) -/
  | far (target off va : Nat)
  /-- it waits (09 R234) -/
  | wait (w : SlotWait)
  deriving DecidableEq, Repr

/-- A step of a command over the state. -/
abbrev BteM := ExceptT Halt (StateM State)

/-- Runs a state update. -/
def bteDo (f : State → State) : BteM Unit := modify f

/-- Stops a command unless a condition holds. -/
def bteNeed (b : Bool) (h : Halt) : BteM Unit := if b then pure () else throw h

/-- A condition that becomes true in a later step keeps its slot. -/
def bteSlot (r : BteRef) : BteM Slot := do return (← get).slot r.cluster r.slot

/-- Updates the command's slot. -/
def bteMap (r : BteRef) (f : Slot → Slot) : BteM Unit := bteDo fun s => s.mapSlot r.cluster r.slot f

/-! ### A command's accesses -/

/-- The core whose scratchpad a command's SPACE 1 reaches: that of its gang, wherever the gang now is (19 R461; 10 R262). -/
def State.coreOf (s : State) (cmd : Command) : Option Nat :=
  (cmd.crew.bind s.crew?).bind fun c => (cmd.gang.bind (c.gangs[·]?)).map (·.core)

/-- Where the n bytes at a command's address lie: all in the global aperture, or in a local space its issuer reaches (09
R225, 19 R461). -/
def State.btePlace (s : State) (r : BteRef) (addr n : Nat) : Option Place :=
  if 2 ^ 64 < addr + n || natBits addr 56 8 = 0 && 2 ^ 56 < addr + n then none
  else
    (s.seenBy fun x => x.cmds.contains (r.cluster, r.cmd.source)).place? (r.cmd.crew.bind s.crew?) (s.coreOf r.cmd) none
      (r.cluster / 12) addr n

/-- A look's request to another device (13 R305). -/
def bteLookFar (r : BteRef) (kind target off : Nat) (data : List Double) : BteM (Option (List Double)) := do
  let (got, s) := (← get).farDo r.looker kind target (off / lineBytes * lineBytes) lineBytes data none r.cmd.job (r.cluster / 12)
  set s
  return got

/-- Reads within one line of global memory; the bytes are missing where another device's line was not supplied (13 R306). -/
def bteReadSeg (r : BteRef) (va n : Nat) : BteM (List (Option Byte)) := do
  let (got, s) := (← get).devPeek r.cmd.asid va n
  set s
  match got with
  | .bytes bs => return bs
  | .fault code at_ => throw (.fault code at_)
  | .held => throw .freeze
  | .fabric t off at_ =>
    match (s.slot r.cluster r.slot).fetched.lookup (at_ / lineBytes) with
    | some [] => return List.replicate n none
    | some bs => return ((bs.drop (at_ % lineBytes)).take n).map some
    | none =>
      if r.slot = 16 then
        match ← bteLookFar r 0 t off [] with
        | some ds => return (((bytesOfDoubles ds).drop (at_ % lineBytes)).take n).map some
        | none => throw (.wait .data)
      else throw (.far t off at_)

/-- Reads global memory line by line; `fuel` bounds the lines. -/
def bteReadLines (r : BteRef) (va n : Nat) : Nat → BteM (List (Option Byte))
  | 0 => return []
  | fuel + 1 => do
    if n = 0 then return []
    let k := min n (lineBytes - va % lineBytes)
    let a ← bteReadSeg r va k
    let b ← bteReadLines r (va + k) (n - k) fuel
    return a ++ b

/-- Reads n bytes for a command; missing ones cannot be delivered. -/
def bteRead (r : BteRef) (addr n : Nat) : BteM (List (Option Byte)) := do
  let s ← get
  match s.btePlace r addr n with
  | none => throw (.stop 4)
  | some (.global va) => bteReadLines r va n (n / lineBytes + 2)
  | some p => return (s.readLocal (r.cmd.crew.getD 0) 0 p n).map some

/-- Reads n bytes as a requester that names no format (12 R295). -/
def bteBytes (r : BteRef) (addr n : Nat) : BteM (List Byte) := do
  let bs ← bteRead r addr n
  let s ← get
  return bs.map s.orFill

/-- Reads a double. -/
def bteDouble (r : BteRef) (addr : Nat) : BteM Nat := do return leValue (← bteBytes r addr 8)

/-- A fabric message of a command (13 R305). -/
def State.bteMessage (s : State) (r : BteRef) (kind target off size va : Nat) (data : List Double) : State :=
  s.newMessage (.slot r.cluster r.slot va) r.cmd.crew kind target off size data r.cmd.job (r.cluster / 12)

/-- Writes within one line of global memory.  A write to another device is posted; a line fetched from there takes it
too. -/
def bteWriteSeg (r : BteRef) (va : Nat) (bs : List Byte) : BteM Unit := do
  let (put, s) := (← get).devPoke r.owner r.cmd.asid va bs
  set s
  match put with
  | .done => pure ()
  | .fault code at_ => throw (.fault code at_)
  | .held => throw .freeze
  | .owned => throw .owned
  | .fabric t off at_ =>
    if r.slot = 16 then
      let _ ← bteLookFar r 1 t off (spanPayload (off % lineBytes) bs)
    else
      bteDo fun s =>
        (s.bteMessage r 1 t (off / lineBytes * lineBytes) lineBytes at_ (spanPayload (off % lineBytes) bs)).mapSlot r.cluster
          r.slot fun k => { k with fetched := k.fetched.map fun (l, old) =>
            if l == at_ / lineBytes && !old.isEmpty then (l, overlay old (at_ % lineBytes) bs) else (l, old) }

/-- Writes global memory line by line; `fuel` bounds the lines. -/
def bteWriteLines (r : BteRef) (va : Nat) (bs : List Byte) : Nat → BteM Unit
  | 0 => pure ()
  | fuel + 1 => do
    if bs.isEmpty then return
    let k := min bs.length (lineBytes - va % lineBytes)
    bteWriteSeg r va (bs.take k)
    bteWriteLines r (va + k) (bs.drop k) fuel

/-- Writes bytes for a command. -/
def bteWrite (r : BteRef) (addr : Nat) (bs : List Byte) : BteM Unit := do
  match (← get).btePlace r addr bs.length with
  | none => throw (.stop 4)
  | some (.global va) => bteWriteLines r va bs (bs.length / lineBytes + 2)
  | some p => bteDo fun s => s.writeLocal (r.cmd.crew.getD 0) 0 p bs

/-- Writes bytes as write n of the piece a command is at, line by line; `fuel` bounds the lines.  A line already written
is not written again when the command resumes (09 R234). -/
def bteWriteOnceLines (r : BteRef) (n va : Nat) (bs : List Byte) : Nat → BteM Unit
  | 0 => pure ()
  | fuel + 1 => do
    if bs.isEmpty then return
    let k := min bs.length (lineBytes - va % lineBytes)
    if !(← bteSlot r).done.contains (n, va) then
      bteWriteSeg r va (bs.take k)
      bteMap r fun x => { x with done := x.done ++ [(n, va)] }
    bteWriteOnceLines r n (va + k) (bs.drop k) fuel

/-- Writes bytes as write n of the piece a command is at (09 R234). -/
def bteWriteOnce (r : BteRef) (n addr : Nat) (bs : List Byte) : BteM Unit := do
  match (← get).btePlace r addr bs.length with
  | none => throw (.stop 4)
  | some (.global va) => bteWriteOnceLines r n va bs (bs.length / lineBytes + 2)
  | some p =>
    if !(← bteSlot r).done.contains (n, addr) then
      bteDo fun s => s.writeLocal (r.cmd.crew.getD 0) 0 p bs
      bteMap r fun x => { x with done := x.done ++ [(n, addr)] }

/-! ### Ownership (08 R198) -/

/-- The lines of some global bytes. -/
def linesOf (addr n : Nat) : List Nat :=
  if n = 0 || 2 ^ 56 < addr + n then []
  else (List.range ((addr + n - 1) / lineBytes - addr / lineBytes + 1)).map (addr / lineBytes + ·)

/-- Asks for ownership of lines, behind every earlier request for them; a line already asked for keeps its place. -/
def State.own (s : State) (owner asid : Nat) (lines : List Nat) : State :=
  { s with owned := s.owned ++ ((dedup lines).map fun l => ⟨asid, l, owner⟩).filter (!s.owned.contains ·) }

/-- Gives up lines. -/
def State.disown (s : State) (owner asid : Nat) (lines : List Nat) : State :=
  { s with owned := s.owned.filter fun o => !(o.owner == owner && o.asid == asid && lines.contains o.line) }

/-- Asks for the lines of bytes whose address a command has only now learnt. (DEDUCED: assumption 92). -/
def bteOwn (r : BteRef) (addr n : Nat) : BteM Unit := bteDo fun s => s.own r.owner r.cmd.asid (linesOf addr n)

/-- Gives up the lines of bytes a command has written for the last time. -/
def bteDisown (r : BteRef) (addr n : Nat) : BteM Unit := bteDo fun s => s.disown r.owner r.cmd.asid (linesOf addr n)

/-- Owns, writes and gives up bytes. -/
def bteStore (r : BteRef) (addr : Nat) (bs : List Byte) : BteM Unit := do
  bteOwn r addr bs.length
  bteWrite r addr bs
  bteDisown r addr bs.length

/-! ### How a command ends -/

/-- The bits and counts an XCPR set are taken back (09 R222; 07 R173). -/
def State.endXcpr (s : State) (cmd : Command) : State :=
  match cmd.kind, cmd.source, cmd.crew with
  | .xcpr, .thread crew member _, some _ =>
    let target := bitsOf (dbl cmd.packet 7) 0 4
    let s := s.mapGang crew target fun g =>
      { g with
        holds := g.holds - 1
        slices := g.slices.map fun sl => { sl with pend := sl.pend.filter fun p => p.fl ≠ cmd.desc } }
    s.mapGang crew member fun g => g.pathReturn 4 cmd.desc
  | _, _, _ => s

/-- A ticketed command has completed (09 R221). -/
def State.endTicket (s : State) (src : Source) (status : Nat) : State :=
  match src with
  | .thread crew member t =>
    s.mapGang crew member fun g =>
      { g with
        tickets := g.tickets.erase t
        err := if g.err = 0 && status ≠ 0 then BitVec.ofNat 32 (status % 256 + 256 * (t % 2 ^ 24)) else g.err }
  | .queue _ _ => s

/-- The slot becomes FREE, and what its command still owns is given up (09 R234, 08 R198). -/
def State.releaseSlot (s : State) (c k : Nat) : State :=
  let sl := s.slot c k
  let s := { s with owned := s.owned.filter fun o => o.owner != slotOwner c k }
  let s := match sl.cmd with
    | some cmd => s.endTicket cmd.source sl.status
    | none => s
  s.mapSlot c k fun _ => freeSlot

/-- A command that ends while it holds a launch slot leaves it to the tasks already pushed. -/
def State.dropLaunch (s : State) (cmd : Command) (sl : Slot) : State :=
  if !(pktType cmd.packet == 2 || pktType cmd.packet == 3) then s
  else
    sl.ranks.foldl (fun s l =>
      let s := s.mapLaunch (some l) fun x => { x with more := false, slot := none }
      { s with
        launches := s.launches.filter fun (i, x) => !(i == l && x.pushed == x.finished)
        replays := s.replays.filter (·.launch != some l) }) s

/-- The work is done: the slot is COMPLETING, its lines given up, or FREE for an XQAP, which writes no record.  While a write
it has posted to another device is not yet performed, it keeps both (08 R194, R198; 09 R223, R234). -/
def State.endCommand (s : State) (r : BteRef) (status : Nat) : State :=
  let s := s.dropLaunch r.cmd (s.slot r.cluster r.slot)
  let n := s.serial
  let quiet := s.slotQuiet r.cluster r.slot
  let s : State := { s with serial := n + 1, owned := s.owned.filter fun o => !quiet || o.owner != r.owner }
  let s := (s.mapSlot r.cluster r.slot fun k =>
    { k with state := .completing, wait := .none, status := status, ranks := [], order := n }).endXcpr r.cmd
  if r.cmd.kind == .xqap && quiet then s.releaseSlot r.cluster r.slot else s

/-- What a halt makes of the slot. -/
def State.haltCommand (s : State) (r : BteRef) : Halt → State
  | .stop st => s.endCommand r st
  | .fail code va =>
    (s.mapSlot r.cluster r.slot fun k => { k with faultCode := code, faultVa := BitVec.ofNat 64 va }).endCommand r 3
  | .fault code va =>
    (s.mapSlot r.cluster r.slot fun k =>
      { k with state := .parked, faultCode := code, faultVa := BitVec.ofNat 64 va }).postEvent
        (faultEvent (slotContext r.cluster r.slot) r.cmd.asid code va)
  | .freeze => s.mapSlot r.cluster r.slot fun k => { k with state := .parked, faultCode := 0, faultVa := 0 }
  | .owned => s
  | .far t off va =>
    (s.bteMessage r 0 t (off / lineBytes * lineBytes) lineBytes va []).mapSlot r.cluster r.slot fun k =>
      { k with state := .waiting, wait := .data }
  | .wait w => s.mapSlot r.cluster r.slot fun k => { k with state := .waiting, wait := w }

/-- Runs a step of a command. -/
def State.runCommand (s : State) (r : BteRef) (body : BteM Unit) : State :=
  match body s with
  | (.ok (), s) => s
  | (.error h, s) => s.haltCommand r h

/-- Ends a command with OK once the writes it has posted to other devices are performed. -/
def bteFinish (r : BteRef) : BteM Unit := do
  if (← get).slotQuiet r.cluster r.slot then throw (.stop 0)

/-- The command of a slot. -/
def State.command? (s : State) (c k : Nat) : Option (Slot × BteRef) :=
  let sl := s.slot c k
  sl.cmd.map fun cmd => (sl, ⟨c, k, cmd⟩)

/-- The command of an ACTIVE slot that a test accepts. -/
def State.active? (s : State) (c k : Nat) (p : Command → Bool) : Option BteRef :=
  match s.command? c k with
  | some (sl, r) => if sl.state == .active && p r.cmd then some r else none
  | none => none

/-! ### Checks of a packet (09 R211 to R213, R222, R224, R226, R227; 10 R245, R252) -/

/-- Fields of a COPY body (09 R212). -/
structure Tile where
  src : Nat
  dst : Nat
  sp : Nat
  dp : Nat
  orow : Int
  ocol : Int
  erows : Nat
  ecols : Nat
  rows : Nat
  cols : Nat
  sf : Nat
  df : Nat
  fillAbsent : Bool
  sat : Bool
  ab : Bool
  allot : Nat
  blk : Nat
  entry : Nat
  param : Nat
  deriving DecidableEq, Repr

/-- The body of a COPY packet. -/
def tileOf (p : List Double) : Tile :=
  let d := dbl p 6
  { src := (dbl p 1).toNat, dst := (dbl p 2).toNat, sp := bitsOf (dbl p 3) 0 32, dp := bitsOf (dbl p 3) 32 32
    orow := signedOf 32 (bitsOf (dbl p 4) 0 32), ocol := signedOf 32 (bitsOf (dbl p 4) 32 32)
    erows := bitsOf (dbl p 5) 0 32, ecols := bitsOf (dbl p 5) 32 32
    rows := bitsOf d 0 12 + 1, cols := bitsOf d 12 12 + 1, sf := bitsOf d 24 4, df := bitsOf d 28 4
    fillAbsent := d.getLsbD 32, sat := d.getLsbD 33, ab := d.getLsbD 34, allot := 32 * 2 ^ bitsOf d 35 2
    blk := 32 * 2 ^ bitsOf d 37 2, entry := match bitsOf d 39 2 with | 0 => 6 | 1 => 7 | _ => 4
    param := (dbl p 7).toNat }

/-- A copy whose source or destination rows are contiguous for at least 2 KiB: a row by itself, or rows that follow one
another (12 R291). (DEDUCED: assumption 102). -/
def Tile.contiguous (t : Tile) : Bool :=
  let run (f pitch : Nat) : Nat :=
    let row := t.cols * fmtWidth f / 8
    if pitch = row then t.rows * row else row
  2048 ≤ run t.sf t.sp || 2048 ≤ run t.df t.dp

/-- Chunks of a tile row. -/
def Tile.chunks (t : Tile) : Nat := t.cols / 32

/-- Whether an address is in a local aperture (07 R162). -/
def isLocal (a : Nat) : Bool := natBits a 56 8 == 0xFE

/-- The formats a transform takes (09 R224). -/
def xfFormats (xf sf df : Nat) : Bool :=
  match xf with
  | 0x00 => (sf ≤ 9 || sf == 11 || sf == 12) && df == sf
  | 0x01 => (sf ≤ 9 || sf == 11) && df == sf
  | 0x02 | 0x03 => sf ≤ 9 && df ≤ 9
  | 0x04 | 0x05 => (sf == 0 || (4 ≤ sf && sf ≤ 9)) && isCodeFmt df
  | 0x06 => 1 ≤ sf && sf ≤ 7 && df == 12
  | 0x07 => sf == 12 && 1 ≤ df && df ≤ 7
  | 0x08 => sf == 10 && 6 ≤ df && df ≤ 8
  | 0x09 | 0x0A => sf ≤ 9 && df == sf
  | 0x0B => isCodeFmt sf && df == 0
  | 0x0C => isCodeFmt sf && 1 ≤ df && df ≤ 9
  | _ => df ≤ 9

/-- Whether a transform's PARAM is zero where it must be (09 R224); an XCPR's PARAM names its registers (09 R222).
(DEDUCED: assumption 28). -/
def xfParam (xf param : Nat) (xcpr : Bool) : Bool :=
  if [0x00, 0x01, 0x02, 0x03, 0x06, 0x07].contains xf then xcpr || param == 0
  else if xf = 0x04 || xf = 0x05 then param < 2 ^ 32
  else true

/-- Whether a transform moves records as such (09 R226). -/
def Tile.compact (t : Tile) (xf : Nat) : Bool := xf == 0 && t.sf == 12

/-- The rules a transform adds for records and reductions (09 R226, R227). -/
def Tile.shapeOk (t : Tile) (xf : Nat) (origin : Bool) : Bool :=
  let records := [0x06, 0x07, 0x0B, 0x0C].contains xf || t.compact xf
  (!records || t.cols % 32 == 0) &&
  (!(xf == 0x06 || t.compact xf) || (isLocal t.dst && t.chunks * t.allot ≤ t.dp && t.dp % 16 == 0)) &&
  (!(xf == 0x07) || (isLocal t.src && origin)) &&
  (!t.compact xf || (origin && natBits t.src 56 8 == 0))

/-- Whether a COPY packet is well formed. -/
def copyOk (p : List Double) (xcpr : Bool) : Bool :=
  let t := tileOf p
  let xf := pktXf p
  let d := dbl p 6
  bitsOf d 35 2 != 3 && bitsOf d 39 2 != 3 && bitsOf d 41 23 == 0 && xfFormats xf t.sf t.df && xfParam xf t.param xcpr &&
    t.shapeOk xf (dbl p 4 == 0 && dbl p 5 == 0)

/-- Whether the body of a packet of another type is well formed. -/
def bodyOk (p : List Double) : Bool :=
  let z (k : Nat) : Bool := dbl p k == 0
  match pktType p with
  | 2 => bitsOf (dbl p 1) 0 6 == 0 && bitsOf (dbl p 2) 0 24 != 0 && bitsOf (dbl p 2) 25 7 == 0 &&
      ((dbl p 2).getLsbD 24 || bitsOf (dbl p 2) 32 32 == 0) && bitsOf (dbl p 3) 24 40 == 0 && z 4 && z 5 && z 6 && z 7
  | 3 => bitsOf (dbl p 1) 0 6 == 0 && bitsOf (dbl p 3) 0 16 ≤ 4096 && bitsOf (dbl p 3) 40 24 == 0 &&
      z 4 && z 5 && z 6 && z 7
  | 4 => bitsOf (dbl p 1) 0 3 == 0 && bitsOf (dbl p 4) 0 3 ≤ 3 && bitsOf (dbl p 4) 3 29 == 0 && z 5 && z 6 && z 7
  | 5 => bitsOf (dbl p 1) 0 3 == 0 && bitsOf (dbl p 3) 1 63 == 0 && z 5 && z 6 && z 7
  | _ => false

/-- The transforms an XCPR accepts (09 R222). -/
def xcprTakes (xf : Nat) : Bool := [0x00, 0x02, 0x07, 0x08, 0x09, 0x0D].contains xf

/-- The status a packet is turned away with at its acceptance: BADPKT, BADXF, or OK (09 R211).
(DEDUCED: assumption 84). -/
def packetStatus (p : List Double) (xcpr : Bool) : Nat :=
  let h := dbl p 0
  if bitsOf h 14 2 != 0 || bitsOf h 60 4 != 0 || bitsOf h 48 3 == 7 then 2
  else if pktType p ≠ 1 then (if pktXf p = 0 && bodyOk p && !xcpr then 0 else 2)
  else if 0x0E ≤ pktXf p || (xcpr && !xcprTakes (pktXf p)) then 1
  else if copyOk p xcpr then 0
  else 2

/-! ### Lines owned from acceptance (08 R198) -/

/-- Whether a transform writes a transposed tile. -/
def xfTransposes (xf : Nat) : Bool := xf == 0x01 || xf == 0x03 || xf == 0x05

/-- The global lines of some destination rows. -/
def Tile.rowLines (t : Tile) (width : Nat) (rows : List Nat) : List Nat :=
  rows.flatMap fun p => linesOf (t.dst + p * t.dp) ((width * fmtWidth t.df + 7) / 8)

/-- The lines a command's packet itself tells it will write: a COPY's destination, a SIGNAL's double. -/
def ownLines (p : List Double) : List Nat :=
  let t := tileOf p
  let xf := pktXf p
  if pktType p = 5 then (if dbl p 1 = 0 then [] else linesOf (dbl p 1).toNat 8)
  else if pktType p ≠ 1 || xf == 0x0A || xf == 0x0B then []
  else if xfTransposes xf then t.rowLines t.rows (List.range t.cols)
  else t.rowLines t.cols (List.range t.rows)

/-! ### Acceptance (09 R218, R234; 19 R460) -/

/-- Puts a command in a slot, where it takes the next place in the order of acceptances, and checks its packet. -/
def State.putAt (s : State) (c k : Nat) (cmd : Command) : State :=
  let r : BteRef := ⟨c, k, cmd⟩
  let n := s.serial
  let s := State.mapSlot { s with serial := n + 1 } c k fun _ =>
    { freeSlot with state := .active, cmd := some cmd, since := s.clock.toNat, order := n }
  let st := if cmd.kind == .xqap then 0 else packetStatus cmd.packet (cmd.kind == .xcpr)
  if st ≠ 0 then s.endCommand r st
  else if cmd.kind == .packet then s.own r.owner cmd.asid (ownLines cmd.packet)
  else s

/-- The source number of a command: 0 for registers. -/
def Command.sourceNo (c : Command) : Nat := match c.source with | .thread .. => 0 | .queue q _ => q + 1

/-- The sources in the order of their turns. -/
def sourceOrder (last : Nat) : List Nat := (List.range 17).map fun i => (last + 1 + i) % 17

/-- Every access that the slices which issued a command made earlier in program order has been performed, the accesses of a
window and those a handler interrupted included: they happen before the command's first access (08 R194 item 5,
21 R474). (DEDUCED: assumption 114). -/
def State.issuerDone (s : State) (cmd : Command) : Bool :=
  match cmd.source with
  | .thread crew member _ => s.flights.all fun f => !(f.crew == crew && f.member == member && f.id < cmd.before) ||
      f.parts.all fun p => !p.state.open_ || !cmd.slices.contains p.slice
  | .queue .. => true

/-- The gang or sequencer role that issued a command. -/
def Command.issuer (cmd : Command) : Option (Nat × Nat) :=
  match cmd.source with
  | .thread crew member _ => some (crew, member)
  | .queue .. => none

/-- The next command to accept, round-robin over registers and queues; of commands from registers, the first of an issuer,
whose requests for lines arrive in issue order (08 R198; 09 R218). -/
def State.nextCommand (s : State) (cluster : Nat) : Option Command :=
  let cl := s.cluster cluster
  (sourceOrder cl.turn).findSome? fun n =>
    if n = 0 then
      cl.inbox.find? fun cmd => s.issuerDone cmd && (cl.inbox.find? fun x => x.issuer == cmd.issuer) == some cmd
    else cl.pending.find? (·.sourceNo == n)

/-! ### Shared queues (09 R214 to R218) -/

/-- A queue descriptor (09 R214). -/
structure QueueDesc where
  base : Nat
  log2 : Nat
  wr : Nat
  rd : Nat
  ok : Bool
  deriving DecidableEq, Repr

/-- The descriptor in 64 bytes.  What its reserved doubles 4 to 7 hold is not looked at. (DEDUCED: assumption 93). -/
def queueDesc (bs : List Byte) : QueueDesc :=
  let ds := doublesOf bs
  let l := bitsOf (dbl ds 1) 0 5
  let sc := bitsOf (dbl ds 1) 5 3
  ⟨(dbl ds 0).toNat, l, (dbl ds 2).toNat, (dbl ds 3).toNat,
    2 ≤ l && l ≤ 16 && 3 ≤ sc && sc ≤ 6 && bitsOf (dbl ds 1) 8 56 == 0 && (dbl ds 0).toNat % (64 * 2 ^ l) == 0⟩

/-- The address of the slot of an index. -/
def QueueDesc.slotAt (d : QueueDesc) (i : Nat) : Nat := d.base + 64 * (i % 2 ^ d.log2)

/-- The stamp an index expects (09 R216). -/
def QueueDesc.stamp (d : QueueDesc) (i : Nat) : Nat := (i / 2 ^ d.log2 + 1) % 65536

/-- The command that stands for a look of a queue. -/
def State.lookRef (s : State) (c q : Nat) : BteRef :=
  let e := s.queueEntry c q
  ⟨c, 16, ⟨.packet, [], .queue q 0, bitsOf e.attrs 0 12, bitsOf e.attrs 12 24, none, none, 0, [], 0⟩⟩

/-- Updates a queue-table entry. -/
def State.mapQueue (s : State) (c q : Nat) (f : QueueEntry → QueueEntry) : State :=
  s.mapCluster c fun cl => { cl with queues := listModify cl.queues q f }

/-- Address of a queue's descriptor. -/
def QueueEntry.addr (e : QueueEntry) : Nat := e.desc.toNat / 64 * 64

/-- Commands of a queue that are not complete. -/
def State.queueLive (s : State) (c q : Nat) : List (SlotState × Command) :=
  let cl := s.cluster c
  let mine (cmd : Command) : Bool := cmd.sourceNo == q + 1
  (cl.slots.filterMap fun k => match k.cmd with
    | some cmd => if mine cmd then some (k.state, cmd) else none
    | none => none) ++ (cl.pending.filter mine).map fun cmd => (.active, cmd)

/-- Whether a packet may start now, after the earlier ones of its queue (09 R218). -/
def State.mayStart (s : State) (c q : Nat) (p : List Double) : Bool :=
  let live := s.queueLive c q
  (live.all fun (st, cmd) => pktType cmd.packet ≠ 4 || st == .completing) && (!(dbl p 0).getLsbD 51 || live.isEmpty)

/-- What reading a queue's descriptor and its next slot gives: the descriptor and the packet, or none for a descriptor
that breaks R214. (DEDUCED: assumption 34). (DESIGN CHOICE: assumption 128). -/
def bteLook (r : BteRef) (addr : Nat) : BteM (Option (QueueDesc × List Double)) := do
  match (← get).btePlace r addr 64 with
  | none => return none
  | some _ =>
    let d := queueDesc (← bteBytes r addr 64)
    if !d.ok || ((← get).btePlace r d.base (64 * 2 ^ d.log2)).isNone then return none
    return some (d, doublesOf (← bteBytes r (d.slotAt d.rd) 64))

/-- The slot at RD_INDEX is consumed: RD_INDEX rises and the packet waits for its context slot.  A packet that an XQAP
appended to this queue stays its crew's and its gang's (19 R461). -/
def bteConsume (r : BteRef) (q : Nat) (addr : Nat) (d : QueueDesc) (p : List Double) : BteM Unit := do
  bteWrite r (addr + 24) (leBytes 8 (d.rd + 1))
  bteDo fun s =>
    let home := s.queueHome r.cmd.asid (r.cluster / 12) addr
    let tag (a : Appended) : Bool := a.queue == home && a.index == d.rd
    let by_ := s.appended.find? tag
    let cmd : Command :=
      { r.cmd with packet := p, source := .queue q d.rd, crew := by_.map (·.crew), gang := by_.bind (·.gang) }
    State.mapCluster { s with appended := s.appended.filter fun a => !tag a } r.cluster fun cl =>
      { cl with pending := cl.pending ++ [cmd] }

/-- A look of a served queue (09 R215, R217, R235; 11 R480). (DESIGN CHOICE: assumption 127). -/
def State.lookQueue (s : State) (c q : Nat) : State :=
  let e := s.queueEntry c q
  let r := s.lookRef c q
  let mine (o : FarOp) : Bool := o.user == r.looker
  let raised := s.farOps.any fun o => mine o && o.kind == 1
  if !e.desc.getLsbD 0 || e.faulted || (s.cluster c).room = 0 || s.farOps.any (fun o => mine o && o.kind == 1 && o.data.isNone) then s
  else
    let s := if raised then s.farDone r.looker else s
    let read (s : State) : State := { s with farOps := s.farOps.filter fun o => !(mine o && o.kind == 0) }
    let body : BteM Bool := do
      match ← bteLook r e.addr with
      | none => return false
      | some (d, p) =>
        if bitsOf (dbl p 0) 16 16 == d.stamp d.rd && (← get).mayStart c q p then bteConsume r q e.addr d p
        return true
    match body s with
    | (.ok true, s) => read s
    | (.ok false, s) | (.error (.stop _), s) => (read s).mapQueue c q fun e => { e with desc := e.desc &&& ~~~1 }
    | (.error (.fault code va), s) =>
      ((read s).mapQueue c q fun e => { e with faulted := true }).postEvent (faultEvent (0x9000 + 16 * c + q) r.cmd.asid code va)
    | (.error _, s) => s

/-- QUEUE_LOOK (09 R217). -/
def execQueueLook (cluster entry : Nat) (s : State) : Host.Outcome State Fault Refusal :=
  .next (s.lookQueue cluster entry)

/-- DOORBELL (09 R215): a hint to look at once. -/
def execDoorbell (cluster entry : Nat) (s : State) : Host.Outcome State Fault Refusal :=
  .next (s.lookQueue cluster entry)

/-- QUEUE_TABLE_WRITE (09 R215): an ENABLE whose descriptor breaks R214 reads back clear. -/
def execQueueTableWrite (cluster entry : Nat) (value : BitVec 64) (s : State) : Host.Outcome State Fault Refusal :=
  .next <|
    let s := (s.farDone (.look cluster entry)).mapQueue cluster entry fun e => { e with desc := value &&& ~~~0x3E, faulted := false }
    if !value.getLsbD 0 then s
    else
      let r := s.lookRef cluster entry
      let addr := (s.queueEntry cluster entry).addr
      let body : BteM Bool := do
        match (← get).btePlace r addr 64 with
        | none => return false
        | some _ => return (queueDesc (← bteBytes r addr 64)).ok
      match body s with
      | (.ok false, s) => s.mapQueue cluster entry fun e => { e with desc := e.desc &&& ~~~1 }
      | (.error (.fault code va), s) =>
        (s.mapQueue cluster entry fun e => { e with faulted := true }).postEvent
          (faultEvent (0x9000 + 16 * cluster + entry) r.cmd.asid code va)
      | (_, s) => s

/-! ### Issue from registers (09 R219 to R223; 16 R376, R377; 18 R456, R457; 21 R474) -/

/-- The registers of a packet (09 R220): sixteen, or eight of the easel. -/
def packetUse (a : BitVec 7) : Use := ⟨a.toNat, 16, 16, 8, 512, true, false⟩

/-- The packet in registers, with xf in place of its XF when k is 0 (09 R219). -/
def packetOf (v : Nat) (x : BitVec 6) (k : BitVec 1) : List Double :=
  let ds := (List.range 8).map fun i => BitVec.ofNat 64 (v / 2 ^ (64 * i))
  if k == 1 then ds
  else
    let h := (dbl ds 0).toNat
    BitVec.ofNat 64 (h - natBits h 8 6 * 256 + x.toNat * 256) :: ds.tail


/-- Issues a command: its ticket, and its place among those waiting for acceptance. -/
def State.giveCommand (s : State) (c : Ctx) (kind : CmdKind) (packet : List Double) (desc : Nat) : Nat × State :=
  let t := (c.gang.ticket + 1).toNat
  let cmd : Command :=
    { kind := kind, packet := packet, source := .thread c.crew.id c.member t, asid := c.asid, job := c.crew.job
      gang := if c.gang.isSeq then none else some c.member, crew := some c.crew.id, desc := desc
      slices := c.sls, before := s.serial }
  let s := s.mapIssuer c fun g => { g with ticket := g.ticket + 1, tickets := g.tickets ++ [t] }
  (t, s.mapCluster c.crew.cluster fun cl => { cl with inbox := cl.inbox ++ [cmd] })

/-- A command issues once a context slot is free (09 R220). -/
def Ctx.commandReady (c : Ctx) (s : State) : Except Stop Unit := ready (0 < (s.cluster c.crew.cluster).room)

/-- The ticket is on its way to its register. -/
def State.sendTicket (s : State) (c : Ctx) (i : Instr) (use : Slice → Use) (size la t : Nat) : State :=
  let o : Launching := { kind := .result, size := size, dst := some use, la := la, start := .performed }
  s.startFlight c i o (c.parts o [] [] (c.lanes.map fun _ => t))

/-- XCP (09 R219 to R221). -/
def execXcp (d a : BitVec 7) (x : BitVec 6) (k : BitVec 1) (l : BitVec 4) : State → Host.Outcome State Fault Refusal :=
  runOp (.xcp d a x k l) { feat := [6], uses := fun _ => [packetUse a, .dst d] } fun c args s =>
    match c.firstVal (args.getD 0 []) with
    | none => .ok (s.retireNext c)
    | some v => do
      c.commandReady s
      let (t, s) := s.giveCommand c .packet (packetOf v x k) 0
      .ok ((s.retireNext c).sendTicket c (.xcp d a x k l) (fun _ => .dst d) 4 l.toNat t)

/-- XQAP (09 R223). -/
def execXqap (d a : BitVec 7) (x : BitVec 6) (k : BitVec 1) : State → Host.Outcome State Fault Refusal :=
  runOp (.xqap d a x k) { feat := [6], uses := fun _ => [packetUse a, .src64 d] } fun c args s =>
    match c.firstVal (args.getD 0 []), c.firstVal (args.getD 1 []) with
    | some v, some desc => do
      c.commandReady s
      .ok ((s.giveCommand c .xqap (packetOf v x k) desc).2.retireNext c)
    | _, _ => .ok (s.retireNext c)

/-- Words of an XCPR's destination stream (09 R222). -/
def xcprWords (p : List Double) : Nat :=
  let t := tileOf p
  t.rows * t.cols * fmtWidth t.df / 32

/-- First destination register of an XCPR. -/
def xcprReg (p : List Double) : Nat := bitsOf (dbl p 7) 4 9

/-- Registers per lane an XCPR writes in its target. -/
def xcprRegs (p : List Double) (g : Gang) : Nat := xcprWords p / g.width

/-- The precise checks of XCPR (09 R222): the target gang. (DESIGN CHOICE: assumption 112). -/
def Ctx.xcprTarget (c : Ctx) (p : List Double) : Except Stop (Nat × Gang) := do
  let t := tileOf p
  let n := bitsOf (dbl p 7) 0 4
  match c.crew.gangs[n]? with
  | none => .error (.of .illegal)
  | some g =>
    need (bitsOf (dbl p 7) 13 51 == 0 && t.dst == 0 && !(t.sf == 12 && pktXf p == 0) &&
      t.rows * t.cols * fmtWidth t.df % (32 * g.width) == 0) .illegal
    need (xcprRegs p g ≤ 64 && xcprReg p + xcprRegs p g ≤ g.allot) .regBound
    .ok (n, g)

/-- An XCPR into its own gang writes its destination registers like any other instruction: it does not issue while one of
them is still to be written (03 R66 item 3). -/
def Ctx.xcprScore (c : Ctx) (p : List Double) (g : Gang) : Bool :=
  c.sls.all fun i => (g.slice i).scoreOk [] (namesFrom .v (xcprReg p) (xcprRegs p g))

/-- The scoreboard bits an XCPR sets in every slice of its target, and its hold on the target's registers. -/
def Gang.awaitXcpr (g : Gang) (fl first n : Nat) : Gang :=
  { g with
    holds := g.holds + 1
    slices := g.slices.map fun sl => { sl with pend := sl.pend ++ (List.range n).map fun k => ⟨.v (first + k), fl, 0⟩ } }

/-- XCPR (09 R222). -/
def execXcpr (d a : BitVec 7) (x : BitVec 6) (k : BitVec 1) (l : BitVec 4) : State → Host.Outcome State Fault Refusal :=
  runOp (.xcpr d a x k l)
    { kind := .vector, feat := [6], uses := fun _ => [packetUse a, .dst d] } fun c args s =>
    match c.firstVal (args.getD 0 []) with
    | none => .ok (s.retireNext c)
    | some v => do
      let p := packetOf v x k
      let (n, g) ← c.xcprTarget p
      ready (n != c.member || c.xcprScore p g)
      ready (c.pathRoom 4)
      c.commandReady s
      let fl := s.serial
      let (t, s) := State.giveCommand { s with serial := fl + 1 } c .xcpr p fl
      let s := s.mapIssuer c fun g => { g with paths := listModify g.paths 4 (· ++ [⟨fl, false⟩]) }
      let s := (s.retireNext c).sendTicket c (.xcpr d a x k l) (fun _ => .dst d) 4 l.toNat t
      .ok (s.mapGang c.crew.id n fun h => h.awaitXcpr fl (xcprReg p) (xcprRegs p g))

/-- The GRAPH packet of a GRPL (16 R376, R377). -/
def grplPacket (graph patch w ticket job : Nat) : List Double :=
  let j := if natBits w 16 24 = 0 then job else natBits w 16 24
  let h := 3 + ticket % 2 ^ 16 * 2 ^ 32 + natBits w 46 3 * 2 ^ 48 + natBits w 50 1 * 2 ^ 52 + natBits w 49 1 * 2 ^ 53 +
    natBits w 40 6 * 2 ^ 54
  [h, graph, patch, natBits w 0 16 + j * 2 ^ 16 + natBits w 51 13 * 2 ^ 51, 0, 0, 0, 0].map (BitVec.ofNat 64)

/-- GRPL (16 R376, R377); a reserved bit of the request word makes the packet malformed. -/
def execGrpl (t a b : BitVec 7) (l : BitVec 4) : State → Host.Outcome State Fault Refusal :=
  runOp (.grpl t a b l) { kind := .vector, uses := fun _ => [.src64 a, .src64 b, .mod64 t] } fun c args s =>
    match c.firstVal (args.getD 0 []), c.firstVal (args.getD 1 []), c.firstVal (args.getD 2 []) with
    | some graph, some patch, some w => do
      c.commandReady s
      let p := grplPacket graph patch w (c.gang.ticket + 1).toNat c.crew.job
      let (n, s) := s.giveCommand c .packet p 0
      .ok ((s.retireNext c).sendTicket c (.grpl t a b l) (fun _ => .dst64 t) 8 l.toNat n)
    | _, _, _ => .ok (s.retireNext c)

/-- Whether a ticket is at most a bound: compared modulo 2^32 within 2^31 (09 R221). -/
def ticketUpTo (t bound : Nat) : Bool := (bound + 2 ^ 32 - t) % 2 ^ 32 < 2 ^ 31

/-- What XWAIT does once the awaited commands have completed. -/
def State.xwaitDone (s : State) (c : Ctx) (d : BitVec 7) : State :=
  if c.lanes.isEmpty then s.retireNext c
  else
    ((s.writeField c (fun _ => .dst d) (c.lanes.map fun _ => c.gang.err.toNat)).mapIssuer c fun g =>
      { g with err := 0 }).retireNext c

/-- XWAIT (09 R221, 18 R456). -/
def execXwait (d a : BitVec 7) : State → Host.Outcome State Fault Refusal :=
  runOp (.xwait d a) { feat := [6], uses := fun _ => [.src a, .dst d] } fun c args s => do
    let newest := c.gang.ticket.toNat
    let v := (c.firstVal (args.getD 0 [])).getD newest
    let bound := if ticketUpTo v newest then v else newest
    ready (c.gang.tickets.all fun t => !ticketUpTo t bound)
    .ok (s.xwaitDone c d)

/-- XWAIT.ALL (09 R221). -/
def execXwaitAll (d : BitVec 7) : State → Host.Outcome State Fault Refusal :=
  runOp (.xwaitAll d) { feat := [6], uses := fun _ => [.dst d] } fun c _ s => do
    ready c.gang.tickets.isEmpty
    .ok (s.xwaitDone c d)

end Sys2Proof.Machine
end

