-- ==== Sys2Proof/Machine/Transform.lean ====
section
/-! DEFINITION. What the transforms of COPY commands compute and write, piece by piece (09 R222, R224 to R227; 04 R106
to R108).  A command does its pieces in rising order and resumes at the first one not yet done. -/

namespace Sys2Proof.Machine
set_option Elab.async false
open Sys2Proof

/-! ### Elements (09 R225) -/

/-- A source element. -/
inductive Elem where
  | code (c : Nat)
  /-- the memory system cannot supply it -/
  | missing
  /-- out of extent -/
  | fill
  deriving DecidableEq, Repr

/-- Reads w bits at a bit address; none if a byte of them cannot be supplied. -/
def bteBits (r : BteRef) (bit w : Nat) : BteM (Option Nat) := do
  let bs ← bteRead r (bit / 8) ((bit % 8 + w + 7) / 8)
  return (allBytes bs).map fun bs => natBits (leValue bs) (bit % 8) w

/-- The source row of a tile row: indexed for gather. -/
def Tile.sourceRow (t : Tile) (xf : Nat) (table : List Byte) (i : Nat) : Int :=
  if xf = 0x09 then signedOf 32 (leValue ((table.drop (4 * i)).take 4)) else t.orow + i

/-- The source element of a tile position. -/
def bteElem (r : BteRef) (t : Tile) (xf : Nat) (table : List Byte) (i j : Nat) : BteM Elem := do
  let row := t.sourceRow xf table i
  let col := t.ocol + j
  if !(0 ≤ row && row < t.erows && 0 ≤ col && col < t.ecols) then return .fill
  let off := row.toNat * t.sp * 8 + col.toNat * fmtWidth t.sf
  if 2 ^ 63 ≤ off / 8 || 2 ^ 64 ≤ t.src + off / 8 then
    bteMap r fun k => { k with wrap := true }
    return .fill
  match ← bteBits r (8 * t.src + off) (fmtWidth t.sf) with
  | some c => return .code c
  | none =>
    bteMap r fun k => { k with absentFill := true }
    return .missing

/-- The code of an element out of extent (09 R212). (DEDUCED: assumption 30). -/
def Tile.fillCode (t : Tile) : Nat := if t.fillAbsent then absentCode (if t.df = 12 then t.sf else t.df) else 0

/-- A result: code, SAT and UFL counts, INVALID. -/
structure Made where
  code : Nat
  sat : Nat := 0
  ufl : Nat := 0
  invalid : Bool := false

/-- The palette of an element, counted over the tile row by row (09 R224). -/
def Tile.paletteOf (t : Tile) (table : List Byte) (i j : Nat) : Nat :=
  let n := if t.entry = 4 then 8 else 16
  leValue ((table.drop ((i * t.cols + j) / t.blk * n)).take n)

/-- Quantising one value under the tile scale (09 R224; 04 R98 step 4). -/
def Tile.quantise (t : Tile) (v : Val) : Made :=
  let q := quantiseBlock t.df false none (decodeVal false 8 (t.param % 2 ^ 32)) [v]
  ⟨q.codes.headD 0, q.sat, q.ufl, q.invalid != 0⟩

/-- The destination element of a transform (09 R224). (DEDUCED: assumption 29). -/
def Tile.result (t : Tile) (xf : Nat) (table : List Byte) (i j : Nat) (e : Elem) : Made :=
  if xf = 0x04 || xf = 0x05 then
    match e with
    | .code c => t.quantise (decodeVal t.ab t.sf c)
    | .missing => t.quantise (decodeVal t.ab t.sf (absentCode t.sf))
    | .fill => t.quantise (if t.fillAbsent then .absent else .zero)
  else
    match e with
    | .fill => { code := t.fillCode }
    | .missing =>
      if xf = 0x08 then { code := absentCode t.df }
      else if xf = 0x02 || xf = 0x03 then
        { code := convVal t.df t.sat false (decodeVal t.ab t.sf (absentCode t.sf)) }
      else { code := absentCode t.sf }
    | .code c =>
      if xf = 0x08 then
        { code := convVal t.df t.sat false (decodeVal t.ab t.entry (paletteEntry (t.paletteOf table i j) t.entry c)) }
      else if xf = 0x02 || xf = 0x03 then { code := convVal t.df t.sat false (decodeVal t.ab t.sf c) }
      else { code := c }

/-- Writes an element of w bits at a bit address; a half byte keeps its neighbour. -/
def bteWriteBits (r : BteRef) (bit w c : Nat) : BteM Unit := do
  if w % 8 = 0 then bteWriteOnce r 0 (bit / 8) (leBytes (w / 8) c)
  else
    let old := leValue (← bteBytes r (bit / 8) 1)
    bteWriteOnce r 0 (bit / 8) (leBytes 1 (old - natBits old (bit % 8) w * 2 ^ (bit % 8) + c * 2 ^ (bit % 8)))

/-- Counts what a piece wrote. -/
def bteCount (r : BteRef) (bytes : Nat) (m : Made) : BteM Unit :=
  bteMap r fun k =>
    { k with
      bytes := k.bytes + bytes
      sat := min (k.sat + m.sat) 0xFFF
      ufl := min (k.ufl + m.ufl) 0xFFF
      invalid := k.invalid || m.invalid }

/-- Writes a destination element of row p, column q, or adds it to an XCPR's stream. -/
def bteEmit (r : BteRef) (t : Tile) (p : Int) (q : Nat) (m : Made) : BteM Unit := do
  let w := fmtWidth t.df
  if r.cmd.kind == .xcpr then
    bteMap r fun k => { k with stream := k.stream ++ [m.code] }
    bteCount r 0 m
  else
    let bit := 8 * (t.dst + p.toNat * t.dp) + q * w
    bteWriteBits r bit w m.code
    bteCount r (if w % 8 = 0 then w / 8 else if bit % 8 = 0 || q = 0 then 1 else 0) m

/-- One element of an element transform. (DESIGN CHOICE: assumption 129). -/
def bteElement (r : BteRef) (t : Tile) (xf : Nat) (table : List Byte) (n : Nat) : BteM Unit := do
  let i := n / t.cols
  let j := n % t.cols
  if xf = 0x0D then bteEmit r t i j { code := t.param % 2 ^ fmtWidth t.df }
  else
    let row : Int := if xf = 0x0A then signedOf 32 (leValue ((table.drop (4 * i)).take 4)) else i
    if xf = 0x0A && !(0 ≤ row && row < t.erows) then return
    let e ← bteElem r t xf table i j
    let m := t.result xf table i j e
    if xfTransposes xf then bteEmit r t j i m else bteEmit r t row j m

/-! ### Records (09 R226) -/

/-- Addresses of a chunk's record and overflow record in a destination or source of some row pitch. -/
def Tile.recordAt (t : Tile) (base pitch foot i c : Nat) : Nat × Nat :=
  (base + i * pitch + c * t.allot, base + t.rows * pitch + (i * t.chunks + c) * foot)

/-- Writes a record and its overflow record. -/
def bteRecord (r : BteRef) (ra oa : Nat) (rec : List Byte) (ovf : Option (List Byte)) : BteM Unit := do
  match ovf with
  | some o =>
    bteWriteOnce r 0 oa o
    bteWriteOnce r 1 ra rec
    bteCount r (rec.length + o.length) { code := 0 }
  | none =>
    bteWriteOnce r 1 ra rec
    bteCount r rec.length { code := 0 }

/-- One chunk of transform 0x06. -/
def bteEncode (r : BteRef) (t : Tile) (n : Nat) : BteM Unit := do
  let i := n / t.chunks
  let c := n % t.chunks
  let cs ← (List.range 32).mapM fun k => do
    match ← bteElem r t 0x06 [] i (32 * c + k) with
    | .code x => return x
    | .missing => return absentCode t.sf
    | .fill => return t.fillCode
  let (ra, oa) := t.recordAt t.dst t.dp (chunkSize t.sf) i c
  let (rec, ovf) := encodeChunk t.sf t.allot 0x78 (oa - ra) cs
  bteRecord r ra oa rec ovf

/-- The codes of a record read from local memory; absent where it is bad or cannot be supplied. -/
def bteDecodeAt (r : BteRef) (t : Tile) (ra : Nat) : BteM (List Nat) := do
  let absent := List.replicate 32 (absentCode t.df)
  let missing : BteM (List Nat) := do
    bteMap r fun k => { k with absentFill := true }
    return absent
  match allBytes (← bteRead r ra t.allot) with
  | none => missing
  | some rec =>
    if recordBad t.df t.allot rec then
      bteMap r fun k => { k with badRec := true }
      return absent
    if !(crumbFields rec).spill then return decodeChunk t.df t.allot rec []
    match allBytes (← bteRead r (ra + 16 * (crumbFields rec).ovf) (chunkSize t.df)) with
    | none => missing
    | some o => return decodeChunk t.df t.allot rec o

/-- One chunk of transform 0x07. -/
def bteDecode (r : BteRef) (t : Tile) (n : Nat) : BteM Unit := do
  let i := n / t.chunks
  let c := n % t.chunks
  let cs ← bteDecodeAt r t (t.recordAt t.src t.sp (chunkSize t.df) i c).1
  if r.cmd.kind == .xcpr then bteMap r fun k => { k with stream := k.stream ++ cs }
  else
    bteWriteOnce r 0 (t.dst + i * t.dp + c * chunkSize t.df) (codeBytes t.df cs)
    bteCount r (chunkSize t.df) { code := 0 }

/-- A translation as a device agent takes it: a first-touch fault is served (11 R480). -/
def bteTranslate (r : BteRef) (va : Nat) : BteM Phys := do
  let s ← get
  if s.frozen r.cmd.asid va then throw .freeze
  let (ph, s) := s.translate r.cmd.asid va .read
  set s
  match ph with
  | .ok ph => return ph
  | .error code =>
    if code = Cause.notPresent.code then
      let (st, s) := s.mapStep r.cmd.asid va
      set s
      if st.isNone then throw .freeze
      if st == some .mapped || st == some .already then
        let (ph, s) := s.translate r.cmd.asid va .read
        set s
        match ph with
        | .ok ph => return ph
        | .error code => throw (.fault code va)
    throw (.fault code va)

/-- Reads the records of a dense line of a crumb page from memory, if every one can be delivered. -/
def State.readRecords (s : State) (asid : Nat) (p : CrumbPage) (off : Nat) :
    Option (List (List Byte × Option (List Byte))) × State :=
  let c := lineBytes / chunkSize p.fmt
  ((List.range c).mapM fun j => (s.chunkRecord asid p (c * (off / lineBytes) + j)).map fun (r, o) =>
    (r, if o.isEmpty then none else some o), s.readLines (s.compactReads asid p (off / lineBytes)))

/-- The records of a dense line's chunks under its page's format, and whether they are newer than memory: encoded from a
dense line that is newer, taken from the write-back buffer, or read from memory (07 R183).  None: some byte of them
cannot be supplied. -/
def State.unitRecords (s : State) (asid : Nat) (p : CrumbPage) (line off : Nat) :
    Option (List (List Byte × Option (List Byte)) × Bool) × State :=
  let memory : Option (List (List Byte × Option (List Byte)) × Bool) × State :=
    let (rs, s) := s.readRecords asid p off
    (rs.map (·, false), s)
  match s.line? asid line, s.writeBack? asid line with
  | some l, _ =>
    if l.poison.isSome then (none, s)
    else if l.dirty then (some (encodeRecords p.fmt p.allot l.data, true), s)
    else memory
  | none, some w =>
    if w.sent then memory
    else if w.poison.isSome then (none, s)
    else if w.form = some (p.fmt, p.allot) then (some (compactRecords p.fmt p.allot w.data, false), s)
    else (some (encodeRecords p.fmt p.allot (denseImage w.form w.data), false), s)
  | none, none => memory

/-- The units of some dense lines, the first at an offset of its page; none where one cannot be supplied. -/
def State.allUnits (s : State) (asid : Nat) (p : CrumbPage) (off : Nat) :
    List Nat → Option (List (List (List Byte × Option (List Byte)) × Bool)) × State
  | [] => (some [], s)
  | line :: rest =>
    match s.unitRecords asid p line off with
    | (none, s) => (none, s)
    | (some u, s) =>
      match s.allUnits asid p (off + lineBytes) rest with
      | (some us, s) => (some (u :: us), s)
      | r => r

/-- A home comes to hold the group of a dense line in compact form under its page's format (07 R182, R183): its units, with
every dense line of it that was newer than memory no longer so.  It stays as it was where some byte cannot be
supplied. -/
def State.compactHome (s : State) (asid : Nat) (p : CrumbPage) (line off : Nat) : Option Line × State :=
  if s.groupForm? asid line == some (p.fmt, p.allot) then (s.compact? asid line, s)
  else
    let base := groupBase p.fmt line
    let lines := (List.range (groupDense p.fmt)).map (base + ·)
    let s := lines.foldl (fun s l => s.denseGroup asid l none) s
    match s.allUnits asid p (off / lineBytes * lineBytes - (line - base) * lineBytes) lines with
    | (none, s) => (none, s)
    | (some us, s) =>
      let s : State := { s with lines := s.lines.map fun m =>
        if m.asid == asid && m.form.isNone && lines.contains m.line then { m with dirty := false } else m }
      let s := s.holdGroup p.fmt p.allot asid base us
      (s.compact? asid line, s)

/-- The current record of a chunk of a crumb page, with its overflow record (07 R183); none where it cannot be supplied. -/
def State.currentRecord (s : State) (asid : Nat) (p : CrumbPage) (va off dist : Nat) :
    Option (List Byte × Option (List Byte)) × State :=
  let line := va / lineBytes
  let place (ro : List Byte × Option (List Byte)) : List Byte × Option (List Byte) :=
    (placeRecord ro.1 dist, if (crumbFields ro.1).spill then ro.2 else none)
  match s.compactHome asid p line off with
  | (some l, s) =>
    let (r, o) := compactRecord p.fmt p.allot l.data (va % lineBytes / chunkSize p.fmt)
    (some (place (r, some o)), s)
  | (none, s) =>
    match s.unitRecords asid p line off with
    | (some (rs, _), s) => ((rs[va % lineBytes / chunkSize p.fmt]?).map place, s)
    | (none, s) =>
      let newer := (s.line? asid line).any (fun l => l.poison.isSome) || (s.writeBack? asid line).any (!·.sent)
      (if newer then none
        else (s.chunkRecord asid p (off / chunkSize p.fmt)).map fun (r, o) =>
          (placeRecord r dist, if o.isEmpty then none else some o), s)

/-- The address of the first chunk of the tile in the group of an address (09 R226). -/
def Tile.groupFirst (t : Tile) (foot va : Nat) : Nat :=
  (((List.range (t.rows * t.chunks)).map fun n => t.src + n / t.chunks * t.sp + n % t.chunks * foot).find?
    fun a => a / (32 * foot) == va / (32 * foot)).getD va

/-- The chunk footprint a compact read goes by: that of the page of the tile's first chunk, kept from there on.
(DEDUCED: assumption 31). -/
def bteFoot (r : BteRef) (t : Tile) : BteM Nat := do
  match (← bteSlot r).table with
  | b :: _ => return b.toNat
  | [] =>
    match ← bteTranslate r t.src with
    | .crumb p off =>
      if off % chunkSize p.fmt ≠ 0 then throw (.stop 2)
      bteMap r fun k => { k with table := [BitVec.ofNat 8 (chunkSize p.fmt)] }
      return chunkSize p.fmt
    | _ => throw (.fail Cause.badPte.code t.src)

/-- One chunk of a compact read (09 R226; 07 R183), under its own translation. (DEDUCED: assumption 32).
(DEDUCED: assumption 31). -/
def bteCompact (r : BteRef) (t : Tile) (n : Nat) : BteM Unit := do
  let i := n / t.chunks
  let c := n % t.chunks
  let foot ← bteFoot r t
  let va := t.src + i * t.sp + c * foot
  bteNeed (va + foot ≤ 2 ^ 56) (.stop 4)
  match ← bteTranslate r va with
  | .crumb p off =>
    bteNeed (p.allot == t.allot) (.fail Cause.badPte.code (t.groupFirst foot va))
    let (ra, oa) := t.recordAt t.dst t.dp foot i c
    let (got, s) := (← get).currentRecord r.cmd.asid p va off (oa - ra)
    set s
    match got with
    | some (rec, o) => bteRecord r ra oa rec o
    | none =>
      bteMap r fun k => { k with absentFill := true }
      bteRecord r ra oa (encodeChunk p.fmt t.allot 0x78 0 (List.replicate 32 (absentCode p.fmt))).1 none
  | _ => throw (.fail Cause.badPte.code (t.groupFirst foot va))

/-! ### Running a transform -/

/-- Does the pieces that are left; `fuel` bounds them. (DEDUCED: assumption 77). -/
def btePieces (r : BteRef) (total : Nat) (f : Nat → BteM Unit) : Nat → BteM Unit
  | 0 => pure ()
  | fuel + 1 => do
    let k := (← bteSlot r).next
    if k < total then
      f k
      bteMap r fun k => { k with next := k.next + 1, done := [] }
      btePieces r total f fuel

/-- Bytes of the table a transform reads before its first element (09 R224). (DEDUCED: assumption 27). -/
def Tile.tableSize (t : Tile) (xf : Nat) : Nat :=
  if xf = 0x09 || xf = 0x0A then 4 * t.rows
  else if xf = 0x08 then (t.rows * t.cols + t.blk - 1) / t.blk * (if t.entry = 4 then 8 else 16)
  else 0

/-- The table, read once; scatter then owns the lines of its rows (08 R198). (DEDUCED: assumption 126). -/
def bteTable (r : BteRef) (t : Tile) (xf : Nat) : BteM (List Byte) := do
  let sl ← bteSlot r
  if t.tableSize xf = 0 || !sl.table.isEmpty then return sl.table
  let bs ← bteBytes r t.param (t.tableSize xf)
  bteMap r fun k => { k with table := bs }
  if xf = 0x0A then
    let rows : List Int := (List.range t.rows).map fun i => signedOf 32 (leValue ((bs.drop (4 * i)).take 4))
    bteDo fun s => s.own r.owner r.cmd.asid
      (t.rowLines t.cols ((rows.filter fun (x : Int) => 0 ≤ x && x < t.erows).map Int.toNat))
  return bs

/-- The register rows of an XCPR's stream (09 R222). -/
def xcprRows (width first : Nat) (ws : List Word) : Nat → List (Nat × List Word)
  | 0 => []
  | n + 1 => (first, ws.take width) :: xcprRows width (first + 1) (ws.drop width) n

/-- After its pieces, an XCPR sends its register rows; any other command ends. -/
def bteEnd (r : BteRef) (t : Tile) (total : Nat) : BteM Unit := do
  let sl ← bteSlot r
  if r.cmd.kind == .xcpr then
    if sl.next = total then
      let words := xcprWords r.cmd.packet
      let ws := splitWords words (packElems (fmtWidth t.df) sl.stream)
      let width := match (← get).crew? (r.cmd.crew.getD 0) with
        | some c => ((c.gangs[bitsOf (dbl r.cmd.packet 7) 0 4]?).map (·.width)).getD 16
        | none => 16
      bteMap r fun k =>
        { k with
          next := total + 1, bytes := 4 * words
          rows := xcprRows width (xcprReg r.cmd.packet) ws (words / width) }
    else if sl.rows.isEmpty then throw (.stop 0)
  else bteFinish r

/-- A COPY command of an element or record transform. -/
def bteCopy (r : BteRef) : BteM Unit := do
  let t := tileOf r.cmd.packet
  let xf := pktXf r.cmd.packet
  let table ← bteTable r t xf
  let (total, f) :=
    if xf = 0x06 then (t.rows * t.chunks, bteEncode r t)
    else if xf = 0x07 then (t.rows * t.chunks, bteDecode r t)
    else if t.compact xf then (t.rows * t.chunks, bteCompact r t)
    else (t.rows * t.cols, bteElement r t xf table)
  btePieces r total f total
  bteEnd r t total

/-- Runs a step of a copy, as a stream where its rows are long enough (12 R291). -/
def State.runCopy (s : State) (r : BteRef) : State :=
  if (tileOf r.cmd.packet).contiguous then (s.asStream fun s => ((), s.runCommand r (bteCopy r))).2
  else s.runCommand r (bteCopy r)

/-- A step of the transforms with an XF. -/
def State.copyStep (s : State) (c k : Nat) (xf : Nat) : State :=
  match s.active? c k fun cmd => cmd.kind != .xqap && pktType cmd.packet == 1 && pktXf cmd.packet == xf with
  | some r => s.runCopy r
  | none => s

/-- COPY, transform 0x00, also of records as such (09 R224, R226). -/
def execCopy (cluster slot : Nat) (s : State) : Host.Outcome State Fault Refusal := .next (s.copyStep cluster slot 0x00)
/-- TRANSPOSE (09 R224). -/
def execTranspose (cluster slot : Nat) (s : State) : Host.Outcome State Fault Refusal := .next (s.copyStep cluster slot 0x01)
/-- CONVERT (09 R224). -/
def execConvert (cluster slot : Nat) (s : State) : Host.Outcome State Fault Refusal := .next (s.copyStep cluster slot 0x02)
/-- CONVERT_TRANSPOSE (09 R224). -/
def execConvertTranspose (cluster slot : Nat) (s : State) : Host.Outcome State Fault Refusal :=
  .next (s.copyStep cluster slot 0x03)
/-- QUANTISE (09 R224). -/
def execQuantise (cluster slot : Nat) (s : State) : Host.Outcome State Fault Refusal := .next (s.copyStep cluster slot 0x04)
/-- QUANTISE_TRANSPOSE (09 R224). -/
def execQuantiseTranspose (cluster slot : Nat) (s : State) : Host.Outcome State Fault Refusal :=
  .next (s.copyStep cluster slot 0x05)
/-- CRUMB_ENCODE (09 R226). -/
def execCrumbEncode (cluster slot : Nat) (s : State) : Host.Outcome State Fault Refusal := .next (s.copyStep cluster slot 0x06)
/-- CRUMB_DECODE (09 R226). -/
def execCrumbDecode (cluster slot : Nat) (s : State) : Host.Outcome State Fault Refusal := .next (s.copyStep cluster slot 0x07)
/-- PALETTE_EXPAND (09 R224). -/
def execPaletteExpand (cluster slot : Nat) (s : State) : Host.Outcome State Fault Refusal := .next (s.copyStep cluster slot 0x08)
/-- GATHER (09 R224). -/
def execGather (cluster slot : Nat) (s : State) : Host.Outcome State Fault Refusal := .next (s.copyStep cluster slot 0x09)
/-- SCATTER (09 R224). -/
def execScatter (cluster slot : Nat) (s : State) : Host.Outcome State Fault Refusal := .next (s.copyStep cluster slot 0x0A)
/-- FILL (09 R224). -/
def execFill (cluster slot : Nat) (s : State) : Host.Outcome State Fault Refusal := .next (s.copyStep cluster slot 0x0D)

/-- XCPR_DATA_ARRIVAL (09 R222): one register of every lane of the target gang; the command ends with its last one. -/
def execXcprDataArrival (cluster slot row : Nat) (s : State) : Host.Outcome State Fault Refusal :=
  .next <|
    match s.command? cluster slot with
    | none => s
    | some (sl, r) =>
      match sl.rows.lookup row with
      | none => s
      | some ws =>
        let s := s.mapGang (r.cmd.crew.getD 0) (bitsOf (dbl r.cmd.packet 7) 0 4) fun g =>
          { ws.zipIdx.foldl (fun g (w, l) => g.writeReg l (.v row) w.toNat) g with
            slices := g.slices.map fun sl => { sl with pend := sl.pend.filter fun p => !(p.fl == r.cmd.desc && p.reg == .v row) } }
        let s := s.mapSlot cluster slot fun k => { k with rows := k.rows.filter (·.1 != row) }
        if sl.rows.length = 1 then s.endCommand r 0 else s

/-! ### Exact reductions (09 R227; 04 R106 to R108) -/

/-- A reduction block, with the buffers of its group. -/
structure Reduction where
  sc8 : Nat
  t : Nat
  n : Nat
  rank : Nat
  exps : Nat
  requant : Bool
  mean : Bool
  outT : Nat
  outSc8 : Nat
  seq : Nat
  bufs : List Nat
  deriving DecidableEq, Repr

/-- Reads the reduction block and the group's doubles. -/
def bteReduction (r : BteRef) (addr : Nat) : BteM Reduction := do
  let ds := doublesOf (← bteBytes r addr 64)
  let n := bitsOf (dbl ds 1) 32 16
  let bufs := doublesOf (← bteBytes r (dbl ds 2).toNat (8 * n))
  return ⟨(dbl ds 0).toNat, bitsOf (dbl ds 1) 0 32, n, bitsOf (dbl ds 1) 48 16, (dbl ds 3).toNat, (dbl ds 4).getLsbD 0,
    (dbl ds 4).getLsbD 1, bitsOf (dbl ds 4) 32 32, (dbl ds 5).toNat, bitsOf (dbl ds 6) 0 32, bufs.map BitVec.toNat⟩

/-- Blocks of a tile. -/
def Tile.blocks (t : Tile) : Nat := t.rows * t.chunks

/-- The exponent of a block that nothing contributes to (04 R106). -/
def noExp : Int := -32768

/-- A rank's exponent of a block (04 R106): none for an absent block, a zero scale, or a T that is zero or not finite, and
that of the magnitude for a negative T. (DESIGN CHOICE: assumption 94). -/
def blockExp (ab : Bool) (sc8 t : Nat) : Int :=
  match (scaleVal ab sc8).mul (decodeVal false 8 t) with
  | .fin _ num den e => if num = 0 then noExp else log2Quot num den + e
  | _ => noExp

/-- Log2 of n, rounded up. -/
def headroom (n : Nat) : Nat := if n ≤ 1 then 0 else Nat.log2 (n - 1) + 1

/-- qbits of 04 R107. -/
def qbits : Nat → Nat
  | 1 => 7 | 2 => 8 | 3 => 3 | 4 => 9 | _ => 16

/-- F of 04 R107. -/
def fracBits (f n : Nat) : Int := 62 - qbits f - headroom n

/-- m of 04 R107. -/
def mantissa (x : Val) (k : Int) : Int :=
  match x with
  | .fin neg num den e => let m : Int := roundAt true num den (e + k) 0; if neg then -m else m
  | _ => 0

/-- What an element contributes: its mantissa, whether it is present, and whether it is a NaN or an infinity.
(DESIGN CHOICE: assumption 119). -/
def contribution (ab : Bool) (f sc8 t c : Nat) (k : Int) : List Int :=
  match dequantise (decodeVal ab f c) (scaleVal ab sc8) (decodeVal false 8 t) with
  | .absent => [0, 0, 0]
  | .nan | .inf _ => [0, 1, 1]
  | x => [mantissa x k, 1, 0]

/-- Sends a rank's contribution to the exchange buffers of its group: those of this device hold it, the others are sent
it under the command's job (09 R227).  A rank for which there is none is sent nothing. -/
def bteContribute (r : BteRef) (b : Reduction) (phase : Nat) (data : Nat → Option (List Int)) : BteM Unit := do
  let places ← b.bufs.zipIdx.mapM fun (buf, k) => do return (buf, ← bteTranslate r buf, data k)
  for (buf, ph, d) in places do
    match d, ph with
    | none, _ => pure ()
    | some d, .fabric t off =>
      bteDo fun s => s.bteMessage r 15 t off (8 * (d.length + 1)) buf
        (BitVec.ofNat 64 (b.seq + 2 ^ 32 * phase + 2 ^ 40 * b.rank) :: d.map fun x => BitVec.ofInt 64 x)
    | some d, _ =>
      bteDo fun s => { s with contribs := s.contribs ++ [⟨r.cmd.asid, buf, b.seq, phase, b.rank, d⟩] }

/-- What an exchange buffer holds is undefined after a command has used it (09 R227; assumption 16). -/
def bteSpoil (r : BteRef) (t : Tile) (b : Reduction) : BteM Unit := do
  let n := (← get).freeCount
  bteDo fun s => { s with freeCount := n + 1 }
  bteStore r (b.bufs.getD b.rank 0)
    (tabulate (64 + 2 * b.n * t.blocks + 16 * t.rows * t.cols) fun i => Config.freeByte n 4 i)

/-- The contributions of one phase in this rank's buffer. -/
def State.contributionsOf (s : State) (r : BteRef) (b : Reduction) (phase : Nat) : List Contribution :=
  s.contribs.filter fun x => x.asid == r.cmd.asid && x.buf == b.bufs.getD b.rank 0 && x.seq == b.seq && x.phase == phase

/-- The contributions of every rank, in rank order. -/
def Reduction.byRank (b : Reduction) (xs : List Contribution) : List (List Int) :=
  (List.range b.n).map fun k => ((xs.find? (·.rank == k)).map (·.data)).getD []

/-- The contributions of a phase have been used. -/
def bteCollect (r : BteRef) (b : Reduction) (phase : Nat) : BteM Unit :=
  bteDo fun s => { s with contribs := s.contribs.filter fun x => !(s.contributionsOf r b phase).contains x }

/-- Scale codes of the tile's blocks. -/
def bteScales (r : BteRef) (t : Tile) (b : Reduction) : BteM (List Nat) := do
  return (← bteBytes r b.sc8 t.blocks).map BitVec.toNat

/-- Whether a reduction block suits its command. -/
def Reduction.ok (b : Reduction) (t : Tile) (sum : Bool) : Bool :=
  b.n != 0 && b.rank < b.n && (!sum || (if b.requant then isCodeFmt t.df else isFloatFmt t.df))

/-- The next stage of a reduction waits for the contributions of so many ranks. -/
def bteAwait (r : BteRef) (next n : Nat) : BteM Unit := do
  bteMap r fun k => { k with next := next, ranks := [] }
  if 0 < n then throw (.wait .reduction)

/-- Transform 0x0B (04 R106). -/
def bteScaleMax (r : BteRef) : BteM Unit := do
  let t := tileOf r.cmd.packet
  let b ← bteReduction r t.param
  bteNeed (b.ok t false) (.stop 2)
  if (← bteSlot r).next = 0 then
    let es := (← bteScales r t b).map fun s => blockExp t.ab s b.t
    bteOwn r b.exps (2 * t.blocks)
    bteSpoil r t b
    bteContribute r b 0 fun _ => some es
    bteAwait r 1 b.n
  bteNeed (b.n ≤ (← bteSlot r).ranks.length || 1 < (← bteSlot r).next) (.wait .reduction)
  if (← bteSlot r).next = 1 then
    let all := (← get).contributionsOf r b 0
    let es := (List.range t.blocks).map fun k => all.foldl (fun m x => max m (x.data.getD k noExp)) noExp
    bteStore r b.exps (es.flatMap fun e => leBytes 2 (e % 65536).toNat)
    bteCollect r b 0
    bteCount r (2 * t.blocks) { code := 0 }
    bteMap r fun k => { k with next := 2 }
  bteFinish r

/-- The blocks' exponents as phase one left them. -/
def bteExps (r : BteRef) (t : Tile) (b : Reduction) : BteM (List Int) := do
  let bs ← bteBytes r b.exps (2 * t.blocks)
  return (List.range t.blocks).map fun k => signedOf 16 (leValue ((bs.drop (2 * k)).take 2))

/-- A rank's mantissas, element by element (04 R107). (DESIGN CHOICE: assumption 111). -/
def bteMantissas (r : BteRef) (t : Tile) (b : Reduction) (scales : List Nat) (es : List Int) : BteM (List Int) := do
  let parts ← (List.range (t.rows * t.cols)).mapM fun n => do
    let c ← match ← bteElem r t 0x0C [] (n / t.cols) (n % t.cols) with
      | .code c => pure c
      | .missing => pure (absentCode t.sf)
      | .fill => pure (if t.fillAbsent then absentCode t.sf else 0)
    return contribution t.ab t.sf (scales.getD (n / 32) 0) b.t c (fracBits t.sf b.n - es.getD (n / 32) noExp)
  return parts.flatten

/-- The blocks that rank k of a group sums (09 R227). -/
def Reduction.share (b : Reduction) (t : Tile) (k : Nat) : List Nat := (List.range t.blocks).filter fun i => i % b.n == k

/-- Ranks that have blocks to sum. -/
def Reduction.owners (b : Reduction) (t : Tile) : Nat := min b.n t.blocks

/-- What a rank's whole tile contributes to the blocks of rank k. -/
def Reduction.cut (b : Reduction) (t : Tile) (ms : List Int) (k : Nat) : Option (List Int) :=
  if k < b.owners t then some ((b.share t k).flatMap fun i => (ms.drop (96 * i)).take 96) else none

/-- M, C and the mark of NaN of every element of some blocks, over all ranks (04 R107). -/
def sumContributions (n : Nat) (xs : List (List Int)) : List Int :=
  (List.range n).map fun i =>
    let v := (xs.map fun x => x.getD i 0).sum
    if i % 3 = 1 then min v 65535 else v

/-- The reduced value of an element from its M, C and mark (04 R107, R108). -/
def reducedVal (mean : Bool) (k : Int) (x : List Int) : Val :=
  let c := (x.getD 1 0).toNat
  if c = 0 then .absent
  else if x.getD 2 0 ≠ 0 then .nan
  else
    let m := x.getD 0 0
    let v : Val := .fin (m < 0) m.natAbs 1 (-k)
    if mean then v.div (.fin false c 1 0) else v

/-- Writes one block of the result: rounded, or requantised with its scale code (04 R108). -/
def bteReduced (r : BteRef) (t : Tile) (b : Reduction) (n : Nat) (vs : List Val) : BteM Unit := do
  let q : Quantised :=
    if b.requant then quantiseBlock t.df true none (decodeVal false 8 b.outT) vs
    else ⟨0, vs.map (convVal t.df t.sat false), 0, 0, 0⟩
  bteWriteOnce r 0 (t.dst + n / t.chunks * t.dp + n % t.chunks * chunkSize t.df) (codeBytes t.df q.codes)
  if b.requant then bteWriteOnce r 1 (b.outSc8 + n) [BitVec.ofNat 8 q.scale]
  bteCount r (chunkSize t.df + (if b.requant then 1 else 0)) { code := 0, sat := q.sat, ufl := q.ufl, invalid := q.invalid != 0 }

/-- Transform 0x0C (04 R107, R108): each block's mantissas go to the rank that sums it, which returns M and C to all ranks;
then every rank writes its tile (09 R227). -/
def bteIntegerSum (r : BteRef) : BteM Unit := do
  let t := tileOf r.cmd.packet
  let b ← bteReduction r t.param
  bteNeed (b.ok t true) (.stop 2)
  let es ← bteExps r t b
  let mine := b.share t b.rank
  if (← bteSlot r).next = 0 then
    let ms ← bteMantissas r t b (← bteScales r t b) es
    if b.requant then bteOwn r b.outSc8 t.blocks
    bteSpoil r t b
    bteContribute r b 1 (b.cut t ms)
    bteAwait r 1 (if mine.isEmpty then 0 else b.n)
  if (← bteSlot r).next = 1 then
    if !mine.isEmpty then
      bteNeed (b.n ≤ (← bteSlot r).ranks.length) (.wait .reduction)
      let sums := sumContributions (96 * mine.length) (b.byRank ((← get).contributionsOf r b 1))
      bteContribute r b 2 fun _ => some sums
      bteCollect r b 1
    bteAwait r 2 (b.owners t)
  bteNeed (b.owners t ≤ (← bteSlot r).ranks.length || 2 < (← bteSlot r).next) (.wait .reduction)
  let xs := (← get).contributionsOf r b 2
  btePieces r (t.blocks + 2) (fun k =>
    let n := k - 2
    let ms := (((xs.find? fun x => x.rank == n % b.n).map (·.data)).getD []).drop (96 * (n / b.n))
    bteReduced r t b n ((List.range 32).map fun j =>
      reducedVal b.mean (fracBits t.sf b.n - es.getD n noExp) ((ms.drop (3 * j)).take 3))) t.blocks
  if (← bteSlot r).next = t.blocks + 2 then
    bteCollect r b 2
    bteMap r fun k => { k with next := t.blocks + 3 }
  bteFinish r

/-- Runs a reduction of a transform. -/
def State.reduceStep (s : State) (c k xf : Nat) (body : BteRef → BteM Unit) : State :=
  match s.active? c k fun cmd => cmd.kind == .packet && pktType cmd.packet == 1 && pktXf cmd.packet == xf with
  | some r => s.runCommand r (body r)
  | none => s

/-- SCALE_MAX (09 R227). -/
def execScaleMax (cluster slot : Nat) (s : State) : Host.Outcome State Fault Refusal :=
  .next (s.reduceStep cluster slot 0x0B bteScaleMax)

/-- ALIGNED_INTEGER_SUM (09 R227). -/
def execAlignedIntegerSum (cluster slot : Nat) (s : State) : Host.Outcome State Fault Refusal :=
  .next (s.reduceStep cluster slot 0x0C bteIntegerSum)

/-- A waiting reduction counts a contribution that its buffer holds; the last one lets it go on. -/
def bteArrived (r : BteRef) (rank : Nat) : BteM Unit := do
  let t := tileOf r.cmd.packet
  let b ← bteReduction r t.param
  let sl ← bteSlot r
  let phase := if pktXf r.cmd.packet = 0x0B then 0 else sl.next
  let all := if phase = 2 then b.owners t else b.n
  if !sl.ranks.contains rank && ((← get).contributionsOf r b phase).any (·.rank == rank) then
    let ranks := sl.ranks ++ [rank]
    bteMap r fun k =>
      if all ≤ ranks.length then { k with ranks := ranks, state := .active, wait := .none } else { k with ranks := ranks }

/-- REDUCTION_CONTRIBUTION (09 R227). -/
def execReductionContribution (cluster slot rank : Nat) (s : State) : Host.Outcome State Fault Refusal :=
  .next <|
    match s.command? cluster slot with
    | some (sl, r) => if sl.state == .waiting && sl.wait == .reduction then s.runCommand r (bteArrived r rank) else s
    | none => s

end Sys2Proof.Machine
end

