-- ==== Sys2Proof/Machine/BteSteps.lean ====
section
/-! DEFINITION. The other commands of the block-transfer engines: LAUNCH and GRAPH (10 R245, R246, R251 to R253),
WAITVAL and SIGNAL (09 R213), XQAP (09 R216, R223); and their completion records, rings and event records (09 R228 to
R234). -/

namespace Sys2Proof.Machine
set_option Elab.async false
open Sys2Proof

/-- Runs a step of the command of an ACTIVE slot whose packet has a TYPE. -/
def State.typeStep (s : State) (c k type_ : Nat) (body : BteRef → BteM Unit) : State :=
  match s.active? c k fun cmd => cmd.kind == .packet && pktType cmd.packet == type_ with
  | some r => s.runCommand r (body r)
  | none => s

/-- Whether n bytes, which lie in one line, are in another device: target and inbound offset. -/
def bteRemote (r : BteRef) (addr n : Nat) : BteM (Option (Nat × Nat)) := do
  match (← get).btePlace r addr n with
  | none => throw (.stop 4)
  | some (.global va) =>
    let (got, s) := (← get).devPeek r.cmd.asid va n
    set s
    match got with
    | .bytes _ => return none
    | .fabric t off _ => return some (t, off)
    | .fault code at_ => throw (.fault code at_)
    | .held => throw .freeze
  | some _ => return none

/-! ### WAITVAL and SIGNAL (09 R213) -/

/-- Whether a WAITVAL's condition holds of a double. -/
def waitHolds (p : List Double) (x : Nat) : Bool :=
  let v := (dbl p 2).toNat
  let y := x &&& (dbl p 3).toNat
  match bitsOf (dbl p 4) 0 3 with
  | 0 => y == v
  | 1 => y != v
  | 2 => v ≤ y
  | _ => y < v

/-- One read of a WAITVAL. -/
def bteWaitval (r : BteRef) : BteM Unit := do
  bteDo fun s => s.mapSlot r.cluster r.slot fun k => { k with readAt := s.clock.toNat }
  let x ← bteDouble r (dbl r.cmd.packet 1).toNat
  if waitHolds r.cmd.packet x then throw (.stop 0) else throw (.wait .value)

/-- WAITVAL: its first read. -/
def execWaitval (cluster slot : Nat) (s : State) : Host.Outcome State Fault Refusal :=
  .next (s.typeStep cluster slot 4 bteWaitval)

/-- A slot that waits for its value. -/
def State.valueWait? (s : State) (c k : Nat) : Option (Slot × BteRef) :=
  (s.command? c k).filter fun (sl, _) => sl.state == .waiting && sl.wait == .value

/-- WAITVAL_READ: a further read, made afresh. (DEDUCED: assumption 33). -/
def execWaitvalRead (cluster slot : Nat) (s : State) : Host.Outcome State Fault Refusal :=
  .next <|
    match s.valueWait? cluster slot with
    | some (_, r) =>
      (s.mapSlot cluster slot fun k => { k with state := .active, wait := .none, reread := false, fetched := [] }).runCommand
        r (bteWaitval r)
    | none => s

/-- Whether the double of a WAITVAL lies in local memory, and holds: a read there takes effect at once. -/
def State.localHolds (s : State) (r : BteRef) : Bool :=
  match s.btePlace r (dbl r.cmd.packet 1).toNat 8 with
  | some (.global _) | none => false
  | some p => waitHolds r.cmd.packet (leValue (s.readLocal (r.cmd.crew.getD 0) 0 p 8))

/-- Whether a WAITVAL's time has run out. -/
def State.waitvalDue (s : State) (sl : Slot) (r : BteRef) : Bool :=
  let t := bitsOf (dbl r.cmd.packet 4) 32 32
  t ≠ 0 && sl.since + 1024 * t ≤ s.clock.toNat

/-- WAITVAL_TIMEOUT: the time has run out, no write of the line is still to be read, and the last read is no more than 4,096
cycles old; a double in local memory is read once more.  So a condition that became true and stayed true is caught. -/
def execWaitvalTimeout (cluster slot : Nat) (s : State) : Host.Outcome State Fault Refusal :=
  .next <|
    match s.valueWait? cluster slot with
    | some (sl, r) =>
      if !s.waitvalDue sl r || sl.reread || sl.readAt + 4096 < s.clock.toNat then s
      else s.endCommand r (if s.localHolds r then 0 else 5)
    | none => s

/-- SIGNAL's write or addition. -/
def bteSignal (r : BteRef) : BteM Unit := do
  let p := r.cmd.packet
  let addr := (dbl p 1).toNat
  if addr = 0 then throw (.stop 0)
  if (← bteSlot r).next = 0 then
    if (dbl p 3).getLsbD 0 then
      match ← bteRemote r addr 8 with
      | some (t, off) => bteDo fun s => s.bteMessage r 14 t off 8 addr [dbl p 2]
      | none =>
        let x ← bteDouble r addr
        bteStore r addr (leBytes 8 (x + (dbl p 2).toNat))
    else bteStore r addr (leBytes 8 (dbl p 2).toNat)
    bteMap r fun k => { k with next := 1, bytes := 8 }
  bteFinish r

/-- SIGNAL. -/
def execSignal (cluster slot : Nat) (s : State) : Host.Outcome State Fault Refusal :=
  .next (s.typeStep cluster slot 5 bteSignal)

/-! ### XQAP (09 R216, R223) -/

/-- The descriptor of an XQAP's queue, if it is usable. (DESIGN CHOICE: assumption 116). -/
def bteQueue (r : BteRef) : BteM QueueDesc := do
  bteNeed (r.cmd.desc % 64 == 0) (.stop 4)
  let d := queueDesc (← bteBytes r r.cmd.desc 64)
  bteNeed (d.ok && ((← get).btePlace r d.base (64 * 2 ^ d.log2)).isSome) (.stop 4)
  return d

/-- The steps of an XQAP: claim an index, wait for its slot, write the packet, then its stamp. -/
def bteAppend (r : BteRef) : BteM Unit := do
  let d ← bteQueue r
  if (← bteSlot r).next = 0 then
    match ← bteRemote r (r.cmd.desc + 16) 8 with
    | some (t, off) =>
      bteDo fun s => s.bteMessage r 14 t off 8 (r.cmd.desc + 16) [1]
      throw (.wait .data)
    | none =>
      bteStore r (r.cmd.desc + 16) (leBytes 8 (d.wr + 1))
      bteMap r fun k => { k with next := 1, index := d.wr }
  let d ← bteQueue r
  let i := (← bteSlot r).index
  if (← bteSlot r).next = 1 then
    bteNeed ((i + 2 ^ 64 - d.rd) % 2 ^ 64 < 2 ^ d.log2) (.wait .slotRoom)
    bteOwn r (d.slotAt i) 64
    bteWrite r (d.slotAt i + 8) (bytesOfDoubles r.cmd.packet.tail)
    bteMap r fun k => { k with next := 2 }
  if (← bteSlot r).next = 2 then
    if (← get).slotQuiet r.cluster r.slot then
      let h := (dbl r.cmd.packet 0).toNat
      bteWrite r (d.slotAt i) (leBytes 8 (h - natBits h 16 16 * 65536 + d.stamp i * 65536))
      bteDisown r (d.slotAt i) 64
      if (← bteRemote r r.cmd.desc 8).isNone then
        bteDo fun s => { s with appended :=
          s.appended ++ [⟨s.queueHome r.cmd.asid (r.cluster / 12) r.cmd.desc, i, r.cmd.crew.getD 0, r.cmd.gang⟩] }
      bteMap r fun k => { k with next := 3 }
      bteFinish r
  else bteFinish r

/-- XQAP_APPEND (09 R223). -/
def execXqapAppend (cluster slot : Nat) (s : State) : Host.Outcome State Fault Refusal :=
  .next <|
    match s.command? cluster slot with
    | some (sl, r) =>
      if r.cmd.kind == .xqap && (sl.state == .active || (sl.state == .waiting && sl.wait == .slotRoom)) then
        (s.mapSlot cluster slot fun k =>
          { k with state := .active, wait := .none, fetched := if sl.wait == .slotRoom then [] else k.fetched }).runCommand
            r (bteAppend r)
      else s
    | none => s

/-! ### Launches (10 R245, R246) -/

/-- The launch slot a command holds. -/
def Slot.launchNo (sl : Slot) : Option Nat := if sl.ranks.isEmpty then none else some (sl.ranks.headD 0)

/-- A launch in use. -/
def State.launch? (s : State) (l : Nat) : Option Launch := tabFind s.launches l

/-- Ends a launch whose tasks have all finished and that pushes no more: its command gets its record (10 R246). -/
def State.settleLaunch (s : State) (l : Nat) : State :=
  match s.launch? l with
  | none => s
  | some x =>
    if x.more || x.pushed ≠ x.finished then s
    else
      match x.slot with
      | none => { s with launches := tabErase s.launches l }
      | some (c, k) =>
        match s.command? c k with
        | none => s
        | some (sl, r) =>
          let s : State := { s with launches := tabErase s.launches l, replays := s.replays.filter (·.launch != some l) }
          let code := if sl.faultCode ≠ 0 then sl.faultCode else x.faultCode
          (s.mapSlot c k fun k => { k with bytes := x.finished, sat := x.faulted, ranks := [], faultCode := code }).endCommand r
            (if x.status ≠ 0 then x.status else if code ≠ 0 then 3 else 0)

/-- Takes a free launch slot for a command, which keeps its number, or waits for one. -/
def bteLaunchSlot (r : BteRef) : BteM Nat := do
  match (← bteSlot r).launchNo with
  | some l => return l
  | none =>
    let s ← get
    match (List.range 1024).find? fun l => (s.launch? l).isNone with
    | none => throw (.wait .launchSlot)
    | some l =>
      bteDo fun s => { s with
        launches := tabInsert s.launches l { noLaunchSlot with more := true, slot := some (r.cluster, r.slot) } }
      bteMap r fun k => { k with ranks := [l] }
      return l

/-- The command of a launch pushes no more tasks; a status is kept if it is the first. -/
def State.stopPushes (s : State) (l status : Nat) : State :=
  (s.mapLaunch (some l) fun x =>
    { x with more := false, status := if x.status = 0 then status else x.status }).settleLaunch l

/-- Reads bytes that must lie in the global aperture (10 R246). -/
def bteGlobal (r : BteRef) (addr n : Nat) : BteM (List Byte) := do
  bteNeed (addr + n ≤ 2 ^ 56) (.stop 4)
  bteBytes r addr n

/-- Pushes task n of a LAUNCH. -/
def bteTask (r : BteRef) (l n : Nat) : BteM Unit := do
  let p := r.cmd.packet
  let rep := (dbl p 2).getLsbD 24
  let addr := (dbl p 1).toNat + (if rep then 0 else 64 * n)
  let rec_ := recordOf (← bteGlobal r addr 64) (recordTag (bitsOf (dbl p 3) 0 24) r.cmd.asid (some l))
  let rec_ := if rep then { rec_ with d1 := rec_.d1 + BitVec.ofNat 64 (n * bitsOf (dbl p 2) 32 32) } else rec_
  bteDo fun s => s.pushRecord rec_ .plain (r.cluster / 12) none (some (r.cluster, r.slot))

/-- Whether a launch still makes pushes. -/
def State.launchOpen (s : State) (l : Nat) : Bool := ((s.launch? l).map (·.more)).getD false

/-- Whether no task of a launch has failed at its pop: one that has ends the launch's further pushes (10 R246). -/
def State.launchPushes (s : State) (l : Nat) : Bool := ((s.launch? l).map fun x => x.more && x.status == 0).getD false

/-- Pushes the tasks that are left; `fuel` bounds them. -/
def bteTasks (r : BteRef) (l count : Nat) : Nat → BteM Unit
  | 0 => pure ()
  | fuel + 1 => do
    let n := (← bteSlot r).next
    if n < count && (← get).launchOpen l then
      bteTask r l n
      bteMap r fun k => { k with next := k.next + 1 }
      bteTasks r l count fuel

/-- A LAUNCH: its tasks go to their queues in ascending order, and then it waits for them. -/
def bteLaunch (r : BteRef) : BteM Unit := do
  let l ← bteLaunchSlot r
  let count := bitsOf (dbl r.cmd.packet 2) 0 24
  bteTasks r l count count
  if (← get).pushes.all fun x => x.slot != some (r.cluster, r.slot) then
    bteMap r fun k => { k with state := .waiting, wait := .launchDone }
    bteDo fun s => s.stopPushes l 0

/-- A LAUNCH or GRAPH that ends with a status pushes no more, and waits for the tasks it has pushed (10 R246). -/
def State.stopLaunch (s : State) (r : BteRef) (status : Nat) : State :=
  match (s.slot r.cluster r.slot).launchNo with
  | some l =>
    (s.mapSlot r.cluster r.slot fun sl => { sl with state := .waiting, wait := .launchDone }).stopPushes l status
  | none => s.endCommand r status

/-- Runs a step of a LAUNCH or GRAPH. -/
def State.runLaunch (s : State) (r : BteRef) (body : BteM Unit) : State :=
  match body s with
  | (.ok (), s) => s
  | (.error (.stop st), s) => s.stopLaunch r st
  | (.error h, s) => s.haltCommand r h

/-- A step of a LAUNCH. -/
def State.launchStep (s : State) (c k : Nat) : State :=
  match s.active? c k fun cmd => cmd.kind == .packet && pktType cmd.packet == 2 with
  | none => s
  | some r => s.runLaunch r (bteLaunch r)

/-- LAUNCH (10 R246). -/
def execLaunch (cluster slot : Nat) (s : State) : Host.Outcome State Fault Refusal := .next (s.launchStep cluster slot)

/-! ### Graphs (10 R251 to R253) -/

/-- A graph header, with the address of its object. -/
structure Graph where
  addr : Nat
  nodes : Nat
  count : Nat
  size : Nat
  params : Nat
  bufs : List Nat
  work : Nat
  accepted : Nat
  finished : Nat
  ok : Bool
  deriving DecidableEq, Repr

/-- Reads the header of a command's graph object. (DEDUCED: assumption 35). -/
def bteGraphAt (r : BteRef) : BteM Graph := do
  let a := (dbl r.cmd.packet 1).toNat
  let ds := doublesOf (← bteBytes r a 64)
  return ⟨a, (dbl ds 0).toNat, bitsOf (dbl ds 1) 0 16, bitsOf (dbl ds 1) 16 32, (dbl ds 2).toNat,
    [(dbl ds 3).toNat, (dbl ds 4).toNat], (dbl ds 5).toNat, bitsOf (dbl ds 6) 0 32, bitsOf (dbl ds 6) 32 32,
    bitsOf (dbl ds 0) 0 7 == 0 && bitsOf (dbl ds 1) 0 16 != 0 && bitsOf (dbl ds 1) 16 3 == 0 && bitsOf (dbl ds 1) 48 16 == 0 &&
      dbl ds 7 == 0⟩

/-- Where a graph object leads: its nodes, parameters, buffers and work area, and its nodes' successors (10 R251). -/
def bteGraphAreas (r : BteRef) : BteM (List Nat) := do
  let g ← bteGraphAt r
  let succs ← (List.range g.count).mapM fun k => return leValue (← bteBytes r (g.nodes + 128 * k + 72) 8)
  return [g.nodes, g.params, g.work] ++ g.bufs ++ succs

/-- The patches of a GRAPH command: offset and value. -/
def btePatches (r : BteRef) : BteM (List (Nat × Double)) := do
  let n := bitsOf (dbl r.cmd.packet 3) 0 16
  if n = 0 then return []
  let ds := doublesOf (← bteBytes r (dbl r.cmd.packet 2).toNat (16 * n))
  return (List.range n).map fun i => ((dbl ds (2 * i)).toNat, dbl ds (2 * i + 1))

/-- The parameter buffer of a replay. -/
def Graph.buf (g : Graph) (n : Nat) : Nat := g.bufs.getD (n % 2) 0

/-- Pushes a node of a replay (10 R253). -/
def bteNode (r : BteRef) (g : Graph) (l n node : Nat) (bs : List Byte) : BteM Unit := do
  let job := bitsOf (dbl r.cmd.packet 3) 16 24
  let rec_ := recordOf bs (recordTag job r.cmd.asid (some l))
  let rec_ := { rec_ with d1 := rec_.d1 + BitVec.ofNat 64 (g.buf n) }
  bteDo fun s => s.pushRecord rec_ (.node (16 * r.cluster + r.slot) node) (r.cluster / 12) none (some (r.cluster, r.slot))

/-- Starts a replay's nodes: WORK is set from PREDS, the replay is entered, and the roots are pushed. -/
def bteRoots (r : BteRef) (g : Graph) (l n : Nat) : BteM Unit := do
  let nodes ← (List.range g.count).mapM fun k => bteGlobal r (g.nodes + 128 * k) 128
  let preds (bs : List Byte) : Nat := natBits (leValue ((bs.drop 64).take 8)) 0 16
  bteStore r g.work (nodes.flatMap fun bs => leBytes 4 (preds bs))
  bteDo fun s => { s with
    replays := s.replays ++ [⟨16 * r.cluster + r.slot, r.cluster, r.slot, g.addr, r.cmd.asid, bitsOf (dbl r.cmd.packet 3) 16 24,
      n, g.count, some l, []⟩] }
  for (bs, k) in nodes.zipIdx do
    if preds bs = 0 then bteNode r g l n k bs

/-- The replay of a command. -/
def State.replay? (s : State) (r : BteRef) : Option Replay := s.replays.find? (·.id == 16 * r.cluster + r.slot)

/-- Updates a replay. -/
def bteReplay (r : BteRef) (f : Replay → Replay) : BteM Unit :=
  bteDo fun s => { s with replays := modifyWhere (·.id == 16 * r.cluster + r.slot) f s.replays }

/-- Steps the successors of a finished node, from one on; `fuel` bounds them. -/
def bteSuccessors (r : BteRef) (g : Graph) (l n node succs addr : Nat) : Nat → Nat → BteM Unit
  | _, 0 => pure ()
  | j, fuel + 1 => do
    if j < succs then
      let k := leValue (← bteBytes r (addr + 2 * j) 2)
      let w := leValue (← bteBytes r (g.work + 4 * k) 4)
      let bs ← if w = 1 then bteGlobal r (g.nodes + 128 * k) 128 else pure []
      bteStore r (g.work + 4 * k) (leBytes 4 (w + 2 ^ 32 - 1))
      if w = 1 && (← get).launchPushes l then bteNode r g l n k bs
      bteReplay r fun x => { x with todo := x.todo.map fun (m, i) => if m = node then (m, j + 1) else (m, i) }
      bteSuccessors r g l n node succs addr (j + 1) fuel

/-- Steps the nodes that have finished; `fuel` bounds them. -/
def bteNodesDone (r : BteRef) (g : Graph) (l n : Nat) : Nat → BteM Unit
  | 0 => pure ()
  | fuel + 1 => do
    match ((← get).replay? r).bind (·.todo.head?) with
    | none => pure ()
    | some (node, j) =>
      let ds := doublesOf (← bteBytes r (g.nodes + 128 * node + 64) 16)
      let succs := bitsOf (dbl ds 0) 16 16
      bteSuccessors r g l n node succs (dbl ds 1).toNat j succs
      bteReplay r fun x => { x with todo := x.todo.tail, left := x.left - 1 }
      bteNodesDone r g l n fuel

/-- A node of a replay that has been pushed has not yet finished. -/
def State.nodesOut (s : State) (replay : Nat) : Bool :=
  let mine (o : Origin) : Bool := match o with | .node n _ => n == replay | _ => false
  s.pushes.any (fun p => mine p.origin) || s.records.any (fun q => mine q.origin) || s.crews.any fun c => mine c.origin

/-- A GRAPH of the same object was accepted earlier and has not taken its replay number yet (10 R253). -/
def State.graphBefore (s : State) (r : BteRef) : Bool :=
  s.clusters.any fun (_, cl) => cl.slots.any fun k =>
    match k.cmd with
    | some cmd => cmd.kind == .packet && pktType cmd.packet == 3 && cmd.asid == r.cmd.asid &&
        dbl cmd.packet 1 == dbl r.cmd.packet 1 && k.state != .free && k.state != .completing && k.next == 0 &&
        k.order < (s.slot r.cluster r.slot).order
    | none => false

/-- An accepted GRAPH takes its replay number, in one step at the home of the object's header (10 R253). -/
def bteNumber (r : BteRef) (g : Graph) : BteM Unit := do
  bteNeed g.ok (.stop 2)
  if (← bteSlot r).next = 0 then
    bteNeed ((← btePatches r).all fun (o, _) => o % 8 == 0 && o < g.size) (.stop 2)
    bteNeed (!(← get).graphBefore r) .owned
    match ← bteRemote r (g.addr + 48) 4 with
    | some (t, off) =>
      bteDo fun s => s.bteMessage r 2 t off 4 (g.addr + 48) [1, 0, 0]
      throw (.wait .data)
    | none =>
      bteStore r (g.addr + 48) (leBytes 4 (g.accepted + 1))
      bteMap r fun k => { k with next := 1, index := g.accepted }

/-- A GRAPH command: it takes its number, a launch slot, its buffer, its turn; then it follows its nodes.  When every node
has finished, FINISHED says so; a replay whose pushes have ended also ends once the nodes it pushed have.
(DEDUCED: assumption 36). -/
def bteGraph (r : BteRef) : BteM Unit := do
  let g ← bteGraphAt r
  bteNumber r g
  let n := (← bteSlot r).index
  let l ← bteLaunchSlot r
  if (← bteSlot r).next = 1 then
    bteNeed ((g.finished + 1 + 2 ^ 32 - n) % 2 ^ 32 < 2 ^ 31) (.wait .graphBuffer)
    if g.size ≠ 0 then
      bteOwn r (g.buf n) g.size
      bteWrite r (g.buf n) (← bteBytes r g.params g.size)
    for (o, v) in ← btePatches r do bteWrite r (g.buf n + o) (leBytes 8 v.toNat)
    bteDisown r (g.buf n) g.size
    bteMap r fun k => { k with next := 2 }
  if (← bteSlot r).next = 2 then
    bteNeed (g.finished == n) (.wait .graphNodes)
    bteNeed ((← get).slotQuiet r.cluster r.slot) (.wait .graphNodes)
    bteRoots r g l n
    bteMap r fun k => { k with next := 3 }
  if (← bteSlot r).next = 3 then
    bteNodesDone r g l n g.count
    if ((← get).replay? r).any (·.left == 0) then
      bteStore r (g.addr + 52) (leBytes 4 (n + 1))
      bteMap r fun k => { k with next := 4 }
    else if !(← get).launchPushes l && !(← get).nodesOut (16 * r.cluster + r.slot) then bteMap r fun k => { k with next := 4 }
  bteMap r fun k => { k with state := .waiting, wait := .launchDone }
  if (← bteSlot r).next = 4 && (← get).slotQuiet r.cluster r.slot then bteDo fun s => s.stopPushes l 0

/-- Runs a GRAPH command on from a wait of the kinds given: what it reads of other devices, it reads afresh, once what it
has written there is performed.  One that pushes no more only waits. -/
def State.graphStep (s : State) (c k : Nat) (ws : List SlotWait) : State :=
  match s.command? c k with
  | none => s
  | some (sl, r) =>
    if r.cmd.kind == .packet && pktType r.cmd.packet == 3 &&
        (sl.state == .active || (sl.state == .waiting && ws.contains sl.wait && s.slotQuiet c k)) &&
        (sl.launchNo.map s.launchOpen).getD true then
      (s.mapSlot c k fun x =>
        { x with state := .active, wait := .none, fetched := if sl.state == .waiting then [] else x.fetched }).runLaunch
          r (bteGraph r)
    else s

/-- Accepts a command in a slot; a GRAPH takes its replay number there, as far as the header can be reached (10 R253). -/
def State.acceptAt (s : State) (c k : Nat) (cmd : Command) : State :=
  let s := s.putAt c k cmd
  match s.active? c k fun cmd => cmd.kind == .packet && pktType cmd.packet == 3 with
  | some r => s.runLaunch r do bteNumber r (← bteGraphAt r)
  | none => s

/-- PACKET_ACCEPT (09 R234, 19 R460). -/
def execPacketAccept (cluster : Nat) (s : State) : Host.Outcome State Fault Refusal :=
  .next <|
    match s.nextCommand cluster, (List.range 16).find? fun k => (s.slot cluster k).state == .free with
    | some cmd, some k =>
      let s := s.mapCluster cluster fun cl =>
        { cl with
          turn := cmd.sourceNo
          inbox := if cmd.sourceNo = 0 then cl.inbox.erase cmd else cl.inbox
          pending := if cmd.sourceNo = 0 then cl.pending else cl.pending.erase cmd }
      s.acceptAt cluster k cmd
    | _, _ => s

/-- GRAPH (10 R253): a command that is ACTIVE, or whose nodes have finished while what it wrote was on its way. -/
def execGraph (cluster slot : Nat) (s : State) : Host.Outcome State Fault Refusal :=
  .next (s.graphStep cluster slot [.launchDone])

/-- GRAPH_BUFFER_READY (10 R253). -/
def execGraphBufferReady (cluster slot : Nat) (s : State) : Host.Outcome State Fault Refusal :=
  .next (s.graphStep cluster slot [.graphBuffer])

/-- GRAPH_NODES_START (10 R253). -/
def execGraphNodesStart (cluster slot : Nat) (s : State) : Host.Outcome State Fault Refusal :=
  .next (s.graphStep cluster slot [.graphNodes])

/-- LAUNCH_SLOT_GRANT (10 R246). -/
def execLaunchSlotGrant (cluster slot : Nat) (s : State) : Host.Outcome State Fault Refusal :=
  .next <|
    match s.command? cluster slot with
    | some (sl, r) =>
      if sl.state == .waiting && sl.wait == .launchSlot then
        if pktType r.cmd.packet = 3 then s.graphStep cluster slot [.launchSlot]
        else (s.mapSlot cluster slot fun k => { k with state := .active, wait := .none }).launchStep cluster slot
      else s
    | none => s

/-- A node of a replay has finished: its successors are stepped at once where the accesses allow it.
(DEDUCED: assumption 36). -/
def State.nodeDone (s : State) (replay node : Nat) : State :=
  let s := { s with replays := modifyWhere (·.id == replay) (fun x => { x with todo := x.todo ++ [(node, 0)] }) s.replays }
  s.graphStep (replay / 16) (replay % 16) [.launchDone]

/-! ### Slots that resume (09 R234) -/

/-- BTE_SLOT_RESUME (09 R234): a command that a freeze has parked goes on. -/
def execBteSlotResume (cluster slot : Nat) (s : State) : Host.Outcome State Fault Refusal :=
  .next <|
    s.mapSlot cluster slot fun k => if k.state == .parked && k.faultCode == 0 then { k with state := .active } else k

/-! ### Completion records and rings (09 R228 to R233) -/

/-- SLOTS_LOG2 -/
def Ring.log2 (r : Ring) : Nat := bitsOf r.conf 0 5

/-- Whether a ring is enabled (09 R233). -/
def Ring.enabled (r : Ring) : Bool := r.base != 0 && 4 ≤ r.log2 && r.log2 ≤ 20

/-- Whether a ring has room for a record (09 R231). -/
def Ring.roomy (r : Ring) : Bool := (r.wr - r.rd).toNat < 2 ^ r.log2

/-- Address of the next record. -/
def Ring.next (r : Ring) : Nat := r.base.toNat + 32 * (r.wr.toNat % 2 ^ r.log2)

/-- PHASE of the next record (09 R228). -/
def Ring.phase (r : Ring) : Nat := (r.wr.toNat / 2 ^ r.log2 + 1) % 2

/-- Updates a ring. -/
def State.mapRing (s : State) (n : Nat) (f : Ring → Ring) : State :=
  { s with rings := tabPut noRing s.rings n (f (s.ring n)) }

/-- Offset of a ring's WR_INDEX in the management window (09 R230). -/
def ringWrAt (n : Nat) : Nat := 0x1000 + 32 * n + 16

/-- A record has been written: WR_INDEX rises, which wakes its line's monitors, and the ring counts it if asked (09 R231,
R232). -/
def State.recordWritten (s : State) (n : Nat) (counted : Bool) : State :=
  (s.mapRing n fun r =>
    { r with
      wr := r.wr + 1
      count := if counted then r.count + 1 else r.count
      since := if counted && r.count = 0 then s.clock.toNat else r.since }).noteWindow (ringWrAt n)

/-- The doubles of a command's completion record (09 R228). -/
def Slot.record (sl : Slot) (p : List Double) (phase : Nat) (clock : Double) : List Double :=
  let ty := pktType p
  let flag (b : Bool) (n : Nat) : Nat := if b then 2 ^ n else 0
  let d0 := sl.status + 2 ^ 8 * (if 1 ≤ ty && ty ≤ 5 then ty else 0) + 2 ^ 12 * (sl.faultCode % 16) +
    2 ^ 16 * bitsOf (dbl p 0) 32 16 + flag sl.wrap 32 + flag sl.absentFill 33 + flag sl.invalid 34 + flag sl.badRec 35 +
    2 ^ 63 * phase
  let d1 := if ty = 2 || ty = 3 then sl.bytes % 2 ^ 40 + 2 ^ 40 * (sl.sat % 2 ^ 24)
    else sl.bytes % 2 ^ 40 + 2 ^ 40 * sl.sat + 2 ^ 52 * sl.ufl
  [BitVec.ofNat 64 d0, BitVec.ofNat 64 d1, sl.faultVa, clock]

/-- The ring of a command. -/
def Command.ring (c : Command) : Nat := bitsOf (dbl c.packet 0) 54 6

/-- A command as it writes its record: under its own ASID, or under SUP_ASID for ring 63 (14 R481). -/
def State.recorder (s : State) (r : BteRef) : BteRef :=
  if r.cmd.ring = 63 then { r with cmd := { r.cmd with asid := s.supAsid } } else r

/-- Whether a completing command has no record to write (09 R210, R223, R231, R233). -/
def State.noRecord (s : State) (sl : Slot) (r : BteRef) : Bool :=
  let ring := s.ring r.cmd.ring
  r.cmd.kind == .xqap || ((dbl r.cmd.packet 0).getLsbD 52 && sl.status == 0) || !ring.enabled || (r.cmd.ring == 63 && s.eventStuck) ||
    (s.btePlace r ring.next 32).isNone

/-- The completion record of a command may go to another device (13 R310, R311, R316). -/
def State.recordFar (s : State) (c k : Nat) (sl : Slot) (cmd : Command) : Bool :=
  let r : BteRef := ⟨c, k, cmd⟩
  !s.noRecord sl r &&
    match (s.translate (s.recorder r).cmd.asid (s.ring cmd.ring).next .write).1 with
    | .ok (.fabric _ _) | .error _ => true
    | .ok _ => false

/-- The record is in its ring: the slot is FREE. -/
def State.recordDone (s : State) (sl : Slot) (r : BteRef) : State :=
  (s.recordWritten r.cmd.ring ((dbl r.cmd.packet 0).getLsbD 53 || sl.status != 0)).releaseSlot r.cluster r.slot

/-- Another command of the same ring has completed earlier, and its record is still to be written: records appear in the
order of completions (09 R231). -/
def State.ringBusy (s : State) (r : BteRef) : Bool :=
  let me := (s.slot r.cluster r.slot).order
  s.clusters.any fun (i, cl) => cl.slots.zipIdx.any fun (sl, j) =>
    sl.state == .completing && sl.order < me &&
      match sl.cmd with
      | some cmd => cmd.ring == r.cmd.ring && !s.noRecord sl ⟨i, j, cmd⟩
      | none => false

/-- Writes the record of a completing command (09 R231), once every write it has posted to another device is performed
(08 R194 item 6). -/
def State.writeRecord (s : State) (sl : Slot) (r : BteRef) : State :=
  let ring := s.ring r.cmd.ring
  if sl.wait == .record then s
  else if sl.wait == .data then (if s.slotQuiet r.cluster r.slot then s.recordDone sl r else s)
  else if !s.slotQuiet r.cluster r.slot then s
  else if s.noRecord sl r then s.releaseSlot r.cluster r.slot
  else if !ring.roomy || s.ringBusy r then s
  else
    match (bteStore (s.recorder r) ring.next (bytesOfDoubles (sl.record r.cmd.packet ring.phase s.clock))) s with
    | (.ok (), s) =>
      if s.slotQuiet r.cluster r.slot then s.recordDone sl r
      else s.mapSlot r.cluster r.slot fun k => { k with wait := .data }
    | (.error (.fault code va), s) =>
      (s.mapSlot r.cluster r.slot fun k => { k with wait := .record }).postEvent
        (faultEvent (slotContext r.cluster r.slot) (s.recorder r).cmd.asid code va)
    | (.error _, s) => s

/-- COMPLETION_RECORD_WRITE (09 R231). -/
def execCompletionRecordWrite (cluster slot : Nat) (s : State) : Host.Outcome State Fault Refusal :=
  .next <|
    match s.command? cluster slot with
    | some (sl, r) => if sl.state == .completing then s.writeRecord sl r else s
    | none => s

/-- Raises a ring's interrupt and starts its count again (09 R232; 13 R321). -/
def State.raiseRing (s : State) (n : Nat) : State :=
  let r := s.ring n
  State.mapRing { s with hostOut := s.hostOut ++ [.interrupt (bitsOf r.conf 5 1) (bitsOf r.conf 8 16)] } n
    fun r => { r with count := 0 }

/-- RING_COAL_COUNT (09 R232): a COAL_COUNT of 0 is treated as 1. -/
def execRingCoalCount (ring : Nat) (s : State) : Host.Outcome State Fault Refusal :=
  .next <|
    let r := s.ring ring
    if r.enabled && 0 < r.count && bitsOf r.conf 24 8 ≤ r.count then s.raiseRing ring else s

/-- RING_COAL_TIME (09 R232). -/
def execRingCoalTime (ring : Nat) (s : State) : Host.Outcome State Fault Refusal :=
  .next <|
    let r := s.ring ring
    let t := bitsOf r.conf 32 24
    if r.enabled && 0 < r.count && t ≠ 0 && r.since + t ≤ s.clock.toNat then s.raiseRing ring else s

/-- RING_RD_INDEX_WRITE (09 R231); a write of ring 63's entry lets its records go on. -/
def execRingRdIndexWrite (ring : Nat) (value : BitVec 64) (s : State) : Host.Outcome State Fault Refusal :=
  .next (State.mapRing { s with eventStuck := s.eventStuck && ring ≠ 63 } ring fun r => { r with rd := value })

/-- EVENT_RECORD_DRAIN (09 R233): the oldest event record goes to ring 63, under SUP_ASID. -/
def execEventRecordDrain (s : State) : Host.Outcome State Fault Refusal :=
  .next <|
    match s.eventBuf with
    | [] => s
    | e :: rest =>
      let ring := s.ring 63
      if !ring.enabled || s.eventStuck || !ring.roomy then s
      else
        match s.place? none none none 0 ring.next 32 with
        | none => s
        | some (.global va) =>
          let bs := bytesOfDoubles [e.d0 ||| BitVec.ofNat 64 (2 ^ 63 * ring.phase), e.d1, e.d2, s.clock]
          match s.agentPoke .events 0 0 s.supAsid va bs with
          | (.done, s) => State.recordWritten { (s.farDone .events) with eventBuf := rest } 63 (e.d0.toNat % 256 != 0)
          | (.fault _ _, s) => { s with eventStuck := true }
          | (.wait, s) => s
        | some p =>
          let bs := bytesOfDoubles [e.d0 ||| BitVec.ofNat 64 (2 ^ 63 * ring.phase), e.d1, e.d2, s.clock]
          State.recordWritten { s.writeLocal 0 0 p bs with eventBuf := rest } 63 (e.d0.toNat % 256 != 0)

end Sys2Proof.Machine
end

