-- ==== Sys2Proof/Machine/Control.lean ====
section
/-! DEFINITION. Control flow (02 R23, R25, R26; 15 R345 to R348; 16 R365, R366, R383, R389, R390; 17 R403, R416, R419,
R420; 18 R443, R459). -/

namespace Sys2Proof.Machine
set_option Elab.async false
open Sys2Proof

/-- The instruction has issued, and each slice of the party moves on in its own way. -/
def State.retireEach (s : State) (c : Ctx) (f : Nat → Slice → Slice) : State :=
  State.mapIssuer { s with issued := s.issued + 1 } c fun g =>
    ({ g with slices := g.slices.mapIdx fun i sl =>
        if c.sls.contains i then f i (sl.countIssue (s.issued + 1)) else sl } : Gang).part c.party (s.issued + 1)

/-- A branch target (03 R63). -/
def branchTarget (base : Double) (o : BitVec 18) : Double := base + 4 * o.signExtend 64

/-- Goes to the target or on to the next instruction. -/
def Slice.goIf (sl : Slice) (taken : Bool) (target : Double) : Slice := if taken then sl.jump target else sl.advance

/-! ### Branches -/

/-- BRA (15 R346). -/
def execBra (o : BitVec 18) : State → Host.Outcome State Fault Refusal :=
  runOp (.bra o) {} fun c _ s => .ok (s.retire c fun sl => sl.jump (branchTarget c.base o))

/-- The condition register of a branch: on the easel all 64 bits (15 R345). -/
def condUse (f : BitVec 7) : Use := ⟨f.toNat, 1, 1, 1, 64, true, false⟩

/-- BRA.Z: each slice whose uniform condition reads zero branches; one with no active lane does not (15 R346). -/
def execBraZ (r : BitVec 7) (o : BitVec 18) : State → Host.Outcome State Fault Refusal :=
  runOp (.braZ r o) { uses := fun _ => [condUse r] } fun c args s =>
    .ok (s.retireEach c fun i sl => sl.goIf (c.firstOf (args.getD 0 []) i == some 0) (branchTarget c.base o))

/-- The active lanes of a slice in which a condition holds, as a mask. -/
def Ctx.trueMask (c : Ctx) (vals : List Nat) (slice : Nat) : BitVec 4 :=
  BitVec.ofNat 4 (((c.lanes.zip vals).filter fun (l, v) => l / 4 == slice && v != 0).map fun (l, _) => 2 ^ (l % 4)).sum

/-- A condition that holds in some but not all of a slice's active lanes. -/
def Slice.mixed (sl : Slice) (t : BitVec 4) : Bool := t != 0 && t != sl.mask

/-- The stack entry that records a slice as it stands (02 R22). -/
def Slice.entry (sl : Slice) (isPath : Bool) (pc : Double) (mask : BitVec 4) : StackEntry :=
  ⟨isPath, pc, mask, sl.fmt, sl.wb, sl.x0, sl.x1⟩

/-- BRC in one slice (02 R23). (DESIGN CHOICE: assumption 105). -/
def Slice.brc (sl : Slice) (t : BitVec 4) (target : Double) : Slice :=
  if sl.mixed t then
    let next := sl.advance
    ({ sl with stack := sl.entry true next.pc (sl.mask &&& ~~~t) :: sl.stack, mask := t } : Slice).jump target
  else sl.goIf (t != 0) target

/-- BRC (15 R347). -/
def execBrc (r : BitVec 7) (o : BitVec 18) : State → Host.Outcome State Fault Refusal :=
  runOp (.brc r o) { kind := .vector, uses := fun _ => [.src r] } fun c args s => do
    let vals := args.getD 0 []
    need (c.sls.all fun i => !(c.gang.slice i).mixed (c.trueMask vals i) || (c.gang.slice i).stack.length < 32) .stack
    .ok (s.retireEach c fun i sl => sl.brc (c.trueMask vals i) (branchTarget c.base o))

/-- CALL (15 R348). -/
def execCall (r : BitVec 7) (o : BitVec 18) : State → Host.Outcome State Fault Refusal :=
  runOp (.call r o) { uses := fun _ => [.dst64 r] } fun c _ s =>
    let s := s.writeField c (fun _ => .dst64 r) (c.lanes.map fun _ => (c.base + 4).toNat)
    .ok (s.retire c fun sl => sl.jump (branchTarget c.base o))

/-- Where RET sends a slice: First, else the party's lowest active lane's value; none for the next instruction
(17 R420). -/
def Ctx.retTarget (c : Ctx) (vals : List Nat) (slice : Nat) : Option Nat :=
  (c.firstOf vals slice).orElse fun _ => c.firstVal vals

/-- RET (17 R420).  Its link is a pair, or a g field; the other special fields are ILLEGAL. -/
def execRet (a : BitVec 7) : State → Host.Outcome State Fault Refusal :=
  runOp (.ret a) { bad := 120 ≤ a.toNat && a.toNat < 124, uses := fun _ => [.src64 a] } fun c args s => do
    let vals := args.getD 0 []
    let ts := c.sls.filterMap (c.retTarget vals)
    let at_ := c.lanes.map fun l => (l, (c.retTarget vals (l / 4)).getD 0)
    if ts.any fun t => natBits t 56 8 ≠ 0 then .error (.trap .address at_)
    if ts.any fun t => t % 4 ≠ 0 then .error (.trap .align at_)
    .ok (s.retireEach c fun i sl => match c.retTarget vals i with
      | some t => sl.jump (BitVec.ofNat 64 t)
      | none => sl.advance)

/-! ### The reconvergence stack (02 R23) -/

/-- RCP (17 R416). -/
def execRcp (o : BitVec 18) : State → Host.Outcome State Fault Refusal :=
  runOp (.rcp o) { kind := .vector } fun c _ s => do
    need (c.sls.all fun i => (c.gang.slice i).stack.length < 32) .stack
    .ok (s.retire c fun sl =>
      ({ sl with stack := sl.entry false (branchTarget c.base o) sl.mask :: sl.stack } : Slice).advance)

/-- A slice with an entry's mask and saved state, the entry popped. -/
def Slice.restore (sl : Slice) (e : StackEntry) (rest : List StackEntry) : Slice :=
  { sl with stack := rest, mask := e.mask, fmt := e.fmt, wb := e.wb, x0 := e.x0, x1 := e.x1 }

/-- JOIN in one slice (02 R23). -/
def Slice.join (sl : Slice) : Slice :=
  match sl.stack with
  | [] => sl
  | e :: rest => if e.isPath then (sl.restore e rest).jump e.pc else (sl.restore e rest).advance

/-- JOIN (16 R383). -/
def execJoin : State → Host.Outcome State Fault Refusal :=
  runOp .join { kind := .vector } fun c _ s => do
    need (c.sls.all fun i => !(c.gang.slice i).stack.isEmpty) .stack
    need (c.sls.all fun i => match (c.gang.slice i).stack with
      | e :: _ => e.isPath || e.pc == c.base
      | [] => true) .joinPc
    .ok (s.retire c Slice.join)

/-- After EXIT, entries pop until one has lanes left; with none the slice has finished (02 R23). -/
def Slice.unwind (sl : Slice) : List StackEntry → Slice
  | [] => { sl with stack := [], finished := true, monitor := none, wake := none }
  | e :: rest =>
    if e.mask = 0 then sl.unwind rest
    else { sl.restore e rest with pc := if e.isPath then e.pc else e.pc + 4 }

/-- EXIT in one slice: the active lanes leave every entry (02 R23). -/
def Slice.exit (sl : Slice) : Slice :=
  ({ sl with mask := 0 } : Slice).unwind (sl.stack.map fun e => { e with mask := e.mask &&& ~~~sl.mask })

/-- Whether matrix instructions of a crew are still in an engine (16 R366). -/
def State.engineBusy (s : State) (crew : Nat) : Bool := s.engines.any fun (_, e) => e.queue.any (·.crew == crew)

/-- EXIT (16 R366). -/
def execExit : State → Host.Outcome State Fault Refusal :=
  runOp .exit { noHandler := true } fun c _ s => do
    ready (!(c.gang.isSeq && s.engineBusy c.crew.id))
    .ok ((s.retire c Slice.exit).settle c)

/-! ### Loops and gathering -/

/-- LOOP in one slice (16 R390). -/
def Slice.loop (sl : Slice) (n len : Nat) : Slice :=
  if n = 0 then { sl with pc := sl.pc + 4 * BitVec.ofNat 64 (len + 2) }
  else
    { sl with
      loops := ⟨sl.pc + 4, sl.pc + 4 * BitVec.ofNat 64 (len + 1), sl.loops.length, [], sl.inHandler⟩ :: sl.loops
      lc := sl.lc.set sl.loops.length (BitVec.ofNat 32 n)
      pc := sl.pc + 4 }

/-- LOOP (16 R389, R390). -/
def execLoop (r : BitVec 7) (len : BitVec 8) : State → Host.Outcome State Fault Refusal :=
  runOp (.loop r len) { uses := fun _ => [.src r] } fun c args s => do
    let count (i : Nat) : Nat := (c.firstOf (args.getD 0 []) i).getD 0
    let starts := c.sls.filter fun i => count i ≠ 0
    let last := c.base + 4 * BitVec.ofNat 64 (len.toNat + 1)
    need (starts.all fun i => match (c.gang.slice i).loops with
      | r :: _ => last.toNat ≤ r.last.toNat
      | [] => true) .illegal
    need (starts.all fun i => (c.gang.slice i).loops.length < 3) .stack
    .ok (s.retireEach c fun i sl => sl.loop (count i) len.toNat)

/-- REGANG (02 R26, 17 R419). -/
def execRegang : State → Host.Outcome State Fault Refusal :=
  runOp .regang { kind := .vector, noHandler := true } fun c _ s =>
    if c.gang.liveSlices.all c.sls.contains then .ok (s.retireNext c)
    else .ok ((s.retire c fun sl => { sl with wait := .regang }).settle c)

/-! ### Trap, return, nop and yield -/

/-- TRAP (18 R443): TCAUSE.INFO holds the immediate. -/
def execTrap (i : BitVec 18) (s : State) : Host.Outcome State Fault Refusal :=
  match s.issuer? with
  | none => .fault .noIssuer
  | some c =>
    match c.check (.trap i) {} with
    | .error e => s.outcome c (opcodeOf (.trap i)) (.error e)
    | .ok _ => .next (s.takeTrap c .trap [] i.toNat)

/-- Results bound for handler registers are dropped with them (11 R273), and instructions still parked report again
(11 R275), but for those an EMPTY has escalated, on which the party waits (11 R278). -/
def Flight.afterEret (c : Ctx) (f : Flight) : Flight :=
  if f.crew == c.crew.id && f.member == c.member then
    let keep (d : Nat × RegName) : Bool := match d.2 with | .h _ => false | _ => true
    let f : Flight := { f with parts := f.parts.map fun p =>
      if (c.sls.contains (p.slice)) then { p with dst := p.dst.filter keep } else p }
    if !f.held && f.parts.any Part.isParked then { f with reported := dedup (f.reported ++ f.slices.filter c.sls.contains) } else f
  else f

/-- ERET (16 R365, 11 R275). -/
def execEret : State → Host.Outcome State Fault Refusal :=
  runOp .eret { handlerOnly := true } fun c _ s => do
    need (c.sls.all fun i => (c.gang.slice i).stack.length == (c.gang.slice i).savedDepth) .stack
    let s := (s.retire c Slice.eret).mapIssuer c fun g =>
      { g with lanes := g.lanes.mapIdx fun l ln => if c.sls.contains (l / 4) then ln.loseHandlerRegs else ln }
    .ok { s with flights := s.flights.map (Flight.afterEret c) }

/-- ERET.ABANDON (16 R365, 11 R287). (DESIGN CHOICE: assumption 117). -/
def execEretAbandon : State → Host.Outcome State Fault Refusal :=
  runOp .eretAbandon { handlerOnly := true } fun c _ s => do
    need (c.sls.all fun i => (c.gang.slice i).stack.length == (c.gang.slice i).savedDepth) .stack
    .ok (State.abandonCrew { s with issued := s.issued + 1 } c.crew.id Cause.abandon.code 0)

/-- NOP (17 R403). -/
def execNop : State → Host.Outcome State Fault Refusal := runOp .nop {} fun c _ s => .ok (s.retireNext c)

/-- Whether another gang shares the physical slices of the issuing one (02 R24). -/
def State.sharesGroup (s : State) (c : Ctx) : Bool :=
  s.crews.any fun k => k.state == .running && k.cluster == c.crew.cluster &&
    (List.range k.gangs.length).any fun m =>
      !(k.id == c.crew.id && m == c.member) && match k.gangs[m]? with
        | some g => !g.finished && g.core == c.gang.core && g.group == c.gang.group
        | none => false

/-- YLD (18 R459): the party is not ready until another of its group has issued, or for 32 cycles. -/
def execYld : State → Host.Outcome State Fault Refusal :=
  runOp .yld {} fun c _ s =>
    let s' := s.retireNext c
    .ok (if c.gang.isSeq || !s.sharesGroup c then s'
      else s'.mapIssuer c fun g => g.mapSlices c.sls fun sl => { sl with wait := .yld (s.clock.toNat + 32) })

/-- YLD_EXPIRE (18 R459). -/
def execYldExpire (crew member party : Nat) (s : State) : Host.Outcome State Fault Refusal :=
  .next <| s.mapGang crew member fun g => g.mapSlices (g.partySlices party) fun sl =>
    match sl.wait with
    | .yld til => if til ≤ s.clock.toNat then { sl with wait := .none } else sl
    | _ => sl

end Sys2Proof.Machine
end

