-- ==== Sys2Proof/Machine/Packed.lean ====
section
/-! DEFINITION. Element-wise moves and packed dot products: COAL, MKAB, TSTA, PACK, UNPK, DOT8, DOT4 (15 R355, R362,
17 R399, R405, 18 R444, R451, R452). -/

namespace Sys2Proof.Machine
set_option Elab.async false
open Sys2Proof

/-- The format a `.a` bit selects: A_FMT when set, B_FMT otherwise (15 R355, 17 R399, 18 R444). -/
def pickFmt (x : BitVec 1) (sl : Slice) : Nat := if x == 1 then fmtA sl.fmt else fmtB sl.fmt

/-- A source holding elements of a format: a pair for FP64 (15 R355). -/
def elemSrc (f : Nat) (r : BitVec 7) : Use := if f = 9 then .src64 r else .src r

/-- A destination holding elements of a format. -/
def elemDst (f : Nat) (r : BitVec 7) : Use := if f = 9 then .dst64 r else .dst r

/-- Elements of format f built one by one. -/
def elemsOf (f : Nat) (g : Nat → Nat) : Nat :=
  let w := fmtWidth f
  packElems w ((List.range (elemsPerWord w)).map g)

/-- COAL: absent elements of a replaced by those of b (15 R355). -/
def coalVal (absentOn : Bool) (f x y : Nat) : Nat :=
  let w := fmtWidth f
  elemsOf f fun k => if absentOn && elem x w k == absentCode f then elem y w k else elem x w k

/-- MKAB: elements made absent under a mask (17 R399). -/
def mkabVal (inv : Bool) (f x m : Nat) : Nat :=
  elemsOf f fun k => if m.testBit k != inv then absentCode f else elem x (fmtWidth f) k

/-- TSTA: the mask of absent elements (18 R444). -/
def tstaVal (absentOn inv : Bool) (f x : Nat) : Nat :=
  let w := fmtWidth f
  packElems 1 ((List.range (elemsPerWord w)).map fun k =>
    boolNat ((absentOn && elem x w k == absentCode f) != inv))

/-- COAL (15 R355). -/
def execCoal (d a b : BitVec 7) (x : BitVec 1) : State → Host.Outcome State Fault Refusal :=
  laneOp (.coal d a b x)
    { fmtOk := fun sl => pickFmt x sl ≠ 10
      uses := fun sl => let f := pickFmt x sl; [elemSrc f a, elemSrc f b, elemDst f d] }
    (fun sl => elemDst (pickFmt x sl) d)
    (fun sl xs => coalVal (fmtAbsent sl.fmt) (pickFmt x sl) (xs.getD 0 0) (xs.getD 1 0))

/-- MKAB (17 R399). -/
def execMkab (d a b : BitVec 7) (v x : BitVec 1) : State → Host.Outcome State Fault Refusal :=
  laneOp (.mkab d a b v x)
    { fmtOk := fun sl => pickFmt x sl ≠ 10
      uses := fun sl => let f := pickFmt x sl; [elemSrc f a, .src b, elemDst f d] }
    (fun sl => elemDst (pickFmt x sl) d)
    (fun sl xs => mkabVal (v == 1) (pickFmt x sl) (xs.getD 0 0) (xs.getD 1 0))

/-- TSTA (18 R444). -/
def execTsta (d a : BitVec 7) (v x : BitVec 1) : State → Host.Outcome State Fault Refusal :=
  laneOp (.tsta d a v x)
    { fmtOk := fun sl => pickFmt x sl ≠ 10
      uses := fun sl => [elemSrc (pickFmt x sl) a, .dst d] }
    (fun _ => .dst d)
    (fun sl xs => tstaVal (fmtAbsent sl.fmt) (v == 1) (pickFmt x sl) (xs.getD 0 0))

/-- Whether a format's elements are 4, 8 or 16 bits wide (17 R405). -/
def packable (f : Nat) : Bool := fmtWidth f == 4 || fmtWidth f == 8 || fmtWidth f == 16

/-- The width PACK and UNPK read: A_FMT's, or B_FMT's with `.b`. -/
def packFmt (k : BitVec 1) (sl : Slice) : Nat := if k == 1 then fmtB sl.fmt else fmtA sl.fmt

/-- PACK: halves interleaved (17 R405). -/
def packVal (w hi x y : Nat) : Nat :=
  let h := 32 / w / 2
  packElems w ((List.range h).map (fun k => elem x w (k + h * hi)) ++
    (List.range h).map fun k => elem y w (k + h * hi))

/-- PACK (17 R405). -/
def execPack (d a b : BitVec 7) (k h : BitVec 1) : State → Host.Outcome State Fault Refusal :=
  laneOp (.pack d a b k h)
    { kind := .vector, fmtOk := fun sl => packable (packFmt k sl), uses := fun _ => [.src a, .src b, .dst d] }
    (fun _ => .dst d)
    (fun sl xs => packVal (fmtWidth (packFmt k sl)) h.toNat (xs.getD 0 0) (xs.getD 1 0))

/-- UNPK.lo and .hi: elements widened (18 R451). -/
def unpkVal (w mode : Nat) (sign : Bool) (x : Nat) : Nat :=
  let h := 32 / w / 2
  packElems (2 * w) ((List.range h).map fun k =>
    let e := elem x w (k + h * mode)
    if sign then (signedOf w e % 2 ^ (2 * w)).toNat else e)

/-- UNPK, modes 0 and 1 (18 R451). -/
def execUnpk (d a : BitVec 7) (b s m : BitVec 1) : State → Host.Outcome State Fault Refusal :=
  laneOp (.unpk d a b s m)
    { kind := .vector, fmtOk := fun sl => packable (packFmt b sl), uses := fun _ => [.src a, .dst d] }
    (fun _ => .dst d)
    (fun sl xs => unpkVal (fmtWidth (packFmt b sl)) m.toNat (s == 1) (xs.getD 0 0))

/-- An entry of a palette in a destination format, unscaled (04 R103). -/
def expandCode (fmt : Word) (palette code : Nat) : Nat :=
  convVal (fmtB fmt) (fmtSat fmt) false
    (decodeVal (fmtAbsent fmt) (fmtCbEntry fmt) (paletteEntry palette (fmtCbEntry fmt) code))

/-- UNPK.cb: codes of a bit stream expanded through the palette (18 R452). -/
def unpkCbVal (fmt : Word) (palette x o : Nat) : Nat :=
  let w := fmtWidth (fmtB fmt)
  packElems w ((List.range (elemsPerWord w)).map fun m => expandCode fmt palette (natBits x (o + 3 * m) 3))

/-- UNPK, mode 2 (18 R452); it reads the gang's palette register (15 R351). -/
def execUnpkCb (d a b : BitVec 7) : State → Host.Outcome State Fault Refusal :=
  runOp (.unpkCb d a b)
    { kind := .vector
      extraRd := [.palette]
      fmtOk := fun sl => fmtA sl.fmt == 10 && (fmtB sl.fmt == 6 || fmtB sl.fmt == 7 || fmtB sl.fmt == 8) &&
        fmtScale sl.fmt == 0
      uses := fun _ => [.src64 a, .src b, .dst d] }
    fun c args s =>
      let vals := c.perLane args fun sl xs =>
        unpkCbVal sl.fmt c.gang.palette.toNat (xs.getD 0 0) (natBits (xs.getD 1 0) 0 5)
      .ok ((s.writeField c (fun _ => .dst d) vals).retireNext c)

/-- PackedDot under a slice's FMT (04 R105). -/
def dotVal (w n f : Nat) (sl : Slice) (x y z : Nat) : Nat :=
  let ab := fmtAbsent sl.fmt
  let accFP := f % 2 == 1
  packedDot accFP (f / 2 == 1) (decodeVal ab (if accFP then 8 else 0) z) <|
    (List.range n).map fun k => (decodeVal ab (fmtA sl.fmt) (elem x w k), decodeVal ab (fmtB sl.fmt) (elem y w k))

/-- DOT8 (15 R362). -/
def execDot8 (d a b : BitVec 7) (f : BitVec 2) : State → Host.Outcome State Fault Refusal :=
  laneOp (.dot8 d a b f)
    { kind := .vector, feat := [2]
      fmtOk := fun sl => dot8Accepts (f.toNat % 2 == 1) (fmtA sl.fmt) (fmtB sl.fmt)
      uses := fun _ => [.src a, .src b, .mod d] }
    (fun _ => .dst d) fun sl xs => dotVal 8 4 f.toNat sl (xs.getD 0 0) (xs.getD 1 0) (xs.getD 2 0)

/-- DOT4 (15 R362). -/
def execDot4 (d a b : BitVec 7) (f : BitVec 2) : State → Host.Outcome State Fault Refusal :=
  laneOp (.dot4 d a b f)
    { kind := .vector, feat := [2]
      fmtOk := fun sl => fmtA sl.fmt == 3 && fmtB sl.fmt == 3
      uses := fun _ => [.src a, .src b, .mod d] }
    (fun _ => .dst d) fun sl xs => dotVal 4 8 f.toNat sl (xs.getD 0 0) (xs.getD 1 0) (xs.getD 2 0)

end Sys2Proof.Machine
end

