-- ==== Sys2Proof/Machine/Float.lean ====
section
/-! DEFINITION. Floating-point arithmetic and comparison (16 R367 to R370): each element exactly, rounded once. -/

namespace Sys2Proof.Machine
set_option Elab.async false
open Sys2Proof

/-- The format a precision field names (16 R367). -/
def precFmt (p : BitVec 2) : Nat :=
  match p.toNat with | 0 => 8 | 1 => 6 | 2 => 7 | _ => 9

/-- A BF16 subnormal is written as zero of its sign (04 R85). -/
def flushBf16 (f c : Nat) : Nat := if f = 6 && c / 0x80 % 0x100 == 0 then c / 0x8000 * 0x8000 else c

/-- The sum, difference or product of two elements, or absent, or NaN (16 R368). -/
def floatBin (g : Val → Val → Val) (ab : Bool) (f x y : Nat) : Nat :=
  roundVal f (g (decodeVal ab f x) (decodeVal ab f y))

/-- x × y + z rounded once (16 R368). -/
def floatFma (ab : Bool) (f x y z : Nat) : Nat :=
  let z := decodeVal ab f z
  let p := (decodeVal ab f x).mul (decodeVal ab f y)
  roundVal f (if z == .absent then .absent else p.add z)

/-- The order of FMIN and FMAX puts −0 below +0 (16 R369). -/
def Val.below (x y : Val) : Bool := x.lt y || (x.eqv y && x.isNeg && !y.isNeg)

/-- FMIN and FMAX of two elements: the chosen operand's bits (16 R369). -/
def floatPick (greater ab : Bool) (f x y : Nat) : Nat :=
  let u := decodeVal ab f x
  let v := decodeVal ab f y
  if u == .absent || v == .absent then absentCode f
  else if u == .nan && v == .nan then canonNan f
  else if u == .nan then flushBf16 f y
  else if v == .nan then flushBf16 f x
  else flushBf16 f (if v.below u != greater then y else x)

/-- The shape of the two-operand instructions. -/
def floatOp (i : Instr) (d a b : BitVec 7) (p : BitVec 2) (g : Bool → Nat → Nat → Nat → Nat) :
    State → Host.Outcome State Fault Refusal :=
  let f := precFmt p
  laneOp i { uses := fun _ => [elemSrc f a, elemSrc f b, elemDst f d] } (fun _ => elemDst f d) fun sl xs =>
    elemsOf f fun k => g (fmtAbsent sl.fmt) f (elem (xs.getD 0 0) (fmtWidth f) k) (elem (xs.getD 1 0) (fmtWidth f) k)

/-- FADD (16 R368). -/
def execFadd (d a b : BitVec 7) (p : BitVec 2) : State → Host.Outcome State Fault Refusal :=
  floatOp (.fadd d a b p) d a b p (floatBin Val.add)
/-- FSUB (16 R368). -/
def execFsub (d a b : BitVec 7) (p : BitVec 2) : State → Host.Outcome State Fault Refusal :=
  floatOp (.fsub d a b p) d a b p (floatBin fun x y => x.add y.negate)
/-- FMUL (16 R368). -/
def execFmul (d a b : BitVec 7) (p : BitVec 2) : State → Host.Outcome State Fault Refusal :=
  floatOp (.fmul d a b p) d a b p (floatBin Val.mul)
/-- FMIN (16 R369). -/
def execFmin (d a b : BitVec 7) (p : BitVec 2) : State → Host.Outcome State Fault Refusal :=
  floatOp (.fmin d a b p) d a b p (floatPick false)
/-- FMAX (16 R369). -/
def execFmax (d a b : BitVec 7) (p : BitVec 2) : State → Host.Outcome State Fault Refusal :=
  floatOp (.fmax d a b p) d a b p (floatPick true)

/-- FFMA (16 R368); d is read as the addend. -/
def execFfma (d a b : BitVec 7) (p : BitVec 2) : State → Host.Outcome State Fault Refusal :=
  let f := precFmt p
  let w := fmtWidth f
  laneOp (.ffma d a b p)
    { uses := fun _ => [elemSrc f a, elemSrc f b, if f = 9 then .mod64 d else .mod d] } (fun _ => elemDst f d)
    fun sl xs => elemsOf f fun k =>
      floatFma (fmtAbsent sl.fmt) f (elem (xs.getD 0 0) w k) (elem (xs.getD 1 0) w k) (elem (xs.getD 2 0) w k)

/-- FCMP (16 R370). -/
def execFcmp (d a b : BitVec 7) (x : BitVec 1) (c : BitVec 3) : State → Host.Outcome State Fault Refusal :=
  let f := if x == 1 then 9 else 8
  laneOp (.fcmp d a b x c) { uses := fun _ => [elemSrc f a, elemSrc f b, .dst d] } (fun _ => .dst d) fun sl xs =>
    boolNat (fcmpCond c.toNat (decodeVal (fmtAbsent sl.fmt) f (xs.getD 0 0)) (decodeVal (fmtAbsent sl.fmt) f (xs.getD 1 0)))

end Sys2Proof.Machine
end

