-- ==== Sys2Proof/Machine/Cross.lean ====
section
/-! DEFINITION. Instructions across the active lanes of the party: SHFL, VOTE, RDX, SCAN (02 R29; 17 R417, R418, R424;
18 R453). -/

namespace Sys2Proof.Machine
set_option Elab.async false
open Sys2Proof

/-! ### SHFL (17 R424) -/

/-- The source lane of a lane, if it lies in the gang. -/
def shflSource (mode w l n : Nat) : Option Nat :=
  match mode with
  | 0 => some (n % w)
  | 1 => if n ≤ l then some (l - n) else none
  | 2 => if l + n < w then some (l + n) else none
  | _ => some (l ^^^ (n % w))

/-- The value of a source lane of the party, or the lane's own. -/
def shflVal (mode w : Nat) (vals : List (Nat × Nat)) (l n own : Nat) : Nat :=
  ((shflSource mode w l n).bind fun k => vals.lookup k).getD own

/-- SHFL (17 R424). -/
def execShfl (d a b : BitVec 7) (m : BitVec 2) : State → Host.Outcome State Fault Refusal :=
  runOp (.shfl d a b m) { kind := .vector, uses := fun _ => [.src a, .src b, .dst d] } fun c args s =>
    let vals := c.lanes.zip (args.getD 0 [])
    let outs := c.lanes.mapIdx fun k l =>
      shflVal m.toNat c.gang.width vals l ((args.getD 1 []).getD k 0) ((args.getD 0 []).getD k 0)
    .ok ((s.writeField c (fun _ => .dst d) outs).retireNext c)

/-! ### VOTE (18 R453) -/

/-- The result of a vote over the lanes' values. -/
def voteVal (mode : Nat) (vals : List (Nat × Nat)) : Nat :=
  match mode with
  | 0 => boolNat (vals.any fun v => v.2 != 0)
  | 1 => boolNat (vals.all fun v => v.2 != 0)
  | 2 => ((vals.filter fun v => v.2 != 0).map fun v => 2 ^ v.1).sum
  | 3 => (vals.filter fun v => v.2 != 0).length
  | _ => boolNat (vals.all fun v => v.2 == ((vals.head?).map Prod.snd).getD 0)

/-- VOTE's destination: a pair for a ballot. -/
def voteDst (f : BitVec 4) (d : BitVec 7) : Use := if f.toNat = 2 then .dst64 d else .dst d

/-- VOTE (18 R453). -/
def execVote (d a : BitVec 7) (f : BitVec 4) : State → Host.Outcome State Fault Refusal :=
  runOp (.vote d a f) { kind := .vector, uses := fun _ => [.src a, voteDst f d] } fun c args s =>
    let v := voteVal f.toNat (c.lanes.zip (args.getD 0 []))
    .ok ((s.writeField c (fun _ => voteDst f d) (c.lanes.map fun _ => v)).retireNext c)

/-! ### RDX and SCAN (17 R417, R418) -/

/-- The least or greatest of floating-point codes by FMIN and FMAX; absent ones are skipped. -/
def pickAll (greater ab : Bool) (xs : List Nat) : Nat :=
  match xs with
  | [] => absentCode 8
  | x :: rest => rest.foldl (floatPick greater ab 8) (floatPick greater ab 8 x x)

/-- Combine of 17 R418 over a set of 32-bit values. -/
def combineVals (ab : Bool) (f : Nat) (xs : List Nat) : Nat :=
  let present := xs.filter fun x => decodeVal ab 8 x != .absent
  let sum := (present.map (decodeVal ab 8)).foldl Val.add (.fin true 0 1 0)
  match f with
  | 0 => xs.foldl (fun u v => (u + v) % 2 ^ 32) 0
  | 1 => xs.foldl (fun u v => if signedOf 32 v < signedOf 32 u then v else u) 0x7FFFFFFF
  | 2 => xs.foldl (fun u v => if signedOf 32 u < signedOf 32 v then v else u) 0x80000000
  | 3 => xs.foldl (· &&& ·) 0xFFFFFFFF
  | 4 => xs.foldl (· ||| ·) 0
  | 5 => xs.foldl (· ^^^ ·) 0
  | 8 => if present.isEmpty then absentCode 8 else roundVal 8 sum
  | 9 => pickAll false ab present
  | 10 => pickAll true ab present
  | _ => if present.isEmpty then absentCode 8 else roundVal 8 (sum.div (.ofInt present.length))

/-- RDX (17 R418). -/
def execRdx (d a : BitVec 7) (f : BitVec 4) : State → Host.Outcome State Fault Refusal :=
  runOp (.rdx d a f) { kind := .vector, uses := fun _ => [.src a, .dst d] } fun c args s =>
    let outs := c.lanes.map fun l => combineVals (fmtAbsent (c.gang.slice (l / 4)).fmt) f.toNat (args.getD 0 [])
    .ok ((s.writeField c (fun _ => .dst d) outs).retireNext c)

/-- SCAN (17 R418). -/
def execScan (d a : BitVec 7) (e : BitVec 1) (f : BitVec 4) : State → Host.Outcome State Fault Refusal :=
  runOp (.scan d a e f) { kind := .vector, uses := fun _ => [.src a, .dst d] } fun c args s =>
    let outs := c.lanes.mapIdx fun k l =>
      combineVals (fmtAbsent (c.gang.slice (l / 4)).fmt) f.toNat
        ((args.getD 0 []).take (if e == 1 then k else k + 1))
    .ok ((s.writeField c (fun _ => .dst d) outs).retireNext c)

end Sys2Proof.Machine
end

