-- ==== Sys2Proof/Machine/Multicast.lean ====
section
/-! DEFINITION. Multicast: MCRD, its streams at their servers, and the delivery of their lines (07 R176 to R180;
17 R395, R396). -/

namespace Sys2Proof.Machine
set_option Elab.async false
open Sys2Proof

/-! ### MCRD (17 R396) -/

/-- Lines of a request word. -/
def mcrdCount (w : Nat) : Nat := natBits w 0 9 + 1
/-- Core mask of a request word. -/
def mcrdMask (w : Nat) : Nat := natBits w 16 16

/-- The cores of a mask. -/
def coresOf (mask : Nat) : List Nat := (List.range 16).filter mask.testBit

/-- The ADDRESS check of MCRD (07 R180): every core named hosts a gang of the crew that has not left (20 R472). -/
def Crew.mcrdReach (c : Crew) (src dst w : Nat) : Bool :=
  src / lineBytes * lineBytes + lineBytes * mcrdCount w ≤ 2 ^ 56 && dst + lineBytes * mcrdCount w ≤ c.coreSize &&
    (coresOf (mcrdMask w)).all fun k => c.gangs.any fun g => g.core == k && !g.finished

/-- MCRD (17 R396): one request for the whole instruction, read from the lowest active lane. -/
def execMcrd (t a b : BitVec 7) : State → Host.Outcome State Fault Refusal :=
  runOp (.mcrd t a b)
    { kind := .vector, feat := [7], uses := fun _ => [.src64 a, .src b, .src t] } fun c args s =>
    match c.firstVal (args.getD 0 []), c.firstVal (args.getD 1 []), c.firstVal (args.getD 2 []) with
    | some src, some w, some dst => do
      let at_ := c.lanes.zip (args.getD 0 [])
      need (mcrdMask w != 0 && natBits w 9 7 == 0) .illegal
      if !c.crew.mcrdReach src dst w then .error (.trap .address at_)
      if src % lineBytes ≠ 0 || dst % lineBytes ≠ 0 then .error (.trap .align at_)
      c.accessReady s 5 [src]
      let o : Launching :=
        { kind := .mcrd, size := lineBytes * mcrdCount w, path := some 5
          aux := [BitVec.ofNat 64 dst, BitVec.ofNat 64 (mcrdCount w), BitVec.ofNat 64 (mcrdMask w), BitVec.ofNat 64 src] }
      .ok ((s.retireNext c).startFlight c (.mcrd t a b) o ((c.parts o [src] [] []).take 1))
    | _, _, _ => .ok (s.retireNext c)

/-! ### Streams (07 R176 to R179) -/

/-- The request of an MCRD in flight: source, lines, destination offset. -/
def Flight.request (f : Flight) : Nat × Nat × Nat := ((dbl f.aux 3).toNat, (dbl f.aux 1).toNat, (dbl f.aux 0).toNat)

/-- The (cluster, core) pairs of an MCRD. -/
def State.mcrdPairs (s : State) (f : Flight) : List (Nat × Nat) :=
  let cl := ((s.crew? f.crew).map (·.cluster)).getD 0
  (coresOf (dbl f.aux 2).toNat).map fun k => (cl, k)

/-- Whether a stream still to send a line serves a request (07 R177). -/
def Stream.serves (m : Stream) (asid : Nat) (r : Nat × Nat × Nat) : Bool :=
  m.asid == asid && (m.src, m.count, m.offset) == r && m.next < m.count

/-- Pairs join a stream from its next line on. (DEDUCED: assumption 125). -/
def Stream.join (m : Stream) (fl : Nat) (ps : List (Nat × Nat)) : Stream :=
  let new := ps.filter fun (cl, k) => !m.pairs.any fun (c, j, _) => c == cl && j == k
  { m with flights := m.flights ++ [fl], pairs := m.pairs ++ new.map fun (cl, k) => (cl, k, m.next) }

/-- A request reaches its server: it merges into a stream, joins one late, or begins one. -/
def State.mcrdArrive (s : State) (f : Flight) : State :=
  let r := f.request
  let ps := s.mcrdPairs f
  let s' := s.mapParts f.id [0] fun p => { p with state := .fill }
  if s.streams.any fun m => m.serves f.asid r then
    { s' with streams := modifyWhere (fun m => m.serves f.asid r) (fun m => m.join f.id ps) s.streams }
  else
    { s' with
      serial := s.serial + 1
      streams := s.streams ++ [⟨s.serial, f.asid, r.1, r.2.1, r.2.2, ps.map fun (cl, k) => (cl, k, 0), 0, 0, none, [f.id]⟩] }

/-- Every earlier access of the slices that issued an instruction has been performed: they synchronise with the stream it
starts (08 R194). -/
def State.issuersDone (s : State) (f : Flight) : Bool :=
  s.flights.all fun e => !(e.crew == f.crew && e.member == f.member && e.id < f.id) ||
    e.parts.all fun q => !q.state.open_ || !f.slices.contains q.slice

/-- MCRD_REQUEST_ARRIVAL (07 R177). -/
def execMcrdRequestArrival (fl : Nat) (s : State) : Host.Outcome State Fault Refusal :=
  .next <| s.onPart fl 0 fun f p =>
    if f.kind == .mcrd && p.state == .sent && s.mayPerform f f.parts && s.issuersDone f then s.mcrdArrive f else s

/-- A page fault ends a stream for every request that is not yet whole; each parks at the faulting line (07 R180). -/
def State.endStream (s : State) (m : Stream) (code va : Nat) : State :=
  m.flights.foldl (fun s fl => s.mapParts fl [0] fun p =>
      if p.state.open_ then { p with addr := BitVec.ofNat 64 va, state := .faulted code } else p)
    { s with streams := s.streams.filter (·.id != m.id) }

/-- Sends a line of a stream: its bytes are read at the line's home, or asked of another device.  A stream is an operation, so
an owner of the line does not hold its read (08 R187, R198). -/
def State.sendLine (s : State) (m : Stream) (n : Nat) (pairs : List (Nat × Nat)) (after : Stream → Stream) : State :=
  let va := m.src + n * lineBytes
  let send (bs : List Byte) (s : State) : State :=
    { s with
      serial := s.serial + 1
      streams := modifyWhere (·.id == m.id) (fun m => after { m with got := none }) s.streams
      deliveries := s.deliveries ++ [⟨m.id, n, m.offset + n * lineBytes, bs, pairs, m.flights⟩] }
  match m.got with
  | some bs => send bs s
  | none =>
    match s.peek m.asid va lineBytes with
    | (.bytes bs, s) => send (bs.map s.orFill) s
    | (.fault code at_, s) => s.endStream m code at_
    | (.held, s) => s
    | (.fabric t off _, s) =>
      if s.messages.any fun g => g.owner == .stream m.id then s
      else
        match (m.flights.findSome? s.flight?).bind fun f => s.crew? f.crew with
        | some c => s.newMessage (.stream m.id) (some c.id) 0 t off lineBytes [] c.job c.die
        | none => s

/-- MCRD_LINE_SEND (07 R178): the next line goes to every pair now in the stream. -/
def execMcrdLineSend (stream : Nat) (s : State) : Host.Outcome State Fault Refusal :=
  .next <|
    match s.streams.find? fun m => m.id == stream && m.next < m.count with
    | some m => s.sendLine m m.next (m.pairs.map fun (c, k, _) => (c, k)) fun m => { m with next := m.next + 1 }
    | none => s

/-- The first line that every pair of a stream has received with it. -/
def Stream.tailEnd (m : Stream) : Nat := m.pairs.foldl (fun n (_, _, k) => max n k) 0

/-- MCRD_TAIL_REPLAY (07 R179): after the last line, a line some late joiners missed is read afresh for them. -/
def execMcrdTailReplay (stream : Nat) (s : State) : Host.Outcome State Fault Refusal :=
  .next <|
    match s.streams.find? fun m => m.id == stream && m.next == m.count && m.tail < m.tailEnd with
    | some m =>
      s.sendLine m m.tail ((m.pairs.filter fun (_, _, k) => m.tail < k).map fun (c, k, _) => (c, k))
        fun m => { m with tail := m.tail + 1 }
    | none => s

/-! ### Delivery (07 R178, R180) -/

/-- Whether every line of a request has been written into every core of its mask. -/
def State.mcrdWhole (s : State) (m : Stream) (f : Flight) : Bool :=
  m.next == m.count && (s.mcrdPairs f).all fun (cl, k) =>
    (m.pairs.all fun (c, j, first) => !(c == cl && j == k) || first ≤ m.tail) &&
    s.deliveries.all fun d => d.stream != m.id || !d.pairs.contains (cl, k)

/-- Returns the requests of a stream that are whole; a stream with none left and nothing to send ends. -/
def State.settleStream (s : State) (id : Nat) : State :=
  match s.streams.find? (·.id == id) with
  | none => s
  | some m =>
    let whole := m.flights.filter fun fl => match s.flight? fl with
      | some f => s.mcrdWhole m f
      | none => true
    let s := whole.foldl (fun s fl => s.mapParts fl [0] fun p => { p with state := .returned }) s
    let left := m.flights.filter fun fl => !whole.contains fl
    let s := { s with streams :=
      if left.isEmpty && m.next == m.count && m.tailEnd ≤ m.tail then s.streams.filter (·.id != id)
      else modifyWhere (·.id == id) (fun m => { m with flights := left }) s.streams }
    s.settleFlights

/-- Writes a delivered line into the core scratchpads of one request's crew. -/
def State.deliverTo (s : State) (d : Delivery) (f : Flight) : State :=
  (s.mcrdPairs f).foldl (fun s (cl, k) =>
    if d.pairs.contains (cl, k) then s.writeLocal f.crew f.member (.core k d.offset) d.data else s) s

/-- MCRD_LINE_DELIVER (07 R178, R180). -/
def execMcrdLineDeliver (delivery : Nat) (s : State) : Host.Outcome State Fault Refusal :=
  .next <|
    match s.deliveries[delivery]? with
    | none => s
    | some d =>
      let s := { s with deliveries := s.deliveries.eraseIdx delivery }
      let s := (d.flights.filterMap s.flight?).foldl (fun s f => s.deliverTo d f) s
      s.settleStream d.stream

end Sys2Proof.Machine
end

