-- ==== Sys2Proof/Machine/Sync.lean ====
section
/-! DEFINITION. Barriers, monitors' waits, queue bindings and quiescence: BAR, BARA, MWAIT, QBIND, QSTAT, QUIET
(02 R32, R33; 08 R203, R206; 13 R316; 15 R342; 17 R402, R409, R410, R414, R415). -/

namespace Sys2Proof.Machine
set_option Elab.async false
open Sys2Proof

/-! ### Barriers (15 R342) -/

/-- The count an execution of BAR or BARA names may fix or meet the phase's (02 R32). -/
def Ctx.barCountOk (c : Ctx) (n count : Nat) : Bool :=
  match (c.crew.barriers.getD n Barrier.empty).count with
  | some k => count == k
  | none => count ≤ c.crew.members.length

/-- The slices of the party record their arrival, once in a phase (02 R33). -/
def Barrier.record (b : Barrier) (count member : Nat) (sls : List Nat) : Barrier :=
  let new := sls.filter fun i => !b.slices.contains (member, i) && !b.arrived.contains member
  { b with count := some count, slices := b.slices ++ new.map fun i => (member, i) }

/-- The shared meaning of BAR and BARA: `f` is where their slices go.  The arrival waits until the party's earlier
accesses have been performed (08 R194). -/
def barrierOp (i : Instr) (count : BitVec 5) (n : BitVec 4) (f : Slice → Slice) : State → Host.Outcome State Fault Refusal :=
  runOp i { noHandler := true } fun c _ s => do
    need (c.barCountOk n.toNat count.toNat) .barCount
    ready (c.allPerformed s fun _ => true)
    let s := (s.retire c f).mapCrew c.crew.id fun k =>
      { k with barriers := listModify k.barriers n.toNat fun b => b.record count.toNat c.member c.sls }
    .ok (s.settle c)

/-- BAR (15 R342). -/
def execBar (count : BitVec 5) (n : BitVec 4) : State → Host.Outcome State Fault Refusal :=
  barrierOp (.bar count n) count n fun sl => { sl with wait := .bar n.toNat }

/-- BARA (15 R342). -/
def execBara (count : BitVec 5) (n : BitVec 4) : State → Host.Outcome State Fault Refusal :=
  barrierOp (.bara count n) count n Slice.advance

/-! ### MWAIT (17 R402) -/

/-- A MON of the slice has issued and has not armed its monitor: the read of its lowest lane has not been performed. -/
def State.monPending (s : State) (crew member slice : Nat) : Bool :=
  s.flights.any fun f => f.crew == crew && f.member == member && f.kind == .mon &&
    f.parts.any fun p => f.armsSlice p && p.slice == slice && p.state.open_

/-- The code an MWAIT returns in a slice, if it returns now (08 R206). -/
def Ctx.mwaitCode (c : Ctx) (s : State) (i : Nat) : Option Nat :=
  let sl := c.gang.slice i
  let (latched, timedOut) := match sl.wait with
    | .mwait since t => (sl.wake, t != 0 && since + t ≤ s.clock.toNat)
    | _ => (none, false)
  if s.monPending c.crew.id c.member i then none
  else
    match latched with
    | some k => some k
    | none =>
      match sl.monitor with
      | none => some 1
      | some m => match m.event with
        | some e => some e
        | none => if timedOut then some 3 else none

/-- A slice after an MWAIT that returned a code: codes 0 to 2 disarm the monitor. -/
def Slice.afterMwait (sl : Slice) (code : Option Nat) : Slice :=
  ({ sl with
    wait := .none
    wake := none
    monitor := match code with
      | none | some 3 => sl.monitor
      | _ => none } : Slice).advance

/-- A slice begins to wait, or goes on waiting. -/
def Slice.beginMwait (sl : Slice) (now timeout : Nat) : Slice :=
  match sl.wait with
  | .mwait _ _ => sl
  | _ => { sl with wait := .mwait now timeout, wake := none }

/-- MWAIT (17 R402). -/
def execMwait (d a : BitVec 7) : State → Host.Outcome State Fault Refusal :=
  runOp (.mwait d a) { uses := fun _ => [.src a, .dst d] } fun c args s =>
    let active := c.sls.filter fun i => (c.gang.slice i).mask != 0
    let code (i : Nat) : Option Nat := if active.contains i then c.mwaitCode s i else none
    if active.all fun i => (code i).isSome then
      let s' := s.writeField c (fun _ => .dst d) (c.lanes.map fun l => (code (l / 4)).getD 0)
      .ok (s'.retireEach c fun i sl => sl.afterMwait (code i))
    else
      let start (i : Nat) (sl : Slice) : Slice :=
        if active.contains i then sl.beginMwait s.clock.toNat (1024 * (c.firstOf (args.getD 0 []) i).getD 0) else sl
      .ok (s.mapIssuer c fun g => { g with slices := g.slices.mapIdx start })

/-- MWAIT_TIMEOUT (17 R402): the waiting slice will return 3.  A MON still to be armed is waited for first (17 R401). -/
def execMwaitTimeout (crew member slice : Nat) (s : State) : Host.Outcome State Fault Refusal :=
  .next <| s.mapGang crew member fun g => g.mapSlice slice fun sl =>
    match sl.wait with
    | .mwait since t =>
      let quiet := match sl.monitor with | some m => m.event.isNone | none => false
      if t ≠ 0 && since + t ≤ s.clock.toNat && sl.wake.isNone && quiet && !s.monPending crew member slice then { sl with wake := some 3 } else sl
    | _ => sl

/-- SPURIOUS_WAKE (08 R206): code 2, at most once per 65,536 cycles. -/
def execSpuriousWake (crew member slice : Nat) (s : State) : Host.Outcome State Fault Refusal :=
  .next <| s.mapGang crew member fun g => g.mapSlice slice fun sl =>
    match sl.monitor with
    | some m =>
      if m.event.isNone && (sl.spur.all fun t => t + 65536 ≤ s.clock.toNat) then
        { sl with monitor := some { m with event := some 2 }, spur := some s.clock.toNat }
      else sl
    | none => sl

/-! ### Queue bindings (17 R409, R410, R414) -/

/-- QBIND (17 R410).  Every party of the gang sees it. -/
def bindQueue (i : Instr) (q : BitVec 3) (p : Option Nat) : State → Host.Outcome State Fault Refusal :=
  runOp i { kind := .vector } fun c _ s => do
    need c.crew.seq.isSome .queue
    .ok ((s.retireNext c).mapIssuer c fun g => { g with qbind := g.qbind.set q.toNat p })

/-- QBIND (17 R410). -/
def execQbind (p q : BitVec 3) : State → Host.Outcome State Fault Refusal := bindQueue (.qbind p q) q (some p.toNat)

/-- QBIND.UN (17 R410). -/
def execQbindUn (q : BitVec 3) : State → Host.Outcome State Fault Refusal := bindQueue (.qbindUn q) q none

/-- FILL and ROOM (17 R414). -/
def Port.status (p : Port) : Nat := p.words.length + 2 ^ 16 * p.room

/-- QSTAT (17 R414): a gang's queue register, or a port of the easel. -/
def execQstat (d : BitVec 7) (n : BitVec 3) : State → Host.Outcome State Fault Refusal :=
  runOp (.qstat d n) { uses := fun _ => [.dst d] } fun c _ s => do
    let port := if c.gang.isSeq then some n.toNat else c.gang.qbind.getD n.toNat none
    match port with
    | none => .error (.of .queue)
    | some p =>
      let v := (s.port c.crew.cluster p).status
      .ok ((s.writeField c (fun _ => .dst d) (c.lanes.map fun _ => v)).retireNext c)

/-! ### Job entries (13 R312) -/

/-- The enabled entry of a job on a die (13 R312). -/
def State.jobEntry? (s : State) (die job : Nat) : Option Nat :=
  if job = 0 then none
  else (List.range 256).find? fun e =>
    bitsOf (s.jobDouble die e 0) 0 24 == job && (s.jobDouble die e 0).getLsbD 24

end Sys2Proof.Machine
end

