-- ==== Sys2Proof/Machine/Easel.lean ====
section
/-! DEFINITION. The eight matrix instructions at issue (06 R138 to R149, R152, R153; 15 R359; 18 R432 to R449): control
words, engines and tags, descriptors (03 R60, R61), port images, power tokens, and the entry of an engine's queue.
Machine/EngineSteps performs what the queues hold. -/

namespace Sys2Proof.Machine
set_option Elab.async false
open Sys2Proof

/-! ### Engines -/

/-- An engine at rest; its configuration word has its reset value (05 R113). -/
def noEngine : Engine := ⟨[emptyCanvas, emptyCanvas], 0x7, [], [], [none, none]⟩

/-- An engine of the package: eight of each cluster. -/
def State.engine (s : State) (n : Nat) : Engine := tabGet s.engines n noEngine

/-- Updates an engine. -/
def State.mapEngine (s : State) (n : Nat) (f : Engine → Engine) : State :=
  { s with engines := tabInsert s.engines n (f (s.engine n)) }

/-- Number of an engine of a cluster. -/
def engineNo (cluster e : Nat) : Nat := 8 * cluster + e

/-- A canvas of an engine. -/
def Engine.canvas (e : Engine) (k : Nat) : Canvas := e.canvases.getD k emptyCanvas

/-- An engine palette; one that nothing has loaded holds zero bits as BF16 entries. -/
def Engine.palette (e : Engine) (n : Nat) : Nat × Quad := tabGet e.palettes n (6, 0)

/-- Whether an operation touches a canvas (06 R140, 18 R449). -/
def EngOp.touches (o : EngOp) (k : Nat) : Bool := o.canvas == k || o.canvas == 2

/-- Whether two operations touch one canvas. -/
def EngOp.meets (o p : EngOp) : Bool := o.canvas == 2 || p.canvas == 2 || o.canvas == p.canvas

/-! ### Control words (06 R142, R153; 18 R448) -/

/-- B_LAYOUT -/
def ctlLayout (w : Double) : Nat := bitsOf w 18 3
/-- CONT -/
def ctlCont (w : Double) : Nat := bitsOf w 21 2
/-- KC -/
def ctlKc (w : Double) : Nat := bitsOf w 6 12
/-- Rows of A -/
def ctlRows (w : Double) : Nat := bitsOf w 0 6 + 1
/-- The crumb allotment in bytes, when A_CRUMB is set -/
def ctlAllot (w : Double) : Option Nat := if w.getLsbD 23 then some (32 * 2 ^ bitsOf w 24 2) else none

/-- A TMMA control word keeps the rules of 06 R142. -/
def tmmaCtlOk (w : Double) : Bool :=
  ctlKc w != 0 && ctlLayout w ≤ 4 && (ctlLayout w == 3 || ctlCont w == 0) && bitsOf w 24 2 != 3 &&
    (w.getLsbD 23 || bitsOf w 24 2 == 0) && (!w.getLsbD 27 || !w.getLsbD 26) && (w.getLsbD 27 || bitsOf w 31 2 == 0) &&
    bitsOf w 33 31 == 0

/-- A DMMA control word: only CANVAS, DEAL, TARGET and the quadrant (15 R359). -/
def dmmaCtlOk (w : Double) : Bool :=
  bitsOf w 2 24 == 0 && (!w.getLsbD 27 || !w.getLsbD 26) && (w.getLsbD 27 || bitsOf w 31 2 == 0) && bitsOf w 33 31 == 0

/-- Where a word sends its instruction. -/
structure Target where
  deal   : Bool
  number : Nat
  canvas : Nat
  deriving DecidableEq, Repr

/-- DEAL, TARGET and CANVAS of a TMMA or DMMA control word. -/
def ctlTarget (w : Double) : Target := ⟨w.getLsbD 27, bitsOf w 28 5, bitsOf w 26 1⟩

/-- The engine in the cluster and the canvas a target names: a tag's binding, or a fixed pair that no tag holds; the TAG
trap otherwise (06 R149). -/
def Cluster.target? (cl : Cluster) (t : Target) : Option (Nat × Nat) :=
  if t.deal then tabFind cl.tags t.number
  else if cl.tags.any fun (_, b) => b == (t.number, t.canvas) then none
  else some (t.number, t.canvas)

/-- Where a target leads when tags are left aside: what the checks before TAG look at. -/
def Cluster.place (cl : Cluster) (t : Target) : Option (Nat × Nat) :=
  if t.deal then tabFind cl.tags t.number else some (t.number, t.canvas)

/-- The mode of a queued TMMA or DMMA. -/
def EngOp.mode (o : EngOp) : Nat :=
  match o.kind with
  | .tmma => (tmmaMode o.fmt (ctlLayout o.ctl)).getD 0
  | .dmma => modeDgt
  | _ => 0

/-- CLEAR of a drain control word. -/
def drnClear (w : Double) : Bool := w.getLsbD 9
/-- RELEASE -/
def drnRelease (w : Double) : Bool := w.getLsbD 8

/-- The mode a canvas will have when the queue has run (05 R109). -/
def Engine.modeAhead (e : Engine) (k : Nat) : Nat :=
  e.queue.foldl (fun m o =>
    if !o.touches k then m
    else match o.kind with
      | .tmma | .dmma => if m = 0 then o.mode else m
      | .tclr => 0
      | .tdrn => if drnClear o.ctl then 0 else m
      | _ => m) (e.canvas k).mode

/-! ### Descriptors (03 R60, R61) -/

/-- A descriptor: its two registers. -/
abbrev Desc := Double × Double

/-- The two halves of a descriptor operand. -/
def descOf (v : Nat) : Desc := (BitVec.ofNat 64 v, BitVec.ofNat 64 (v / 2 ^ 64))

/-- ROW_PITCH -/
def Desc.rowPitch (d : Desc) : Nat := bitsOf d.2 0 20
/-- TILE_PITCH -/
def Desc.tilePitch (d : Desc) : Nat := bitsOf d.2 20 20
/-- ROT -/
def Desc.rot (d : Desc) : Nat := bitsOf d.2 40 4
/-- SPACE -/
def Desc.space (d : Desc) : Nat := bitsOf d.2 44 3
/-- Offset of BASE in its space -/
def Desc.offset (d : Desc) : Nat := bitsOf d.1 0 32

/-- A legal SPACE, pitches and BASE multiples of 16, reserved bits zero. -/
def Desc.legal (d : Desc) : Bool :=
  2 ≤ d.space && d.space ≤ 4 && d.rowPitch % 16 == 0 && d.tilePitch % 16 == 0 && bitsOf d.1 0 4 == 0 && bitsOf d.2 47 17 == 0

/-- The place at an offset of a descriptor's space, for a crew; none beyond the space. -/
def State.descPlace (s : State) (c : Crew) (d : Desc) (off : Nat) : Option Place :=
  if 2 ^ 32 ≤ off then none
  else if d.space = 2 then (if off < c.cluSize then some (.clu off) else none)
  else
    let die := (c.die + (d.space - 3)) % 2
    if off < s.chipSize die then some (.chip die off) else none

/-- BASE is a local address of the named space (03 R61). -/
def State.descBase (s : State) (c : Crew) (d : Desc) : Bool :=
  bitsOf d.1 56 8 == 0xFE && bitsOf d.1 32 20 == 0 && bitsOf d.1 52 4 == (match d.space with | 2 => 4 | 3 => 6 | _ => 7) &&
    (s.descPlace c d d.offset).isSome

/-- Offset of byte o of row i of tile t, for rows that begin `lead` bytes into the tile (03 R61, 06 R145). -/
def Desc.rowByte (d : Desc) (lead t i o : Nat) : Nat :=
  d.offset + lead + t * d.tilePitch + i * d.rowPitch + o / 256 * 256 + ((o / 16 % 16) ^^^ (i * d.rot % 16)) * 16 + o % 16

/-- The images an instruction reads or writes through a descriptor: tiles, rows of a tile, bytes before the rows, bytes of
a row. -/
structure Extent where
  tiles : Nat
  rows  : Nat
  lead  : Nat
  bytes : Nat
  deriving DecidableEq, Repr

/-- The end of an image: one past the greatest offset of its last tile's rows, or of its vector (03 R61). -/
def Desc.imageEnd (d : Desc) (x : Extent) : Nat :=
  ((List.range x.rows).flatMap fun i => (List.range ((x.bytes + 15) / 16)).map fun g =>
    d.rowByte x.lead (x.tiles - 1) i (16 * g) + 16).foldl max (d.offset + (x.tiles - 1) * d.tilePitch + x.lead)

/-- Every byte of the image lies in the space (07 R164). -/
def State.descFits (s : State) (c : Crew) (d : Desc) (x : Extent) : Bool :=
  s.descBase c d && (s.descPlace c d (d.imageEnd x - 1)).isSome

/-- A byte at an offset of a descriptor's space.  One beyond the space, which only an overflow record can name that a write
has moved there since the instruction issued, is a free value (assumption 15). -/
def State.descByte (s : State) (c : Crew) (member : Nat) (d : Desc) (off : Nat) : Byte :=
  match s.descPlace c d off with
  | some p => ((s.readLocal c.id member p 1).head?).getD 0
  | none => Config.freeByte s.freeCount 3 off

/-- Consecutive bytes of a descriptor's space. -/
def State.descBytes (s : State) (c : Crew) (member : Nat) (d : Desc) (off n : Nat) : List Byte :=
  tabulate n fun k => s.descByte c member d (off + k)

/-- Bytes of a row. -/
def State.descRow (s : State) (c : Crew) (member : Nat) (d : Desc) (lead t i n : Nat) : List Byte :=
  tabulate n fun o => s.descByte c member d (d.rowByte lead t i o)

/-- A crumb record's row of an image: the record and the overflow record its OVF_OFFSET names, counted from the record's
first byte (05 R117, 06 R145). -/
def State.descCrumb (s : State) (c : Crew) (member : Nat) (d : Desc) (lead t i allot f : Nat) : List Byte :=
  let r := s.descRow c member d lead t i allot
  r ++ s.descBytes c member d (d.rowByte lead t i 0 + 16 * (crumbFields r).ovf) (Sys2Proof.Machine.chunkBytes f)

/-- The image of a descriptor operand, in the order a port would bring it (06 R145, R146). -/
def State.descImage (s : State) (c : Crew) (d : Desc) (scale chunks rows : Nat)
    (row : (lead t i : Nat) → List Byte) : List Byte :=
  (List.range chunks).flatMap fun t =>
    s.descBytes c 16 d (d.offset + t * d.tilePitch) scale ++ (List.range rows).flatMap fun i => row scale t i

/-! ### Operands -/

/-- A matrix operand. -/
inductive MatOp where
  | desc (d : Desc)
  | port (p : Nat)
  | stage
  deriving DecidableEq, Repr

/-- A use for an operand field that names a descriptor. -/
def descUses (f : BitVec 7) : List Use := if 112 ≤ f.toNat && f.toNat ≤ 119 then [] else [.src128 f]

/-- The operand a field names, and the arguments that follow. -/
def takeOperand (f : BitVec 7) (args : List (List Nat)) : MatOp × List (List Nat) :=
  if 112 ≤ f.toNat && f.toNat ≤ 119 then (.port (f.toNat - 112), args)
  else (.desc (descOf ((args.headD []).headD 0)), args.tail)

/-- The descriptor of an operand. -/
def MatOp.desc? : MatOp → Option Desc
  | .desc d => some d
  | _ => none

/-- Whether an operand's descriptor is legal. -/
def MatOp.legal (o : MatOp) : Bool := match o with | .desc d => d.legal | _ => true

/-- Whether an operand's descriptor passes the ADDRESS check, for an image of some extent. -/
def State.operandFits (s : State) (c : Crew) (x : Extent) (o : MatOp) : Bool :=
  match o with | .desc d => s.descFits c d x | _ => true

/-- Whether an operand is a port. -/
def MatOp.isPort (o : MatOp) : Bool := match o with | .port _ => true | _ => false

/-- Bytes a port would hold whole. -/
def portLimit : Nat := 16384

/-- Bytes of the image of dense A (06 R147). -/
def aImageBytes (fmt : Word) (w : Double) : Nat :=
  ctlKc w * (scaleBytes fmt + ctlRows w * aRowBytes (fmtA fmt) (ctlAllot w))

/-- Bytes of the image of B. -/
def bImageBytes (fmt : Word) (w : Double) : Nat :=
  ctlKc w * (scaleBytes fmt + 32 * bRowBytes (ctlLayout w) (ctlCont w) (fmtB fmt))

/-- The extent of A of a TMMA. -/
def aExtent (fmt : Word) (w : Double) : Extent :=
  ⟨ctlKc w, ctlRows w, scaleBytes fmt, (ctlAllot w).getD (Sys2Proof.Machine.chunkBytes (fmtA fmt))⟩

/-- Every overflow record that a crumb record of A names, as memory holds them at issue, lies in the descriptor's space
(07 R164); a malformed record names none (05 R121). (DEDUCED: assumption 15). -/
def State.crumbsFit (s : State) (c : Crew) (fmt : Word) (w : Double) (o : MatOp) : Bool :=
  match o, ctlAllot w with
  | .desc d, some a => (List.range (ctlKc w)).all fun t => (List.range (ctlRows w)).all fun i =>
      let r := s.descRow c 16 d (scaleBytes fmt) t i a
      recordBad (fmtA fmt) a r || !(crumbFields r).spill ||
        (s.descPlace c d (d.rowByte (scaleBytes fmt) t i 0 + 16 * (crumbFields r).ovf +
          Sys2Proof.Machine.chunkBytes (fmtA fmt) - 1)).isSome
  | _, _ => true

/-- The extent of B. -/
def bExtent (fmt : Word) (w : Double) : Extent :=
  ⟨ctlKc w, 32, scaleBytes fmt, bRowBytes (ctlLayout w) (ctlCont w) (fmtB fmt)⟩

/-- The bytes of words. -/
def wordBytes (ws : List Word) : List Byte := ws.flatMap fun w => leBytes 4 w.toNat

/-- Words that hold a number of bytes. -/
def wordsFor (n : Nat) : Nat := (n + 3) / 4

/-- Takes a port operand's image; none while the port does not hold it whole (06 R139 item 4, R146). -/
def State.takeImage (s : State) (cluster : Nat) (o : MatOp) (n : Nat) : Option (Option (List Byte) × State) :=
  match o with
  | .port p =>
    let q := s.port cluster p
    if q.words.length < wordsFor n then none
    else some (some (wordBytes (q.words.take (wordsFor n))),
      s.mapPort cluster p fun q => { q with words := q.words.drop (wordsFor n) })
  | _ => some (none, s)

/-! ### Issue (06 R139) -/

/-- The easel's FMT. -/
def Ctx.easelFmt (c : Ctx) : Word := c.first.fmt

/-- Global number of an engine of the issuing easel's cluster. -/
def Ctx.engineNo (c : Ctx) (e : Nat) : Nat := Sys2Proof.Machine.engineNo c.crew.cluster e

/-- An entry as an instruction makes it. -/
def newOp (s : State) (c : Ctx) (kind : EngKind) (e k : Nat) (tag : Option Nat) (ctl : Double) : EngOp where
  id := s.serial
  kind := kind
  crew := c.crew.id
  canvas := k
  tag := tag
  ctl := ctl
  ctl2 := 0
  xf := 0
  k := false
  fmt := c.easelFmt
  cfg := (s.engine (c.engineNo e)).cfg
  dst := 0
  aDesc := none
  bDesc := none
  aImg := none
  bImg := none
  staged := none
  wcb := 0
  units := 0
  started := false
  since := 0

/-- A free entry in an engine's queue. -/
def State.engineRoom (s : State) (c : Ctx) (e : Nat) : Bool := (s.engine (c.engineNo e)).queue.length < 4

/-- Puts an entry in an engine's queue; a canvas named without a tag is one that a pre-emption saves (10 R259). -/
def State.enqueue (s : State) (c : Ctx) (e : Nat) (o : EngOp) : State :=
  let s := s.mapEngine (c.engineNo e) fun n => { n with queue := n.queue ++ [o] }
  if o.tag.isSome || o.kind == .ttbl then s
  else s.mapCrew c.crew.id fun k => if k.named.contains (e, o.canvas) then k else { k with named := k.named ++ [(e, o.canvas)] }

/-- Sends the flight that will carry an operation's word to its register, and gives its number. -/
def State.wordFlight (s : State) (c : Ctx) (i : Instr) (t : BitVec 7) (la : Nat) (v : Nat) : Nat × State :=
  (s.serial, s.issueFlight c i { kind := .result, size := 8, dst := some fun _ => .dst64 t, la := la, start := .performed }
    [] [] [v])

/-- Levels never pass CAP (06 R151). -/
def State.addTokens (s : State) (n : Nat) : State := { s with tokens := min (bitsOf s.tokenCtl 0 24) (s.tokens + n) }

/-- A grant for other units goes back to the pool. -/
def State.returnGrant (s : State) (easel units : Nat) : State :=
  match s.granted.find? fun g => g.1 == easel && g.2 != units with
  | some g => State.addTokens { s with granted := s.granted.filter (· != g) } g.2
  | none => s

/-- Asks for tokens, once. (DEDUCED: assumption 25). -/
def State.askTokens (s : State) (easel units : Nat) : State :=
  if s.tokenReqs.any fun r => r.easel == easel && r.units == units then s
  else { s with tokenReqs := (s.tokenReqs.filter (·.easel != easel)) ++ [⟨easel, units, s.clock.toNat, false⟩] }

/-- Takes the tokens granted to an easel, if they have been (06 R152). -/
def State.takeTokens? (s : State) (easel units : Nat) : Option State :=
  if s.granted.contains (easel, units) then some { s with granted := s.granted.filter (· != (easel, units)) } else none

/-- Issues a TMMA or DMMA once its tokens are granted; until then the easel asks and waits. -/
def State.withTokens (s : State) (c : Ctx) (units : Nat) (k : State → State) : State :=
  let s := s.returnGrant c.crew.cluster units
  match s.takeTokens? c.crew.cluster units with
  | some s => k s
  | none => s.askTokens c.crew.cluster units

/-! ### TMMA and DMMA -/

/-- Whether a stage suits a TMMA (18 R441, R446). -/
def Stage.suits (g : Stage) (w : Double) (fmt : Word) : Bool :=
  g.kc == ctlKc w && g.layout == ctlLayout w && g.cont == ctlCont w && fmtB g.fmt == fmtB fmt &&
    fmtScale g.fmt == fmtScale fmt && fmtCbBlk g.fmt == fmtCbBlk fmt &&
    natBits g.fmt.toNat 12 2 == natBits fmt.toNat 12 2

/-- A mode that a canvas admits (05 R109). -/
def modeFits (held mode : Nat) : Bool := held == 0 || held == mode

/-- The stage of a canvas of the issuing easel's cluster. -/
def State.stage (s : State) (c : Ctx) (e k : Nat) : Option Stage := (s.engine (c.engineNo e)).stages.getD k none

/-- The checks of a TMMA (18 R441). -/
def Ctx.checkTmma (c : Ctx) (s : State) (w : Double) (a b : MatOp) : Except Stop (Nat × Nat × Nat) := do
  let fmt := c.easelFmt
  let cl := s.cluster c.crew.cluster
  let place := cl.place (ctlTarget w)
  let stage := place.bind fun (e, k) => s.stage c e k
  need (tmmaCtlOk w) .illegal
  need (!(w.getLsbD 23 && a.isPort)) .illegal
  need (!a.isPort || aImageBytes fmt w ≤ portLimit) .illegal
  need (!b.isPort || bImageBytes fmt w ≤ portLimit) .illegal
  need (match stage with
    | some g => b == .stage && g.suits w fmt
    | none => place.isNone || b != .stage) .illegal
  need (a.legal && b.legal) .illegal
  match tmmaMode fmt (ctlLayout w) with
  | none => .error (.of .format)
  | some mode =>
    need (match place with
      | some (e, k) => modeFits ((s.engine (c.engineNo e)).modeAhead k) mode
      | none => true) .format
    match cl.target? (ctlTarget w) with
    | none => .error (.of .tag)
    | some (e, k) =>
      need (s.operandFits c.crew (aExtent fmt w) a && s.operandFits c.crew (bExtent fmt w) b && s.crumbsFit c.crew fmt w a)
        .address
      .ok (e, k, mode)

/-- The tag a target names. -/
def Target.tag (t : Target) : Option Nat := if t.deal then some t.number else none

/-- Issues an operation that multiplies: its word's flight, its images, its stage, its entry. -/
def State.issueMat (s : State) (c : Ctx) (i : Instr) (t : BitVec 7) (la e : Nat) (a b : MatOp) (an bn : Nat) (o : EngOp) :
    Option State := do
  let (aImg, s) ← s.takeImage c.crew.cluster a an
  let (bImg, s) ← s.takeImage c.crew.cluster b bn
  some (s.withTokens c o.units fun s =>
    let staged := if b == .stage then s.stage c e o.canvas else none
    let (fl, s) := s.wordFlight c i t la 0
    let s := if b == .stage then s.mapEngine (c.engineNo e) fun n => { n with stages := n.stages.set o.canvas none } else s
    s.enqueue c e { o with dst := fl, aDesc := a.desc?, bDesc := b.desc?, aImg := aImg, bImg := bImg, staged := staged })

/-- A multiplication issues, or waits: for a queue entry, for its port images, for its tokens. -/
def State.tryMat (s : State) (c : Ctx) (i : Instr) (t : BitVec 7) (la e : Nat) (a b : MatOp) (an bn : Nat) (o : EngOp) :
    Except Stop State := do
  ready (s.engineRoom c e)
  match s.issueMat c i t la e a b an bn o with
  | none => .error .wait
  | some s' => .ok (if s'.issued = s.issued then s.withTokens c o.units id else s')

/-- TMMA (18 R440 to R442). -/
def execTmma (t a b : BitVec 7) (l : BitVec 4) : State → Host.Outcome State Fault Refusal :=
  runOp (.tmma t a b l)
    { kind := .easel, feat := [3], layout := some t
      uses := fun _ => descUses a ++ (if b == 120 then [] else descUses b) ++ [.mod64 t] } fun c args s => do
    let (ma, args) := takeOperand a args
    let (mb, args) := if b == 120 then (MatOp.stage, args) else takeOperand b args
    let w : Double := BitVec.ofNat 64 ((args.getD 0 []).headD 0)
    let (e, k, mode) ← c.checkTmma s w ma mb
    let fmt := c.easelFmt
    let wcb := tmmaBound (ctlKc w) (fmtA fmt) (ctlLayout w) (ctlCont w)
    s.tryMat c (.tmma t a b l) t l.toNat e ma mb (aImageBytes fmt w) (bImageBytes fmt w)
      { newOp s c .tmma e k (ctlTarget w).tag w with wcb := wcb, units := wcb * unitsPerCycle mode }

/-- DMMA (15 R359, R360). -/
def execDmma (t a b : BitVec 7) (l : BitVec 4) : State → Host.Outcome State Fault Refusal :=
  runOp (.dmma t a b l) { kind := .easel, feat := [4], uses := fun _ => descUses a ++ descUses b ++ [.mod64 t] }
    fun c args s => do
    let (ma, args) := takeOperand a args
    let (mb, args) := takeOperand b args
    let w : Double := BitVec.ofNat 64 ((args.getD 0 []).headD 0)
    let cl := s.cluster c.crew.cluster
    need (dmmaCtlOk w && ma.legal && mb.legal) .illegal
    need (match cl.place (ctlTarget w) with
      | some (e, k) => modeFits ((s.engine (c.engineNo e)).modeAhead k) modeDgt
      | none => true) .format
    match cl.target? (ctlTarget w) with
    | none => .error (.of .tag)
    | some (e, k) =>
      need (s.operandFits c.crew ⟨1, 32, 0, 64⟩ ma && s.operandFits c.crew ⟨1, 8, 0, 256⟩ mb) .address
      s.tryMat c (.dmma t a b l) t l.toNat e ma mb 2048 2048
        { newOp s c .dmma e k (ctlTarget w).tag w with wcb := dmmaBound, units := dmmaBound * unitsPerCycle modeDgt }

/-! ### TBND and TCFG -/

/-- TBND (18 R432): the bound arrives by TICKET_WRITE, two cycles later. -/
def execTbnd (t a : BitVec 7) (l : BitVec 4) : State → Host.Outcome State Fault Refusal :=
  runOp (.tbnd t a l) { kind := .easel, feat := [3], uses := fun _ => [.src64 a, .dst64 t] } fun c args s => do
    let w : Double := BitVec.ofNat 64 ((args.getD 0 []).headD 0)
    let fmt := c.easelFmt
    need (tmmaCtlOk w) .illegal
    need (tmmaMode fmt (ctlLayout w)).isSome .format
    .ok (s.wordFlight c (.tbnd t a l) t l.toNat (tmmaBound (ctlKc w) (fmtA fmt) (ctlLayout w) (ctlCont w))).2

/-- TCFG (18 R433, R434). -/
def execTcfg (w : BitVec 1) (e g : BitVec 2) (x : BitVec 1) (n : BitVec 5) : State → Host.Outcome State Fault Refusal :=
  runOp (.tcfg w e g x n) { kind := .easel, feat := [3] } fun c _ s => do
    need (x == 1 || n.toNat < 8) .illegal
    let engine ← match (if x == 1 then (tabFind (s.cluster c.crew.cluster).tags n.toNat).map Prod.fst else some n.toNat) with
      | some e => .ok e
      | none => .error (.of .tag)
    .ok ((s.retireNext c).mapEngine (c.engineNo engine) fun m => { m with cfg := g.toNat + 4 * e.toNat + 16 * w.toNat })

/-! ### TCLR and the tile dealer (06 R149, R150; 18 R435) -/

/-- The estimate of crumb A once its headers are read: TERM_COUNTs by chunk and row, none for a spilled record. -/
def crumbEstimate (fa q : Nat) (chunks : List (List (Option Nat))) : Nat :=
  24 + q * (chunks.map fun rows => (rows.map fun r => match r with
    | none => tmax fa
    | some n => min (tmax fa) ((n + 7) / 8)).foldl max 0).sum

/-- The headers of an operation's crumb A. -/
def EngOp.headers (o : EngOp) (allot : Nat) : List (List (Option Nat)) :=
  let f := fmtA o.fmt
  (cutChunks (scaleBytes o.fmt) (ctlRows o.ctl) (allot + chunkBytes f) (o.aImg.getD []) (ctlKc o.ctl)).map fun k => k.rows.map fun r =>
    let h := crumbFields r
    if h.spill then none else some h.termCount

/-- The estimate of a queued instruction (06 R150). -/
def EngOp.estimate (o : EngOp) : Nat :=
  match o.kind with
  | .dmma => o.wcb
  | .tmma => match ctlAllot o.ctl with
    | some a => if o.started then
        min o.wcb (crumbEstimate (fmtA o.fmt) (layoutCost (ctlLayout o.ctl) (ctlCont o.ctl)) (o.headers a))
      else o.wcb
    | none => o.wcb
  | _ => 0

/-- The estimated remaining work of an engine: never below zero. (DESIGN CHOICE: assumption 100). -/
def Engine.remaining (e : Engine) (now : Nat) : Nat :=
  (e.queue.map EngOp.estimate).sum - (e.queue.map fun o =>
    if o.started && (o.kind == .tmma || o.kind == .dmma) then now - o.since else 0).sum

/-- The canvas a new tag is bound to, if one is free. -/
def State.dealCanvas (s : State) (c : Ctx) : Option (Nat × Nat) :=
  let held := (s.cluster c.crew.cluster).tags.map Prod.snd
  let free := ((List.range 8).flatMap fun e => [(e, 0), (e, 1)]).filter fun b => !held.contains b
  free.foldl (fun best b => match best with
    | none => some b
    | some x =>
      if (s.engine (c.engineNo b.1)).remaining s.clock.toNat < (s.engine (c.engineNo x.1)).remaining s.clock.toNat
      then some b else some x) none

/-- Whether a drain that will release a tag is in flight. -/
def State.releasing (s : State) (c : Ctx) : Bool :=
  (List.range 8).any fun e => (s.engine (c.engineNo e)).queue.any fun o => o.kind == .tdrn && drnRelease o.ctl

/-- TCLR (18 R435). -/
def execTclr (k x : BitVec 1) (n : BitVec 5) : State → Host.Outcome State Fault Refusal :=
  runOp (.tclr k x n) { kind := .easel, feat := [3] } fun c _ s => do
    let cl := s.cluster c.crew.cluster
    need (if x == 1 then k == 0 else n.toNat < 8) .illegal
    let issue (s : State) (e cv : Nat) : Except Stop State := do
      ready (s.engineRoom c e)
      let o := newOp s c .tclr e cv (if x == 1 then some n.toNat else none) 0
      .ok (State.enqueue { s.retireNext c with serial := s.serial + 1 } c e o)
    match cl.target? ⟨x == 1, n.toNat, k.toNat⟩ with
    | some (e, cv) => issue s e cv
    | none =>
      need (x == 1) .tag
      match s.dealCanvas c with
      | some (e, cv) =>
        issue (s.mapCluster c.crew.cluster fun cl => { cl with tags := tabInsert cl.tags n.toNat (e, cv) }) e cv
      | none => if s.releasing c then .error .wait else .error (.of .tag)

/-! ### TDRN (06 R153, R154, R158, R159; 18 R436, R437) -/

/-- DEAL, TARGET and CANVAS of a drain control word. -/
def drnTarget (w : Double) : Target := ⟨w.getLsbD 1, bitsOf w 2 5, bitsOf w 0 1⟩
/-- TO_PORT -/
def drnToPort (w : Double) : Bool := w.getLsbD 26
/-- PORT -/
def drnPort (w : Double) : Nat := bitsOf w 27 3
/-- OUT_FMT -/
def drnFmt (w : Double) : Nat := bitsOf w 10 4
/-- Rows drained -/
def drnRows (w : Double) : Nat := bitsOf w 14 6 + 1
/-- Columns drained -/
def drnCols (w : Double) : Nat := bitsOf w 20 6 + 1
/-- Bytes of a record's allotment -/
def drnAllot (w : Double) : Nat := 32 * 2 ^ bitsOf w 30 2

/-- A treatment and a format it accepts (06 R154). -/
def drnFmtOk (xf f : Nat) : Bool :=
  match xf with
  | 0 => f ≤ 9
  | 4 => isCodeFmt f
  | 6 => 1 ≤ f && f ≤ 7
  | _ => false

/-- The drain control word keeps the rules of 06 R153 and R154; `a` is the field of the descriptors. -/
def drnCtlOk (w : Double) (xf : Nat) (k : Bool) (a : Nat) : Bool :=
  bitsOf w 32 32 == 0 && (w.getLsbD 1 || bitsOf w 5 2 == 0) && (w.getLsbD 1 || !drnRelease w) &&
    drnFmtOk xf (drnFmt w) && (if xf = 6 then bitsOf w 30 2 != 3 else bitsOf w 30 2 == 0) &&
    (if drnToPort w then !k && xf == 0 && a == 120 else true)

/-- A descriptor that may take crumb records (06 R158). -/
def Desc.takesCrumbs (d : Desc) (allot : Nat) : Bool := d.rot == 0 && allot ≤ d.rowPitch

/-- Words a drain sends to a port (06 R159). -/
def drnWords (w : Double) : Nat := drnRows w * ((drnCols w * fmtWidth (drnFmt w) + 31) / 32)

/-- The use that resolves a drain's descriptors: an aligned quad of 64-bit registers. -/
def drnQuad (a : BitVec 7) : Use := ⟨a.toNat, 4, 4, 4, 256, true, false⟩

/-- Whether a drain quantises (06 R155). -/
def drnQuantises (w : Double) (xf : Nat) : Bool := xf == 4 || (xf == 6 && isCodeFmt (drnFmt w))

/-- Bytes of the SC8 vector before each tile's rows, records and overflow records: a drain that quantises under block scales
writes one (06 R145, R156). (DEDUCED: assumption 101). -/
def drnVector (w : Double) (xf : Nat) (fmt : Word) : Nat := if drnQuantises w xf && hasBlockScale (fmtScale fmt) then 64 else 0

/-- The extent of a copy of a drain. -/
def drnExtent (w : Double) (xf : Nat) (fmt : Word) (rows cols : Nat) : Extent :=
  ⟨(cols + 31) / 32, rows, drnVector w xf fmt,
    if xf = 6 then drnAllot w else Sys2Proof.Machine.chunkBytes (drnFmt w)⟩

/-- Every byte a copy of a drain may write lies in the descriptor's space (07 R164): its image, and under xf 0x06 the places
of the overflow records (06 R158).  The data are not yet known at issue, so the place of every overflow record counts.
(DEDUCED: assumption 15). -/
def State.drainFits (s : State) (c : Crew) (w : Double) (xf : Nat) (fmt : Word) (rows cols : Nat) (d : Desc) : Bool :=
  s.descFits c d (drnExtent w xf fmt rows cols) &&
    (xf != 6 || (s.descPlace c d (d.offset + drnVector w xf fmt + ((cols + 31) / 32 - 1) * d.tilePitch + 64 * d.rowPitch +
      rows * Sys2Proof.Machine.chunkBytes (drnFmt w) - 1)).isSome)

/-- The descriptors of a drain, primary and transposed: none for a port.  A field, or an index reached through x0 or x1,
that is not a multiple of 4 takes REGBOUND before any other check (06 R153). -/
def Ctx.drnDescs (c : Ctx) (w : Double) (a : BitVec 7) (k : Bool) : Except Stop (List Desc) :=
  if drnToPort w then .ok []
  else do
    match resolve c.gang.isSeq c.gang.allot c.first (drnQuad a) with
    | none => .error (.of .regBound)
    | some rs =>
      let rs := rs.take (if k then 4 else 2)
      ready (c.sls.all fun i => (c.gang.slice i).scoreOk rs [])
      let v := c.gang.readRegs 0 rs
      .ok ([descOf v] ++ (if k then [descOf (v / 2 ^ 128)] else []))

/-- TDRN (18 R436, R437). -/
def execTdrn (d a : BitVec 7) (x : BitVec 6) (k : BitVec 1) (l : BitVec 4) : State → Host.Outcome State Fault Refusal :=
  runOp (.tdrn d a x k l)
    { kind := .easel, feat := [3], bad := isQueueField a, uses := fun _ => [.src128 d, .dst64 d] } fun c args s => do
    let v := (args.getD 0 []).headD 0
    let w : Double := BitVec.ofNat 64 v
    let cl := s.cluster c.crew.cluster
    let ds ← c.drnDescs w a (k == 1)
    need (drnCtlOk w x.toNat (k == 1) a.toNat) .illegal
    need (ds.all fun (d : Desc) => d.legal && (x.toNat != 6 || d.takesCrumbs (drnAllot w))) .illegal
    match cl.target? (drnTarget w) with
    | none => .error (.of .tag)
    | some (e, cv) =>
      need ((ds.zip [(drnRows w, drnCols w), (drnCols w, drnRows w)]).all fun p =>
        s.drainFits c.crew w x.toNat c.easelFmt p.2.1 p.2.2 p.1) .address
      ready (s.engineRoom c e)
      ready (!drnToPort w || drnWords w ≤ (s.port c.crew.cluster (drnPort w)).room)
      let o : EngOp :=
        { newOp s c .tdrn e cv (drnTarget w).tag w with
          ctl2 := BitVec.ofNat 64 (v / 2 ^ 64), xf := x.toNat, k := k == 1, aDesc := ds[0]?, bDesc := ds[1]? }
      let (fl, s) := s.wordFlight c (.tdrn d a x k l) d l.toNat 0
      let s := if drnToPort w then s.mapPort c.crew.cluster (drnPort w) fun q => { q with drains := q.drains + drnWords w }
        else s
      .ok (s.enqueue c e { o with dst := fl })

/-! ### TSTG and TTBL (18 R445, R446, R448, R449) -/

/-- TSTG (18 R445, R446). -/
def execTstg (t b : BitVec 7) : State → Host.Outcome State Fault Refusal :=
  runOp (.tstg t b) { kind := .easel, feat := [3], layout := some t, uses := fun _ => descUses b ++ [.src64 t] } fun c args s => do
    let (mb, args) := takeOperand b args
    let w : Double := BitVec.ofNat 64 ((args.getD 0 []).headD 0)
    let fmt := c.easelFmt
    let cl := s.cluster c.crew.cluster
    need (tmmaCtlOk w) .illegal
    need (bImageBytes fmt w ≤ portLimit && b != 120) .illegal
    need ((cl.place (ctlTarget w)).all fun (e, k) => (s.stage c e k).isNone) .illegal
    need mb.legal .illegal
    match cl.target? (ctlTarget w) with
    | none => .error (.of .tag)
    | some (e, k) =>
      need (s.operandFits c.crew (bExtent fmt w) mb) .address
      ready (s.engineRoom c e)
      match s.takeImage c.crew.cluster mb (bImageBytes fmt w) with
      | none => .error .wait
      | some (img, s) =>
        let o : EngOp := { newOp s c .tstg e k (ctlTarget w).tag w with bDesc := mb.desc?, bImg := img }
        let g : Stage := ⟨ctlKc w, ctlLayout w, ctlCont w, fmt, none⟩
        let s := ({ s.retireNext c with serial := s.serial + 1 } : State).mapEngine (c.engineNo e) fun n =>
          { n with stages := n.stages.set k (some g) }
        .ok (s.enqueue c e o)

/-- The TTBL control word keeps its rules. -/
def ttblCtlOk (w : Double) : Bool := (w.getLsbD 12 || bitsOf w 16 2 == 0) && bitsOf w 18 46 == 0

/-- Palettes a TTBL loads. -/
def ttblCount (w : Double) : Nat := bitsOf w 6 6 + 1

/-- TTBL (18 R448, R449). -/
def execTtbl (t a : BitVec 7) : State → Host.Outcome State Fault Refusal :=
  runOp (.ttbl t a) { kind := .easel, feat := [3, 5], uses := fun _ => descUses a ++ [.src64 t] } fun c args s => do
    let (ma, args) := takeOperand a args
    let w : Double := BitVec.ofNat 64 ((args.getD 0 []).headD 0)
    let cl := s.cluster c.crew.cluster
    need (ttblCtlOk w && natBits c.easelFmt.toNat 12 2 != 3) .illegal
    need (match ma with | .desc d => d.legal && d.rot == 0 | _ => true) .illegal
    let engine ← match (if w.getLsbD 12 then (tabFind cl.tags (bitsOf w 13 5)).map Prod.fst else some (bitsOf w 13 5)) with
      | some e => .ok e
      | none => .error (.of .tag)
    need (s.operandFits c.crew ⟨1, ttblCount w, 0, 16⟩ ma) .address
    ready (s.engineRoom c engine)
    match s.takeImage c.crew.cluster ma (16 * ttblCount w) with
    | none => .error .wait
    | some (img, s) =>
      let o : EngOp := { newOp s c .ttbl engine 2 none w with aDesc := ma.desc?, aImg := img }
      .ok (State.enqueue { s.retireNext c with serial := s.serial + 1 } c engine o)

end Sys2Proof.Machine
end

