-- ==== Sys2Proof/Machine/EngineSteps.lean ====
section
/-! DEFINITION. What the engines do with their queues: the start of an instruction and the reading of its operands
(06 R140, R145), the completions (05 R130 to R137; 06 R143, R155 to R161; 18 R446, R449), and the grants of power tokens
(06 R151, R152; 10 R258). -/

namespace Sys2Proof.Machine
set_option Elab.async false
open Sys2Proof

/-! ### The start of an instruction -/

/-- Whether the rest of the queue lets the instruction at a position start (06 R140). -/
def Engine.mayStart (e : Engine) (pos : Nat) (o : EngOp) : Bool :=
  let mat (p : EngOp) : Bool := p.kind == .tmma || p.kind == .dmma
  (e.queue.take pos).all fun p => p.started && !p.meets o && !(mat p && mat o)

/-- Every earlier access of the easel has been performed: its issue synchronises with the operation (08 R194 item 5). -/
def State.issueSeen (s : State) (o : EngOp) : Bool :=
  s.flights.all fun f => !(f.crew == o.crew && f.member == 16 && f.id < o.id && f.kind != .result) ||
    f.parts.all fun p => !p.state.open_

/-- The image of A of a TMMA, from its descriptor. -/
def State.readA (s : State) (c : Crew) (fmt : Word) (w : Double) (d : Desc) : List Byte :=
  s.descImage c d (scaleBytes fmt) (ctlKc w) (ctlRows w) fun lead t i =>
    match ctlAllot w with
    | some a => s.descCrumb c 16 d lead t i a (fmtA fmt)
    | none => s.descRow c 16 d lead t i (Sys2Proof.Machine.chunkBytes (fmtA fmt))

/-- Bytes of a row of B that are looked at: of a slot-sparse row also the continuation records beyond the declared depth
that its pitch has room for, up to the greatest depth (05 R125). (DEDUCED: assumption 24). -/
def State.rowSeen (s : State) (c : Crew) (fmt : Word) (w : Double) (d : Desc) : Nat :=
  let x := bExtent fmt w
  let size := slotBytes (fmtB fmt)
  if ctlLayout w ≠ 3 then x.bytes
  else (([4, 3, 2].map (· * size)).find? fun n => x.bytes < n && n ≤ d.rowPitch && s.descFits c d { x with bytes := n }).getD x.bytes

/-- The image of B. -/
def State.readB (s : State) (c : Crew) (fmt : Word) (w : Double) (d : Desc) : List Byte :=
  let n := s.rowSeen c fmt w d
  s.descImage c d (scaleBytes fmt) (ctlKc w) 32 fun lead t i => s.descRow c 16 d lead t i n

/-- The images an instruction reads from memory when it starts. (DEDUCED: assumption 22). -/
def State.readOperands (s : State) (c : Crew) (o : EngOp) : EngOp :=
  let rows (n m : Nat) (d : Desc) : List Byte := s.descImage c d 0 1 n fun lead t i => s.descRow c 16 d lead t i m
  match o.kind with
  | .tmma => { o with
      aImg := o.aImg.orElse fun _ => o.aDesc.map (s.readA c o.fmt o.ctl)
      bImg := (o.bImg.orElse fun _ => o.staged.bind (·.image)).orElse fun _ => o.bDesc.map (s.readB c o.fmt o.ctl) }
  | .tstg => { o with bImg := o.bImg.orElse fun _ => o.bDesc.map (s.readB c o.fmt o.ctl) }
  | .dmma => { o with
      aImg := o.aImg.orElse fun _ => o.aDesc.map (rows 32 64)
      bImg := o.bImg.orElse fun _ => o.bDesc.map (rows 8 256) }
  | .ttbl => { o with aImg := o.aImg.orElse fun _ => o.aDesc.map fun (d : Desc) =>
      (List.range (ttblCount o.ctl)).flatMap fun m => s.descBytes c 16 d (d.offset + m * d.rowPitch) 16 }
  | _ => o

/-- ENGINE_INSTRUCTION_START (06 R140). -/
def execEngineInstructionStart (engine pos : Nat) (s : State) : Host.Outcome State Fault Refusal :=
  .next <|
    let e := s.engine engine
    match e.queue[pos]? with
    | none => s
    | some o =>
      match s.crew? o.crew with
      | none => s
      | some c =>
        if o.started || !e.mayStart pos o || !s.issueSeen o then s
        else
          let o := { (s.seenBy fun r => o.id < r.serial).readOperands c o with started := true, since := s.clock.toNat }
          State.mapEngine { s with freeCount := s.freeCount + 1 } engine fun e => { e with queue := e.queue.set pos o }

/-! ### Completion -/

/-- The instruction at a position, if it has started and is of a kind. -/
def State.runningOp (s : State) (engine pos : Nat) (kind : EngKind) : Option EngOp :=
  ((s.engine engine).queue[pos]?).filter fun o => o.started && o.kind == kind

/-- A word arrives in the register an instruction named (06 R144). -/
def State.deliverWord (s : State) (fl v : Nat) : State :=
  match s.flight? fl with
  | some f =>
    match f.parts with
    | p :: _ => s.arrive f 0 0 { p with result := BitVec.ofNat 128 v }
    | [] => s
  | none => s

/-- The instruction leaves its queue entry. -/
def State.retireOp (s : State) (engine pos : Nat) : State :=
  s.mapEngine engine fun e => { e with queue := e.queue.eraseIdx pos }

/-- Updates a canvas. -/
def State.mapCanvas (s : State) (engine k : Nat) (f : Canvas → Canvas) : State :=
  s.mapEngine engine fun e => { e with canvases := listModify e.canvases k f }

/-- The completion word (06 R143). -/
def completionWord (c : Canvas) (engine k cycles : Nat) : Nat := c.word + 2 ^ 16 * (engine % 8) + 2 ^ 19 * k + 2 ^ 32 * cycles

/-- The canvas after a TMMA (18 R442).  The rows of B are as long as its image makes them. -/
def EngOp.multiply (o : EngOp) (pals : Nat → Nat × Quad) (c : Canvas) : Canvas :=
  let w := o.ctl
  let img := o.bImg.getD []
  let as := cutChunks (scaleBytes o.fmt) (ctlRows w) (aRowBytes (fmtA o.fmt) (ctlAllot w)) (o.aImg.getD []) (ctlKc w)
  let bs := cutChunks (scaleBytes o.fmt) 32 ((img.length / ctlKc w - scaleBytes o.fmt) / 32) img (ctlKc w)
  c.tmma o.mode (o.cfg / 16 % 2 == 1) (ctlRows w) (as.map (aRows o.fmt (ctlAllot w)))
    (bs.mapIdx fun i k => bChunk o.fmt (ctlLayout w) (ctlCont w) pals i k)

/-- The canvas after a DMMA (15 R360). -/
def EngOp.multiplyDigits (o : EngOp) (c : Canvas) : Canvas :=
  c.dmma (fmtAbsent o.fmt) (bitsOf o.ctl 0 2) (o.aImg.getD []) (o.bImg.getD [])

/-- A multiplication ends: canvas, refund, queue entry, completion word (06 R143, R152). -/
def State.finishMat (s : State) (engine pos cycles : Nat) (o : EngOp) (f : Canvas → Canvas) : State :=
  let s := s.mapCanvas engine o.canvas f
  let word := completionWord ((s.engine engine).canvas o.canvas) engine o.canvas cycles
  let refund := (o.wcb - cycles) * (o.units / o.wcb)
  ((s.retireOp engine pos).addTokens refund).deliverWord o.dst word

/-- TMMA_COMPLETE (06 R143, 18 R442): `cycles` is the one part that depends on timing, never below 2 nor above WCB.
(DESIGN CHOICE: assumption 19). -/
def execTmmaComplete (engine pos cycles : Nat) (s : State) : Host.Outcome State Fault Refusal :=
  .next <|
    match s.runningOp engine pos .tmma with
    | some o =>
      if 2 ≤ cycles && cycles ≤ o.wcb then s.finishMat engine pos cycles o (o.multiply (s.engine engine).palette) else s
    | none => s

/-- DMMA_COMPLETE (05 R136, 15 R360): 21 cycles. -/
def execDmmaComplete (engine pos : Nat) (s : State) : Host.Outcome State Fault Refusal :=
  .next <|
    match s.runningOp engine pos .dmma with
    | some o => s.finishMat engine pos 21 o o.multiplyDigits
    | none => s

/-- TCLR_COMPLETE (05 R109). -/
def execTclrComplete (engine pos : Nat) (s : State) : Host.Outcome State Fault Refusal :=
  .next <|
    match s.runningOp engine pos .tclr with
    | some o => (s.mapCanvas engine o.canvas fun _ => emptyCanvas).retireOp engine pos
    | none => s

/-- A staged image goes to the TMMA that has taken the stage, or waits at the canvas. -/
def Engine.giveStage (e : Engine) (pos k : Nat) (img : List Byte) : Engine :=
  match (List.range e.queue.length).find? fun i => pos < i && match e.queue[i]? with
      | some o => o.canvas == k && o.staged.any (·.image.isNone)
      | none => false with
  | some i => { e with queue := listModify e.queue i fun o => { o with staged := o.staged.map fun g => { g with image := some img } } }
  | none => { e with stages := listModify e.stages k fun g => g.map fun g => { g with image := some img } }

/-- TSTG_COMPLETE (18 R446). -/
def execTstgComplete (engine pos : Nat) (s : State) : Host.Outcome State Fault Refusal :=
  .next <|
    match s.runningOp engine pos .tstg with
    | some o => (s.mapEngine engine fun e => e.giveStage pos o.canvas (o.bImg.getD [])).retireOp engine pos
    | none => s

/-- TTBL_COMPLETE (18 R449). -/
def execTtblComplete (engine pos : Nat) (s : State) : Host.Outcome State Fault Refusal :=
  .next <|
    match s.runningOp engine pos .ttbl with
    | some o =>
      let img := o.aImg.getD []
      let pals := (List.range (ttblCount o.ctl)).map fun m =>
        ((bitsOf o.ctl 0 6 + m) % 64, (fmtCbEntry o.fmt, BitVec.ofNat 128 (leValue ((img.drop (16 * m)).take 16))))
      (s.mapEngine engine fun e =>
        { e with palettes := pals.foldl (fun t p => tabInsert t p.1 p.2) e.palettes }).retireOp engine pos
    | none => s

/-! ### Drains (06 R155 to R161) -/

/-- Writes bytes, sixteen at a time, where `at_` puts each group; every one lies in the
space, as the checks at issue have seen (assumption 15). -/
def State.writeGroups (s : State) (c : Crew) (d : Desc) (at_ : Nat → Nat) (bs : List Byte) : State :=
  (List.range (bs.length / 16)).foldl (fun s g =>
    match s.descPlace c d (at_ (16 * g)) with
    | some p => s.writeLocal c.id 16 p ((bs.drop (16 * g)).take 16)
    | none => s) s

/-- Bytes of the SC8 vector before a drain's rows (06 R156). -/
def EngOp.vector (o : EngOp) : Nat := drnVector o.ctl o.xf o.fmt

/-- Whether a drain quantises (06 R154). -/
def EngOp.quantises (o : EngOp) : Bool := drnQuantises o.ctl o.xf

/-- One row of one tile of a drain, in memory (06 R156, R158): what lies in a tile lies after its SC8 vector. -/
def State.writeDrainRow (s : State) (c : Crew) (o : EngOp) (d : Desc) (t i : Nat) (q : Quantised) : State :=
  let f := drnFmt o.ctl
  if o.xf = 6 then
    let a := drnAllot o.ctl
    let rows := d.offset + t * d.tilePitch + o.vector
    let at_ := rows + i * d.rowPitch
    let far := rows + 64 * d.rowPitch + i * Sys2Proof.Machine.chunkBytes f
    let scale := if o.vector = 0 then 0x78 else q.scale
    let (r, ovf) := encodeChunk f a scale (far - at_) q.codes
    let s := s.writeGroups c d (at_ + ·) r
    match ovf with
    | some bs => s.writeGroups c d (far + ·) bs
    | none => s
  else s.writeGroups c d (d.rowByte o.vector t i) (packCodes f q.codes)

/-- One copy of a drain in memory: its tiles, each with its SC8 vector when there is one. -/
def State.writeCopy (s : State) (c : Crew) (o : EngOp) (d : Desc) (tiles : List (List Quantised)) : State :=
  (tiles.zipIdx).foldl (fun s (rows, t) =>
    let s := if o.vector = 0 then s else
      s.writeGroups c d (d.offset + t * d.tilePitch + ·) ((padTo 64 0xFF (rows.map fun q => BitVec.ofNat 8 q.scale)))
    (rows.zipIdx).foldl (fun s (q, i) => s.writeDrainRow c o d t i q) s) s

/-- A drain's rows as words for a port: each row packed and padded with absent codes (06 R159). -/
def drainWords (f rows cols : Nat) (tiles : List (List Quantised)) : List Word :=
  (List.range rows).flatMap fun i =>
    let n := (cols * fmtWidth f + 31) / 32
    let cs := (tiles.flatMap fun t => ((t.getD i ⟨0, [], 0, 0, 0⟩).codes)).take cols
    splitWords n (packElems (fmtWidth f) (cs ++ List.replicate (n * 32 / fmtWidth f - cols) (absentCode f)))

/-- The drain status word (06 R160). -/
def drainStatus (c : Canvas) (invalid : Bool) (sat ufl : Nat) : Nat :=
  c.word + (if invalid then 2 ^ 16 else 0) + 2 ^ 32 * min sat 0xFFFF + 2 ^ 48 * min ufl 0xFFFF

/-- What a drain computes: the blocks of the primary copy and of the transposed one. -/
def EngOp.drain (o : EngOp) (k : Canvas) : List (List Quantised) × List (List Quantised) :=
  let w := o.ctl
  let ab := fmtAbsent o.fmt
  let inScale := decodeVal ab 8 (bitsOf o.ctl2 0 32)
  let t := decodeVal ab 8 (bitsOf o.ctl2 32 32)
  let at_ (i j : Nat) : Val := k.drained (w.getLsbD 7) inScale i j
  let tiles (rows cols : Nat) (g : Nat → Nat → Val) : List (List Quantised) :=
    drainTiles (drnFmt w) rows cols o.quantises (hasBlockScale (fmtScale o.fmt)) (fmtSat o.fmt) t g
  (tiles (drnRows w) (drnCols w) at_, if o.k then tiles (drnCols w) (drnRows w) fun i j => at_ j i else [])

/-- The status word of a drain. -/
def EngOp.drainWord (o : EngOp) (k : Canvas) (copies : List (List Quantised) × List (List Quantised)) : Nat :=
  let qs := (copies.1 ++ copies.2).flatten
  drainStatus k (scaleUnusable (decodeVal (fmtAbsent o.fmt) 8 (bitsOf o.ctl2 0 32)) || qs.any fun q => q.invalid != 0)
    (qs.map (·.sat)).sum (qs.map (·.ufl)).sum

/-- The drain's output goes to memory or to its port. -/
def State.writeDrain (s : State) (c : Crew) (o : EngOp) (copies : List (List Quantised) × List (List Quantised)) : State :=
  if drnToPort o.ctl then
    s.mapPort c.cluster (drnPort o.ctl) fun q =>
      { q with
        words := q.words ++ drainWords (drnFmt o.ctl) (drnRows o.ctl) (drnCols o.ctl) copies.1
        drains := q.drains - drnWords o.ctl }
  else
    let s := match o.aDesc with
      | some d => s.writeCopy c o d copies.1
      | none => s
    match o.bDesc with
    | some d => s.writeCopy c o d copies.2
    | none => s

/-- DRAIN_COMPLETE (06 R155 to R161, 18 R437). -/
def execDrainComplete (engine pos : Nat) (s : State) : Host.Outcome State Fault Refusal :=
  .next <|
    match s.runningOp engine pos .tdrn with
    | none => s
    | some o =>
      match s.crew? o.crew with
      | none => s.retireOp engine pos
      | some c =>
        let k := (s.engine engine).canvas o.canvas
        let copies := o.drain k
        let s : State := { (s.seenBy fun r => o.id < r.serial).writeDrain c o copies with spcfg := s.spcfg }
        let s := if drnClear o.ctl then s.mapCanvas engine o.canvas fun _ => emptyCanvas else s
        let s := match drnRelease o.ctl, o.tag with
          | true, some n => s.mapCluster c.cluster fun cl => { cl with tags := tabErase cl.tags n }
          | _, _ => s
        (s.retireOp engine pos).deliverWord o.dst (o.drainWord k copies)

/-! ### Power tokens (06 R151, 10 R258) -/

/-- TOKEN_AGE -/
def State.tokenAge (s : State) : Nat := bitsOf s.schedCtl 32 16

/-- Whether a request has waited its age out. -/
def State.requestAged (s : State) (r : TokenReq) : Bool := r.aged || r.since + s.tokenAge ≤ s.clock.toNat

/-- Grants a request that the level covers. -/
def State.grant (s : State) (r : TokenReq) : State :=
  if r.units ≤ s.tokens then
    { s with
      tokens := s.tokens - r.units
      tokenReqs := s.tokenReqs.filter (· != r)
      granted := s.granted ++ [(r.easel, r.units)]
      lastGrant := r.easel }
  else s

/-- The request of an easel. -/
def State.requestOf (s : State) (easel : Nat) : Option TokenReq := s.tokenReqs.find? (·.easel == easel)

/-- TOKEN_ARBITRATION (10 R258): one cycle's refill, then its grants. (DESIGN CHOICE: assumption 131). -/
def execTokenArbitration (s : State) : Host.Outcome State Fault Refusal :=
  .next <|
    let s := s.addTokens (bitsOf s.tokenCtl 24 16)
    match s.tokenReqs.filter s.requestAged with
    | r :: rs => s.grant (rs.foldl (fun a b => if b.since < a.since then b else a) r)
    | [] => ((List.range 24).map fun i => (s.lastGrant + 1 + i) % 24).foldl (fun s e =>
        match s.requestOf e with
        | some r => s.grant r
        | none => s) s

/-- TOKEN_AGE (10 R258): a request that has waited TOKEN_AGE cycles is aged. -/
def execTokenAge (easel : Nat) (s : State) : Host.Outcome State Fault Refusal :=
  .next { s with tokenReqs := s.tokenReqs.map fun r =>
    if r.easel == easel && s.requestAged r then { r with aged := true } else r }

end Sys2Proof.Machine
end

