-- ==== Sys2Proof/Machine/Jobs.lean ====
section
/-! DEFINITION. Counting of fabric messages in the job entries of the dies, and the counters of the ports (13 R306,
R311, R312, R319; 14 R330). -/

namespace Sys2Proof.Machine
set_option Elab.async false
open Sys2Proof

/-- Writes double k of job entry e of a die. -/
def State.setJob (s : State) (d e k : Nat) (v : Double) : State :=
  { s with jobs := tabPut (jobDefault k) s.jobs (8 * (256 * d + e) + k) v }

/-- Adds to a counter of 48 bits, modulo 2^48. -/
def addTo48 (v : Double) (n : Int) : Double := BitVec.ofNat 64 (((bitsOf v 0 48 : Nat) + n) % 2 ^ 48 : Int).toNat

/-- Adds to INJECTED of a job's entry on a die. -/
def State.countInjected (s : State) (die job : Nat) (n : Int) : State :=
  match s.jobEntry? die job with
  | some e => s.setJob die e 2 (addTo48 (s.jobDouble die e 2) n)
  | none => s

/-- Adds to CONSUMED. -/
def State.countConsumed (s : State) (die job : Nat) (n : Int) : State :=
  match s.jobEntry? die job with
  | some e => s.setJob die e 3 (addTo48 (s.jobDouble die e 3) n)
  | none => s

/-- Adds to PENDING. -/
def State.countPending (s : State) (die job : Nat) (n : Int) : State :=
  match s.jobEntry? die job with
  | some e =>
    let v := s.jobDouble die e 4
    let p := (((bitsOf v 32 32 : Nat) + n) % 2 ^ 32 : Int).toNat
    s.setJob die e 4 (BitVec.ofNat 64 (bitsOf v 0 32 + 2 ^ 32 * p))
  | none => s

/-- Raises LOST, which stops at 2^32 − 1. -/
def State.countLost (s : State) (die job : Nat) : State :=
  match s.jobEntry? die job with
  | some e =>
    let v := s.jobDouble die e 4
    s.setJob die e 4 (BitVec.ofNat 64 (min (bitsOf v 0 32 + 1) 0xFFFFFFFF + 2 ^ 32 * bitsOf v 32 32))
  | none => s

/-- Counter numbers of the table of 13 R319. -/
def cRetrain : Nat := 0
/-- REPLAY -/
def cReplay : Nat := 1
/-- QUERIED -/
def cQueried : Nat := 2
/-- LOST_MSG -/
def cLostMsg : Nat := 3
/-- FAB_ERR -/
def cFabErr : Nat := 4
/-- REFUSED -/
def cRefused : Nat := 5

/-- Raises a counter of a port block, which stops at 2^32 − 1 (13 R319, 14 R330). -/
def State.portCount (s : State) (block counter : Nat) : State :=
  let v := min (tabGet s.portCounters (6 * block + counter) 0 + 1) 0xFFFFFFFF
  { s with portCounters := tabPut 0 s.portCounters (6 * block + counter) v }

/-- Double k of a handler entry (13 R308). -/
def State.handlerDouble (s : State) (q k : Nat) : Double := tabGet s.handlers (4 * q + k) 0

/-- Writes double k of a handler entry. -/
def State.setHandler (s : State) (q k : Nat) (v : Double) : State := { s with handlers := tabPut 0 s.handlers (4 * q + k) v }

/-- A handler task retires: FREED rises, and its message is counted consumed (13 R309, R310). (DEDUCED: assumption 45). -/
def State.retireHandler (s : State) (entry job die : Nat) : State :=
  let v := s.handlerDouble entry 3
  (s.setHandler entry 3 (BitVec.ofNat 64 (bitsOf v 0 32 + 2 ^ 32 * ((bitsOf v 32 32 + 1) % 2 ^ 32)))).countConsumed die job 1

/-! ### QUIET (13 R316, 17 R415) -/

/-- The stream of an MCRD at its server may still have lines to read over the fabric (07 R177, R179; 13 R316). -/
def State.streamUnsent (s : State) (fl : Nat) : Bool :=
  s.streams.any fun m => m.flights.contains fl && (m.next < m.count || m.tail < m.tailEnd)

/-- Accesses of earlier instructions of some slices may still have to send a fabric message: those not yet sent, and a
stream that serves an MCRD, which every slice that issued it started. -/
def State.accessUncounted (s : State) (c : Ctx) : Bool :=
  s.flights.any fun f => f.crew == c.crew.id && f.member == c.member && f.kind != .result && f.parts.any fun p =>
    (if f.kind == .mcrd then f.slices.any c.sls.contains else c.sls.contains p.slice) && match p.state with
      | .fill => f.kind == .mcrd && s.streamUnsent f.id
      | .sent | .miss | .faulted _ | .parked _ => f.kind == .amsg || natBits p.addr.toNat 56 8 == 0
      | .fabric m => s.messages.any fun g => g.id == m && g.state == .ready
      | _ => false

/-- A command in a slot may still send a fabric message: not once it is done, or only waits, and no record of it goes to
another device. -/
def State.slotUncounted (s : State) (c k : Nat) (sl : Slot) (cmd : Command) : Bool :=
  let away := s.recordFar c k sl cmd
  match sl.state with
  | .free => false
  | .completing => away
  | .waiting =>
    if sl.wait == .launchDone && pktType cmd.packet == 2 then away
    else if sl.wait == .value then
      away || match (s.translate cmd.asid (dbl cmd.packet 1).toNat .read).1 with
        | .ok (.fabric _ _) => true
        | _ => false
    else true
  | _ => true

/-- A command that some slices gave a BTE may still have a fabric message to be counted injected (13 R311). -/
def State.commandUncounted (s : State) (c : Ctx) : Bool :=
  let mine (cmd : Command) : Bool := cmd.issuer == some (c.crew.id, c.member) && cmd.slices.any c.sls.contains
  s.clusters.any fun (i, cl) => cl.inbox.any mine || cl.slots.zipIdx.any fun (sl, k) =>
    match sl.cmd with
    | some cmd => mine cmd && (s.slotUncounted i k sl cmd || s.messages.any fun m => m.state == .ready &&
        match m.owner with
        | .slot d j _ => d == i && j == k
        | _ => false)
    | none => false

/-- Fabric messages of earlier instructions of some slices may still have to be counted injected (13 R316).
(DEDUCED: assumption 121). -/
def State.uncounted (s : State) (c : Ctx) : Bool := s.accessUncounted c || s.commandUncounted c

/-- Ends a QUIET: the status returns under its lookahead window. -/
def State.endQuiet (s : State) (c : Ctx) (i : Instr) (d : BitVec 7) (la v : Nat) : State :=
  let s := s.mapIssuer c fun g => g.mapSlices c.sls fun sl => { sl with wait := .none, wake := none }
  s.issueFlight c i { kind := .load, size := 4, dst := some fun _ => .dst d, la := la, start := .performed } [] []
    (c.lanes.map fun _ => v)

/-- QUIET (13 R316, 17 R415). -/
def execQuiet (d a b : BitVec 7) (l : BitVec 4) : State → Host.Outcome State Fault Refusal :=
  runOp (.quiet d a b l)
    { kind := .vector, feat := [8], noHandler := true, uses := fun _ => [.src a, .src b, .dst d] } fun c args s =>
    let finish (v : Nat) : State := s.endQuiet c (.quiet d a b l) d l.toNat v
    match c.first.wait with
    | .quiet _ _ since t =>
      match c.first.wake with
      | some v => .ok (finish v)
      | none => if t ≠ 0 && since + t ≤ s.clock.toNat then .ok (finish 2) else .error .wait
    | _ => do
      ready (!s.uncounted c)
      let job := if a == 120 || c.lanes.isEmpty then c.crew.job
        else natBits ((c.firstVal (args.getD 0 [])).getD 0) 0 24
      match s.jobEntry? c.die job with
      | none => .ok (finish 3)
      | some e =>
        let w0 := bitsOf (s.jobDouble c.die e 5) 0 32
        let t := 1024 * (c.firstVal (args.getD 1 [])).getD 0
        .ok (s.mapIssuer c fun g => g.mapSlices c.sls fun sl =>
          { sl with wait := .quiet job w0 s.clock.toNat t, wake := none })

/-- QUIET_TIMEOUT (13 R316). -/
def execQuietTimeout (crew member party : Nat) (s : State) : Host.Outcome State Fault Refusal :=
  .next <| s.mapGang crew member fun g => g.mapSlices (g.partySlices party) fun sl =>
    match sl.wait with
    | .quiet _ _ since t =>
      if t ≠ 0 && since + t ≤ s.clock.toNat && sl.wake.isNone then { sl with wake := some 2 } else sl
    | _ => sl

end Sys2Proof.Machine
end

