-- ==== Sys2Proof/Machine/Tasks.lean ====
section
/-! DEFINITION. Task dependences and renaming: TSUB, its submission, and what the finish of a task releases (10 R247 to
R250; 18 R447).  HOME_REQUEST stands here, since it also performs a TSUB. -/

namespace Sys2Proof.Machine
set_option Elab.async false
open Sys2Proof

/-! ### Why a submission does not go on -/

/-- What stops a submission. -/
inductive TaskHalt where
  /-- it waits, or its accesses are held -/
  | wait
  /-- an access faults: code, address, and whether it was a write -/
  | fault (code va : Nat) (write : Bool)
  /-- it needs a line of another device -/
  | far (target off : Nat)
  /-- it ends with a status and no effect (10 R249) -/
  | status (n : Nat)
  deriving DecidableEq, Repr

/-- A step of a submission. -/
abbrev TaskM := StateT State (Except TaskHalt)

/-- Who submits: its ASID, its name in requests to other devices, crew, job and die. -/
structure TaskBy where
  asid : Nat
  user : FarUser
  crew : Nat
  job  : Nat
  die  : Nat

/-- NOPOOL -/
def taskNoPool : Nat := 1
/-- BADTASK -/
def taskBad : Nat := 2

/-- A line of another device as a submission sees it: with what it has itself sent there. -/
def State.farLine (s : State) (u : FarUser) (target line : Nat) (bs : List Byte) : List Byte :=
  (s.farOps.filter fun o => o.user == u && o.kind == 1 && o.target == target && o.off == line).foldl (fun bs o =>
    let mask := (dbl o.sent 0).toNat + 2 ^ 64 * (dbl o.sent 1).toNat
    let new := bytesOfDoubles (o.sent.drop 2)
    bs.mapIdx fun i b => if mask.testBit i then new.getD i b else b) bs

/-- Reads bytes line by line as loads of the task's ASID; `fuel` bounds the lines. -/
def taskLines (b : TaskBy) (va n : Nat) : Nat → TaskM (List Byte)
  | 0 => return []
  | fuel + 1 => do
    if n = 0 then return []
    let k := min n (lineBytes - va % lineBytes)
    let s ← get
    if s.ownedSpan b.asid va k then throw .wait
    let bs ← match s.peek b.asid va k with
      | (.bytes bs, s') => do
        set s'
        pure (bs.map s'.orFill)
      | (.fault code at_, _) => throw (.fault code at_ false)
      | (.held, _) => throw .wait
      | (.fabric t off _, s') =>
        let line := off / lineBytes * lineBytes
        match (s'.farDo b.user 0 t line lineBytes [] (some b.crew) b.job b.die).1 with
        | some ds => pure (((s'.farLine b.user t line (bytesOfDoubles ds)).drop (off % lineBytes)).take k)
        | none => throw (.far t off)
    return bs ++ (← taskLines b (va + k) (n - k) fuel)

/-- Reads bytes as loads of the task's ASID. -/
def taskRead (b : TaskBy) (va n : Nat) : TaskM (List Byte) := do
  if 2 ^ 56 < va + n then throw (.status taskBad)
  taskLines b va n (n / lineBytes + 2)

/-- Writes bytes of one line as a store of the task's ASID; another device is sent them. -/
def taskWriteSeg (b : TaskBy) (va : Nat) (bs : List Byte) : TaskM Unit := do
  match (← get).poke deviceOwner b.asid va bs with
  | (.done, s') => set s'
  | (.fault code at_, _) => throw (.fault code at_ true)
  | (.fabric t off _, s') =>
    set (s'.farDo b.user 1 t (off / lineBytes * lineBytes) lineBytes (spanPayload (off % lineBytes) bs) (some b.crew) b.job b.die).2
  | _ => throw .wait

/-- Writes a double as such stores. -/
def taskWrite (b : TaskBy) (va v : Nat) : TaskM Unit := do
  let k := min 8 (lineBytes - va % lineBytes)
  taskWriteSeg b va ((leBytes 8 v).take k)
  if k < 8 then taskWriteSeg b (va + k) ((leBytes 8 v).drop k)

/-! ### Handles (10 R247) -/

/-- How a task uses a handle. -/
inductive HandleKind where
  | read | write | both
  deriving DecidableEq, Repr

/-- The handles of a descriptor in order, each once, with its kind. -/
def handleKinds (reads writes : List Nat) : List (Nat × HandleKind) :=
  (dedup ((reads ++ writes).filter (· != 0))).map fun h =>
    (h, if reads.contains h then (if writes.contains h then .both else .read) else .write)

/-- Tasks of an ASID that have not finished and name a handle as a writer. (DEDUCED: assumption 42). -/
def State.writersOf (s : State) (asid h : Nat) : List Task := s.tasks.filter fun t => t.asid == asid && t.writes.contains h

/-- Tasks that only read it. -/
def State.readersOf (s : State) (asid h : Nat) : List Task :=
  s.tasks.filter fun t => t.asid == asid && t.reads.contains h && !t.writes.contains h

/-- The tasks that a use of a handle waits for (10 R248). -/
def State.handleDeps (s : State) (asid h : Nat) (k : HandleKind) : List Nat :=
  let last := ((s.writersOf asid h).getLast?.map (·.id)).toList
  match k with
  | .read => last
  | .write => []
  | .both => last ++ (s.readersOf asid h).map (·.id)

/-- Some unfinished task holds a buffer of a pool (10 R249). (DEDUCED: assumption 44). -/
def State.poolHeld (s : State) (asid pool : Nat) : Bool :=
  s.tasks.any fun t => t.asid == asid && t.bufs.any fun b =>
    s.taken.contains (asid, pool, b) || s.returns.contains (asid, pool, b)

/-- The pool descriptor of a handle (10 R247, R249). -/
def taskPool (b : TaskBy) (pool : Nat) : TaskM (List Double) := do
  let ds := doublesOf (← taskRead b pool 32)
  let log2 := bitsOf (dbl ds 1) 0 5
  if log2 < 1 || 16 < log2 || bitsOf (dbl ds 1) 5 59 ≠ 0 then throw (.status taskBad)
  return ds

/-- A buffer taken from a rename pool whose descriptor has been read. -/
def taskTake (b : TaskBy) (pool : Nat) (ds : List Double) : TaskM Nat := do
  if dbl ds 2 = dbl ds 3 then
    throw (if (← get).poolHeld b.asid pool then .wait else .status taskNoPool)
  let head := (dbl ds 2).toNat
  let buf := leValue (← taskRead b ((dbl ds 0).toNat + 8 * (head % 2 ^ bitsOf (dbl ds 1) 0 5)) 8)
  taskWrite b (pool + 16) (head + 1)
  modify fun s => { s with taken := (b.asid, pool, buf) :: s.taken.filter (· != (b.asid, pool, buf)) }
  return buf

/-- The rule of 10 R248 for one handle: the buffer the task uses.  Its pool descriptor is read whether or not it renames
(10 R249; 18 R447). (DEDUCED: assumption 43). -/
def taskHandle (b : TaskBy) (h : Nat) (k : HandleKind) : TaskM Nat := do
  if h % 32 ≠ 0 then throw (.status taskBad)
  let ds := doublesOf (← taskRead b h 32)
  let s ← get
  let buf := (dbl ds 0).toNat
  let pool := (dbl ds 1).toNat
  let pd ← taskPool b pool
  if k = .write && !(s.writersOf b.asid h ++ s.readersOf b.asid h).isEmpty then
    let new ← taskTake b pool pd
    taskWrite b h new
    modify fun s => { s with returns := s.returns ++ [(b.asid, pool, buf)] }
    return new
  else return buf

/-! ### Returning buffers (10 R248, R481) -/

/-- Whether an unfinished task uses a buffer, one task left aside. -/
def State.bufUsed (s : State) (asid buf : Nat) (but : Option Nat) : Bool :=
  s.tasks.any fun t => t.asid == asid && t.bufs.contains buf && some t.id != but

/-- Writes a buffer into its pool's RING at TAIL and raises TAIL.  False while an access waits; a fault leaves the return
to the waiting accesses of the device. -/
def State.returnBuffer (s : State) (asid pool buf : Nat) : Bool × State :=
  let u : FarUser := .buffer pool buf
  let fault (code va : Nat) (s : State) : Bool × State := (true, (s.farDone u).deviceFault (.buffer pool buf asid) asid code va)
  match s.agentPeek u 0 0 asid pool 32 with
  | (.wait, s) => (false, s)
  | (.fault code va, s) => fault code va s
  | (.bytes bs, s) =>
    let ds := doublesOf bs
    let tail := (dbl ds 3).toNat
    match s.agentPoke u 0 0 asid ((dbl ds 0).toNat + 8 * (tail % 2 ^ bitsOf (dbl ds 1) 0 5)) (leBytes 8 buf) with
    | (.wait, s) => (false, s)
    | (.fault code va, s) => fault code va s
    | (.done, s) =>
      match s.agentPoke u 0 0 asid (pool + 24) (leBytes 8 (tail + 1)) with
      | (.wait, s) => (false, s)
      | (.fault code va, s) => fault code va s
      | (.done, s) => (true, { s.farDone u with taken := s.taken.filter (· != (asid, pool, buf)) })

/-- Returns some replaced buffers in order, up to one that waits: true when none does. -/
def State.returnAll (s : State) : List (Nat × Nat × Nat) → Bool × State
  | [] => (true, s)
  | (asid, pool, buf) :: rs =>
    match s.returnBuffer asid pool buf with
    | (true, s) => State.returnAll { s with returns := s.returns.erase (asid, pool, buf) } rs
    | (false, s) => (false, s)

/-- Returns every replaced buffer that no unfinished task uses, one task left aside. -/
def State.returnBuffers (s : State) (but : Option Nat) : Bool × State :=
  s.returnAll (s.returns.filter fun (asid, _, buf) => !s.bufUsed asid buf but)

/-! ### Submission -/

/-- The push of a task's record, once nothing holds it back; its launch counted it at its submission. -/
def State.pushTask (s : State) (t : Task) : State :=
  { s with
    tasks := s.tasks.map fun u => if u.id == t.id then { u with pushed := true } else u
    pushes := s.pushes ++ [⟨t.rcd, .task t.die t.id, t.rcd.queue t.die, none, none, none⟩] }

/-- Pushes every task whose last dependence has finished. -/
def State.pushReady (s : State) : State :=
  (s.tasks.filter fun t => t.deps.isEmpty && !t.pushed).foldl (fun s t => s.pushTask t) s

/-- Entries of a die's dependence table (10 R248). -/
def tableSize : Nat := 4096

/-- Requests to other devices of other submissions are still out: submissions follow one another. -/
def State.submitting (s : State) (u : FarUser) : Bool :=
  s.farOps.any fun o => o.user != u && match o.user with
    | .flight fl => s.flights.any fun f => f.id == fl && f.kind == .tsub
    | _ => false

/-- Something a submission has sent to another device is not yet answered. -/
def State.farWaits (s : State) (u : FarUser) : Bool := s.farOps.any fun o => o.user == u && o.data.isNone

/-- Submits the descriptor at an address for a crew.  A task whose frame or handles lie in another device is held by
itself until they are written. -/
def taskSubmit (b : TaskBy) (desc : Nat) (tag : Double) : TaskM Unit := do
  if tableSize ≤ ((← get).tasks.filter (·.die == b.die)).length || (← get).submitting b.user then throw .wait
  let bs ← taskRead b desc 128
  let ds := doublesOf bs
  let rcd := recordOf bs tag
  let hs := (List.range 8).map fun k => (dbl ds (8 + k)).toNat
  let reads := hs.take 4
  let writes := hs.drop 4
  let frame := rcd.d1.toNat
  if 2 ^ 56 < frame + 64 then throw (.status taskBad)
  let kinds := handleKinds reads writes
  let s0 ← get
  let deps := kinds.flatMap fun (h, k) => s0.handleDeps b.asid h k
  let bufs ← kinds.mapM fun (h, k) => do return (h, ← taskHandle b h k)
  for k in List.range 8 do
    taskWrite b (frame + 8 * k) ((bufs.lookup (hs.getD k 0)).getD 0)
  modify fun s => { s with
    serial := s.serial + 1
    tasks := s.tasks ++ [⟨s.serial, b.die, rcd, b.asid, reads.filter (· != 0), writes.filter (· != 0), bufs.map Prod.snd,
      dedup deps ++ (if s.farWaits b.user then [s.serial] else []), false⟩] }
  modify fun s => s.mapLaunch rcd.launch fun l => { l with pushed := l.pushed + 1 }
  modify fun s => (s.returnBuffers none).2.pushReady

/-- A submission from a state. -/
def State.submit (s : State) (c : Crew) (asid desc : Nat) (u : FarUser) : Except TaskHalt State :=
  ((taskSubmit ⟨asid, u, c.id, c.job, c.cluster / 12⟩ desc (recordTag c.job c.asid c.launch)).run s).map Prod.snd

/-- What a submission has sent to other devices is performed: its task is held by itself no longer. -/
def State.submitted (s : State) (u : FarUser) : State :=
  State.pushReady { s.farDone u with tasks := s.tasks.map fun (t : Task) => { t with deps := t.deps.filter (· != t.id) } }

/-- The parts of a TSUB in flight end as its submission did. (DEDUCED: assumption 41). -/
def State.performTsub (s : State) (f : Flight) : State :=
  let u : FarUser := .flight f.id
  let finish (n : Nat) (s : State) : State :=
    (s.farDone u).mapFlight f.id fun f => { f with parts := f.parts.map fun p =>
      if p.state == .returned then p else { p with result := BitVec.ofNat 128 n, state := .performed } }
  match s.crew? f.crew with
  | none => s
  | some c =>
    if dbl f.aux 1 = 2 then (if s.farWaits u then s else finish 0 (s.submitted u))
    else
      match s.submit c f.asid (dbl f.aux 0).toNat u with
      | .ok s =>
        if s.farWaits u then s.mapFlight f.id fun f => { f with aux := [dbl f.aux 0, 2, dbl f.aux 2] }
        else finish 0 (s.submitted u)
      | .error (.status n) => finish n s
      | .error .wait => s.farDone u
      | .error (.far t off) =>
        (s.farDo u 0 t (off / lineBytes * lineBytes) lineBytes [] (some c.id) c.job c.die).2
      | .error (.fault code va write) =>
        (s.farDone u).mapFlight f.id fun f => { f with
          aux := [dbl f.aux 0, if write then 1 else 0, dbl f.aux 2]
          parts := f.parts.map fun p =>
            if p.state == .returned then p else { p with addr := BitVec.ofNat 64 va, state := .faulted code } }

/-- HOME_REQUEST (07 R169): a part of an access at its home or local holder, or a TSUB's submission.  An MCRD goes to its
server by MCRD_REQUEST_ARRIVAL (07 R176, R177). -/
def execHomeRequest (fl part : Nat) (s : State) : Host.Outcome State Fault Refusal :=
  .next (s.onPart fl part fun f p =>
    if f.kind == .mcrd then s
    else if f.kind == .tsub then (if p.state == .sent && s.mayPerform f f.parts then s.performTsub f else s)
    else s.homeRequest f part p)

/-- TSUB (18 R447): not ready while the dependence table is full or its pool empty. -/
def execTsub (t a : BitVec 7) (l : BitVec 4) : State → Host.Outcome State Fault Refusal :=
  runOp (.tsub t a l) { kind := .vector, uses := fun _ => [.src64 a, .dst64 t] } fun c args s =>
    match c.firstVal (args.getD 0 []) with
    | none => .ok (s.retireNext c)
    | some desc => do
      let at_ := c.lanes.map fun k => (k, desc)
      if natBits desc 56 8 ≠ 0 then .error (.trap .address at_)
      if desc % 128 ≠ 0 then .error (.trap .align at_)
      ready (s.parkRoom c)
      ready (match s.submit c.crew c.asid desc (.flight s.serial) with | .error .wait => false | _ => true)
      let frame : Double := match s.peek c.asid (desc + 8) 8 with
        | (.bytes bs, _) => BitVec.ofNat 64 (leValue (bs.map s.orFill))
        | _ => 0
      .ok (s.issueFlight c (.tsub t a l)
        { kind := .tsub, size := 8, dst := some fun _ => .dst64 t, la := l.toNat
          strength := ⟨true, 3, false, true, false⟩, aux := [BitVec.ofNat 64 desc, 0, frame] }
        (c.lanes.map fun _ => desc) [] [])

/-- A task of a dependence table has finished: its dependents are released (10 R248). -/
def State.taskDone (s : State) (id : Nat) : State :=
  State.pushReady { s with
    tasks := (s.tasks.filter fun (t : Task) => t.id != id).map fun (t : Task) => { t with deps := t.deps.filter (· != id) } }

end Sys2Proof.Machine
end

