-- ==== Sys2Proof/Machine/Fabric.lean ====
section
/-! DEFINITION. Fabric messages: their sending, answers and repair (13 R305, R306, R311, R315), requests that arrive from
peers (13 R304, R318), active messages (13 R307 to R310; 15 R339), and the adjustment of counts (13 R317; 17 R408).

Request kinds (assumption 12): 0 a read of a line; 1 a write, two doubles of byte mask and sixteen of data; 2 to 10 the
atomics of 15 R333 in its order and 11 JDEC and 12 PROM, three doubles a lane: operand (two) and FMT; 13 AMSG; 14 a
64-bit fetch-and-add; 15 a contribution to an exact reduction; 16 and 17 a host's 64-bit Swap and CAS. -/

namespace Sys2Proof.Machine
set_option Elab.async false
open Sys2Proof

/-! ### What an answer does -/

/-- The parts of a flight that a message carries. -/
def Flight.carried (f : Flight) (msg : Nat) : List Nat :=
  (List.range f.parts.length).filter fun i => match f.parts[i]? with
    | some p => p.state == .fabric msg
    | none => false

/-- The old value an atomic's message brings back, from which the lanes' returns are built in lane order; without an
answer it is FILL_BYTE bytes (13 R305, R306). (DEDUCED: assumption 59). -/
def State.atomicAnswer (s : State) (r : Option (List Double)) : Nat :=
  match r with
  | some d => (dbl d 0).toNat % 2 ^ 32
  | none => leValue (List.replicate 4 s.fillByte)

/-- One lane's part of a load or store is answered; without an answer its bytes are missing, so a typed load gets absent
codes and any other FILL_BYTE (13 R306). -/
def State.answerPart (s : State) (f : Flight) (r : Option (List Double)) (i : Nat) : State :=
  match f.parts[i]? with
  | none => s
  | some p =>
    let off := p.addr.toNat % lineBytes
    let n := f.need [p]
    let old : List (Option Byte) := match r with
      | some d => ((bytesOfDoubles d).drop off).take n |>.map some
      | none => List.replicate n none
    s.performed f [i] (.global p.addr.toNat) (s.effect f [p] old (old.map s.orFill) true)

/-- The lines that parts have written in another device wake their monitors (08 R206). -/
def State.noteParts (s : State) (f : Flight) (ps : List Part) : State :=
  if f.kind.writes then (dedup (ps.map fun p => p.addr.toNat / lineBytes)).foldl (fun s l => s.noteWrite f.asid l) s else s

/-- The parts a message carries are performed.  A JDEC's record was pushed by its target. -/
def State.answerParts (s : State) (f : Flight) (msg : Nat) (r : Option (List Double)) : State :=
  let idx := f.carried msg
  let s := if r.isSome then s.noteParts f (f.at_ idx) else s
  if f.kind.combines then
    let (olds, _) := atomicFold f.kind (f.member == 16) ((f.at_ idx).map fun p => (p.fmt, p.data.toNat)) (s.atomicAnswer r)
    s.performed f idx (.global 0) ⟨olds, none, []⟩
  else idx.foldl (fun s i => s.answerPart f r i) s

/-- Every active lane of an AMSG receives its status. -/
def State.answerAmsg (s : State) (fl status : Nat) : State :=
  s.mapFlight fl fun f => { f with parts := f.parts.map fun p =>
    if p.state == .returned then p else { p with result := BitVec.ofNat 128 status, state := .performed } }

/-- The bytes of a line that a read of no format receives (13 R306). -/
def State.answerLine (s : State) (r : Option (List Double)) : List Byte :=
  match r with
  | some d => (bytesOfDoubles d).take lineBytes
  | none => s.fillLine

/-- What an atomic of n bytes of no format returns: its old value, or FILL_BYTE bytes (13 R306). -/
def State.answerValue (s : State) (n : Nat) (r : Option (List Double)) : Nat :=
  match r with
  | some d => (dbl d 0).toNat % 2 ^ (8 * n)
  | none => leValue (List.replicate n s.fillByte)

/-- A command of a BTE receives the line it read, with no bytes where it is not supplied (04 R90; 13 R306), or the old value
of its fetch-and-add; a line it wrote wakes its monitors (08 R206). -/
def State.answerSlot (s : State) (m : Message) (c k va : Nat) (r : Option (List Double)) : State :=
  let waits (sl : Slot) : Bool := sl.state == .waiting && sl.wait == .data
  let s := match (s.slot c k).cmd with
    | some cmd => if m.kind != 0 && r.isSome then s.noteWrite cmd.asid (va / lineBytes) else s
    | none => s
  if m.kind = 0 then
    let bs := (r.map fun d => (bytesOfDoubles d).take lineBytes).getD []
    s.mapSlot c k fun sl =>
      if waits sl then { sl with state := .active, wait := .none, fetched := sl.fetched ++ [(va / lineBytes, bs)] } else sl
  else if m.kind = 14 || m.kind = 2 then
    let old := s.answerValue (if m.kind = 2 then 4 else 8) r
    s.mapSlot c k fun sl => if waits sl then { sl with state := .active, wait := .none, index := old, next := 1 } else sl
  else s

/-- A device agent has its answer: a line, an old value, or that its write is performed (13 R306). -/
def State.answerFar (s : State) (m : Message) (r : Option (List Double)) : State :=
  let ds := match r with
    | some d => d
    | none => if m.kind = 0 then doublesOf s.fillLine else [BitVec.ofNat 64 (s.answerValue 8 none)]
  { s with farOps := modifyWhere (·.msg == m.id) (fun o => { o with data := some ds }) s.farOps }

/-- Whether a request kind writes. -/
def messageWrites (kind : Nat) : Bool := kind != 0 && kind != 12

/-- A message is an active message. -/
def Message.isAmsg (m : Message) : Bool := m.kind == 13

/-- The lines that monitors and WAITVALs watch: ASID and line (08 R205; 09 R213). -/
def State.watched (s : State) : List (Nat × Nat) :=
  (s.crews.flatMap fun c => (c.gangs ++ c.seq.toList).flatMap fun g => g.slices.filterMap fun sl =>
    sl.monitor.bind fun m => if m.block.space = 0 then some (m.block.owner, m.block.line) else none) ++
  s.clusters.flatMap fun (_, cl) => cl.slots.filterMap fun k => k.cmd.bind fun c =>
    if k.watches c.asid ((dbl c.packet 1).toNat / lineBytes) then some (c.asid, (dbl c.packet 1).toNat / lineBytes) else none

/-- A write or atomic made in another device for an agent or a peer has been performed there: it is noted at every watched
line that leads to the same place (08 R206). -/
def State.noteFar (s : State) (m : Message) : State :=
  if !messageWrites m.kind || m.isAmsg then s
  else
    s.watched.foldl (fun s (asid, line) =>
      match (s.translate asid (line * lineBytes) .read).1 with
      | .ok (.fabric t off) => if t == m.target && off / lineBytes == m.offset / lineBytes then s.noteWrite asid line else s
      | _ => s) s

/-- Notes that a peer's request has been performed; the last 4,096 of each source are kept (13 R315).
(DEDUCED: assumption 57). -/
def State.noteTag (s : State) (source tag : Nat) : State :=
  let mine := s.tags.filter fun t => t.source == source && t.performed
  let old := mine.take (mine.length - 4095)
  { s with tags := s.tags.filter (fun t => !old.contains t) ++ [⟨source, tag, true⟩] }

/-- Answers a peer. -/
def State.respond (s : State) (source tag code : Nat) (data : List Double) : State :=
  { s with control := s.control ++ [.response source tag code data] }

/-- Bytes as doubles, the last one filled with zeros. -/
def doublesPadded (bs : List Byte) : List Double := doublesOf (bs ++ List.replicate (7 - (bs.length + 7) % 8) 0)

/-- An access has been answered, or, with no answer, ends as 13 R306 gives: a host then receives FILL_BYTE bytes.  A request relayed for a peer is counted
consumed now that it has been performed, which is noted, or has not been (13 R311, R315, R318). -/
def State.answered (s : State) (m : Message) (r : Option (List Double)) (status : Nat) : State :=
  let s := { s with messages := s.messages.filter (·.id != m.id) }
  let s := match m.owner with
    | .parts fl => match s.flight? fl with
      | some f => s.answerParts f m.id r
      | none => s
    | .slot c k va => s.answerSlot m c k va r
    | .amsg fl => s.answerAmsg fl status
    | .stream id =>
      let bs := s.answerLine r
      { s with streams := modifyWhere (·.id == id) (fun x => { x with got := some bs }) s.streams }
    | .far _ => (if r.isSome then s.noteFar m else s).answerFar m r
    | .writeBack wb => s.ackLines [wb]
    | .relay none source tag =>
      match r with
      | some data => (((s.noteFar m).noteTag source tag).countConsumed m.die m.job 1).respond source tag 0 data
      | none => (s.countConsumed m.die m.job 1).respond source tag 1 []
    | .relay (some port) at_ size =>
      let s := if r.isSome then s.noteFar m else s
      if m.kind = 1 then s
      else { s with hostOut := s.hostOut ++ [HostOut.answer port 0
        (if m.kind = 0 then doublesPadded (((s.answerLine r).drop at_).take size)
        else [BitVec.ofNat 64 (s.answerValue m.size r)])] }
  s.settleFlights

/-- An access completes as 13 R306 gives, counted in FAB_ERR of the port that last carried it (14 R330).
(DEDUCED: assumption 58). -/
def State.failMessage (s : State) (m : Message) (status : Nat) : State :=
  (s.portCount m.port cFabErr).answered m none status

/-- AMSG status codes (13 R307). -/
def amNoJob : Nat := 1
/-- NOQUEUE -/
def amNoQueue : Nat := 2
/-- FULL -/
def amFull : Nat := 3
/-- UNREACH -/
def amUnreach : Nat := 4
/-- BADMSG -/
def amBadMsg : Nat := 5

/-! ### Sending (13 R305, R311) -/

/-- The listed ports of an accelerator that are up, rising. -/
def State.routePorts (s : State) (target : Nat) : List Nat :=
  (List.range 48).filter fun p =>
    (tabGet s.routes target 0).getLsbD p && match s.ports[p]? with | some l => l.up | none => false

/-- Whether a message carries a write of a host port on to another device. -/
def Message.hostWrite (m : Message) (port : Nat) : Bool := m.owner == .relay (some port) 0 0 && messageWrites m.kind

/-- An active message waits for the earlier accesses of its slices: it is a release (13 R307).  A write of a host port waits
for the port's earlier ones (13 R321). -/
def State.mayInject (s : State) (m : Message) : Bool :=
  match m.owner with
  | .amsg fl => match s.flight? fl with
    | some f => s.mayPerform f f.parts
    | none => true
  | .relay (some port) _ _ => !m.hostWrite port || s.messages.all fun x => !(x.hostWrite port && x.id < m.id)
  | _ => true

/-- Requests outstanding to a target (13 R315). -/
def State.outstandingTo (s : State) (target : Nat) : Nat :=
  (s.messages.filter fun m => m.target == target && m.state != .ready).length

/-- A ready message is sent by its port, or ends where nothing can send it. -/
def State.inject (s : State) (m : Message) : State :=
  if m.job ≠ 0 && (s.jobEntry? m.die m.job).isNone then
    if m.isAmsg then s.answered m none amNoJob else s.failMessage m 0
  else
    let ports := s.routePorts m.target
    match ports[natBits m.pa 7 33 % ports.length]? with
    | none => s.failMessage m amUnreach
    | some p =>
      if 4096 ≤ s.outstandingTo m.target then s
      else
        let send (m : Message) : Message := { m with port := p, state := .outstanding, since := s.clock.toNat }
        State.countInjected { s with messages := modifyWhere (·.id == m.id) send s.messages } m.die m.job 1

/-- MESSAGE_INJECT (13 R305, R311). -/
def execMessageInject (msg : Nat) (s : State) : Host.Outcome State Fault Refusal :=
  .next <|
    match s.messages.find? fun m => m.id == msg && m.state == .ready with
    | some m => if s.mayInject m then s.inject m else s
    | none => s

/-- A message of a given number and state. -/
def State.message? (s : State) (msg : Nat) (st : MsgState) : Option Message :=
  s.messages.find? fun m => m.id == msg && m.state == st

/-- MESSAGE_RESPONSE (13 R305, R306, R311): 0 performed; 1 refused at the target; 2 the target has no entry for the job;
3 refused by the fabric.  The last two are taken off the injected count. (DEDUCED: assumption 53).
(DEDUCED: assumption 54). -/
def execMessageResponse (msg code : Nat) (payload : List (BitVec 64)) (s : State) : Host.Outcome State Fault Refusal :=
  .next <|
    match s.message? msg .outstanding with
    | none => s
    | some m =>
      match code with
      | 0 => s.answered m (some payload) (dbl payload 0).toNat
      | 1 => s.failMessage m amUnreach
      | _ => (s.countInjected m.die m.job (-1)).failMessage m amUnreach

/-! ### Repair (13 R315) -/

/-- A message enters QUERY, and the query is sent. -/
def State.toQuery (s : State) (m : Message) : State :=
  let s := (s.countPending m.die m.job 1).portCount m.port cQueried
  { s with
    messages := modifyWhere (·.id == m.id) (fun m => { m with state := .query, since := s.clock.toNat }) s.messages
    control := s.control ++ [.query m.target m.id] }

/-- RESP_TIMEOUT (13 R315). -/
def execRespTimeout (msg : Nat) (s : State) : Host.Outcome State Fault Refusal :=
  .next <|
    match s.message? msg .outstanding with
    | some m => if m.since + 1024 * bitsOf s.fabricCtl 16 16 ≤ s.clock.toNat then s.toQuery m else s
    | none => s

/-- QUERY_WAIT (13 R315): the query is sent again. -/
def execQueryWait (msg : Nat) (s : State) : Host.Outcome State Fault Refusal :=
  .next <|
    match s.message? msg .query with
    | some m =>
      if m.since + 1024 * bitsOf s.fabricCtl 32 16 ≤ s.clock.toNat then
        { s with
          messages := modifyWhere (·.id == m.id) (fun m => { m with since := s.clock.toNat }) s.messages
          control := s.control ++ [.query m.target m.id] }
      else s
    | none => s

/-- A peer's request that has arrived and is neither performed nor refused: it is on its way to a further device, or waits to
be written to a handler ring. -/
def State.inHand (s : State) (source tag : Nat) : Bool :=
  s.messages.any (fun m => m.owner == .relay none source tag) ||
    s.deviceAcc.any (fun a => match a with | .message _ _ p t _ _ => p == source && t == tag | _ => false) ||
    s.farOps.any fun o => match o.user with | .handler _ p t => p == source && t == tag | _ => false

/-- QUERY_RECEIVE (13 R315): a request answered NOT PERFORMED is discarded if it arrives later; one in hand is answered when
it is queried again. -/
def execQueryReceive (source tag : Nat) (s : State) : Host.Outcome State Fault Refusal :=
  .next <|
    if s.inHand source tag then s else
    let done := s.tags.any fun t => t.source == source && t.tag == tag && t.performed
    { s with
      tags := if done || s.tags.contains ⟨source, tag, false⟩ then s.tags else s.tags ++ [⟨source, tag, false⟩]
      control := s.control ++ [.answer source tag done] }

/-- A message ends LOST: its counts, its event record, and its access (13 R306, R315). -/
def State.loseMessage (s : State) (m : Message) : State :=
  let s := (((s.countPending m.die m.job (-1)).countInjected m.die m.job (-1)).countLost m.die m.job).portCount m.port cLostMsg
  (s.postEvent (eventRec 3 0 (m.port + 2 ^ 28 * 4 + 2 ^ 32 * m.kind + 2 ^ 40 * m.job) m.pa)).failMessage m amUnreach

/-- Whether a slot's command is a SIGNAL, which awaits no old value. -/
def Slot.signals (k : Slot) : Bool := k.cmd.any fun c => c.kind == .packet && pktType c.packet == 5

/-- Whether the issuer of a message waits for a value. -/
def State.returns? (s : State) (m : Message) : Bool :=
  match m.owner with
  | .parts fl => match s.flight? fl with
    | some f => m.kind == 0 || f.returns
    | none => m.kind == 0
  | .slot c k _ => m.kind == 0 || ((m.kind == 14 || m.kind == 2) && !(s.slot c k).signals)
  | .far _ => m.kind != 1
  | .writeBack _ => false
  | .amsg _ => false
  | .stream _ => true
  | .relay _ _ _ => m.kind == 0 || (2 ≤ m.kind && m.kind ≤ 11) || m.kind == 14 || m.kind == 16 || m.kind == 17

/-- A message is DELIVERED: what returns nothing is as if answered, what returns a value ends as 13 R306. -/
def State.deliverMessage (s : State) (m : Message) : State :=
  let s := s.countPending m.die m.job (-1)
  if s.returns? m then s.failMessage m 0 else s.answered m (some []) 0

/-- QUERY_ANSWER (13 R315). -/
def execQueryAnswer (msg performed : Nat) (s : State) : Host.Outcome State Fault Refusal :=
  .next <|
    match s.message? msg .query with
    | some m => if performed ≠ 0 then s.deliverMessage m else s.loseMessage m
    | none => s

/-! ### Links (13 R301, R302, R315, R319) -/

/-- Updates a port. -/
def State.mapLink (s : State) (port : Nat) (f : Link → Link) : State := { s with ports := listModify s.ports port f }

/-- PORT_TRAINING (13 R301, R302): four lanes, or two, or none; no port comes up before ACCEL_ID is written (14 R323).
(DEDUCED: assumption 62). -/
def execPortTraining (port lanes : Nat) (s : State) : Host.Outcome State Fault Refusal :=
  .next <|
    if !s.accelSet then s
    else s.mapLink port fun _ => ⟨lanes == 4 || lanes == 2, if lanes == 4 || lanes == 2 then lanes else 0, s.fabricCtl.getLsbD 52, 0⟩

/-- PORT_RETRAIN (13 R315, R319): the link fails and retrains; blocks 48 and 49 are the host ports' (14 R330). -/
def execPortRetrain (port : Nat) (s : State) : Host.Outcome State Fault Refusal :=
  .next <|
    match s.ports[port]? with
    | some l => if l.up then (s.mapLink port fun l => { l with fails := l.fails + 1 }).portCount port cRetrain else s
    | none => if 48 ≤ port && s.linkUp.getD (port - 48) false then s.portCount port cRetrain else s

/-- Failed retrains after which a port is down (13 R302). -/
def State.retrainLimit (s : State) : Nat := max 1 (bitsOf s.fabricCtl 48 4)

/-- RETRAIN_LIMIT (13 R315): the port is down, and its unacknowledged messages are queried. -/
def execRetrainLimit (port : Nat) (s : State) : Host.Outcome State Fault Refusal :=
  .next <|
    match s.ports[port]? with
    | some l =>
      if l.up && s.retrainLimit ≤ l.fails then
        (s.messages.filter fun m => m.port == port && m.state == .outstanding).foldl (fun s m => s.toQuery m)
          (s.mapLink port fun _ => ⟨false, 0, l.slow, 0⟩)
      else s
    | none => s

/-- LINK_LEVEL_REPLAY (13 R319): ports 0 to 47, and 48 and 49 for the host ports. -/
def execLinkLevelReplay (port : Nat) (s : State) : Host.Outcome State Fault Refusal :=
  .next (if port < 50 then s.portCount port cReplay else s)

/-! ### Requests from peers and hosts (13 R304, R318, R321, R322) -/

/-- Who asks: a bit of double 1 of an inbound window. -/
def srcFabric : Nat := 13

/-- The ASID and address an inbound offset of n bytes names for a source, or none where it is refused (13 R304).
(DEDUCED: assumption 61). -/
def State.inbound (s : State) (src offset n : Nat) (write : Bool) : Option (Nat × Nat) :=
  let w := natBits offset 35 5
  let off := natBits offset 0 35
  let d (k : Nat) : Double := tabGet s.windows (4 * w + k) 0
  let asid := bitsOf (d 1) 0 12
  let va := bitsOf (d 0) 0 56 + off
  if (d 1).getLsbD 16 && (d 1).getLsbD src && off + max n 1 ≤ bitsOf (d 2) 0 36 && (!write || (d 1).getLsbD 12) &&
      (src ≠ srcFabric || asid ≠ aliasAsid) && va + n ≤ 2 ^ 56 then some (asid, va)
  else none

/-- What serving a request gives. -/
inductive Served where
  /-- performed, with what it returns; true where a line read could not be delivered -/
  | done (data : List Double) (poison : Bool) (s : State)
  /-- its page faults: code and address -/
  | fault (code va : Nat) (s : State)
  /-- its page lies in another device -/
  | far (target off : Nat) (s : State)
  /-- the push of a JDEC's record answers it (10 R236) -/
  | pushed (s : State)
  /-- held at its home -/
  | held (s : State)

/-- Reads bytes and goes on with them; a line that an operation owns holds the read (08 R198). -/
def State.serveRead (s : State) (asid va n : Nat) (k : List Byte → Bool → State → Served) : Served :=
  if s.ownedSpan asid va n then .held s
  else
    match s.devPeek asid va n with
    | (.bytes bs, s) => k (bs.map s.orFill) (bs.contains none) s
    | (.fault code at_, s) => .fault code at_ s
    | (.fabric t off _, s) => .far t off s
    | (.held, s) => .held s

/-- Writes bytes as an owner or an agent that owns no line, and goes on. -/
def State.serveWrite (s : State) (me asid va : Nat) (bs : List Byte) (k : State → Served) : Served :=
  match s.devPoke me asid va bs with
  | (.done, s) => k s
  | (.fault code at_, s) => .fault code at_ s
  | (.fabric t off _, s) => .far t off s
  | (.held, s) | (.owned, s) => .held s

/-- Bytes side by side that a mask selects: where each run begins, and its bytes. -/
def maskRuns (m : Nat) : Nat → List Byte → List (Nat × List Byte)
  | _, [] => []
  | i, b :: bs =>
    if m.testBit i then
      match maskRuns m (i + 1) bs with
      | (j, r) :: rest => if j = i + 1 then (i, b :: r) :: rest else (i, [b]) :: (j, r) :: rest
      | [] => [(i, [b])]
    else maskRuns m (i + 1) bs

/-- Writes the runs of a line. -/
def State.serveRuns (s : State) (asid va : Nat) : List (Nat × List Byte) → Served
  | [] => .done [] false s
  | (i, bs) :: rest => s.serveWrite deviceOwner asid (va + i) bs fun s => s.serveRuns asid va rest

/-- The atomic a request kind names. -/
def messageAtomic : Nat → AccKind
  | 2 => .aadd | 3 => .amin | 4 => .amax | 5 => .aand | 6 => .aor | 7 => .axor | 8 => .axch | 9 => .acas | 10 => .afadd
  | _ => .jdec

/-- The lanes of an atomic's message: FMT and operand, and whether they are an easel's. -/
def messageLanes : List Double → List (Word × Nat) × Bool
  | lo :: hi :: w :: rest =>
    let (ls, e) := messageLanes rest
    ((BitVec.ofNat 32 (bitsOf w 0 32), lo.toNat + 2 ^ 64 * hi.toNat) :: ls, e || w.getLsbD 32)
  | _ => ([], false)

/-- A 64-bit atomic at its home: `f` gives the new value. -/
def State.serveDouble (s : State) (asid va : Nat) (f : Nat → Nat) : Served :=
  s.serveRead asid va 8 fun bs _ s =>
    let old := leValue bs
    s.serveWrite deviceOwner asid va (leBytes 8 (f old)) fun s => .done [BitVec.ofNat 64 old] false s

/-- The records a peer's JDEC pushes; the first push answers it (10 R236). -/
def State.servePushes (s : State) (source tag old : Nat) (r : Record) (die : Nat) : Nat → State
  | 0 => s
  | n + 1 =>
    let s := s.pushRecord r .plain die none none
    State.servePushes { s with pushes := listModify s.pushes (s.pushes.length - 1) fun p =>
      { p with reply := if n = 0 then some (source, tag, BitVec.ofNat 64 old) else none } } source tag old r die n

/-- Serves one request of a peer at its home: kind, address, payload; `job` and `die` for the record a JDEC pushes. -/
def State.serve (s : State) (source tag kind asid va : Nat) (payload : List Double) (job die : Nat) : Served :=
  let line := va / lineBytes * lineBytes
  match kind with
  | 0 => s.serveRead asid line lineBytes fun bs poison s => .done (doublesOf bs) poison s
  | 1 => s.serveRuns asid line
      (maskRuns ((dbl payload 0).toNat + 2 ^ 64 * (dbl payload 1).toNat) 0 (bytesOfDoubles ((payload.drop 2).take 16)))
  | 12 => s.serveRead asid va 4 fun _ _ s => .done [] false s
  | 14 => s.serveDouble asid va fun old => old + (dbl payload 0).toNat
  | 16 => s.serveDouble asid va fun _ => (dbl payload 0).toNat
  | 17 => s.serveDouble asid va fun old => if old = (dbl payload 0).toNat then (dbl payload 1).toNat else old
  | 15 =>
    match s.devTranslate asid va .write with
    | (none, s) => .held s
    | (some (.error code), s) => .fault code va s
    | (some (.ok (.fabric t off)), s) => .far t off s
    | (some (.ok _), s) =>
      let h := dbl payload 0
      .done [] false { s with contribs := s.contribs ++
        [⟨asid, va, bitsOf h 0 32, bitsOf h 32 8, bitsOf h 40 24, payload.tail.map BitVec.toInt⟩] }
  | k =>
    if k < 12 then
      let a := messageAtomic k
      s.serveRead asid va (if a = .jdec then 128 else 4) fun bs _ s =>
        let (lanes, easel) := messageLanes payload
        let old := leValue (bs.take 4)
        let (olds, w) := atomicFold a easel lanes old
        s.serveWrite deviceOwner asid va (leBytes 4 w) fun s =>
          let n := if a = .jdec then (olds.filter (· == 1)).length else 0
          if n = 0 then .done [BitVec.ofNat 64 old] false s
          else .pushed (s.servePushes source tag old (recordOf (bs.drop 64) (recordTag job asid none)) die n)
    else .done [] false s

/-- A peer's request is refused: code 1, or 2 where its job has no entry (13 R304, R311); REFUSED counts on the port it
arrived on (14 R330). -/
def State.refusePeer (s : State) (port source tag code : Nat) : State := (s.portCount port cRefused).respond source tag code []

/-- A request that is not to be served: it was answered NOT PERFORMED, or it is on its way to a further device. -/
def State.discarded (s : State) (source tag : Nat) : Bool :=
  s.tags.contains ⟨source, tag, false⟩ || s.messages.any fun m => m.owner == .relay none source tag

/-- The die whose entry counts a peer's request: that of its address's home, or of its port where no window admits it. -/
def targetDie (port : Nat) (place : Option (Nat × Nat)) : Nat :=
  match place with
  | some (asid, va) => homeOf va asid / 192
  | none => port / 24

/-- Where a request of a peer comes from: the UALink port it came by, one of 48 (14 R330), and the peer's number.  A step
names both by one number, 1,024 × port + peer. -/
def originOf (origin : Nat) : Nat × Nat := (origin / 1024 % 48, origin % 1024)

/-- INBOUND_FABRIC_REQUEST (13 R304, R311, R315, R318, R322; 11 R480). -/
def execInboundFabricRequest (origin tag kind offset size job : Nat) (payload : List (BitVec 64)) (s : State) :
    Host.Outcome State Fault Refusal :=
  .next <|
    let (port, source) := originOf origin
    if s.discarded source tag then s
    else
      let place := s.inbound srcFabric offset size (messageWrites kind)
      let die := targetDie port place
      if job ≠ 0 && (s.jobEntry? die job).isNone then s.refusePeer port source tag 2
      else
        match place with
        | none => (s.refusePeer port source tag 1).countConsumed die job 1
        | some (asid, va) =>
          match s.serve source tag kind asid va payload job die with
          | .done data _ s => ((s.noteTag source tag).countConsumed die job 1).respond source tag 0 data
          | .pushed s => (s.noteTag source tag).countConsumed die job 1
          | .fault code at_ s =>
            ((s.refusePeer port source tag 1).countConsumed die job 1).postEvent (faultEvent 0xFFFE asid code at_)
          | .far t off s => s.newMessage (.relay none source tag) none kind t off size payload job die
          | .held s => s

/-! ### Active messages (13 R307 to R310; 15 R339) -/

/-- AMSG (13 R307, 15 R339). -/
def execAmsg (t b : BitVec 7) (l : BitVec 4) : State → Host.Outcome State Fault Refusal :=
  runOp (.amsg t b l)
    { kind := .vector, feat := [8], uses := fun _ => [packetUse b, .dst t] } fun c args s =>
    match c.firstVal (args.getD 0 []) with
    | none => .ok (s.retireNext c)
    | some v =>
      let ds := packetOf v 0 1
      let o : Launching :=
        { kind := .amsg, size := 0, dst := some fun _ => .dst t, la := l.toNat, strength := ⟨true, 6, false, true, false⟩ }
      if bitsOf (dbl ds 0) 32 32 ≠ 0 || dbl ds 7 ≠ 0 then
        .ok (s.issueFlight c (.amsg t b l) { o with start := .performed } [] [] (c.lanes.map fun _ => amBadMsg))
      else
        .ok ((s.issueFlight c (.amsg t b l) { o with start := .fabric (s.serial + 1) } [] [] []).newMessage (.amsg s.serial)
          (some c.crew.id) 13 (bitsOf (dbl ds 0) 0 10) 0 64 ds c.crew.job c.die)

/-- The two ways an active message ends at its target: with a status, or waiting on a fault. -/
inductive Received where
  | status (n : Nat) (s : State)
  | wait (s : State)
  /-- it waits at a home, for another device, or behind another message of its ring -/
  | held (s : State)

/-- Writes a message to its handler's ring and, once its slot is written, pushes the handler's task (13 R309). (DEDUCED: assumption 60). -/
def State.receive (s : State) (port source tag job : Nat) (payload : List Double) : Received :=
  let h := dbl payload 0
  let q := bitsOf h 10 6
  let conf := s.handlerDouble q 1
  let asid := bitsOf conf 5 12
  let counts := s.handlerDouble q 3
  let filled := bitsOf counts 0 32
  let slots := 2 ^ bitsOf conf 0 4
  let ring := (s.handlerDouble q 0).toNat
  let u : FarUser := .handler q source tag
  let at_ := ring + 64 * (filled % slots)
  let tmpl := (s.handlerDouble q 2).toNat
  if !conf.getLsbD 4 || 2 ^ 56 < at_ + 64 || 2 ^ 56 < tmpl + 64 then .status amNoQueue s
  else if (filled + 2 ^ 32 - bitsOf counts 32 32) % 2 ^ 32 = slots then .status amFull s
  else if s.farOps.any fun o => o.user != u && match o.user with | .handler p _ _ => p == q | _ => false then .held s
  else
    let retry (code va : Nat) (s : State) : Received :=
      .wait ((s.farDone u).deviceFault (.message q port source tag job payload) asid code va)
    let head : Double := BitVec.ofNat 64 (source % 2 ^ 10 + 2 ^ 10 * q + 2 ^ 16 * bitsOf h 16 16 + 2 ^ 32 * (job % 2 ^ 24))
    let push (bs : List Byte) (s : State) : Received :=
      let r := recordOf bs (recordTag job asid none)
      let s := (s.farDone u).setHandler q 3 (BitVec.ofNat 64 ((filled + 1) % 2 ^ 32 + 2 ^ 32 * bitsOf counts 32 32))
      .status 0 (s.pushRecord { r with d1 := BitVec.ofNat 64 at_ } (.handler q source tag job) (homeOf at_ asid / 192) none none)
    let die := homeOf at_ asid / 192
    match s.agentPeek u job die asid tmpl 64 with
    | (.wait, s) => .held s
    | (.fault code va, s) => retry code va s
    | (.bytes bs, s) =>
      match s.agentPoke u job die asid at_ (bytesOfDoubles (head :: (payload.drop 1).take 7)) with
      | (.done, s) => push bs s
      | (.fault code va, s) => retry code va s
      | (.wait, s) => .held s

/-- The die whose entry counts an active message: its ring's home's, or its port's where the ring is not enabled. -/
def State.handlerDie (s : State) (port q : Nat) : Nat :=
  let conf := s.handlerDouble q 1
  let filled := bitsOf (s.handlerDouble q 3) 0 32
  if conf.getLsbD 4 then
    homeOf ((s.handlerDouble q 0).toNat + 64 * (filled % 2 ^ bitsOf conf 0 4)) (bitsOf conf 5 12) / 192
  else port / 24

/-- An active message is accepted, refused with NOQUEUE or FULL, or waits on a fault of its handler's memory. -/
def State.amsgReceive (s : State) (port source tag job : Nat) (payload : List Double) : State :=
  let q := bitsOf (dbl payload 0) 10 6
  let die := s.handlerDie port q
  if s.deviceAcc.contains (.message q port source tag job payload) then s
  else if job ≠ 0 && (s.jobEntry? die job).isNone then s.refusePeer port source tag 2
  else
    match s.receive port source tag job payload with
    | .status 0 s => (s.noteTag source tag).respond source tag 0 [0]
    | .status n s => ((s.portCount port cRefused).countConsumed die job 1).respond source tag 0 [BitVec.ofNat 64 n]
    | .wait s | .held s => s

/-- AMSG_RECEIVE (13 R309, R311). -/
def execAmsgReceive (origin tag job : Nat) (payload : List (BitVec 64)) (s : State) : Host.Outcome State Fault Refusal :=
  let (port, source) := originOf origin
  .next (if s.discarded source tag then s else s.amsgReceive port source tag job payload)

/-! ### QADJ (13 R317, 17 R408) -/

/-- The shared meaning of QADJ's operations: `f` acts on the die and the job; the status is 3 without an entry. -/
def qadj (i : Instr) (d a : BitVec 7) (f : State → Nat → Nat → Int → State) : State → Host.Outcome State Fault Refusal :=
  runOp i { priv := true, uses := fun _ => [.src64 a, .dst d] } fun c args s =>
    match c.firstVal (args.getD 0 []) with
    | none => .ok (s.retireNext c)
    | some v =>
      let job := natBits v 0 24
      let found := (s.jobEntry? c.die job).isSome
      let s := if found then f s c.die job (BitVec.ofNat 32 (natBits v 32 32)).toInt else s
      .ok ((s.writeField c (fun _ => .dst d) (c.lanes.map fun _ => if found then 0 else 3)).retireNext c)

/-- QADJ operation 0 (13 R317). -/
def execQadjInjected (d a : BitVec 7) : State → Host.Outcome State Fault Refusal :=
  qadj (.qadjInjected d a) d a fun s die job n => s.countInjected die job n

/-- QADJ operation 1 (13 R317). -/
def execQadjConsumed (d a : BitVec 7) : State → Host.Outcome State Fault Refusal :=
  qadj (.qadjConsumed d a) d a fun s die job n => s.countConsumed die job n

/-- LOST becomes 0. -/
def State.clearLost (s : State) (die job : Nat) : State :=
  match s.jobEntry? die job with
  | some e => s.setJob die e 4 (BitVec.ofNat 64 (2 ^ 32 * bitsOf (s.jobDouble die e 4) 32 32))
  | none => s

/-- QADJ operation 2 (13 R317). -/
def execQadjClearLost (d a : BitVec 7) : State → Host.Outcome State Fault Refusal :=
  qadj (.qadjClearLost d a) d a fun s die job _ => s.clearLost die job

/-- Every message of a job from a die that is in QUERY ends LOST. -/
def State.loseQueried (s : State) (die job : Nat) : State :=
  (s.messages.filter fun m => m.state == .query && m.job == job && m.die == die).foldl (fun s m => s.loseMessage m) s

/-- QADJ operation 3 (13 R317). -/
def execQadjQueryToLost (d a : BitVec 7) : State → Host.Outcome State Fault Refusal :=
  qadj (.qadjQueryToLost d a) d a fun s die job _ => s.loseQueried die job

end Sys2Proof.Machine
end

