-- ==== Sys2Proof/Machine/Sign.lean ====
section
/-! DEFINITION. SHA-256 and ECDSA over P-256, which 00 R1 names for firmware and attestation signatures (14 R325 to R327).
The spec names the two algorithms and does not write them out: their constants and formulas are the published ones
(PRESUMED: assumption 8). -/

namespace Sys2Proof.Machine
set_option Elab.async false
open Sys2Proof

/-! ### SHA-256 -/

/-- The primes below 312: the first 64. -/
def shaPrimes : List Nat := (List.range 312).filter fun n => 2 ≤ n && (List.range 18).all fun d => d < 2 || n ≤ d || n % d ≠ 0

/-- The first 32 bits of the fraction of the k-th root of a number below 512, found bit by bit. -/
def rootFraction (k n : Nat) : Word :=
  BitVec.ofNat 32 ((List.range 37).foldr (fun b r => r + if (r + 2 ^ b) ^ k ≤ n * 2 ^ (32 * k) then 2 ^ b else 0) 0)

/-- The round constants: of the cube roots of the first 64 primes. -/
def shaRounds : List Word := shaPrimes.map (rootFraction 3)

/-- The value the chain of blocks begins with: of the square roots of the first eight primes. -/
def shaStart : List Word := (shaPrimes.take 8).map (rootFraction 2)

/-- Bytes, the first the most significant, as a number. -/
def beValue (bs : List Byte) : Nat := bs.foldl (fun a b => 256 * a + b.toNat) 0

/-- The n low bytes of a number, the most significant first. -/
def beBytes (n v : Nat) : List Byte := (leBytes n v).reverse

/-- A message with a one bit, zeros up to 8 bytes short of a block's end, and its length in bits. -/
def shaPad (m : List Byte) : List Byte :=
  m ++ 0x80 :: List.replicate ((119 - m.length % 64) % 64) 0 ++ beBytes 8 (8 * m.length)

/-- The two exclusive ors of rotated and shifted words of the schedule, and the two of a round. -/
def shaMix (x : Word) (a b c : Nat) (shift : Bool) : Word :=
  x.rotateRight a ^^^ x.rotateRight b ^^^ (if shift then x >>> c else x.rotateRight c)

/-- The next word of the schedule, of the words before it, the last first. -/
def shaNext (ws : List Word) : Word :=
  let w (k : Nat) : Word := ws.getD (k - 1) 0
  shaMix (w 2) 17 19 10 true + w 7 + shaMix (w 15) 7 18 3 true + w 16

/-- The 64 words of a block's schedule. -/
def shaSchedule (block : List Byte) : List Word :=
  let first := (cutRows 4 block 16).map fun bs => BitVec.ofNat 32 (beValue bs)
  (Nat.iterate (fun ws => shaNext ws :: ws) 48 first.reverse).reverse

/-- One round, of a round constant and a word of the schedule. -/
def shaRound (v : List Word) (kw : Word × Word) : List Word :=
  match v with
  | [a, b, c, d, e, f, g, h] =>
    let t := h + shaMix e 6 11 25 false + ((e &&& f) ^^^ (~~~e &&& g)) + kw.1 + kw.2
    let u := shaMix a 2 13 22 false + ((a &&& b) ^^^ (a &&& c) ^^^ (b &&& c))
    [t + u, a, b, c, d + t, e, f, g]
  | v => v

/-- One block joins the chain. -/
def shaBlock (v : List Word) (block : List Byte) : List Word :=
  List.zipWith (· + ·) v ((shaRounds.zip (shaSchedule block)).foldl shaRound v)

/-- SHA-256: the digest's 32 bytes in their natural order (14 R327). (PRESUMED: assumption 8). -/
def sha256 (m : List Byte) : List Byte :=
  let p := shaPad m
  ((cutRows 64 p (p.length / 64)).foldl shaBlock shaStart).flatMap fun w => beBytes 4 w.toNat

/-! ### ECDSA over P-256 -/

/-- The field's prime. -/
def p256Field : Nat := 0xffffffff00000001000000000000000000000000ffffffffffffffffffffffff

/-- The order of the curve's base point. -/
def p256Order : Nat := 0xffffffff00000000ffffffffffffffffbce6faada7179e84f3b9cac2fc632551

/-- A power of a number to a modulus, for an exponent of at most n bits: that of the exponent's half, squared, times the
number where the exponent is odd. -/
def powMod (m b e : Nat) : Nat → Nat
  | 0 => 1
  | n + 1 =>
    let r := powMod m b (e / 2) n
    if e % 2 = 1 then r * r % m * b % m else r * r % m

/-- The inverse to a prime modulus of at most 256 bits, by Fermat. -/
def invMod (m x : Nat) : Nat := powMod m (x % m) (m - 2) 256

/-- A difference in the field. -/
def fieldSub (a b : Nat) : Nat := (a + p256Field - b % p256Field) % p256Field

/-- Twice a point: X, Y and Z, of which a point at infinity has Z 0 (the curve's first coefficient is -3). -/
def pointDouble : Nat × Nat × Nat → Nat × Nat × Nat
  | (x, y, z) =>
    let d := z * z % p256Field
    let g := y * y % p256Field
    let b := x * g % p256Field
    let a := 3 * fieldSub x d * (x + d) % p256Field
    let x3 := fieldSub (a * a) (8 * b)
    (x3, fieldSub (a * fieldSub (4 * b) x3) (8 * g * g), 2 * y * z % p256Field)

/-- The sum of two points. -/
def pointAdd : Nat × Nat × Nat → Nat × Nat × Nat → Nat × Nat × Nat
  | (x, y, z), (x', y', z') =>
    if z = 0 then (x', y', z')
    else if z' = 0 then (x, y, z)
    else
      let zz := z * z % p256Field
      let ww := z' * z' % p256Field
      let u := x * ww % p256Field
      let s := y * z' % p256Field * ww % p256Field
      let h := fieldSub (x' * zz) u
      let r := fieldSub (y' * z % p256Field * zz) s
      if h = 0 then if r = 0 then pointDouble (x, y, z) else (1, 1, 0)
      else
        let hh := h * h % p256Field
        let v := u * hh % p256Field
        let x3 := fieldSub (r * r) (h * hh + 2 * v)
        (x3, fieldSub (r * fieldSub v x3) (s * h % p256Field * hh), h * z % p256Field * z' % p256Field)

/-- n times a point, for n of at most `bits` bits. -/
def pointMul (q : Nat × Nat × Nat) (n : Nat) : Nat → Nat × Nat × Nat
  | 0 => (1, 1, 0)
  | bits + 1 =>
    let h := pointDouble (pointMul q (n / 2) bits)
    if n % 2 = 1 then pointAdd h q else h

/-- The curve's base point. -/
def p256Base : Nat × Nat × Nat :=
  (0x6b17d1f2e12c4247f8bce6e563a440f277037d812deb33a0f4a13945d898c296,
   0x4fe342e2fe1a7f9b8ee7eb4a7c0f9e162bce33576b315ececbb6406837bf51f5, 1)

/-- A point's first affine coordinate, to the order of the base point. -/
def pointX (q : Nat × Nat × Nat) : Nat :=
  q.1 * invMod p256Field (q.2.2 * q.2.2 % p256Field) % p256Field % p256Order

/-- Whether (r, s) is a signature, under the public key with these coordinates, of a message with this digest. -/
def ecdsaVerify (kx ky : Nat) (digest : List Byte) (r s : Nat) : Bool :=
  let w := invMod p256Order s
  let u := beValue digest * w % p256Order
  let v := r * w % p256Order
  let q := pointAdd (pointMul p256Base u 256) (pointMul (kx, ky, 1) v 256)
  1 ≤ r && r < p256Order && 1 ≤ s && s < p256Order && q.2.2 != 0 && pointX q == r

/-- The signature r, s of a digest under a private key, with the number k that ECDSA draws for it. -/
def ecdsaSign (key k : Nat) (digest : List Byte) : Nat × Nat :=
  let r := pointX (pointMul p256Base k 256)
  (r, invMod p256Order k * ((beValue digest + r * key) % p256Order) % p256Order)

end Sys2Proof.Machine
end

