-- ==== Sys2Proof/Machine/SpecFun.lean ====
section
/-! DEFINITION. The eight special functions (16 R371, R372): the exact value of the function, rounded once.  Reciprocals
and square roots are exact; the transcendental functions are computed in fixed point to 512 bits after the binary
point and a last odd bit that stands for the part below, so that the one rounding of R372 sees on which side of a tie
the value lies (assumption 20). -/

namespace Sys2Proof.Machine
set_option Elab.async false
open Sys2Proof

/-- Bits after the binary point. (DEDUCED: assumption 20). -/
def fxBits : Nat := 512

/-- floor(π × 2^640). -/
def piFix : Nat :=
  0x3243f6a8885a308d313198a2e03707344a4093822299f31d0082efa98ec4e6c89452821e638d01377be5466cf34e90c6cc0ac29b7c97c50dd3f84d5b5b54709179216d5d98979fb1bd1310ba698dfb5ac

/-- floor(ln 2 × 2^640). -/
def ln2Fix : Nat :=
  0xb17217f7d1cf79abc9e3b39803f2f6af40f343267298b62d8a0d175b8baafa2be7b876206debac98559552fb4afa1b10ed2eae35c138214427573b291169b8253e96ca16224ae8c51acbda11317c387e

/-- A constant held to 640 bits, cut to the working precision. -/
def cutFix (c : Nat) : Nat := c / 2 ^ (640 - fxBits)

/-- A positive value from a fixed-point floor that is not exact. -/
def Val.ofFix (neg : Bool) (x : Nat) : Val := .fin neg (2 * x + 1) 1 (-(fxBits : Int) - 1)

/-- The integer square root by bits, from bit n down. -/
def isqrtFrom (v : Nat) : Nat → Nat → Nat
  | 0, r => r
  | n + 1, r => let r' := r + 2 ^ n; if r' * r' ≤ v then isqrtFrom v n r' else isqrtFrom v n r

/-- floor(√v). -/
def isqrt (v : Nat) : Nat := isqrtFrom v (Nat.log2 v / 2 + 1) 0

/-- √(num ÷ den × 2^e), exact when it is a number of the working precision. -/
def sqrtVal (num den : Nat) (e : Int) : Val :=
  let (num, e) := if e % 2 = 0 then (num, e) else (2 * num, e - 1)
  -- √(num ÷ den) = √(num × den) ÷ den; 2^(2·256) more bits make the root precise
  let v := num * den * 2 ^ 512
  let r := isqrt v
  if r * r = v then .fin false r den (e / 2 - 256) else .fin false (2 * r + 1) den (e / 2 - 257)

/-- The sum of a Taylor series in fixed point: terms t, then t × x ÷ (2^bits × k), with k from `step` upward. -/
def expSeries (x : Nat) : Nat → Nat → Nat → Nat
  | 0, _, _ => 0
  | n + 1, k, t => t + expSeries x n (k + 1) (t * x / 2 ^ fxBits / k)

/-- e^x for 0 ≤ x < 1 in fixed point. -/
def expFix (x : Nat) : Nat := expSeries x 110 1 (2 ^ fxBits)

/-- The alternating series of sine (k = 2) and cosine (k = 1) in fixed point. -/
def trigSeries (x2 : Nat) : Nat → Nat → Int → Int
  | 0, _, _ => 0
  | n + 1, k, t => t + trigSeries x2 n (k + 2) (-(t * x2 / 2 ^ fxBits / (k * (k + 1))))

/-- sin r for 0 ≤ r ≤ π/2. -/
def sinFix (r : Nat) : Int := trigSeries (r * r / 2 ^ fxBits) 70 2 r

/-- cos r for 0 ≤ r ≤ π/2. -/
def cosFix (r : Nat) : Int := trigSeries (r * r / 2 ^ fxBits) 70 1 (2 ^ fxBits : Nat)

/-- Σ z^(2k+1) ÷ (2k+1). -/
def atanhSeries (z2 : Nat) : Nat → Nat → Nat → Nat
  | 0, _, _ => 0
  | n + 1, k, t => t / k + atanhSeries z2 n (k + 2) (t * z2 / 2 ^ fxBits)

/-- ln y for 1 ≤ y < 2 in fixed point. -/
def lnFix (y : Nat) : Nat :=
  let z := (y - 2 ^ fxBits) * 2 ^ fxBits / (y + 2 ^ fxBits)
  2 * atanhSeries (z * z / 2 ^ fxBits) 170 1 z

/-- A magnitude num × 2^e in fixed point; every argument of 04's formats is held exactly. -/
def toFix (num : Nat) (e : Int) : Nat := num * pow2 (e + fxBits) / pow2 (-(e + fxBits))

/-- 2^x for a finite x. -/
def exp2Val (neg : Bool) (num : Nat) (e : Int) : Val :=
  if Nat.log2 num + e > 12 then (if neg then .fin false 1 1 (-4096) else .fin false 1 1 4096)
  else
    let x := toFix num e
    let n := x / 2 ^ fxBits
    let f := x % 2 ^ fxBits
    if f = 0 then .fin false 1 1 (if neg then -(n : Int) else n)
    else
      let (n', f') : Int × Nat := if neg then (-(n : Int) - 1, 2 ^ fxBits - f) else (n, f)
      .fin false (2 * expFix (f' * cutFix ln2Fix / 2 ^ fxBits) + 1) 1 (n' - fxBits - 1)

/-- log2 of a positive finite value. -/
def log2Val (num : Nat) (e : Int) : Val :=
  let l := Nat.log2 num
  let ex : Int := l + e
  if num = 2 ^ l then .ofInt ex
  else
    let y := num * 2 ^ fxBits / 2 ^ l
    let frac := lnFix y * 2 ^ fxBits / cutFix ln2Fix
    let v : Int := ex * 2 ^ fxBits + frac
    if v < 0 then .fin true (2 * v.natAbs - 1) 1 (-(fxBits : Int) - 1) else .ofFix false v.toNat

/-- Sine (quarter 0) or cosine (quarter 1) of a magnitude, with exact range reduction. -/
def trigVal (quarter : Nat) (neg : Bool) (num : Nat) (e : Int) : Val :=
  let x := toFix num e
  let half := piFix / 2 ^ (641 - fxBits)
  let q := x / half + quarter
  let r := x % half
  let v := if q % 2 = 0 then sinFix r else cosFix r
  let minus := decide (q % 4 ≥ 2)
  let n := v.toNat
  Val.ofFix (minus != (neg && quarter == 0)) n

/-- The hyperbolic tangent of a magnitude. -/
def tanhVal (neg : Bool) (num : Nat) (e : Int) : Val :=
  if Nat.log2 num + e > 5 then .fin neg (2 ^ 80 - 1) 1 (-80)
  else
    let t := 2 * toFix num e
    let ln2 := cutFix ln2Fix
    let n := t / ln2
    let ex := expFix (t % ln2) * 2 ^ n
    Val.ofFix neg ((ex - 2 ^ fxBits) * 2 ^ fxBits / (ex + 2 ^ fxBits))

/-- The special functions. -/
inductive SpecFun where
  | rcp | rsq | sqrt | exp2 | log2 | sin | cos | tanh
  deriving DecidableEq, Repr

/-- The exact value of a special function at an exact argument (16 R372 and its table of special arguments). -/
def specVal (g : SpecFun) : Val → Val
  | .absent => .absent
  | .nan => .nan
  | .inf s =>
    match g with
    | .rcp => .fin s 0 1 0
    | .rsq => if s then .nan else .zero
    | .sqrt => if s then .nan else .inf false
    | .exp2 => if s then .zero else .inf false
    | .log2 => if s then .nan else .inf false
    | .sin | .cos => .nan
    | .tanh => .fin s 1 1 0
  | .fin s n d e =>
    if n = 0 then
      match g with
      | .rcp | .rsq => .inf s
      | .sqrt | .sin | .tanh => .fin s 0 1 0
      | .exp2 | .cos => .one
      | .log2 => .inf true
    else
      match g with
      | .rcp => .fin s d n (-e)
      | .rsq => if s then .nan else sqrtVal d n (-e)
      | .sqrt => if s then .nan else sqrtVal n d e
      | .exp2 => exp2Val s n e
      | .log2 => if s then .nan else log2Val n e
      | .sin => trigVal 0 s n e
      | .cos => trigVal 1 s n e
      | .tanh => tanhVal s n e

end Sys2Proof.Machine
end

