-- ==== Sys2Proof/Machine/Queues.lean ====
section
/-! DEFINITION. The special-function queue and the conversion queue: FRCP to FTANH, CVT, QNT, DQT and the steps that
bring their results (04 R98, R100, R101; 15 R356 to R358, R363, R364; 16 R371, R372; 17 R411 to R413).  Operands are
read at issue, and the result is on its way from then on. -/

namespace Sys2Proof.Machine
set_option Elab.async false
open Sys2Proof

/-- Major opcodes of the special functions (16 R371). -/
def sfqOps : List Nat := [0x35, 0x36, 0x37, 0x38, 0x39, 0x3A, 0x3B, 0x3C]

/-- Major opcodes of CVT, QNT and DQT. -/
def cvqOps : List Nat := [0x32, 0x33, 0x34]

/-- Instructions of some opcodes in flight on the issuing core: those in its queue. -/
def State.queued (s : State) (c : Ctx) (ops : List Nat) : Nat :=
  (s.flights.filter fun f => f.kind == .result && ops.contains f.opcode &&
    match s.crew? f.crew with
    | some k => k.cluster == c.crew.cluster && match k.member? f.member with
      | some g => !g.isSeq && g.core == c.gang.core
      | none => false
    | none => false).length

/-- The core's special-function or conversion queue has room for an instruction (15 R358; 16 R371; 17 R413).  How many it
holds the spec does not say. (DESIGN CHOICE: assumption 91). -/
def State.queueRoom (s : State) (c : Ctx) (i : Instr) : Bool :=
  if sfqOps.contains (opcodeOf i) then s.queued c sfqOps ≤ Config.sfqDepth else s.queued c cvqOps ≤ Config.cvqDepth

/-- An instruction of a queue: it waits for room there, and each active lane's result goes to its destination when it
arrives. -/
def queueOp (i : Instr) (o : OpSpec) (dst : Slice → Use) (size : Nat) (la : BitVec 4) (f : Slice → List Nat → Nat) :
    State → Host.Outcome State Fault Refusal :=
  runOp i o fun c args s => do
    ready (s.queueRoom c i)
    .ok (s.issueFlight c i { kind := .result, size := size, dst := some dst, la := la.toNat, start := .performed } [] []
      (c.perLane args f))

/-! ### Special functions (16 R371, R372) -/

/-- The elements of a special function's operand: FP32, or BF16 with PACK. -/
def sfqFmt (k : BitVec 1) : Nat := if k == 1 then 6 else 8

/-- A special function of each element. -/
def sfqVal (g : SpecFun) (ab : Bool) (f x : Nat) : Nat :=
  elemsOf f fun k => roundVal f (specVal g (decodeVal ab f (elem x (fmtWidth f) k)))

/-- The shared meaning of the special functions. -/
def sfqOp (i : Instr) (g : SpecFun) (d a : BitVec 7) (k : BitVec 1) (l : BitVec 4) :
    State → Host.Outcome State Fault Refusal :=
  queueOp i { kind := .vector, feat := [0], uses := fun _ => [.src a, .dst d] } (fun _ => .dst d) 4 l
    fun sl xs => sfqVal g (fmtAbsent sl.fmt) (sfqFmt k) (xs.getD 0 0)

/-- FRCP (16 R372). -/
def execFrcp (d a : BitVec 7) (k : BitVec 1) (l : BitVec 4) : State → Host.Outcome State Fault Refusal :=
  sfqOp (.frcp d a k l) .rcp d a k l
/-- FRSQ (16 R372). -/
def execFrsq (d a : BitVec 7) (k : BitVec 1) (l : BitVec 4) : State → Host.Outcome State Fault Refusal :=
  sfqOp (.frsq d a k l) .rsq d a k l
/-- FSQRT (16 R372). -/
def execFsqrt (d a : BitVec 7) (k : BitVec 1) (l : BitVec 4) : State → Host.Outcome State Fault Refusal :=
  sfqOp (.fsqrt d a k l) .sqrt d a k l
/-- FEXP2 (16 R372). -/
def execFexp2 (d a : BitVec 7) (k : BitVec 1) (l : BitVec 4) : State → Host.Outcome State Fault Refusal :=
  sfqOp (.fexp2 d a k l) .exp2 d a k l
/-- FLOG2 (16 R372). -/
def execFlog2 (d a : BitVec 7) (k : BitVec 1) (l : BitVec 4) : State → Host.Outcome State Fault Refusal :=
  sfqOp (.flog2 d a k l) .log2 d a k l
/-- FSIN (16 R372). -/
def execFsin (d a : BitVec 7) (k : BitVec 1) (l : BitVec 4) : State → Host.Outcome State Fault Refusal :=
  sfqOp (.fsin d a k l) .sin d a k l
/-- FCOS (16 R372). -/
def execFcos (d a : BitVec 7) (k : BitVec 1) (l : BitVec 4) : State → Host.Outcome State Fault Refusal :=
  sfqOp (.fcos d a k l) .cos d a k l
/-- FTANH (16 R372). -/
def execFtanh (d a : BitVec 7) (k : BitVec 1) (l : BitVec 4) : State → Host.Outcome State Fault Refusal :=
  sfqOp (.ftanh d a k l) .tanh d a k l

/-! ### CVT and DQT (15 R356 to R358, R363, R364) -/

/-- Elements of a group between two widths (15 R357). -/
def groupCount (ws wd : Nat) : Nat := if ws = 64 || wd = 64 then 1 else 32 / max ws wd

/-- A group of elements taken one by one from one format to another. -/
def groupVal (sf df x : Nat) (f : Nat → Nat) : Nat :=
  packElems (fmtWidth df) ((List.range (groupCount (fmtWidth sf) (fmtWidth df))).map fun k => f (elem x (fmtWidth sf) k))

/-- Source format of a CVT. -/
def cvtFrom (v : BitVec 1) (sl : Slice) : Nat := if v == 1 then fmtB sl.fmt else fmtA sl.fmt
/-- Destination format of a CVT. -/
def cvtTo (v : BitVec 1) (sl : Slice) : Nat := if v == 1 then fmtA sl.fmt else fmtB sl.fmt

/-- CVT of one group (15 R358). -/
def cvtVal (fmt : Word) (sf df : Nat) (rz : Bool) (x : Nat) : Nat :=
  groupVal sf df x fun e => convVal df (fmtSat fmt) rz (decodeVal (fmtAbsent fmt) sf e)

/-- CVT (15 R358). -/
def execCvt (d a : BitVec 7) (z v : BitVec 1) (l : BitVec 4) : State → Host.Outcome State Fault Refusal :=
  queueOp (.cvt d a z v l)
    { kind := .vector, feat := [1]
      fmtOk := fun sl => cvtFrom v sl ≤ 9 && cvtTo v sl ≤ 9
      uses := fun sl => [elemSrc (cvtFrom v sl) a, elemDst (cvtTo v sl) d] }
    (fun sl => elemDst (cvtTo v sl) d) 8 l
    fun sl xs => cvtVal sl.fmt (cvtFrom v sl) (cvtTo v sl) (z == 1) (xs.getD 0 0)

/-- The formats of QNT and DQT: a code format and a wide one (15 R363, 17 R412). -/
def quantFmts (sl : Slice) : Bool := isCodeFmt (fmtA sl.fmt) && isWideFmt (fmtB sl.fmt)

/-- DQT of one group under its scale pair (15 R364). -/
def dqtVal (fmt : Word) (x scales : Nat) : Nat :=
  let ab := fmtAbsent fmt
  let s := if hasBlockScale (fmtScale fmt) then scaleVal ab (natBits scales 32 8) else .one
  let t := if hasTensorScale (fmtScale fmt) then decodeVal ab 8 (natBits scales 0 32) else .one
  groupVal (fmtA fmt) (fmtB fmt) x fun e =>
    convVal (fmtB fmt) (fmtSat fmt) false (dequantise (decodeVal ab (fmtA fmt) e) s t)

/-- DQT (15 R364). -/
def execDqt (d a b : BitVec 7) (l : BitVec 4) : State → Host.Outcome State Fault Refusal :=
  queueOp (.dqt d a b l)
    { kind := .vector, feat := [1], fmtOk := quantFmts
      uses := fun sl => [.src a, .src64 b, elemDst (fmtB sl.fmt) d] }
    (fun sl => elemDst (fmtB sl.fmt) d) 8 l
    fun sl xs => dqtVal sl.fmt (xs.getD 0 0) (xs.getD 1 0)

/-! ### QNT (17 R411 to R413) -/

/-- Registers of the input run. -/
def qntInput (sl : Slice) : Nat := fmtWidth (fmtB sl.fmt)
/-- Registers of the codes. -/
def qntCodes (sl : Slice) : Nat := fmtWidth (fmtA sl.fmt)
/-- The input run: aligned to a pair when it holds FP64. -/
def qntSrc (a : BitVec 7) (sl : Slice) : Use :=
  ⟨a.toNat, qntInput sl, if fmtB sl.fmt = 9 then 2 else 1, 1, 32, true, false⟩
/-- The output run: codes, then the scale pair. -/
def qntDst (d : BitVec 7) (sl : Slice) : Use := ⟨d.toNat, qntCodes sl + 2, 2, 1, 32, true, true⟩

/-- QNT of a lane's block: `x` is the input run, `old` the output run as it stands. -/
def qntVal (fixed : Bool) (sl : Slice) (x old : Nat) : Quantised :=
  let fmt := sl.fmt
  let ab := fmtAbsent fmt
  let n := qntCodes sl
  let t := if hasTensorScale (fmtScale fmt) then decodeVal ab 8 (natBits old (32 * n) 32) else .one
  let xs := (List.range 32).map fun k => decodeVal ab (fmtB fmt) (elem x (fmtWidth (fmtB fmt)) k)
  quantiseBlock (fmtA fmt) (hasBlockScale (fmtScale fmt))
    (if fixed then some (natBits old (32 * (n + 1)) 8) else none) t xs

/-- The parts of one lane's results: its codes four registers at a time, then the scale code. -/
def Ctx.qntParts (c : Ctx) (d : BitVec 7) (fixed : Bool) (lane : Nat) (q : Quantised) : List Part :=
  let sl := c.gang.slice (lane / 4)
  let n := qntCodes sl
  let regs := c.gang.regsOf (lane / 4) (qntDst d sl)
  let codes := packElems (fmtWidth (fmtA sl.fmt)) q.codes
  let part (v : Nat) (rs : List RegName) : Part :=
    { lane := lane, slice := lane / 4, addr := 0, size := 16, fmt := sl.fmt, data := 0, result := BitVec.ofNat 128 v
      dst := rs.mapIdx fun i r => (i, r), words := 0, state := .performed }
  let chunks := (List.range (n / 4)).map fun j => part (codes / 2 ^ (128 * j)) ((regs.drop (4 * j)).take 4)
  if fixed || !hasBlockScale (fmtScale sl.fmt) then chunks else chunks ++ [part q.scale ((regs.drop (n + 1)).take 1)]

/-- Counts added to a health block (04 R100). -/
def Health.count (h : Health) (q : Quantised) : Health :=
  let sat (v : Nat) : Nat := min v 0xFFFFFFFF
  ⟨sat (h.sat + q.sat), sat (h.ufl + q.ufl), sat (h.invalid + q.invalid)⟩

/-- The shared meaning of QNT and QNT.FIX. -/
def qntOp (i : Instr) (d a : BitVec 7) (l : BitVec 4) (fixed : Bool) : State → Host.Outcome State Fault Refusal :=
  runOp i { kind := .vector, feat := [1], fmtOk := quantFmts, uses := fun sl => [qntSrc a sl, qntDst d sl] }
    fun c args s => do
      ready (s.queueRoom c i)
      let qs := c.lanes.mapIdx fun k ln =>
        (ln, qntVal fixed (c.gang.slice (ln / 4)) ((args.getD 0 []).getD k 0) ((args.getD 1 []).getD k 0))
      let s := (s.retireNext c).mapIssuer c fun g => { g with health := qs.foldl (fun h q => h.count q.2) g.health }
      .ok (if qs.isEmpty then s else
        s.startFlight c i { kind := .result, size := 16, la := l.toNat } (qs.flatMap fun q => c.qntParts d fixed q.1 q.2))

/-- QNT (17 R413). -/
def execQnt (d a : BitVec 7) (l : BitVec 4) : State → Host.Outcome State Fault Refusal := qntOp (.qnt d a l) d a l false

/-- QNT.FIX (17 R413). -/
def execQntFix (d a : BitVec 7) (l : BitVec 4) : State → Host.Outcome State Fault Refusal :=
  qntOp (.qntFix d a l) d a l true

/-- QNT.HEALTH (17 R413): the block is read and cleared, also when no lane is active. -/
def execQntHealth (d : BitVec 7) (l : BitVec 4) : State → Host.Outcome State Fault Refusal :=
  runOp (.qntHealth d l) { kind := .vector, feat := [1], uses := fun _ => [.dst128 d] } fun c _ s => do
    ready (s.queueRoom c (.qntHealth d l))
    let h := c.gang.health
    let v := h.sat + 2 ^ 32 * h.ufl + 2 ^ 64 * h.invalid
    .ok ((s.issueFlight c (.qntHealth d l)
      { kind := .result, size := 16, dst := some fun _ => .dst128 d, la := l.toNat, start := .performed } [] []
      (c.lanes.map fun _ => v)).mapIssuer c fun g => { g with health := ⟨0, 0, 0⟩ })

/-! ### Results (16 R372, 15 R358, 09 R221) -/

/-- One word of the result of an instruction with one of some opcodes. (DEDUCED: assumption 83). -/
def State.queueArrival (s : State) (ops : List Nat) (fl part word : Nat) : State :=
  match s.flight? fl with
  | some f => if ops.contains f.opcode then s.arrival (· == .result) fl part word else s
  | none => s

/-- SFQ_RESULT (16 R372). -/
def execSfqResult (fl part word : Nat) (s : State) : Host.Outcome State Fault Refusal :=
  .next (s.queueArrival sfqOps fl part word)

/-- CVQ_RESULT (15 R358). -/
def execCvqResult (fl part word : Nat) (s : State) : Host.Outcome State Fault Refusal :=
  .next (s.queueArrival cvqOps fl part word)

/-- TICKET_WRITE (09 R221): of XCP, XCPR and GRPL, and the bound of TBND (06 R144). -/
def execTicketWrite (fl part word : Nat) (s : State) : Host.Outcome State Fault Refusal :=
  .next (s.queueArrival (([Instr.xcp 0 0 0 0 0, .xcpr 0 0 0 0 0, .grpl 0 0 0 0, .tbnd 0 0 0]).map opcodeOf) fl part word)

end Sys2Proof.Machine
end

