-- ==== Sys2Proof/Machine/Place.lean ====
section
/-! DEFINITION. What a continuation record asks for and where it can go: its checks at its pop, and the placement of its
gangs beside the crews already resident (02 R31, R35, R36, R40, R41; 07 R165; 10 R237 to R240, R262; 20 R470). -/

namespace Sys2Proof.Machine
set_option Elab.async false
open Sys2Proof

/-! ### The checks of a record (10 R238) -/

/-- NOFIT, of a completion record (09 R229) -/
def stNoFit : Nat := 0x10
/-- BADSHAPE -/
def stBadShape : Nat := 0x11
/-- BADROLE -/
def stBadRole : Nat := 0x12
/-- BADFEAT -/
def stBadFeat : Nat := 0x13

/-- A gang that a record asks for: first instruction, the KIND of its role, registers per lane, index within its role
(02 R36 to R38). -/
structure GangPlan where
  code  : Double
  kind  : Nat
  allot : Nat
  index : Nat
  deriving DecidableEq, Repr

/-- The crew that a record asks for. -/
structure CrewPlan where
  width : Nat
  gangs : List GangPlan
  seq   : Option Double
  deriving DecidableEq, Repr

/-- Registers per lane of an ALLOT_M1. -/
def allotOf (m : Nat) : Nat := 8 * (m + 1)

/-- SHAPE.ROLES -/
def Record.roles (r : Record) : Bool := r.shape.testBit 13

/-- Lanes of a WIDTH. -/
def widthOf (w : Nat) : Nat := 16 * 2 ^ w

/-- The crew shape word is well formed (02 R35). -/
def Record.shapeOk (r : Record) : Bool :=
  let w := r.shape
  natBits w 0 2 ≠ 3 && natBits w 14 18 == 0 &&
    if r.roles then natBits w 2 5 == 0 && natBits w 7 6 == 0 else 1 ≤ natBits w 2 5 && natBits w 2 5 ≤ 16

/-- A CODE_PTR is a global address aligned to four bytes. -/
def codeOk (a : Double) : Bool := bitsOf a 56 8 == 0 && bitsOf a 0 2 == 0

/-- The used entries of a role block: CODE_PTR, KIND, gangs, registers. -/
def roleEntries (bs : List Byte) : List (Double × Nat × Nat × Nat) :=
  let ds := doublesOf bs
  ((List.range 4).map fun k =>
    let d := dbl ds (2 * k + 1)
    (dbl ds (2 * k), bitsOf d 0 2, bitsOf d 2 5, bitsOf d 7 6)).filter fun (_, _, n, _) => n != 0

/-- Whether a role block is valid (02 R36): its rules hold of every entry, used or not, as far as they speak of it. -/
def rolesOk (bs : List Byte) : Bool :=
  let ds := doublesOf bs
  let es := roleEntries bs
  let gangs := ((es.filter fun (_, k, _, _) => k != 3).map fun (_, _, n, _) => n).sum
  let words := (List.range 4).map fun k => dbl ds (2 * k + 1)
  let seqs := words.filter fun d => bitsOf d 0 2 == 3
  ((List.range 4).all fun k => codeOk (dbl ds (2 * k))) &&
  (words.all fun d => bitsOf d 13 51 == 0 && bitsOf d 2 5 ≤ 16) &&
  !es.isEmpty && 1 ≤ gangs && gangs ≤ 16 && seqs.length ≤ 1 && seqs.all fun d => bitsOf d 2 5 == 1 && bitsOf d 7 6 == 0

/-- The crew of a role block. -/
def planRoles (width : Nat) (bs : List Byte) : CrewPlan :=
  let es := roleEntries bs
  { width := width
    gangs := (es.filter fun (_, k, _, _) => k != 3).flatMap fun (a, k, n, m) => tabulate n fun i => ⟨a, k, allotOf m, i⟩
    seq := (es.find? fun (_, k, _, _) => k == 3).map fun (a, _, _, _) => a }

/-- The crew of a record without a role block. -/
def Record.plan (r : Record) : CrewPlan :=
  { width := widthOf (natBits r.shape 0 2)
    gangs := tabulate (natBits r.shape 2 5) fun i => ⟨r.d0, 0, allotOf (natBits r.shape 7 6), i⟩
    seq := none }

/-- The partition word is well formed (07 R165). -/
def Record.partOk (r : Record) : Bool :=
  natBits r.part 28 4 == 0 && natBits r.part 8 10 ≤ 512 && natBits r.part 18 10 ≤ 512

/-- The rest of the record is well formed (10 R237). -/
def Record.fieldsOk (r : Record) : Bool :=
  (if r.roles then r.d0 == 0 else codeOk r.d0 && r.d4 == 0) && bitsOf r.d2 0 7 == 0 && bitsOf r.d5 40 24 == 0 && r.d7 == 0 &&
    (r.place < 24 || r.place == 0x3C || r.place == 0x3D || r.place == 0x3F)

/-- Bytes of one core's SRAM that a partition word takes for a number of gangs on it (07 R165). -/
def coreLoad (part width gangs : Nat) : Nat :=
  natBits part 18 10 * 1024 + gangs * width * natBits part 0 8 * 64 + (if gangs = 0 then 0 else natBits part 8 10 * 1024)

/-- Bytes of one core's SRAM. -/
def coreSram : Nat := 524288

/-- Whether a crew fits a cluster with no other crew resident: with each gang on a core of its own it does if it does at
all (02 R31, 07 R165). -/
def CrewPlan.fitsIdle (p : CrewPlan) (part : Nat) : Bool :=
  p.gangs.length ≤ 16 && coreLoad part p.width 1 ≤ coreSram

/-- The checks that need no role block before it is read: SHAPE. -/
def Record.earlyFail (r : Record) : Option Nat := if r.shapeOk then none else some stBadShape

/-- The checks that follow the role block, in the order of 10 R238. -/
def Record.lateFail (r : Record) (p : CrewPlan) : Option Nat :=
  if natBits r.feat 9 23 ≠ 0 then some stBadFeat
  else if !r.partOk then some stNoFit
  else if !r.fieldsOk then some stBadShape
  else if !p.fitsIdle r.part then some stNoFit
  else none

/-- What reading a record's role block gives. -/
inductive Looked where
  | plan (p : CrewPlan)
  | fail (status : Nat)
  /-- its read waits -/
  | wait
  deriving DecidableEq, Repr

/-- The role block of a waiting record, read as a load under the record's ASID; the step of R277 serves a first-touch leaf
(10 R238). -/
def State.roleBlock (s : State) (id : Nat) (r : Record) : Looked × State :=
  let a := r.d4.toNat
  if a % 64 ≠ 0 || 2 ^ 56 < a + 64 then (.fail stBadRole, s)
  else
    match s.agentPeek (.record id) r.job (transHome a r.asid / 4) r.asid a 64 with
    | (.bytes bs, s) => (if rolesOk bs then .plan (planRoles (widthOf (natBits r.shape 0 2)) bs) else .fail stBadRole, s)
    | (.fault _ _, s) => (.fail stBadRole, s)
    | (.wait, s) => (.wait, s)

/-- A record's crew, or the status it fails with. -/
def State.lookRecord (s : State) (id : Nat) (r : Record) : Looked × State :=
  match r.earlyFail with
  | some st => (.fail st, s)
  | none =>
    let (l, s) := if r.roles then s.roleBlock id r else (.plan r.plan, s)
    match l with
    | .plan p =>
      match r.lateFail p with
      | some st => (.fail st, s)
      | none => (.plan p, s)
    | l => (l, s)

/-! ### What a cluster has left -/

/-- A crew that holds a partition on a cluster (07 R165). -/
def Crew.holdsPartition (c : Crew) : Bool := c.state != .saved && c.state != .done

/-- A crew whose context is in the active bank, or is to be (02 R45). -/
def Crew.active (c : Crew) : Bool := c.state == .loading || c.state == .running || c.state == .stopping

/-- The cores a crew has gangs on. -/
def Crew.cores (c : Crew) : List Nat := dedup (c.gangs.map (·.core))

/-- Gangs of a crew on a core. -/
def Crew.gangsOn (c : Crew) (k : Nat) : Nat := (c.gangs.filter (·.core == k)).length

/-- Bytes of SRAM that the crews of a cluster take of a core, some of them left aside. -/
def State.sramUsed (s : State) (cluster core : Nat) (without : List Nat) : Nat :=
  ((s.crews.filter fun c => c.cluster == cluster && c.holdsPartition && !without.contains c.id).map fun c =>
    coreLoad c.partition ((c.gangs.map (·.width)).headD 16) (c.gangsOn core)).sum

/-- A core whose active bank is free. -/
def State.coreFree (s : State) (cluster core : Nat) (without : List Nat) : Bool :=
  !s.crews.any fun c => c.cluster == cluster && c.active && !without.contains c.id && c.cores.contains core

/-- The easel is free. -/
def State.easelFree (s : State) (cluster : Nat) (without : List Nat) : Bool :=
  !s.crews.any fun c => c.cluster == cluster && c.active && !without.contains c.id && c.seq.isSome

/-- What the gangs of one crew on the cores of a cluster must leave room for. -/
structure Room where
  free : List Bool                  -- by core: its active bank is free
  used : List Nat                   -- by core: bytes of SRAM taken
  deriving DecidableEq, Repr

/-- The room of a cluster, some crews left aside. -/
def State.room (s : State) (cluster : Nat) (without : List Nat) : Room :=
  ⟨tabulate 16 fun k => s.coreFree cluster k without, tabulate 16 fun k => s.sramUsed cluster k without⟩

/-- Whether the STREAM bank of a core holds a context (10 R259): one on its way to its frame, or one loaded beside a crew
that still holds the active bank (10 R261). -/
def State.streamHeld (s : State) (cluster core : Nat) : Bool :=
  s.crews.any fun c => c.cluster == cluster && c.cores.contains core &&
    (c.state == .stream || (c.state == .loading && !s.coreFree cluster core [c.id]))

/-- The room of a cluster for a crew that loads into STREAM banks while a crew is stopping, which keeps its partition
(07 R165; 10 R261). -/
def State.roomBeside (s : State) (cluster stopping : Nat) : Room :=
  ⟨tabulate 16 fun k => s.coreFree cluster k [stopping] && (s.coreFree cluster k [] || !s.streamHeld cluster k),
    tabulate 16 fun k => s.sramUsed cluster k []⟩

/-! ### Placement (02 R24, R31; 07 R165) -/

/-- Whether cores for the gangs of a plan are cores of the cluster and keep every limit (02 R30, R31; 07 R165). -/
def Room.admits (m : Room) (p : CrewPlan) (part : Nat) (cores : List Nat) : Bool :=
  cores.length == p.gangs.length && cores.all (· < 16) &&
  (List.range 16).all fun k =>
    let mine := (p.gangs.zip cores).filter fun (_, c) => c == k
    m.used.getD k 0 + coreLoad part p.width mine.length ≤ coreSram &&
    (mine.isEmpty || (m.free.getD k false && p.width * (mine.map fun (g, _) => g.allot).sum ≤ 32768))

/-- Searches for cores, gang by gang: registers and gangs already given to each core. -/
def searchCores (m : Room) (width part : Nat) : List GangPlan → List (Nat × Nat) → Option (List Nat)
  | [], _ => some []
  | g :: gs, load =>
    (List.range 16).findSome? fun k =>
      let (regs, n) := load.getD k (0, 0)
      if m.free.getD k false && width * (regs + g.allot) ≤ 32768 && m.used.getD k 0 + coreLoad part width (n + 1) ≤ coreSram then
        (searchCores m width part gs (load.set k (regs + g.allot, n + 1))).map (k :: ·)
      else none

/-- Cores for a plan, if there are any. -/
def Room.place? (m : Room) (p : CrewPlan) (part : Nat) : Option (List Nat) :=
  (searchCores m p.width part p.gangs (List.replicate 16 (0, 0))).filter fun cs => m.admits p part cs

/-- A crew of sixteen full gangs has gang g on core g (20 R470). -/
def CrewPlan.fixed (p : CrewPlan) : Bool := p.width == 64 && p.gangs.length == 16 && p.gangs.all (·.allot == 512)

/-- The cores and slice groups a new crew is given: the device's own choice where it is a legal one (assumption 18), else
what the search finds, gangs of one core taking its groups in turn. -/
def choosePlace (n : Nat) (m : Room) (p : CrewPlan) (part : Nat) (found : List Nat) : List (Nat × Nat) :=
  let step := p.width / 4
  let wish := Config.placement n
  if p.fixed then tabulate 16 fun g => (g, 0)
  else if m.admits p part (wish.map Prod.fst) && wish.all fun (_, g) => g % step == 0 && g < 16 then wish
  else found.zipIdx.map fun (k, i) => (k, (((found.take i).filter (· == k)).length * step) % 16)

/-! ### Placing a record at a cluster -/

/-- The plan of a crew that is to resume: its gangs bundled as they shared cores (10 R262). -/
def Crew.bundles (c : Crew) : List (Nat × Nat) := c.cores.map fun k => (k, c.gangsOn k)

/-- Searches for new cores for a crew's bundles, each on a core of its own. -/
def searchBundles (m : Room) (width part : Nat) : List (Nat × Nat) → List Nat → Option (List (Nat × Nat))
  | [], _ => some []
  | (k, n) :: bs, taken =>
    (List.range 16).findSome? fun j =>
      if m.free.getD j false && !taken.contains j && m.used.getD j 0 + coreLoad part width n ≤ coreSram then
        (searchBundles m width part bs (j :: taken)).map ((k, j) :: ·)
      else none

/-- Every core has room for the crew's share of cluster-shared memory. -/
def Room.shares (m : Room) (part : Nat) : Bool := (List.range 16).all fun k => m.used.getD k 0 + coreLoad part 16 0 ≤ coreSram

/-- New cores for a crew that resumes, as pairs of old and new; its own cores first. -/
def Crew.rebundle? (c : Crew) (m : Room) : Option (List (Nat × Nat)) :=
  let width := (c.gangs.map (·.width)).headD 16
  if !m.shares c.partition then none
  else
    let same := c.bundles.map fun (k, _) => (k, k)
    if c.bundles.all fun (k, n) => m.free.getD k false && m.used.getD k 0 + coreLoad c.partition width n ≤ coreSram then some same
    else searchBundles m width c.partition c.bundles []

/-- What a cluster can do with a waiting record now. -/
inductive Fit where
  /-- it can place it -/
  | now
  /-- not beside the crews now resident -/
  | later
  /-- the record fails -/
  | fails (status : Nat)
  /-- its role block cannot be read yet -/
  | wait
  deriving DecidableEq, Repr

/-- How a waiting record stands at a cluster with some room, and whose easel is free or not. -/
def State.fitIn (s : State) (q : QueuedRec) (m : Room) (easel : Bool) : Fit × State :=
  match q.saved.bind s.crew? with
  | some c =>
    (if (c.rebundle? m).isSome && (c.seq.isNone || easel) then .now else .later, s)
  | none =>
    match s.lookRecord q.id q.rcd with
    | (.fail st, s) => (.fails st, s)
    | (.wait, s) => (.wait, s)
    | (.plan p, s) =>
      (if (m.place? p q.rcd.part).isSome && (p.seq.isNone || easel) then .now else .later, s)

/-- How a waiting record stands at a cluster, some crews left aside. -/
def State.fit (s : State) (q : QueuedRec) (cluster : Nat) (without : List Nat) : Fit × State :=
  s.fitIn q (s.room cluster without) (s.easelFree cluster without)

end Sys2Proof.Machine
end

