-- ==== Sys2Proof/Machine/Sched.lean ====
section
/-! DEFINITION. The device scheduler (02 R37 to R45; 10 R236 to R244, R246, R259 to R262): pushes and spill rings, pops,
the start and the end of crews, and pre-emption. -/

namespace Sys2Proof.Machine
set_option Elab.async false
open Sys2Proof

/-! ### Queues (10 R236, R238, R239) -/

/-- The records of a queue that are in its on-chip entries. (DEDUCED: assumption 39). -/
def State.onChip (s : State) (q : Nat) : List QueuedRec := s.records.filter fun r => r.queue == q && !r.spilled

/-- The spilled records of a queue, oldest first. -/
def State.spilled (s : State) (q : Nat) : List QueuedRec := s.records.filter fun r => r.queue == q && r.spilled

/-- The descriptor of a queue's spill ring (14 R477). -/
def spillPool (q : Nat) : Nat := 3 + q

/-- Address of a slot of a queue's spill ring. -/
def State.spillSlot (s : State) (q n : Nat) : Nat :=
  (s.poolDouble (spillPool q) 0).toNat + 64 * (n % 2 ^ bitsOf (s.poolDouble (spillPool q) 1) 0 5)

/-- Records that a queue's spill ring has room for. -/
def State.spillRoom (s : State) (q : Nat) : Bool :=
  s.poolDouble (spillPool q) 0 != 0 &&
    (s.poolDouble (spillPool q) 3 - s.poolDouble (spillPool q) 2).toNat < 2 ^ bitsOf (s.poolDouble (spillPool q) 1) 0 5

/-- Effective priority (10 R239). -/
def QueuedRec.prio (r : QueuedRec) : Nat := min 3 (r.rcd.prio + r.boosts)

/-- A record as it enters its queue. -/
def State.newQueued (s : State) (p : Push) (spilled : Bool) : QueuedRec :=
  { id := s.serial, rcd := p.rcd, origin := p.origin, queue := p.queue, since := s.clock.toNat, boosts := 0
    topAt := s.clock.toNat, skips := 0, blocking := false, spilled := spilled, saved := none }

/-- A push has been made: whoever waited on it goes on, a peer's JDEC with its answer (10 R236). -/
def State.pushMade (s : State) (p : Push) : State :=
  let s := match p.reply with
    | some (source, tag, old) => { s with control := s.control ++ [.response source tag 0 [old]] }
    | none => s
  match p.fl with
  | some fl => (s.mapFlight fl fun f => { f with wait := f.wait - 1 }).settleFlights
  | none => s

/-- A launch that a failed record has ended pushes no more (10 R246). -/
def State.pushDropped (s : State) (p : Push) : Bool :=
  p.slot.isSome && (p.rcd.launch.bind s.launch?).any (·.status != 0)

/-- Takes a push out of the list. -/
def State.dropPush (s : State) (i : Nat) : State := { s with pushes := s.pushes.eraseIdx i }

/-- A push that is waiting. -/
def State.makePush (s : State) (i : Nat) (p : Push) : State :=
  if s.pushDropped p then
    match p.rcd.launch with
    | some l => (((s.dropPush i).mapLaunch (some l) fun x => { x with pushed := x.pushed - 1 }).settleLaunch l)
    | none => s.dropPush i
  else if (s.spilled p.queue).isEmpty && (s.onChip p.queue).length < 64 then
    let r := s.newQueued p false
    State.pushMade { s.dropPush i with serial := s.serial + 1, records := s.records ++ [r] } p
  else if !s.spillRoom p.queue || s.deviceAcc.contains (.spill p.queue) then s
  else
    let tail := (s.poolDouble (spillPool p.queue) 3).toNat
    match s.agentPoke (.queue p.queue) 0 0 s.supAsid (s.spillSlot p.queue tail) p.rcd.bytes with
    | (.done, s) =>
      let r := s.newQueued p true
      ((State.pushMade { s.dropPush i with serial := s.serial + 1, records := s.records ++ [r] } p).setPoolDouble
        (spillPool p.queue) 3 (BitVec.ofNat 64 (tail + 1))).farDone (.queue p.queue)
    | (.fault code va, s) => s.deviceFault (.spill p.queue) s.supAsid code va
    | (.wait, s) => s

/-- Pushes of one command or instruction are made in their order (10 R243, R246). -/
def State.pushTurn (s : State) (i : Nat) (p : Push) : Bool :=
  (s.pushes.take i).all fun q => (q.fl.isNone || q.fl != p.fl) && (q.slot.isNone || q.slot != p.slot)

/-- RECORD_PUSH (10 R236, R238). -/
def execRecordPush (push : Nat) (s : State) : Host.Outcome State Fault Refusal :=
  .next <|
    match s.pushes[push]? with
    | some p => if s.pushTurn push p then s.makePush push p else s
    | none => s

/-- Brings spilled records of a queue back into its entries, in order; `fuel` bounds them. -/
def State.refill (s : State) (q : Nat) : Nat → State
  | 0 => s
  | fuel + 1 =>
    match s.spilled q with
    | [] => s
    | r :: _ =>
      if 64 ≤ (s.onChip q).length || s.deviceAcc.contains (.unspill q) then s
      else
        let head := (s.poolDouble (spillPool q) 2).toNat
        match s.agentPeek (.queue q) 0 0 s.supAsid (s.spillSlot q head) 64 with
        | (.bytes bs, s) =>
          let rcd := recordOf bs (dbl (doublesOf bs) 6)
          State.refill ((State.setPoolDouble
            { s with records := s.records.map fun x => if x.id == r.id then { x with spilled := false, rcd := rcd } else x }
            (spillPool q) 2 (BitVec.ofNat 64 (head + 1))).farDone (.queue q)) q fuel
        | (.fault code va, s) => s.deviceFault (.unspill q) s.supAsid code va
        | (.wait, s) => s

/-- SCHED_AGE (10 R239). -/
def execSchedAge (rec_ : Nat) (s : State) : Host.Outcome State Fault Refusal :=
  .next <|
    let period := 1024 * bitsOf s.schedCtl 0 16
    { s with records := s.records.map fun r =>
        if r.id == rec_ && period != 0 && r.prio < 3 && r.since + period ≤ s.clock.toNat then
          { r with boosts := r.boosts + 1, since := r.since + period
                   topAt := if r.rcd.prio + r.boosts + 1 == 3 then s.clock.toNat else r.topAt }
        else r }

/-- SKIP_LIMIT of the scheduler control double (10 R263). -/
def State.skipLimit (s : State) : Nat := max 1 (bitsOf s.schedCtl 48 8)

/-- SKIP_LIMIT (10 R240). -/
def execSkipLimit (rec_ : Nat) (s : State) : Host.Outcome State Fault Refusal :=
  .next { s with records := s.records.map fun r =>
    if r.id == rec_ && s.skipLimit ≤ r.skips then { r with blocking := true } else r }

/-! ### The order in which a cluster considers records (10 R239) -/

/-- Puts a record in its place by age. -/
def insertAge (x : QueuedRec) : List QueuedRec → List QueuedRec
  | [] => [x]
  | y :: ys => if x.id < y.id then x :: y :: ys else y :: insertAge x ys

/-- A record that a crew is being pre-empted for is kept for that crew's cluster (10 R261). -/
def State.reserved (s : State) (r : QueuedRec) : Bool := s.crews.any fun c => c.victimOf == some r.id

/-- The records of one queue and effective priority, oldest first. -/
def State.levelOf (s : State) (q p : Nat) : List QueuedRec :=
  ((s.onChip q).filter fun r => r.prio == p && !s.reserved r).foldl (fun acc x => insertAge x acc) []

/-- Two lists in alternation. -/
def alternate : List QueuedRec → List QueuedRec → List QueuedRec
  | [], ys => ys
  | x :: xs, ys => x :: match ys with
    | [] => xs
    | y :: ys => y :: alternate xs ys

/-- The order of a cluster. (DESIGN CHOICE: assumption 18). -/
def State.considered (s : State) (cluster : Nat) : List QueuedRec :=
  let die := cluster / 12
  [3, 2, 1, 0].flatMap fun p =>
    let own := s.levelOf cluster p
    let mine := s.levelOf (24 + die) p
    let other := (s.levelOf (25 - die) p).filter fun r => r.rcd.place == 0x3F
    (if Config.dieFirst s.freeCount then alternate mine own else alternate own mine) ++ other

/-- Whether a cluster could hold a record once its resident crews leave: every record that does not fail fits an idle
cluster, and PLACE says which (10 R240). -/
def QueuedRec.allowed (r : QueuedRec) (cluster : Nat) : Bool :=
  r.rcd.place == cluster || r.rcd.place == 0x3C + cluster / 12 || r.rcd.place == 0x3F ||
    (r.queue == 24 + cluster / 12)

/-- Goes through the records in order: the first that fails or can be placed now, and those passed over. -/
def State.choose (s : State) (cluster : Nat) : List QueuedRec → List Nat → Option (QueuedRec × Fit × List Nat) × State
  | [], _ => (none, s)
  | r :: rs, skipped =>
    match s.fit r cluster [] with
    | (.wait, s) => (none, s)
    | (.fails st, s) => (some (r, .fails st, skipped), s)
    | (.now, s) => (some (r, .now, skipped), s)
    | (.later, s) => s.choose cluster rs (if r.allowed cluster then r.id :: skipped else skipped)

/-- The blocking record of a cluster: the oldest one it could hold (10 R240). -/
def State.blockingAt (s : State) (cluster : Nat) : Option QueuedRec :=
  ((s.considered cluster).filter fun r => r.blocking && r.allowed cluster).foldl (fun best r => match best with
    | some b => if b.id < r.id then some b else some r
    | none => some r) none

/-! ### Loading a crew (02 R37, R38) -/

/-- A slice at its first instruction. -/
def newSlice (code : Double) (mask : BitVec 4) (fmt : Word) : Slice :=
  { noSlice with pc := code, mask := mask, finished := false, fmt := fmt }

/-- A gang at its first instruction. -/
def newGang (width core group : Nat) (g : GangPlan) (frame : Double) : Gang :=
  { isSeq := false, width := width, core := core, group := group, allot := g.allot, index := g.index, kind := g.kind, codePtr := g.code
    slices := List.replicate (width / 4) (newSlice g.code 15 fmtReset), lanes := List.replicate width noLane
    g := [frame.setWidth 32, (frame >>> 32).setWidth 32, BitVec.ofNat 32 g.index, 0], gs := [0, 0, 0, 0]
    paths := List.replicate 6 [], qbind := List.replicate 8 none, palette := 0, health := ⟨0, 0, 0⟩, ticket := 0, err := 0
    tickets := [], nextParty := 1, holds := 0 }

/-- A sequencer role at its first instruction: s0 holds the frame pointer. -/
def newSeq (code frame : Double) : Gang :=
  { newGang 1 16 0 ⟨code, 3, 512, 0⟩ 0 with
    isSeq := true, slices := [newSlice code 1 fmtReset], lanes := [{ noLane with s := tabPut 0 [] 0 frame }]
    g := [0, 0, 0, 0] }

/-- A context number no crew has (11 R279). -/
def State.freeContext (s : State) : Nat :=
  ((List.range 32768).map fun i => (s.nextContext + i) % 32768).find? (fun n => (s.crew? n).isNone) |>.getD s.nextContext

/-- The crew of a record, loading. -/
def State.newCrew (s : State) (q : QueuedRec) (cluster : Nat) (p : CrewPlan) (at_ : List (Nat × Nat)) : Crew :=
  let r := q.rcd
  { id := s.freeContext, state := .loading, cluster := cluster, rcd := r, origin := q.origin, asid := r.asid, job := r.job
    launch := r.launch, supervisor := r.asid == s.supAsid, hasid := BitVec.ofNat 32 r.asid, feat := BitVec.ofNat 32 r.feat, prio := r.prio
    gangs := (p.gangs.zip at_).map fun (g, core, group) => newGang p.width core group g r.d1
    seq := p.seq.map fun a => newSeq a r.d1
    barriers := List.replicate 16 Barrier.empty, coreMem := [], cluMem := [], ports := [], frame := none, log := []
    started := 0, age := q.id, queue := q.queue, victimOf := none, abandoned := false, named := [], canvases := [], stages := [], tags := [], begun := false, late := [] }

/-- A crew that resumes on new cores: each core's gangs and scratchpad move together (10 R262). -/
def Crew.moveTo (c : Crew) (cluster : Nat) (m : List (Nat × Nat)) : Crew :=
  let core (k : Nat) : Nat := (m.lookup k).getD k
  { c with
    state := .loading, cluster := cluster
    gangs := c.gangs.map fun g => { g with core := core g.core }
    coreMem := c.coreMem.foldl (fun t (k, mem) => tabPut [] t (core k) mem) []
    late := c.late.map fun w => if w.space = 1 then { w with unit := core w.unit } else w }

/-- A record is placed at a cluster with some room: its crew is LOADING. -/
def State.load (s : State) (q : QueuedRec) (cluster : Nat) (m : Room) : State :=
  let s' : State := { s.farDone (.record q.id) with records := s.records.filter (·.id != q.id) }
  match q.saved.bind s.crew? with
  | some c =>
    match c.rebundle? m with
    | some mv => s'.mapCrew c.id fun c => c.moveTo cluster mv
    | none => s
  | none =>
    match s.lookRecord q.id q.rcd with
    | (.plan p, _) =>
      match m.place? p q.rcd.part with
      | some cores =>
        let crew := s.newCrew q cluster p (choosePlace s.freeCount m p q.rcd.part cores)
        { s' with
          freeCount := s.freeCount + 1
          crews := s.crews ++ [crew]
          nextContext := (crew.id + 1) % 32768 }
      | none => s
    | _ => s

/-! ### The end of a task (10 R238, R244, R246, R248, R253; 13 R310) -/

/-- Before a task of a dependence table counts as finished, the buffers it was the last to use return to their pools
(10 R248): false while one waits. -/
def State.freeTask (s : State) (o : Origin) : Bool × State :=
  match o with
  | .task _ id => s.returnBuffers (some id)
  | _ => (true, s)

/-- A task has finished: its launch counts it, and its dependents, its graph's nodes or its message are served.
(DEDUCED: assumption 49). -/
def State.taskEnded (s : State) (r : Record) (o : Origin) (die : Nat) (faulted : Bool) (status : Nat) : State :=
  -- the replay that the launch belongs to, if a GRAPH made it (10 R253)
  let replay := r.launch.bind fun l => s.replays.find? (·.launch == some l)
  let s := s.mapLaunch r.launch fun l =>
    { l with
      finished := l.finished + 1
      faulted := if faulted then l.faulted + 1 else l.faulted
      status := if l.status = 0 then status else l.status
      faultCode := if faulted && status == 0 && l.faultCode == 0 then 0x0F else l.faultCode
      more := l.more && (status == 0 || replay.isSome) }
  let s := match o with
    | .plain => s
    | .handler entry _ _ job => s.retireHandler entry job die
    | .task _ id => s.taskDone id
    | .node replay node => s.nodeDone replay node
  match r.launch, replay with
  | some l, some x => (s.graphStep x.cluster x.slot [.launchDone]).settleLaunch l
  | some l, none => if status ≠ 0 then s.stopPushes l status else s.settleLaunch l
  | none, _ => s

/-- A popped record fails (10 R238). -/
def State.failRecord (s : State) (q : QueuedRec) (cluster status : Nat) : State :=
  match s.freeTask q.origin with
  | (false, s) => s
  | (true, s) =>
    State.taskEnded { s.farDone (.record q.id) with records := s.records.filter (·.id != q.id) } q.rcd q.origin (cluster / 12)
      true status

/-- RECORD_POP (10 R239, R240): the cluster's blocking record, if it has one, before all others.  The scheduler also tries
again what it holds back of buffers and spilled records. -/
def State.popRecord (s : State) (cluster : Nat) : State :=
  let die := cluster / 12
  let s := (((s.returnBuffers none).2.refill cluster 64).refill (24 + die) 64).refill (25 - die) 64
  let take : Option (QueuedRec × Fit × List Nat) × State → State
    | (some (q, .fails st, _), s) => s.failRecord q cluster st
    | (some (q, .now, skipped), s) =>
      State.load { s with records := s.records.map fun r =>
        if skipped.contains r.id then { r with skips := r.skips + 1 } else r } q cluster (s.room cluster [])
    | (_, s) => s
  let s := match s.blockingAt cluster with
    | some b => take (s.choose cluster [b] [])
    | none => take (s.choose cluster (s.considered cluster) [])
  (s.refill cluster 64).refill (24 + die) 64

/-- RECORD_POP (10 R240). -/
def execRecordPop (cluster : Nat) (s : State) : Host.Outcome State Fault Refusal :=
  .next (if cluster < 24 then State.popRecord { s with freeCount := s.freeCount + 1 } cluster else s)

/-! ### The easel's context (06 R148, R149; 10 R259; 18 R446) -/

/-- The canvases bound to a crew or named by its fixed-form instructions. -/
def State.crewCanvases (s : State) (c : Crew) : List (Nat × Nat) :=
  let tagged := (s.cluster c.cluster).tags.map Prod.snd
  tagged ++ c.named.filter fun b => !tagged.contains b

/-- Every canvas of a cluster's engines. -/
def allCanvases : List (Nat × Nat) := (List.range 8).flatMap fun e => [(e, 0), (e, 1)]

/-- Empties the stages of a cluster's engines. -/
def State.clearStages (s : State) (cluster : Nat) : State :=
  (List.range 8).foldl (fun s e => s.mapEngine (engineNo cluster e) fun n => { n with stages := [none, none] }) s

/-- Saves an easel's context with its crew. (DEDUCED: assumption 37). -/
def State.saveEasel (s : State) (c : Crew) : State :=
  let cl := s.cluster c.cluster
  let eng (e : Nat) : Engine := s.engine (engineNo c.cluster e)
  let s' := s.mapCrew c.id fun k => { k with
    ports := cl.ports.mapIdx fun i p => (i, p.words)
    tags := cl.tags
    canvases := (s.crewCanvases c).map fun (e, j) => (e, j, (eng e).canvas j)
    stages := allCanvases.filterMap fun (e, j) => ((eng e).stages.getD j none).map fun g => (e, j, g) }
  s'.clearStages c.cluster |>.mapCluster c.cluster fun cl =>
    { cl with tags := [], ports := cl.ports.map fun _ => ⟨[], 0, 0⟩ }

/-- Words that a crew's instructions in flight will push to a port (06 R146, R148). -/
def State.pushesOf (s : State) (crew port : Nat) : Nat :=
  ((s.flights.filter fun f => f.crew == crew && f.port == some port).map fun f => f.pushed.length).sum

/-- The easel is the crew's: its ports, tags and stage flags as it left them, or empty when it starts; its canvases
return to the same engines (05 R112). -/
def State.restoreEasel (s : State) (c : Crew) : State :=
  let s := (s.clearStages c.cluster).mapCluster c.cluster fun cl =>
    { cl with tags := c.tags, ports := cl.ports.mapIdx fun i p => { p with words := tabGet c.ports i [], drains := 0, pushes := s.pushesOf c.id i } }
  let s := c.canvases.foldl (fun s (e, j, v) =>
    s.mapEngine (engineNo c.cluster e) fun n => { n with canvases := n.canvases.set j v }) s
  let s := c.stages.foldl (fun s (e, j, g) =>
    s.mapEngine (engineNo c.cluster e) fun n => { n with stages := n.stages.set j (some g) }) s
  s.mapCrew c.id fun k => { k with ports := [], tags := [], canvases := [], stages := [] }

/-! ### Save frames (10 R259, 14 R477) -/

/-- The pool of save frames. -/
def framePool : Nat := 2

/-- Gives a crew a save frame: false while none is free, or its pool cannot be read yet. -/
def State.takeFrame (s : State) (c : Crew) : Bool × State :=
  if c.frame.isSome then (true, s)
  else if s.poolEmpty framePool || s.deviceAcc.contains (.frame c.id) then (false, s)
  else
    let head := (s.poolDouble framePool 2).toNat
    match s.agentPeek (.pool framePool) 0 c.die s.supAsid (s.poolSlot framePool head) 8 with
    | (.bytes bs, s) =>
      (true, ((s.setPoolDouble framePool 2 (BitVec.ofNat 64 (head + 1))).mapCrew c.id fun k =>
        { k with frame := some (leValue bs) }).farDone (.pool framePool))
    | (.fault code va, s) => (false, s.deviceFault (.frame c.id) s.supAsid code va)
    | (.wait, s) => (false, s)

/-- Returns a save frame to its pool at TAIL: false while the pool cannot be written. -/
def State.giveFrame (s : State) (f : Nat) : Bool × State :=
  if s.deviceAcc.contains (.giveFrame f) then (false, s)
  else
    let tail := (s.poolDouble framePool 3).toNat
    match s.agentPoke (.pool framePool) 0 0 s.supAsid (s.poolSlot framePool tail) (leBytes 8 f) with
    | (.done, s) => (true, (s.setPoolDouble framePool 3 (BitVec.ofNat 64 (tail + 1))).farDone (.pool framePool))
    | (.fault code va, s) => (false, s.deviceFault (.giveFrame f) s.supAsid code va)
    | (.wait, s) => (false, s)

/-- A crew gives its frame back, if it has one. -/
def State.dropFrame (s : State) (c : Crew) : Bool × State :=
  match c.frame with
  | none => (true, s.mapCrew c.id fun k => { k with log := [] })
  | some f =>
    match s.giveFrame f with
    | (true, s) => (true, s.mapCrew c.id fun k => { k with frame := none, log := [] })
    | r => r

/-- A crew that is to run again with what its frame holds of it: its easel's context, and its banks, SRAM and fault log where
they had left them; none while the frame cannot be read. -/
def State.readFrame (s : State) (c : Crew) : Option Crew × State :=
  match c.frame with
  | none => (some c, s)
  | some f =>
    if s.deviceAcc.contains (.frame c.id) then (none, s)
    else
      let left := c.state == .loading
      let logLength := (c.log.map FaultLog.length).sum
      match s.agentPeek (.crew c.id) 0 c.die s.supAsid f (c.easelLength + if left then c.bankLength + logLength else 0) with
      | (.bytes bs, s) =>
        let k := c.ofEasel bs
        let banks := bs.drop c.easelLength
        (some (if left then { k.ofBanks banks with log := logOf c.log (banks.drop c.bankLength) } else k), s.farDone (.crew c.id))
      | (.wait, s) => (none, s)
      | (.fault code va, s) => (none, s.deviceFault (.frame c.id) s.supAsid code va)

/-! ### Starting (10 R241, R262; 11 R281) -/

/-- The registers of a gang that takes the results of an answered instruction. -/
def Gang.takeResults (g : Gang) (f : Flight) : Gang :=
  let w := if g.isSeq then 64 else 32
  f.parts.foldl (fun g p =>
    let g := p.dst.foldl (fun g (k, r) => g.writeReg p.lane r (p.result.toNat / 2 ^ (w * k))) g
    if f.kind == .palette then { g with palette := BitVec.ofNat 128 (p.result.toNat % 2 ^ (8 * p.size)) } else g) g

/-- Applies the fault log (11 R281): a finished entry's results reach the saved registers; of an unfinished one, the lanes
already answered arrive as the other lanes do, and its parties enter the handler at once. -/
def State.applyLog (s : State) (c : Crew) : State :=
  c.log.foldl (fun s e =>
    match s.flight? e.fl with
    | none => s
    | some f =>
      if e.done then
        let f' : Flight := { f with parts := f.parts.map fun p => { p with dst := [] } }
        ((s.mapFlight f.id fun _ => f').mapGang f.crew f.member fun g => (g.takeResults (f.withLog e)).clearPend f').settleFlights
      else
        s.mapFlight f.id fun f =>
          { f with
            parts := f.parts.map fun p => if p.state == .returned && !p.dst.isEmpty then { p with state := .performed } else p
            reported := if f.parts.any Part.isParked then f.slices else f.reported }) s

/-- Puts a crew in the active bank.  The parties of one that starts count from now; those of one that resumes keep the order
of their last issues (10 R256). (DEDUCED: assumption 130). -/
def State.activate (s : State) (c : Crew) : State :=
  let s := if c.seq.isSome then s.restoreEasel c else s
  (State.mapCrew { s with serial := s.serial + 1 } c.id fun k =>
    { (if k.begun then k else k.mapAllSlices fun sl => { sl with stamp := s.issued }) with
      state := .running, started := s.serial, victimOf := none, begun := true }).settleFlights

/-- A crew that is away runs again: its context is read from its frame, its fault log is applied, its frame goes back to
the pool (10 R262; 11 R281).  It waits while one of these waits. -/
def State.resume (s : State) (c : Crew) : State :=
  match s.readFrame c with
  | (none, s) => s
  | (some k, s) =>
    match s.dropFrame c with
    | (false, s) => s
    | (true, s) =>
      State.activate ((s.mapCrew c.id fun d => { k with frame := d.frame, log := d.log, late := [] }).applyLog k) k

/-- Whether the cores and the easel of a crew are in no other crew's active bank. -/
def State.bankFree (s : State) (c : Crew) : Bool :=
  c.cores.all (fun k => !s.crews.any fun d => d.id != c.id && d.cluster == c.cluster && (d.state == .running || d.state == .stopping) &&
    d.cores.contains k) &&
  (c.seq.isNone || !s.crews.any fun d => d.id != c.id && d.cluster == c.cluster && (d.state == .running || d.state == .stopping) &&
    d.seq.isSome)

/-- CREW_START (10 R241): a loaded crew starts, all its members together; one that resumes applies its fault log first. -/
def execCrewStart (crew : Nat) (s : State) : Host.Outcome State Fault Refusal :=
  .next <|
    match s.crew? crew with
    | some c =>
      if c.state == .loading && s.bankFree c then s.resume c else s
    | none => s

/-! ### The end of a crew (02 R45; 10 R244; 13 R310) -/

/-- Every member has finished. -/
def Crew.finished (c : Crew) : Bool := c.members.all fun m => ((c.member? m).map Gang.finished).getD true

/-- Nothing of a crew is in flight: its accesses, its copies into registers, its engines (02 R28). -/
def State.crewQuiet (s : State) (c : Crew) : Bool :=
  s.flights.all (·.crew != c.id) && (c.gangs ++ c.seq.toList).all (·.holds == 0) && !s.engineBusy c.id

/-- A queue of this device that is served holds a packet that a crew appended (09 R215). -/
def State.willServe (s : State) (a : Appended) : Bool :=
  s.clusters.any fun (i, cl) => cl.queues.any fun e =>
    e.desc.getLsbD 0 && s.queueHome (bitsOf e.attrs 0 12) (i / 12) e.addr == a.queue

/-- Every fabric request of a handler's crew and of the commands it gave a BTE, those it appended to a served queue and the
records they write included, has been counted injected (13 R310). (DEDUCED: assumption 118). -/
def State.crewCounted (s : State) (c : Crew) : Bool :=
  (s.messages.all fun m => m.crew != some c.id || m.state != .ready) &&
  match c.origin with
  | .handler .. =>
    let mine (cmd : Command) : Bool := cmd.crew == some c.id
    !s.appended.any (fun a => a.crew == c.id && s.willServe a) &&
    s.clusters.all fun (i, cl) => !cl.inbox.any mine && !cl.pending.any mine && cl.slots.zipIdx.all fun (sl, k) =>
      match sl.cmd with
      | some cmd => !mine cmd || sl.state == .free || (sl.state == .completing && !s.recordFar i k sl cmd)
      | none => true
  | _ => true

/-- Performs the JDEC of a crew that is DONE, at its home (10 R243, R244), or has another device perform it: false until
it is done. (DEDUCED: assumption 48). -/
def State.joinCrew (s : State) (c : Crew) : Bool × State :=
  let va := c.rcd.d2.toNat
  if va = 0 || 2 ^ 56 ≤ va then (true, s)
  else if s.deviceAcc.contains (.join c.id) || s.ownedSpan c.asid va 128 then (false, s)
  else
    match s.devPeek c.asid va 128 with
    | (.bytes bs, s) =>
      let bs := bs.map s.orFill
      let old := leValue (bs.take 4)
      match s.devPoke deviceOwner c.asid va (leBytes 4 ((old + 2 ^ 32 - 1) % 2 ^ 32)) with
      | (.done, s) =>
        (true, if old = 1 then s.pushRecord (recordOf (bs.drop 64) (recordTag c.job c.asid c.launch)) .plain c.die none none
          else s)
      | (.fault code at_, s) => (false, s.deviceFault (.join c.id) c.asid code at_)
      | (_, s) => (false, s)
    | (.fault code at_, s) => (false, s.deviceFault (.join c.id) c.asid code at_)
    | (.fabric t off _, s) =>
      let (r, s) := s.farDo (.crew c.id) 11 t off 4 [0, 0, 0] (some c.id) c.job c.die
      (r.isSome, s)
    | (.held, s) => (false, s)

/-- The easel waits for no tokens, and those granted to it go back (10 R258; 14 R329). -/
def State.dropTokens (s : State) (easel : Nat) : State := (s.dropRequests easel).returnGrant easel 0

/-- The crew's resources are released. -/
def State.removeCrew (s : State) (c : Crew) : State :=
  let s : State := { s.farDone (.crew c.id) with
    crews := s.crews.filter (·.id != c.id)
    records := s.records.filter fun r => r.saved != some c.id }
  if c.seq.isSome && (c.state == .running || c.state == .stopping || c.state == .done) then
    ((s.clearStages c.cluster).dropTokens c.cluster).mapCluster c.cluster fun cl =>
      { cl with tags := [], ports := cl.ports.map fun _ => ⟨[], 0, 0⟩ }
  else s

/-- The completion signals of a crew that is DONE: its join, made once, the buffers of its task, its frame, and then its
launch, dependents, graph or message. -/
def State.finishCrew (s : State) (c : Crew) : State :=
  match s.joinCrew c with
  | (false, s) => s
  | (true, s) =>
    let s := s.mapCrew c.id fun k => { k with rcd := { k.rcd with d2 := 0 } }
    match s.freeTask c.origin with
    | (false, s) => s
    | (true, s) =>
      match s.dropFrame c with
      | (false, s) => s
      | (true, s) => (s.removeCrew c).taskEnded c.rcd c.origin c.die c.abandoned 0

/-- CREW_DONE (02 R45). -/
def execCrewDone (crew : Nat) (s : State) : Host.Outcome State Fault Refusal :=
  .next <|
    match s.crew? crew with
    | some c =>
      if (c.abandoned || c.state == .running || c.state == .stopping || c.state == .done) && c.finished && s.crewQuiet c &&
          s.crewCounted c then
        let c := if c.active then { c with state := .done } else c
        (s.mapCrew c.id fun k => { k with state := c.state }).finishCrew c
      else s
    | none => s

/-! ### Pre-emption (02 R43 to R45; 10 R259 to R261) -/

/-- PREEMPT_REQUEST (10 R260): supervisor software names a crew. -/
def execPreemptRequest (context : Nat) (s : State) : Host.Outcome State Fault Refusal :=
  .next (s.mapCrew context fun c => if c.state == .running then { c with state := .stopping } else c)

/-- The clusters that consider a record's queue. -/
def QueuedRec.clusters (r : QueuedRec) : List Nat :=
  (List.range 24).filter fun k => r.queue == k || r.queue == 24 + k / 12 || (24 ≤ r.queue && r.rcd.place == 0x3F)

/-- Whether some cluster can place a record now. -/
def State.placeable (s : State) (r : QueuedRec) : Bool :=
  r.clusters.any fun k => match (s.fit r k []).1 with | .later => false | _ => true

/-- The victim for a record: the RUNNING crew of lowest PRIORITY below 3 whose removal lets its cluster place it; of
several, the one started most recently. (DEDUCED: assumption 46). -/
def State.victimFor (s : State) (r : QueuedRec) : Option Crew :=
  (s.crews.filter fun c => c.state == .running && c.prio < 3 && r.clusters.contains c.cluster &&
      (s.fit r c.cluster [c.id]).1 == .now).foldl (fun best c => match best with
    | none => some c
    | some b => if c.prio < b.prio || (c.prio == b.prio && b.started < c.started) then some c else some b) none

/-- PREEMPT_WAIT (10 R260): the victim stops, and the record loads into the STREAM banks of its cores meanwhile, where it
has room beside the victim's partition (10 R261); else it waits for the rotation, or for the victim's partition.
(DEDUCED: assumption 47). -/
def execPreemptWait (rec_ : Nat) (s : State) : Host.Outcome State Fault Refusal :=
  .next <|
    let wait := 1024 * bitsOf s.schedCtl 16 16
    match s.records.find? fun r => r.id == rec_ && !r.spilled with
    | some r =>
      if wait ≠ 0 && r.prio == 3 && r.topAt + wait ≤ s.clock.toNat && !s.poolEmpty framePool &&
          !s.placeable r && !s.crews.any (·.victimOf == some rec_) then
        match s.victimFor r with
        | some c =>
          let s := s.mapCrew c.id fun k => { k with state := .stopping, victimOf := some rec_ }
          match s.fitIn r (s.roomBeside c.cluster c.id) (s.easelFree c.cluster [c.id]) with
          | (.now, s) => s.load r c.cluster (s.roomBeside c.cluster c.id)
          | (_, s) => s
        | none => s
      else s
    | none => s

/-- Whether a part keeps its crew in the active bank: bound for a register or a port, and neither returned nor parked. -/
def Part.binds (f : Flight) (p : Part) : Bool :=
  !(p.state == .returned || p.isParked) &&
    (f.kind == .result || f.kind == .palette || f.port.isSome || !p.dst.isEmpty || f.parts.any Part.isParked)

/-- The conditions of 02 R43 and 11 R274, R280, and 17 R427. -/
def State.stopped (s : State) (c : Crew) : Bool :=
  (c.gangs ++ c.seq.toList).all (fun g => g.holds == 0 && g.liveSlices.all fun i =>
    !(g.slice i).inHandler && match (g.slice i).wait with | .spcfg _ | .mapf _ => false | _ => true) &&
  s.flights.all (fun f => f.crew != c.id || f.parts.all fun p => !p.binds f) && !s.engineBusy c.id

/-- What a slice keeps when its context leaves the active bank: its lookahead windows have ended, its monitor is
discarded, and an instruction that waited has not executed (03 R67; 08 R205; 17 R402, R415). -/
def Slice.setAside (sl : Slice) : Slice :=
  { sl.endWindows with
    monitor := none, wake := none, bound := none
    wait := match sl.wait with | .mwait .. | .quiet .. | .yld _ => .none | w => w }

/-- A STANDBY context leaves its bank for its frame. (DESIGN CHOICE: assumption 38). -/
def State.toStream (s : State) (c : Crew) : State :=
  s.mapCrew c.id fun k => { k with
    state := .stream
    log := (s.flights.filter fun f => f.crew == c.id && f.parts.any Part.isParked).map fun f =>
      logEntry f c.id ((f.parts.filter Part.isParked).map (·.lane)) }

/-- The STANDBY crews whose banks a new crew's rotation needs: those that share a core or the easel with the victim. -/
def State.standbyOn (s : State) (c : Crew) : List Crew :=
  s.crews.filter fun d => d.id != c.id && d.cluster == c.cluster && d.state == .standby &&
    (d.cores.any c.cores.contains || (d.seq.isSome && c.seq.isSome))

/-- A STREAM bank that the contexts leaving a rotation need is taken; what a core of the victim holds in it, loaded for the
rotation, leaves it (10 R259, R261). -/
def State.streamBusy (s : State) (c : Crew) (leaving : List Crew) : Bool :=
  leaving.any fun d => d.cores.any fun k =>
    if c.cores.contains k then
      s.crews.any fun e => e.id != d.id && e.cluster == c.cluster && e.state == .stream && e.cores.contains k
    else s.streamHeld c.cluster k

/-- Gives save frames to crews: false while one of them must wait. -/
def State.takeFrames (s : State) : List Crew → Bool × State
  | [] => (true, s)
  | c :: cs =>
    match s.takeFrame c with
    | (false, s) => (false, s)
    | (true, s) => s.takeFrames cs

/-- The easel's context of a stopped crew that has one goes into its frame (10 R261 step 3). -/
def State.writeEasel (s : State) (c : Crew) : Bool × State :=
  if c.seq.isNone then (true, s)
  else
    let k := ((s.saveEasel c).crew? c.id).getD c
    s.writeFrame k 0 k.easelBytes

/-- The record a crew is stopped for, if it still waits. -/
def State.admitted (s : State) (c : Crew) : Option QueuedRec := c.victimOf.bind fun id => s.records.find? (·.id == id)

/-- Whether the record a crew is stopped for needs the crew's SRAM too, which a STANDBY crew keeps (07 R165): the crew
goes on to its frame, and the record is loaded once it is there. (DEDUCED: assumption 47). -/
def State.tight (s : State) (c : Crew) : Bool :=
  match s.admitted c with
  | some r => ((s.mapCrew c.id fun k => { k with state := .standby }).fit r c.cluster []).1 != .now &&
      (s.fit r c.cluster [c.id]).1 == .now
  | none => false

/-- Crews that were stopped for a record which needs their SRAM leave their STANDBY banks for their frames, where the STREAM
banks of their cores are free. -/
def State.streamTight (s : State) (cluster : Nat) : State :=
  s.crews.foldl (fun s c =>
    if c.cluster == cluster && c.state == .standby && c.victimOf.isSome && !c.cores.any (s.streamHeld cluster) then s.toStream c
    else s) s

/-- The record a crew is stopped for, where it is not loaded yet, is loaded beside all that still holds a partition. -/
def State.takeIn (s : State) (c : Crew) : State :=
  match s.admitted c with
  | some r => if (s.fit r c.cluster []).1 == .now then s.load r c.cluster (s.room c.cluster []) else s
  | none => s

/-- The rotation that makes a stopped crew STANDBY: the record it was stopped for, where it is not loaded yet, is loaded in
its place, unless it waits for the crew's SRAM. -/
def State.rotate (s : State) (c : Crew) (away : List Crew) (tight : Bool) : State :=
  let s := if c.seq.isSome then (s.saveEasel c).dropTokens c.cluster else s
  let s := away.foldl (fun s d => s.toStream d) s
  let s := s.mapCrew c.id fun k => { k.mapAllSlices Slice.setAside with state := .standby, victimOf := if tight then c.victimOf else none }
  if tight then s.streamTight c.cluster else s.takeIn c

/-- PREEMPT_STOPPED (10 R261): the victim's easel context is written to its frame, then the rotation follows. -/
def execPreemptStopped (crew : Nat) (s : State) : Host.Outcome State Fault Refusal :=
  .next <|
    match s.crew? crew with
    | some c =>
      let away := s.standbyOn c
      let tight := s.tight c
      if c.state == .stopping && !c.finished && s.stopped c && !s.streamBusy c away then
        match s.takeFrames ((if c.seq.isSome || tight then [c] else []) ++ away) with
        | (false, s) => s
        | (true, s) =>
          match s.writeEasel c with
          | (true, s) => s.rotate c away tight
          | (false, s) => s
      else s
    | none => s

/-- CONTEXT_SAVED (10 R261): the banks, SRAM and slice state are in the frame with the fault log, and its record takes one of
its queue's entries (10 R236) at its former age; a record that waited for its partition is loaded. (DEDUCED: assumption 40). -/
def execContextSaved (crew : Nat) (s : State) : Host.Outcome State Fault Refusal :=
  .next <|
    match s.crew? crew with
    | some c =>
      if c.state == .stream && (s.onChip c.queue).length < 64 then
        let r : QueuedRec :=
          { id := c.age, rcd := c.rcd, origin := c.origin, queue := c.queue, since := s.clock.toNat, boosts := 0
            topAt := s.clock.toNat, skips := 0, blocking := false, spilled := false, saved := some c.id }
        match s.writeFrame c c.easelLength (c.bankBytes ++ c.log.flatMap FaultLog.bytes) with
        | (true, s) =>
          ((State.mapCrew { s with records := s.records ++ [r] } c.id fun k =>
            { k with state := .saved, victimOf := none }).takeIn c).streamTight c.cluster
        | (false, s) => s
      else s
    | none => s

/-- STANDBY_RESUME (02 R45). -/
def execStandbyResume (crew : Nat) (s : State) : Host.Outcome State Fault Refusal :=
  .next <|
    match s.crew? crew with
    | some c =>
      if c.state == .standby && c.victimOf.isNone && c.cores.all (fun k => s.coreFree c.cluster k []) && (c.seq.isNone || s.easelFree c.cluster []) then
        s.resume c
      else s
    | none => s

end Sys2Proof.Machine
end

