-- ==== Sys2Proof/Machine/Supervisor.lean ====
section
/-! DEFINITION. Translation and scratchpad under supervisor control: MAPF, TLBI, SPCFG, fault-resume, and page migration
(07 R185, R186; 08 R204; 11 R269, R270, R277, R278, R480, R282, R283; 17 R393, R394, R427; 18 R438, R439). -/

namespace Sys2Proof.Machine
set_option Elab.async false
open Sys2Proof

/-! ### MAPF (17 R393, R394) -/

/-- An EMPTY of a handler escalates the parked instructions of its party at that page: the party waits on them for
fault-resume (11 R278). -/
def State.escalate (s : State) (c : Ctx) (va : Nat) : State :=
  { s with flights := s.flights.map fun f =>
      if f.crew == c.crew.id && f.member == c.member &&
          f.parts.any fun p => p.isParked && c.sls.contains p.slice && p.addr.toNat / 2 ^ 16 == va / 2 ^ 16 then
        { f with held := true }
      else f }

/-- The steps of the lanes in ascending order, after the statuses of the lanes done: all statuses, or those so far where
a lane's step waits. -/
def State.mapLanes (s : State) (c : Ctx) (done : List Nat) : List (Nat × Nat) → Bool × List Nat × State
  | [] => (true, done, s)
  | (_, va) :: rest =>
    match s.mapStep c.asid va with
    | (none, s) => (false, done, s)
    | (some st, s) =>
      let s := if st = .empty then (s.postEvent (faultEvent c.crew.id c.asid Cause.notPresent.code va)).escalate c va else s
      s.mapLanes c (done ++ [st.code]) rest

/-- The statuses of the lanes a waiting MAPF has done. -/
def Wait.mapped : Wait → List Nat
  | .mapf done => done
  | _ => []

/-- MAPF (17 R394).  While a lane's step waits, on a pool's ring or an owned line, the lanes before it are done (11 R480). -/
def execMapf (d a : BitVec 7) : State → Host.Outcome State Fault Refusal :=
  runOp (.mapf d a) { priv := true, bad := isQueueField d || isQueueField a, uses := fun _ => [.src64 a, .dst d] } fun c args s => do
    let at_ := c.lanes.zip (args.getD 0 [])
    if at_.any fun (_, x) => natBits x 56 8 ≠ 0 then .error (.trap .address at_)
    let done := c.first.wait.mapped
    let wait (w : Wait) (s : State) : State := s.mapIssuer c fun g => g.mapSlices c.sls fun sl => { sl with wait := w }
    match s.mapLanes c done (at_.drop done.length) with
    | (true, sts, s) => .ok (((wait .none s).writeField c (fun _ => .dst d) sts).retireNext c)
    | (false, sts, s) => .ok (wait (.mapf sts) s)

/-! ### TLBI (18 R438, R439; 11 R269, R270) -/

/-- The shared meaning of the forms that name a pair: `legal` is the pair's form and `drop` what it covers. -/
def tlbi (i : Instr) (a : BitVec 7) (legal : Nat → Bool) (drop : State → Nat → State) : State → Host.Outcome State Fault Refusal :=
  runOp i { priv := true, uses := fun _ => [.src64 a] } fun c args s =>
    match c.firstVal (args.getD 0 []) with
    | none => .ok (s.retireNext c)
    | some v => do
      need (legal v) .illegal
      .ok ((if natBits v 0 12 = aliasAsid then s else drop s v).retireNext c)

/-- TLBI.PAGE (18 R438). -/
def execTlbiPage (a : BitVec 7) : State → Host.Outcome State Fault Refusal :=
  tlbi (.tlbiPage a) a (fun v => natBits v 12 4 == 0 && natBits v 56 8 == 0) fun s v =>
    s.tlbiPage (natBits v 0 12) (natBits v 16 40 * 2 ^ 16)

/-- TLBI.ASID (18 R438). -/
def execTlbiAsid (a : BitVec 7) : State → Host.Outcome State Fault Refusal :=
  tlbi (.tlbiAsid a) a (fun v => natBits v 12 52 == 0) fun s v => s.tlbiAsid (natBits v 0 12)

/-- TLBI.ALL (18 R438). -/
def execTlbiAll : State → Host.Outcome State Fault Refusal :=
  runOp .tlbiAll { priv := true } fun c _ s => .ok ((if c.lanes.isEmpty then s else s.tlbiAll).retireNext c)

/-- TLBI_REQUEST_PAGE (11 R269). (DEDUCED: assumption 74). -/
def execTlbiRequestPage (asid va : Nat) (s : State) : Host.Outcome State Fault Refusal :=
  .next (if asid = aliasAsid then s else s.tlbiPage asid va)

/-- TLBI_REQUEST_ASID (11 R269). -/
def execTlbiRequestAsid (asid : Nat) (s : State) : Host.Outcome State Fault Refusal :=
  .next (if asid = aliasAsid then s else s.tlbiAsid asid)

/-- TLBI_REQUEST_ALL (11 R269). -/
def execTlbiRequestAll (s : State) : Host.Outcome State Fault Refusal := .next s.tlbiAll

/-! ### SPCFG (07 R185, R186; 17 R427) -/

/-- The commands of a cluster's BTE that have been issued or consumed and are not yet done, records included, each with its
slot; 17 stands for none. -/
def Cluster.busy (cl : Cluster) : List (Nat × Command) :=
  (cl.inbox ++ cl.pending).map (17, ·) ++
    cl.slots.zipIdx.filterMap fun (sl, k) => if sl.state == .free then none else sl.cmd.map (k, ·)

/-- The BTE commands in flight, by cluster and source. -/
def State.busyCommands (s : State) : List (Nat × Source) :=
  s.clusters.flatMap fun (c, cl) => cl.busy.map fun (_, cmd) => (c, cmd.source)

/-- SPCFG (17 R427).  A size already in force completes at once. -/
def execSpcfg (o z : BitVec 1) (w : BitVec 4) : State → Host.Outcome State Fault Refusal :=
  runOp (.spcfg o z w) { priv := true, bad := 8 < w.toNat } fun c _ s => do
    let die := (c.die + o.toNat) % 2
    ready (c.lanes.isEmpty || (s.spcfg.getD die none).isNone)
    if c.lanes.isEmpty || w.toNat = s.chipWays.getD die 0 then .ok (s.retireNext c)
    else
      let r : Resize := ⟨w.toNat, z == 1, ⟨c.crew.id, c.member, c.party⟩, s.serial, s.busyCommands⟩
      .ok (State.retire { s with spcfg := s.spcfg.set die (some r) } c fun sl => { sl with wait := .spcfg die })

/-- Whether an address lies in the chip scratchpad of a die, as a cluster of another or the same die names it. -/
def inChip (die mine : Nat) (a : Nat) : Bool :=
  natBits a 56 8 == 0xFE && natBits a 53 3 == 3 && (mine + natBits a 52 1) % 2 == die

/-- A command may reach a die's chip scratchpad: at its source, its destination, its parameter block or its queue
descriptor; a reduction at any place, since its block names more. -/
def Command.inChip (cmd : Command) (cluster die : Nat) : Bool :=
  let p := cmd.packet
  (cmd.desc :: [1, 2, 7].map fun k => (dbl p k).toNat).any (Machine.inChip die (cluster / 12)) ||
    (pktType p == 1 && (pktXf p == 0x0B || pktXf p == 0x0C))

/-- The slots an XQAP appends to lie in a die's chip scratchpad, as its queue's descriptor now reads (09 R214, R223), or the
descriptor cannot be read yet. -/
def State.appendsTo (s : State) (die : Nat) (r : BteRef) : Bool :=
  r.cmd.kind == .xqap &&
    match (bteBytes r r.cmd.desc 64).run s with
    | (.ok bs, _) => Machine.inChip die (r.cluster / 12) (queueDesc bs).base
    | (.error (.stop _), _) => false
    | (.error _, _) => true

/-- A GRAPH's object leads to a die's chip scratchpad, as its header and nodes now read (10 R251), or they cannot be read
yet. -/
def State.graphsIn (s : State) (die : Nat) (r : BteRef) : Bool :=
  r.cmd.kind == .packet && pktType r.cmd.packet == 3 &&
    match (bteGraphAreas r).run s with
    | (.ok as, _) => as.any (Machine.inChip die (r.cluster / 12))
    | (.error (.stop _), _) => false
    | (.error _, _) => true

/-- The completion record of a command goes to a ring in a die's chip scratchpad (09 R230, R231). -/
def State.recordsTo (s : State) (die : Nat) (r : BteRef) : Bool :=
  r.cmd.kind != .xqap && (s.ring r.cmd.ring).enabled && Machine.inChip die (r.cluster / 12) (s.ring r.cmd.ring).next

/-- Accesses in flight reach a die's chip scratchpad at or above an offset (07 R186). (DEDUCED: assumption 52). -/
def State.chipBusy (s : State) (die limit : Nat) (r : Resize) : Bool :=
  s.flights.any (fun f => f.parts.any fun p => p.state.open_ && inChip die ((s.crew? f.crew).map Crew.die |>.getD 0) p.addr.toNat &&
    limit < natBits p.addr.toNat 0 32 + p.size) ||
  s.engines.any (fun (n, e) => e.queue.any fun op => op.id < r.serial &&
    (op.aDesc.toList ++ op.bDesc.toList).any fun d => 3 ≤ Desc.space d && (n / 96 + (Desc.space d - 3)) % 2 == die) ||
  s.clusters.any fun (c, cl) => cl.busy.any fun (k, cmd) => r.cmds.contains (c, cmd.source) &&
    (cmd.inChip c die || s.appendsTo die ⟨c, k, cmd⟩ || s.graphsIn die ⟨c, k, cmd⟩ || s.recordsTo die ⟨c, k, cmd⟩)

/-- The ways of a die's scratchpad that stay when it has n ways a slice (07 R167). -/
def keptWays (t : Table Memory) (n : Nat) : Table Memory := t.filter fun (k, _) => 16 - n ≤ k % 16

/-- Whether a line lies in a way that becomes scratchpad when a die has n ways a slice. -/
def Line.draining (l : Line) (die n : Nat) : Bool := l.slice / 192 == die && 16 - n ≤ l.way

/-- The ways that become scratchpad are emptied (07 R185): their clean lines and all copies are dropped, dirty ones written
back; a line that is owned, or whose page is frozen, stays until it is not.  Write-backs made before and not yet sent are
made again. -/
def State.drainWays (s : State) (die n : Nat) : State :=
  let s := (s.writeBacks.filter fun w => w.spcfg == some die && !w.sent && w.fault.isNone).foldl State.makeWriteBack s
  (s.lines.filter (·.draining die n)).foldl (fun s l =>
    if !s.lines.contains l || s.lineOwned l || s.frozen l.asid (l.line * lineBytes) then s
    else if !l.dirty && l.form.isNone then s.unload l none none
    else if l.form.isNone && s.writeBacks.any fun w => w.asid == l.asid && w.line == l.line && !w.sent then s
    else s.writeBackLine l (some die)) s

/-- The ways that become scratchpad are empty: no line, no fill under way, and no write-back of theirs still held. -/
def State.drained (s : State) (die n : Nat) : Bool :=
  !s.lines.any (·.draining die n) &&
    !s.fills.any (fun x => lineSlice x.asid x.line / 192 == die && 16 - n ≤ x.way) &&
    !s.writeBacks.any fun w => w.spcfg == some die && !w.sent

/-- The die takes its new size: grown ways hold zero or free values, released ways are lost (07 R185, R186). -/
def State.resize (s : State) (die : Nat) (r : Resize) : State :=
  let old := s.chipWays.getD die 0
  let lo := old * wayBytes
  let hi := r.ways * wayBytes
  let free := s.chipFree.getD die []
  let free' :=
    if r.ways < old then (free.filter fun (_, a, _) => a < hi).map fun (n, a, b) => (n, a, min b hi)
    else if r.zero then free else free ++ [(s.freeCount, lo, hi)]
  { s with
    freeCount := s.freeCount + 1
    chipWays := s.chipWays.set die r.ways
    chipFree := s.chipFree.set die free'
    chip := if r.ways < old then listModify s.chip die fun t => keptWays t r.ways else s.chip
    spcfg := s.spcfg.set die none }

/-- The waiting slices of a completed SPCFG go on. -/
def Gang.endSpcfg (die party stamp : Nat) (g : Gang) : Gang :=
  (g.mapSlices (g.partySlices party) fun sl =>
    if sl.wait == .spcfg die then ({ sl with wait := .none } : Slice).advance else sl).part party stamp

/-- SPCFG_COMPLETE (07 R185, R186): when it grows, once its ways are empty; when it shrinks, once every older access to
the released range has been performed. -/
def execSpcfgComplete (die : Nat) (s : State) : Host.Outcome State Fault Refusal :=
  .next <|
    match s.spcfg.getD die none with
    | none => s
    | some r =>
      let grows := s.chipWays.getD die 0 < r.ways
      let s := if grows then s.drainWays die r.ways else s
      if if grows then !s.drained die r.ways else s.chipBusy die (r.ways * wayBytes) r then s
      else (s.resize die r).mapGang r.thread.crew r.thread.member (Gang.endSpcfg die r.thread.party s.issued)

/-! ### Fault-resume (11 R278, R480) -/

/-- Does again what the device waits to do on its own behalf: a buffer is returned and a message received here; who waits
on a pool, a frame, a spill ring or a join block tries again by itself, once nothing marks its access as waiting. -/
def State.retryDevice (s : State) : List DeviceAccess → State
  | [] => (s.returnBuffers none).2
  | .buffer pool buf asid :: rest => State.retryDevice { s with returns := s.returns ++ [(asid, pool, buf)] } rest
  | .message _ port source tag job payload :: rest => (s.amsgReceive port source tag job payload).retryDevice rest
  | _ :: rest => s.retryDevice rest

/-- Gives up what the device waits to do on its own behalf. (DEDUCED: assumption 51). -/
def State.dropDevice (s : State) : List DeviceAccess → State
  | [] => s
  | .join crew :: rest => (s.mapCrew crew fun c => { c with rcd := { c.rcd with d2 := 0 } }).dropDevice rest
  | .giveFrame f :: rest =>
    State.dropDevice { s with crews := s.crews.map fun c => if c.frame == some f then { c with frame := none } else c } rest
  | .spill q :: rest =>
    match s.pushes.zipIdx.find? fun (p, _) => p.queue == q with
    | some (p, i) => (State.pushMade (s.dropPush i) p).dropDevice rest
    | none => s.dropDevice rest
  | .unspill q :: rest =>
    match s.spilled q with
    | r :: _ =>
      (State.setPoolDouble { s with records := s.records.filter (·.id != r.id) } (spillPool q) 2
        (s.poolDouble (spillPool q) 2 + 1)).dropDevice rest
    | [] => s.dropDevice rest
  | _ :: rest => s.dropDevice rest

/-- The slot of a BTE context number. -/
def slotOf (context : Nat) : Nat × Nat := ((context - 0x8000) / 16, context % 16)

/-- FAULT_RESUME (11 R278, R480): every access that waits under a context is made again. -/
def execFaultResume (context : Nat) (s : State) : Host.Outcome State Fault Refusal :=
  .next <|
    if context < 0x8000 then
      let s := s.replay context fun _ _ _ => true
      { s with flights := s.flights.map fun f => if f.crew == context then { f with held := false } else f }
    else if context < 0x8180 then
      let (c, k) := slotOf context
      s.mapSlot c k fun sl =>
        if sl.state == .parked then { sl with state := .active, faultCode := 0, faultVa := 0 }
        else if sl.state == .completing && sl.wait == .record then { sl with wait := .none }
        else sl
    else if 0x9000 ≤ context && context < 0x9180 then
      s.mapQueue ((context - 0x9000) / 16) (context % 16) fun e => { e with faulted := false }
    else if context = 0xFFFF then
      (s.writeBacks.filter (·.fault.isSome)).foldl (fun s w => s.makeWriteBack { w with fault := none })
        { s with writeBacks := s.writeBacks.map fun w => { w with fault := none } }
    else if context = 0xFFFD then State.retryDevice { s with deviceAcc := [] } s.deviceAcc
    else s

/-- A parked command is given up: FAULT, or for a launch that has pushed tasks, FAULT once they have finished (10 R246). -/
def State.abortSlot (s : State) (c k : Nat) : State :=
  match s.command? c k with
  | none => s
  | some (sl, r) =>
    if sl.state == .parked && sl.faultCode ≠ 0 then
      if pktType r.cmd.packet == 2 || pktType r.cmd.packet == 3 then s.stopLaunch r 3 else s.endCommand r 3
    else if sl.state == .completing && sl.wait == .record then s.releaseSlot c k
    else s

/-- FAULT_RESUME_ABORT (11 R278, R480). (DESIGN CHOICE: assumption 133). -/
def execFaultResumeAbort (context : Nat) (s : State) : Host.Outcome State Fault Refusal :=
  .next <|
    if context < 0x8000 then s.abandonCrew context Cause.abandon.code 0
    else if context < 0x8180 then s.abortSlot (slotOf context).1 (slotOf context).2
    else if 0x9000 ≤ context && context < 0x9180 then
      s.mapQueue ((context - 0x9000) / 16) (context % 16) fun e =>
        if e.faulted then { e with faulted := false, desc := e.desc &&& ~~~1 } else e
    else if context = 0xFFFF then
      (s.writeBacks.filter (·.fault.isSome)).foldl State.flushEnded { s with writeBacks := s.writeBacks.filter (·.fault.isNone) }
    else if context = 0xFFFD then State.dropDevice { s with deviceAcc := [] } s.deviceAcc
    else s

/-! ### Page migration (08 R204; 11 R282, R283) -/

/-- Updates a migration unit. -/
def State.mapUnit (s : State) (u : Nat) (f : Migration → Migration) : State :=
  { s with migrations := listModify s.migrations u f }

/-- ASID of a request block. -/
def Migration.asid (m : Migration) : Nat := bitsOf m.d1 0 12
/-- VA -/
def Migration.va (m : Migration) : Nat := bitsOf m.d0 0 56
/-- The level of the leaf the request names. -/
def Migration.level (m : Migration) : Nat := if m.d1.getLsbD 12 then 1 else 0
/-- NEW_FRAME -/
def Migration.newFrame (m : Migration) : Nat := bitsOf m.d2 0 52
/-- FREEZE_LINES -/
def Migration.freezeLines (m : Migration) : Nat := bitsOf m.d1 16 8
/-- ROUND_LIMIT -/
def Migration.roundLimit (m : Migration) : Nat := bitsOf m.d1 24 4

/-- The record of EVENT 3; its CONTEXT is a value the spec does not give (assumption 18). -/
def State.migrationEvent (s : State) (m : Migration) (status code : Nat) : State :=
  State.postEvent { s with freeCount := s.freeCount + 1 }
    (eventRec status code ((Config.freeWord s.freeCount).toNat % 2 ^ 16 + 2 ^ 16 * m.asid + 2 ^ 28 * 3) m.va)

/-- A migration ends without effect: its record is written and the unit is IDLE. -/
def State.abortMigration (s : State) (u : Nat) (m : Migration) (code : Nat) : State :=
  (s.mapUnit u fun m => { m with state := 0, due := false, dirty := [], copying := [] }).migrationEvent m 3 code

/-- The leaf with its frame moved. -/
def moveLeaf (e : Double) (frame : Nat) : Double :=
  BitVec.ofNat 64 (e.toNat - bitsOf e 12 44 * 2 ^ 12 + frame / 256 % 2 ^ 44 * 2 ^ 12)

/-- Bytes of the frame of a page under a leaf. -/
def frameBytes (level : Nat) (e : Double) : Nat := if pteCrumb e then (crumbPage level e).frameSize else pageSize level

/-- A request that can be served (11 R282). -/
def Migration.usable (m : Migration) (u : Nat) (w : WalkEnd) : Bool :=
  m.asid != aliasAsid && bitsOf m.d1 28 36 == 0 && w.code == 0 && w.level == m.level && transHome m.va m.asid == u &&
    m.newFrame % m.size == 0 && m.newFrame + frameBytes m.level w.pte ≤ hbmEnd

/-- MIGRATION_START (11 R282). -/
def execMigrationStart (unit : Nat) (s : State) : Host.Outcome State Fault Refusal :=
  .next <|
    match s.migrations[unit]? with
    | none => s
    | some m =>
      if m.state ≠ 0 then s
      else
        let (w, _) := s.walk m.asid m.va
        let s := s.walked w
        if m.usable unit w then
          s.mapUnit unit fun m =>
            { m with state := 1, rounds := 0, dirty := [], copying := [], due := false, entry := w.entry, pte := w.pte }
        else s.abortMigration unit m w.code

/-- Offsets, in lines of the frame, of what holds line k of a page. -/
def Migration.frameLines (m : Migration) (k : Nat) : List Nat :=
  if pteCrumb m.pte then
    let p := crumbPage m.level m.pte
    let c := lineBytes / chunkSize p.fmt
    dedup ((List.range c).flatMap fun j =>
      let n := c * k + j
      let o := p.chunks * p.allot + n * chunkSize p.fmt
      [n * p.allot / lineBytes, o / lineBytes, (o + chunkSize p.fmt - 1) / lineBytes])
  else [k]

/-- Copies one line of a frame; `ecc` says what has happened to stored lines.  False when the read is uncorrectable, be the
line reconstructed or not. (DEDUCED: assumption 50). -/
def State.copyLine (s : State) (m : Migration) (ecc : Nat) (o : Nat) : Bool × State :=
  let line := pteAddr m.pte / lineBytes + o
  let sound := tabGet (s.strike (dataStack line) (line / 7) ecc).damage (stackLine (dataStack line) (line / 7)) 0 < 2
  match s.readLine line ecc with
  | (some bs, s) => (sound, s.writeLine (m.newFrame / lineBytes + o) bs false)
  | (none, s) => (false, s)

/-- Copies lines; false when a read is uncorrectable. -/
def State.copyLines (s : State) (m : Migration) (ecc : Nat) : List Nat → Bool × State
  | [] => (true, s)
  | o :: os =>
    match s.copyLine m ecc o with
    | (true, s) => s.copyLines m 0 os
    | r => r

/-- Copies lines as a stream (12 R291). -/
def State.streamLines (s : State) (m : Migration) (ecc : Nat) (os : List Nat) : Bool × State :=
  s.asStream fun s => s.copyLines m ecc os

/-- Copies one line of a frame in FREEZE, where the read of a line that is lost ends nothing: the new line is poisoned as
the old one is. (DEDUCED: assumption 50). -/
def State.copyFrozen (s : State) (m : Migration) (o : Nat) : State :=
  match s.readLine (pteAddr m.pte / lineBytes + o) 0 with
  | (some bs, s) => s.writeLine (m.newFrame / lineBytes + o) bs false
  | (none, s) => s.writeLine (m.newFrame / lineBytes + o) zeroLine true

/-- The set lines are copied in FREEZE, as a stream (11 R283; 12 R291). -/
def State.lastCopy (s : State) (m : Migration) : State :=
  (s.asStream fun s => ((), (m.dirty.flatMap m.frameLines).foldl (fun s o => s.copyFrozen m o) s)).2

/-- A write-back into the old frame has left its home and is not yet in HBM. -/
def State.frameBusy (s : State) (m : Migration) : Bool :=
  let lo := pteAddr m.pte / lineBytes
  let hi := lo + frameBytes m.level m.pte / lineBytes
  s.writeBacks.any fun w => w.sent && !w.acked && w.pas.any fun (l, _) => lo ≤ l && l < hi

/-- The page's leaf is no longer what the request found. -/
def State.leafChanged (s : State) (m : Migration) : Bool := s.readPte m.entry != m.pte

/-- What reading the page's leaf does to memory and its counters (12 R300). -/
def State.leafRead (s : State) (m : Migration) : State := s.walked ⟨0, m.entry, 0, 0, [m.entry]⟩

/-- MIGRATION_COPY_DONE (11 R283). -/
def execMigrationCopyDone (unit ecc : Nat) (s : State) : Host.Outcome State Fault Refusal :=
  .next <|
    match s.migrations[unit]? with
    | none => s
    | some m =>
      if m.state ≠ 1 || s.frameBusy m then s
      else if s.leafChanged m then (s.leafRead m).abortMigration unit m 0
      else
        match (s.leafRead m).streamLines m ecc (List.range (frameBytes m.level m.pte / lineBytes)) with
        | (true, s) => s.mapUnit unit fun m => { m with state := 2, copying := m.dirty, dirty := [] }
        | (false, s) => s.abortMigration unit m 0

/-- MIGRATION_ROUND_DONE (11 R283): the round's lines are copied; those written meanwhile make the next round, or the
freeze. -/
def execMigrationRoundDone (unit ecc : Nat) (s : State) : Host.Outcome State Fault Refusal :=
  .next <|
    match s.migrations[unit]? with
    | none => s
    | some m =>
      if m.state ≠ 2 || m.due || s.frameBusy m then s
      else if s.leafChanged m then (s.leafRead m).abortMigration unit m 0
      else
        match (s.leafRead m).streamLines m ecc (m.copying.flatMap m.frameLines) with
        | (false, s) => s.abortMigration unit m 0
        | (true, s) => s.mapUnit unit fun m =>
          if m.dirty.length ≤ m.freezeLines || m.roundLimit ≤ m.rounds + 1 then
            { m with rounds := m.rounds + 1, copying := [], due := true }
          else { m with rounds := m.rounds + 1, copying := m.dirty, dirty := [] }

/-- MIGRATION_FREEZE (08 R204, 11 R283): once no operation owns a line of the page. -/
def execMigrationFreeze (unit : Nat) (s : State) : Host.Outcome State Fault Refusal :=
  .next <|
    match s.migrations[unit]? with
    | none => s
    | some m =>
      if m.state ≠ 2 || !m.due || s.owned.any (fun o => m.holds o.asid (o.line * lineBytes)) then s
      else if s.leafChanged m then (s.leafRead m).abortMigration unit m 0
      else (s.leafRead m).mapUnit unit fun m => { m with state := 3 }

/-- A queue whose descriptor lies in a page that moved lies in its new frame (11 R283). -/
def Migration.moveQueue (m : Migration) (a : Appended) : Appended :=
  match a.queue with
  | .frame pa =>
    if !pteCrumb m.pte && pteAddr m.pte ≤ pa && pa < pteAddr m.pte + m.size then
      { a with queue := .frame (m.newFrame + (pa - pteAddr m.pte)) }
    else a
  | _ => a

/-- Fills under way read the new frame (08 R204), and queues are known by it. -/
def State.retarget (s : State) (m : Migration) : State :=
  { s with
    appended := s.appended.map m.moveQueue
    fills := s.fills.map fun x =>
      if x.data.isNone && m.holds x.asid (x.line * lineBytes) then
        match x.crumb with
        | none => { x with pa := m.newFrame + x.line * lineBytes % m.size }
        | some (_, sz, f, a) => { x with crumb := some (m.newFrame, sz, f, a) }
      else x }

/-- MIGRATION_DONE (11 R283): the last lines are copied, the leaf names the new frame, and the freeze lifts. -/
def execMigrationDone (unit : Nat) (s : State) : Host.Outcome State Fault Refusal :=
  .next <|
    match s.migrations[unit]? with
    | none => s
    | some m =>
      if m.state ≠ 3 || s.frameBusy m then s
      else if s.leafChanged m then (s.leafRead m).abortMigration unit m 0
      else
        let s := (s.leafRead m).lastCopy m
        match s.poke deviceOwner aliasAsid m.entry (leBytes 8 (moveLeaf m.pte m.newFrame).toNat) with
        | (.done, s) =>
          ((((s.tlbiPage m.asid m.va).retarget m).mapUnit unit fun m =>
            { m with state := 0, due := false, dirty := [], copying := [] }).migrationEvent m 0 0)
        | (_, s) => s

end Sys2Proof.Machine
end

