-- ==== Sys2Proof/Machine/Waves.lean ====
section
/-! DEFINITION. The proof wave (13 R312 to R314, R316): a node's part of each pass, the root's decision, and what DECIDE
does at every node. -/

namespace Sys2Proof.Machine
set_option Elab.async false
open Sys2Proof

/-! ### Job entries of a node (13 R312) -/

/-- The die whose entry of a job a node reads its tree from: both hold equal values. -/
def State.treeDie (s : State) (job : Nat) : Option Nat := [0, 1].find? fun d => (s.jobEntry? d job).isSome

/-- Double k of a job's entry, as the tree is read. -/
def State.treeDouble (s : State) (job k : Nat) : Double :=
  match s.treeDie job with
  | some d => s.jobDouble d ((s.jobEntry? d job).getD 0) k
  | none => 0

/-- CHILD0 to CHILD5, as many as CHILDREN. -/
def State.childrenOf (s : State) (job : Nat) : List Nat :=
  (List.range (min 6 (bitsOf (s.treeDouble job 0) 36 3))).map fun k => bitsOf (s.treeDouble job 1) (10 * k) 10

/-- This device roots the job's tree. -/
def State.isRoot (s : State) (job : Nat) : Bool := (s.treeDouble job 0).getLsbD 25

/-- Updates a job's entry on each die that has one. -/
def State.eachEntry (s : State) (job : Nat) (f : State → Nat → Nat → State) : State :=
  [0, 1].foldl (fun s d => match s.jobEntry? d job with
    | some e => f s d e
    | none => s) s

/-- INJECTED, CONSUMED, LOST and PENDING of an entry. -/
def State.entryCounts (s : State) (d e : Nat) : List Nat :=
  [bitsOf (s.jobDouble d e 2) 0 48, bitsOf (s.jobDouble d e 3) 0 48, bitsOf (s.jobDouble d e 4) 0 32,
    bitsOf (s.jobDouble d e 4) 32 32]

/-- Sums; the counts of messages are modulo 2^48, the others of doubles. -/
def addSums (a b : List Nat) : List Nat :=
  (List.range 4).map fun k => (a.getD k 0 + b.getD k 0) % 2 ^ (if k < 2 then 48 else 64)

/-- A node's reading of its own entries. (DEDUCED: assumption 63). -/
def State.nodeCounts (s : State) (job : Nat) : List Nat :=
  [0, 1].foldl (fun acc d => match s.jobEntry? d job with
    | some e => addSums acc (s.entryCounts d e)
    | none => acc) [0, 0, 0, 0]

/-- Sets WAVE on a node's entries. -/
def State.setWave (s : State) (job w : Nat) : State :=
  s.eachEntry job fun s d e =>
    s.setJob d e 5 (BitVec.ofNat 64 (w % 2 ^ 32 + 2 ^ 32 * bitsOf (s.jobDouble d e 5) 32 32))

/-- Sets DECIDED on a node's entries. -/
def State.setDecided (s : State) (job w : Nat) : State :=
  s.eachEntry job fun s d e =>
    s.setJob d e 5 (BitVec.ofNat 64 (bitsOf (s.jobDouble d e 5) 0 32 + 2 ^ 32 * (w % 2 ^ 32)))

/-! ### DECIDE (13 R314, R316) -/

/-- What QUIET returns of a decided wave: OK or LOSS, and L. -/
def quietResult (lost : Nat) : Nat := (if lost = 0 then 0 else 1) + 2 ^ 8 * min lost (2 ^ 24 - 1)

/-- A slice that waits for a later wave than it saw. -/
def Slice.decide_ (job w lost : Nat) (sl : Slice) : Slice :=
  match sl.wait with
  | .quiet j w0 _ _ => if j = job && w0 < w && sl.wake.isNone then { sl with wake := some (quietResult lost) } else sl
  | _ => sl

/-- A node takes a decision and sends it on. -/
def State.takeDecision (s : State) (job w lost : Nat) : State :=
  let s := s.setDecided job w
  { s with
    crews := s.crews.map fun c => c.mapAllSlices (Slice.decide_ job w lost)
    control := s.control ++ (s.childrenOf job).map fun t => Control.decide t job w lost }

/-- DECIDE (13 R314). -/
def execDecide (job wave lost : Nat) (s : State) : Host.Outcome State Fault Refusal :=
  .next (if (s.treeDie job).isSome then s.takeDecision job wave lost else s)

/-! ### A pass (13 R313) -/

/-- Replaces a job's wave. -/
def State.putWave (s : State) (x : Wave) : State := { s with waves := x :: s.waves.filter (·.job != x.job) }

/-- The wave is quiet (13 R314). -/
def quietWave (a b : List Nat) : Bool :=
  (List.range 3).all (fun k => a.getD k 0 == b.getD k 0) && a.getD 3 0 == 0 && b.getD 3 0 == 0 &&
    a.getD 0 0 == a.getD 1 0

/-- A node begins a pass: it reads its entries and sends DOWN on. -/
def State.beginPass (s : State) (job w pass : Nat) (first : Option (List Nat)) : State :=
  let s := if pass = 1 then s.setWave job w else s
  let kids := s.childrenOf job
  State.putWave { s with control := s.control ++ kids.map fun t => Control.down t job w pass }
    ⟨job, w, pass, kids, s.nodeCounts job, first, none⟩

/-- The root ends a wave, and decides it if it is quiet. -/
def State.endWave (s : State) (x : Wave) : State :=
  let s := s.putWave { x with ended := some s.clock.toNat }
  if quietWave (x.first.getD []) x.sums then s.takeDecision x.job x.w (x.sums.getD 2 0) else s

/-- A node all of whose children have replied: it replies to its parent, or, at the root, the next pass or the decision
follows; `fuel` is the passes that may yet begin. -/
def State.settleWave (s : State) (job : Nat) : Nat → State
  | 0 => s
  | fuel + 1 =>
    match s.waves.find? fun x => x.job == job && x.left.isEmpty && x.ended.isNone with
    | none => s
    | some x =>
      if s.isRoot job then
        if x.pass = 1 then (s.beginPass job x.w 2 (some x.sums)).settleWave job fuel else s.endWave x
      else
        { s with
          waves := s.waves.filter (·.job != job)
          control := s.control ++ [Control.up (bitsOf (s.treeDouble job 0) 26 10) job x.w x.pass x.sums] }

/-- A node begins a pass and settles it. -/
def State.runPass (s : State) (job w pass : Nat) : State := (s.beginPass job w pass none).settleWave job 2

/-- The number of the next wave. (DEDUCED: assumption 64). -/
def State.nextWave (s : State) (job : Nat) : Nat := (bitsOf (s.treeDouble job 5) 0 32 + 1) % 2 ^ 32

/-- DOWN (13 R313), at a node that is not the root. -/
def execDown (job wave pass : Nat) (s : State) : Host.Outcome State Fault Refusal :=
  .next (if (s.treeDie job).isSome && !s.isRoot job then s.runPass job wave pass else s)

/-- UP (13 R313): a child's sums join the node's. -/
def execUp (job wave pass child : Nat) (payload : List (BitVec 64)) (s : State) : Host.Outcome State Fault Refusal :=
  .next <|
    match s.waves.find? fun x => x.job == job && x.w == wave && x.pass == pass && x.left.contains child with
    | none => s
    | some x =>
      (s.putWave { x with left := x.left.erase child, sums := addSums x.sums (payload.map BitVec.toNat) }).settleWave job 2

/-- The first wave of a job starts as its entry at the root becomes enabled; a wave still under way goes on instead, and
later waves start by WAVE_START. -/
def State.startWaves (s : State) (job : Nat) : State :=
  if s.isRoot job && !(s.waves.any fun x => x.job == job && x.ended.isNone) then s.runPass job (s.nextWave job) 1 else s

/-- Writable bits of double 0 of a job entry. -/
def jobMask : Double := 0x00FFFF7FFFFFFFFF#64

/-- JOB_ENTRY_WRITE (13 R312, R313): the first of a job's entries to be enabled starts its first wave. -/
def execJobEntryWrite (die entry : Nat) (value : BitVec 64) (s : State) : Host.Outcome State Fault Refusal :=
  .next <|
    if 2 ≤ die || 256 ≤ entry then s
    else
      let job := bitsOf value 0 24
      let begins := value.getLsbD 24 && job ≠ 0 && (s.treeDie job).isNone
      let s := s.setJob die entry 0 (value &&& jobMask)
      if begins then s.startWaves job else s

/-- Cycles of a job's PERIOD (13 R312). -/
def State.wavePeriod (s : State) (job : Nat) : Nat := 11 * bitsOf (s.treeDouble job 0) 40 16

/-- WAVE_START (13 R313): one PERIOD after the last wave ended. -/
def execWaveStart (job : Nat) (s : State) : Host.Outcome State Fault Refusal :=
  .next <|
    match s.waves.find? (·.job == job) with
    | some x =>
      match x.ended with
      | some t =>
        if s.isRoot job && t + s.wavePeriod job ≤ s.clock.toNat then s.runPass job (s.nextWave job) 1 else s
      | none => s
    | none => s

end Sys2Proof.Machine
end

