-- ==== Sys2Proof/Machine/Stacks.lean ====
section
/-! DEFINITION. Events of the HBM stacks: loss of a stack, rows and subarrays, the scrubber, refresh, calibration and
heat (12 R290, R291, R295 to R300; 14 R324). -/

namespace Sys2Proof.Machine
set_option Elab.async false
open Sys2Proof

/-- The device enters FATAL (14 R324): every unit stops. -/
def State.enterFatal (s : State) (cause : Nat) : State :=
  if s.device = .fatal then s else { s with device := .fatal, fatalCause := cause }

/-! ### Loss of a stack (12 R296, R297) -/

/-- A stack is declared lost: updates in progress are finished first, and the event is recorded. -/
def State.loseStack (s : State) (stack cause : Nat) : State :=
  if s.isLost stack || 8 ≤ stack then s
  else
    let s := s.settleGathers
    let s := { s with lost := s.lost.set stack true }
    let st := min 2 s.lostCount
    State.postEvent { s with memState := st } (eventRec 3 0 (cause + 2 ^ 28 * 5 + 2 ^ 32 * st) stack)

/-- CONTROLLER_FAILURE (12 R296). -/
def execControllerFailure (stack : Nat) (s : State) : Host.Outcome State Fault Refusal := .next (s.loseStack stack 2)

/-- Cycles of UE_WINDOW: seconds of the 1.1 GHz clock (01 R17). (DEDUCED: assumption 70). -/
def State.ueWindow (s : State) : Nat := 1100000000 * bitsOf s.memCtl 16 16

/-- UE_LIMIT uncorrectable events have fallen within one UE_WINDOW. -/
def State.ueReached (s : State) (stack : Nat) : Bool :=
  let ts := s.ueTimes.getD stack []
  let n := max 1 (bitsOf s.memCtl 8 8)
  (List.range ts.length).any fun i => i + n ≤ ts.length && ts.getD (i + n - 1) 0 ≤ ts.getD i 0 + s.ueWindow

/-- UE_LIMIT (12 R296). -/
def execUeLimit (stack : Nat) (s : State) : Host.Outcome State Fault Refusal :=
  .next (if s.ueReached stack then s.loseStack stack 3 else s)

/-! ### Heat, refresh and calibration (12 R298, R299) -/

/-- An action that begins at a threshold and ends 3 °C below it. -/
def hysteresis (on : Bool) (limit celsius : Nat) : Bool :=
  if limit ≤ celsius then true else if celsius + 3 ≤ limit then false else on

/-- The highest reading of a stack's sensors. -/
def State.heat (s : State) (stack : Nat) : Nat := (s.temps.getD stack []).foldl max 0

/-- Each stack is refreshed and throttled as its highest reading and the thresholds say (12 R298). -/
def State.reheat (s : State) : State :=
  { s with
    fastRefresh := s.fastRefresh.mapIdx fun k b => hysteresis b (bitsOf s.thermal 0 8) (s.heat k)
    throttled := s.throttled.mapIdx fun k b => hysteresis b (bitsOf s.thermal 8 8) (s.heat k) }

/-- THERMAL_SENSOR_UPDATE (12 R298): sensor 17 k + j is that of core die j of stack k, or of its base die where j is 16.
(DEDUCED: assumption 103). -/
def execThermalSensorUpdate (sensor celsius : Nat) (s : State) : Host.Outcome State Fault Refusal :=
  .next <|
    let stack := sensor / 17
    let s := State.reheat { s with temps := listModify s.temps stack fun ts => ts.set (sensor % 17) celsius }
    if 105 ≤ s.heat stack then s.enterFatal 2 else s

/-- REFRESH (12 R299): it takes time only. -/
def execRefresh (_stack : Nat) (s : State) : Host.Outcome State Fault Refusal := .next s

/-- CALIBRATION (12 R299): it withholds commands for a time only. -/
def execCalibration (_stack : Nat) (s : State) : Host.Outcome State Fault Refusal := .next s

/-! ### The scrubber (12 R295, R299) -/

/-- The position of a stack's line in its stripe: 0 to 6, or 7 for the parity (12 R288). -/
def stripePos (stack stripe : Nat) : Nat := (stack + 15 - stripe % 8) % 8

/-- One line of a stack is read and corrected or reconstructed, after what `ecc` says has happened (12 R295). -/
def State.scrubLine (s : State) (stack stripe ecc : Nat) : State :=
  let s := s.strike stack stripe ecc
  if stripePos stack stripe < 7 then (s.fetchLine (7 * stripe + stripePos stack stripe)).2 else (s.fetchStack stack stripe).2

/-- Every data line of a stripe reads clean: its ECC finds nothing, and it holds no poison. -/
def State.stripeClean (s : State) (stripe : Nat) : Bool :=
  (otherStacks (parityStack stripe)).all (fun k => tabGet s.damage (stackLine k stripe) 0 == 0) &&
    (List.range 7).all fun i => !s.poisonPas.contains (7 * stripe + i) && !s.undelivPas.contains (7 * stripe + i)

/-- The parity of a stripe is recomputed, and rewritten where its data lines read clean and it differs. -/
def State.scrubParity (s : State) (stripe : Nat) : State :=
  let p := parityStack stripe
  let clean := s.stripeClean stripe
  let s := (otherStacks p).foldl (fun s k => if s.isLost k then s else (s.fetchStack k stripe).2) s
  let new := s.reconstruct p stripe
  if 0 < s.lostCount || !clean || s.rawLine p stripe == new then s else (s.putStack p stripe new).bump p parityMismatch

/-- SCRUB (12 R299): of a stack line, never of a locked stripe; a pass that reaches the parity line checks it.
(DEDUCED: assumption 71). -/
def execScrub (stack line ecc : Nat) (s : State) : Host.Outcome State Fault Refusal :=
  .next <|
    if 8 ≤ stack || 2 ^ 29 ≤ line || s.isLost stack || bitsOf s.memCtl 44 8 = 0 || s.stripeLocked line then s
    else
      (s.asStream fun s =>
        let s := s.scrubLine stack line ecc
        ((), if stack = parityStack line then s.scrubParity line else s)).2

/-! ### Rows and subarrays (12 R289 to R291) -/

/-- Whether a request to a row comes from one of the streams of 12 R291: the parity engine, for a stripe it gathers or
updates; the scrubber; a migration under way; a BTE copy of long rows. -/
def State.streamTo (s : State) (stack bank row : Nat) : Bool :=
  s.gathers.any (fun g => lineBank g.stripe == bank && lineRow g.stripe == row) ||
  (bitsOf s.memCtl 44 8 != 0 && !s.isLost stack) ||
  s.migrations.any (fun m => m.state == 1 || m.state == 2 || m.state == 3) ||
  s.clusters.any fun (_, cl) => cl.slots.any fun sl => sl.state == .active && match sl.cmd with
    | some cmd => cmd.kind == .packet && pktType cmd.packet == 1 && (tileOf cmd.packet).contiguous
    | none => false

/-- ACTIVATE (12 R290, R291): of a row that is closed, with a segment for each request to it: those queued, and those the
step names.  A request outside the streams closes every other row of its bank; a stream holds rows in up to four
subarrays. -/
def execActivate (stack bank row mask stream : Nat) (s : State) : Host.Outcome State Fault Refusal :=
  .next <|
    let m := mask ||| s.queuedMask stack bank row
    if 8 ≤ stack || 1024 ≤ bank || 65536 ≤ row || m = 0 || 256 ≤ m ||
        s.openRows.any (fun r => r.inBank stack bank && r.row == row) then s
    else s.openRow stack bank row m (stream ≠ 0 && s.streamTo stack bank row)

/-- SUPPLEMENTARY_ACTIVATE (12 R290). -/
def execSupplementaryActivate (stack bank row mask : Nat) (s : State) : Host.Outcome State Fault Refusal :=
  .next <|
    let mine (r : OpenRow) : Bool := r.inBank stack bank && r.row == row
    if mask < 256 && s.openRows.any (fun r => mine r && (r.mask ||| mask) != r.mask) then
      State.bump { s with openRows := modifyWhere mine (fun r => { r with mask := r.mask ||| mask }) s.openRows } stack sactCount
    else s

/-- PRECHARGE (12 R290): every open segment of the row closes. -/
def execPrecharge (stack bank row : Nat) (s : State) : Host.Outcome State Fault Refusal :=
  .next { s with openRows := s.openRows.filter fun r => !(r.inBank stack bank && r.row == row) }

/-- SELECT (12 R291): a stream names the driving subarray among its open rows. -/
def execSelect (stack bank subarray : Nat) (s : State) : Host.Outcome State Fault Refusal :=
  .next <|
    if s.openRows.any fun r => r.inBank stack bank && r.stream && Machine.subarray r.row == subarray then
      s.drive stack bank subarray
    else s

end Sys2Proof.Machine
end

