-- ==== Sys2Proof/Machine/Manage.lean ====
section
/-! DEFINITION. The management controller and the host ports: reset and bring-up (14 R323 to R325), registers of the
window (14 R328), semaphores (13 R320), counters (14 R330), attestation (14 R326, R327), telemetry (14 R329), and
requests of the hosts (13 R319, R321, R322). -/

namespace Sys2Proof.Machine
set_option Elab.async false
open Sys2Proof

/-! ### Reset and bring-up (14 R323 to R325) -/

/-- Every register at its reset value; what is fused, and what the model keeps of its own, stays.
(DEDUCED: assumption 68). (DESIGN CHOICE: assumption 76). -/
def State.resetRegisters (s : State) : State :=
  { State.reset with
    agenda := s.agenda
    arbCount := s.arbCount
    freeCount := s.freeCount
    serial := s.serial
    rollbackMin := s.rollbackMin
    hostOut := s.hostOut }

/-- POWER_ON_RESET (14 R323). -/
def execPowerOnReset (s : State) : Host.Outcome State Fault Refusal := .next s.resetRegisters

/-- RESET (14 R323): SRAM, caches and L2 are invalidated; HBM and the staging area keep their bytes, the host links
their state, and the sensors their readings, which govern at once (12 R298). -/
def execReset (s : State) : Host.Outcome State Fault Refusal :=
  .next (State.reheat { s.resetRegisters with
    hbm := s.hbm
    poisonPas := s.poisonPas
    undelivPas := s.undelivPas
    damage := s.damage
    staging := s.staging
    staged := s.staged
    temps := s.temps
    linkUp := s.linkUp })

/-- RESET_DONE (14 R323): CLOCK reads 0 as RESET is left. -/
def execResetDone (s : State) : Host.Outcome State Fault Refusal :=
  .next (if s.device = .reset then { s with device := .boot, clock := 0 } else s)

/-- A byte the boot ROM loads: of the staging area, or, while nothing has been staged, of the images the part comes with
(14 R325), whatever was staged. (DESIGN CHOICE: assumption 104). -/
def State.imageByte (s : State) (o : Nat) : Byte := if s.staged then memByte s.staging o else Config.factoryByte o

/-- n bytes of image k, 0 firmware and 1 microcode, from an offset. -/
def State.imageBytes (s : State) (k off n : Nat) : List Byte := tabulate n fun i => s.imageByte (Config.imageAt k + off + i)

/-- An integer of n bytes in the header of image k: 0 the magic, 1 the version, 2 the image length (14 R325). -/
def State.headerField (s : State) (k field n : Nat) : Nat := leValue (s.imageBytes k (Config.headerAt field) n)

/-- Bytes of the body of image k, behind its header. -/
def State.imageBody (s : State) (k : Nat) : List Byte := s.imageBytes k 256 (s.headerField k 2 4 - 256)

/-- Bytes of the staging area. -/
def stagingSize : Nat := 0x1000000

/-- The boot ROM accepts image k (14 R325): its magic and its length, its digest, its signature over the first 160 header
bytes, and a version not below ROLLBACK_MIN. (PRESUMED: assumption 8). -/
def State.imageOk (s : State) (k : Nat) : Bool :=
  let len := s.headerField k 2 4
  s.headerField k 0 4 == 0x53564431 && 256 ≤ len && Config.imageAt k + len ≤ stagingSize &&
    sha256 (s.imageBody k) == s.imageBytes k (Config.headerAt 3) 32 &&
    ecdsaVerify Config.svadarKey.1 Config.svadarKey.2 (sha256 (s.imageBytes k 0 160))
      (beValue (s.imageBytes k (Config.headerAt 4) 32)) (beValue (s.imageBytes k (Config.headerAt 4 + 32) 32)) &&
    s.rollbackMin ≤ s.headerField k 1 3

/-- BOOT_VERIFY (14 R325): firmware and microcode are accepted and loaded, or one is refused. -/
def execBootVerify (s : State) : Host.Outcome State Fault Refusal :=
  .next <|
    if s.device ≠ .boot then s
    else if s.imageOk 0 && s.imageOk 1 then
      { s with
        device := .training
        fwVersion := s.headerField 0 1 3
        fwHash := sha256 (s.imageBody 0)
        ucodeHash := sha256 (s.imageBody 1) }
    else { s with device := .recovery }

/-- TRAINING_DONE (14 R323): bit n of `failed` declares stack n lost (12 R296). -/
def execTrainingDone (failed : Nat) (s : State) : Host.Outcome State Fault Refusal :=
  .next <|
    if s.device ≠ .training then s
    else
      ((List.range 8).filter failed.testBit).foldl (fun s k => s.loseStack k 1) { s with device := .ready }

/-- BRIDGE_RETRY_FAIL (01 R16, 14 R324). -/
def execBridgeRetryFail (segment : Nat) (s : State) : Host.Outcome State Fault Refusal :=
  .next (if segment < 6 then s.enterFatal 1 else s)

/-- INTERNAL_PARITY_ERROR (14 R324). -/
def execInternalParityError (s : State) : Host.Outcome State Fault Refusal := .next (s.enterFatal 3)

/-! ### Registers of the window (14 R328) -/

/-- The writable bits of a register of n bits. -/
def lowBits (v : Double) (n : Nat) : Double := BitVec.ofNat 64 (v.toNat % 2 ^ n)

/-- The thermal thresholds, unless one would lie outside its range (12 R299). -/
def thermalWrite (old v : Double) : Double :=
  let r := bitsOf v 0 8
  let t := bitsOf v 8 8
  if 60 ≤ r && r ≤ 100 && r ≤ t && t ≤ 104 then lowBits v 16 else old

/-- The writable bits of the fabric control double (13 R302). (DEDUCED: assumption 65). -/
def fabricMask : Double := 0x001FFFFFFFFF03FF#64

/-- The writable bits of double 1 of a ring entry (09 R230). -/
def ringMask : Double := 0x00FFFFFFFFFFFF3F#64

/-- A write of double k of a ring entry; a write of ring 63's entry lets event records go on (09 R231). -/
def State.writeRing (s : State) (r k : Nat) (v : Double) : State :=
  let s := s.mapRing r fun x => match k with
    | 0 => { x with base := v }
    | 1 => { x with conf := v &&& ringMask }
    | _ => x
  { s with eventStuck := s.eventStuck && r != 63 }

/-- A write of double k of a handler entry (13 R308). -/
def State.writeHandler (s : State) (q k : Nat) (v : Double) : State :=
  match k with
  | 0 => s.setHandler q 0 v
  | 1 => s.setHandler q 1 (lowBits v 17)
  | 2 => s.setHandler q 2 v
  | _ => s

/-- A write of double k of an inbound window (13 R304). -/
def State.writeWindow (s : State) (w k : Nat) (v : Double) : State :=
  let put (n : Nat) : State := { s with windows := tabPut 0 s.windows (4 * w + k) (lowBits v n) }
  match k with
  | 0 => put 56
  | 1 => put 17
  | 2 => put 36
  | _ => s

/-- A write of double k of a migration request block; a unit at work keeps the request it has (11 R282).
(DEDUCED: assumption 66). -/
def State.writeUnit (s : State) (u k : Nat) (v : Double) : State :=
  s.mapUnit u fun m =>
    if m.state ≠ 0 then m
    else match k with
      | 0 => { m with d0 := lowBits v 56 }
      | 1 => { m with d1 := v }
      | 2 => { m with d2 := lowBits v 52 }
      | _ => m

/-- A write of double k of pool or spill-ring descriptor n: the device alone moves HEAD, and TAIL of a spill ring
(10 R247, 14 R477). (DEDUCED: assumption 67). -/
def State.writePool (s : State) (n k : Nat) (v : Double) : State :=
  match k with
  | 0 => s.setPoolDouble n 0 v
  | 1 => s.setPoolDouble n 1 (lowBits v 5)
  | 3 => if n < 3 then s.setPoolDouble n 3 v else s
  | _ => s

/-- A write of a register by its offset. -/
def State.registerWrite (s : State) (off : Nat) (v : Double) : State :=
  let at_ (base size : Nat) : Bool := base ≤ off && off < base + size
  let k (base : Nat) : Nat := (off - base) / 8
  if off % 8 ≠ 0 then s
  else if off = 0x108 then { s with tokenCtl := lowBits v 40 }
  else if off = 0x110 then { s with schedCtl := lowBits v 56 }
  else if off = 0x118 then { s with memCtl := lowBits v 55 }
  else if off = 0x120 then State.reheat { s with thermal := thermalWrite s.thermal v }
  else if off = 0x128 then { s with fabricCtl := v &&& fabricMask, accelSet := true }
  else if off = 0x130 then { s with handlerPc := v }
  else if off = 0x138 then { s with supAsid := bitsOf v 0 12 }
  else if at_ 0x1000 0x800 then s.writeRing (k 0x1000 / 4) (k 0x1000 % 4) v
  else if at_ 0x2000 0x800 then s.writeHandler (k 0x2000 / 4) (k 0x2000 % 4) v
  else if at_ 0x3000 0x400 then s.writeWindow (k 0x3000 / 4) (k 0x3000 % 4) v
  else if at_ 0x4000 0x100 then s.writeUnit (k 0x4000 / 4) (k 0x4000 % 4) v
  else if at_ 0x5000 0x3A0 then s.writePool (k 0x5000 / 4) (k 0x5000 % 4) v
  else if at_ 0x6020 0x20 then { s with nonce := s.nonce.set (k 0x6020) v }
  else if at_ 0x10000 0x8000 then { s with rootTable := tabPut 0 s.rootTable (k 0x10000) v }
  else if at_ 0x20000 0x3000 && off % 32 = 16 then
    s.mapQueue ((off - 0x20000) / 0x200) ((off - 0x20000) % 0x200 / 32) fun e => { e with attrs := lowBits v 36 }
  else if at_ 0x30000 0x8000 && off % 64 = 8 then
    s.setJob ((off - 0x30000) / 0x4000) ((off - 0x30000) % 0x4000 / 64) 1 (lowBits v 60)
  else if at_ 0x40000 0x2000 then { s with routes := tabPut 0 s.routes (k 0x40000) (lowBits v 48) }
  else if at_ 0x1000000 0x1000000 then { s with staging := memSetBytes s.staging (off - 0x1000000) (leBytes 8 v.toNat), staged := true }
  else s

/-- REGISTER_WRITE (14 R328). -/
def execRegisterWrite (offset : Nat) (value : BitVec 64) (s : State) : Host.Outcome State Fault Refusal :=
  .next (s.registerWrite offset value)

/-- SEMAPHORE_TAKE (13 R320). -/
def execSemaphoreTake (sem owner : Nat) (s : State) : Host.Outcome State Fault Refusal :=
  .next <|
    if 1 ≤ owner && owner ≤ 3 && s.sems.getD sem 1 = 0 then { s with sems := s.sems.set sem owner } else s

/-- SEMAPHORE_FREE (13 R320). -/
def execSemaphoreFree (sem owner : Nat) (s : State) : Host.Outcome State Fault Refusal :=
  .next <|
    if 1 ≤ owner && owner ≤ 3 && s.sems.getD sem 0 = owner then { s with sems := s.sems.set sem 0 } else s

/-- DROPPED_CLEAR (09 R233). -/
def execDroppedClear (s : State) : Host.Outcome State Fault Refusal := .next { s with dropped := 0 }

/-- COUNTER_CLEAR (14 R330). -/
def execCounterClear (offset : Nat) (s : State) : Host.Outcome State Fault Refusal :=
  .next <|
    if 0x81000 ≤ offset && offset < 0x81200 then
      { s with stackCounters := listModify s.stackCounters ((offset - 0x81000) / 64) fun cs => cs.set (offset % 64 / 8) 0 }
    else if 0x82000 ≤ offset && offset < 0x82000 + 64 * 51 && offset % 64 / 8 < 6 then
      { s with portCounters := tabPut 0 s.portCounters (6 * ((offset - 0x82000) / 64) + offset % 64 / 8) 0 }
    else s

/-! ### Attestation (14 R326, R327) -/

/-- BUSY, DONE, PENDING or SEQ of the attestation control double. -/
def State.att (s : State) (k : Nat) : Nat := s.attCtl.getD k 0

/-- ATTESTATION_START (14 R326): a report begins and latches the nonce, or one under way is followed by another. -/
def execAttestationStart (s : State) : Host.Outcome State Fault Refusal :=
  .next <|
    if s.att 0 = 1 then { s with attCtl := s.attCtl.set 2 1 }
    else { s with attCtl := (s.attCtl.set 0 1).set 1 0, latched := s.nonce }

/-- CERT_LEN: 1 to 1,024. -/
def certLen : Nat := 1 + Config.certLen % 1024

/-- Bytes 0x000 to 0x577 of the attestation report, those it signs (14 R327): the boot ROM and the certificate are the part's
own, the measurements of firmware and microcode those of the running images. (PRESUMED: assumption 8). -/
def State.reportBody (s : State) (seq : Nat) : List Byte :=
  leBytes 4 0x53564152 ++ leBytes 2 1 ++ leBytes 2 1464 ++ leBytes 8 seq ++ bytesOfDoubles (s.latched.take 4) ++
    sha256 Config.bootRom ++ padTo 32 0 s.fwHash ++ padTo 32 0 s.ucodeHash ++ leBytes 4 (s.fwVersion % 2 ^ 24) ++
    leBytes 4 (s.rollbackMin % 2 ^ 24) ++
    bytesOfDoubles ((List.range 26).map topologyDouble) ++ leBytes 8 s.thermalDouble.toNat ++ leBytes 2 certLen ++
    leBytes 6 0 ++ tabulate certLen Config.certByte ++ List.replicate (1024 - certLen) 0

/-- The attestation report (14 R327): its body, and the signature made over the body's digest under the device identity key,
r and s big-endian. (PRESUMED: assumption 8). -/
def State.attestReport (s : State) (seq : Nat) : List Byte :=
  let body := s.reportBody seq
  let (r, t) := ecdsaSign Config.deviceKey (1 + Config.signDraw s.freeCount % (p256Order - 1)) (sha256 body)
  body ++ beBytes 32 r ++ beBytes 32 t

/-- ATTESTATION_REPORT_DONE (14 R326): the report stands, and a START that waited begins the next.
(DEDUCED: assumption 72). -/
def execAttestationReportDone (s : State) : Host.Outcome State Fault Refusal :=
  .next <|
    if s.att 0 = 0 then s
    else
      let seq := (s.att 3 + 1) % 2 ^ 32
      let s := { s with report := s.attestReport seq, freeCount := s.freeCount + 1 }
      if s.att 2 = 1 then { s with attCtl := [1, 0, 0, seq], latched := s.nonce }
      else { s with attCtl := [0, 1, 0, seq] }

/-- TELEMETRY_REFRESH (14 R329): powers and die temperatures are free values; HBM_C is the hottest stack reading.  The
firmware that runs may have fused a higher ROLLBACK_MIN meanwhile (14 R325). (DEDUCED: assumption 73).
(DESIGN CHOICE: assumption 76). -/
def execTelemetryRefresh (s : State) : Host.Outcome State Fault Refusal :=
  .next { s with
    freeCount := s.freeCount + 1
    rollbackMin := max s.rollbackMin (min (Config.fused s.freeCount) s.fwVersion)
    telemetry := [BitVec.ofNat 64 (bitsOf (Config.telemetry s.freeCount 0) 0 48 +
        2 ^ 48 * (((List.range 8).map s.heat).foldl max 0 % 256)), s.tokenWait] }

/-! ### Host ports (13 R319 to R322; 14 R323, R324) -/

/-- The semaphores a host port holds are freed. -/
def State.freeSems (s : State) (port : Nat) : State :=
  { s with sems := s.sems.map fun o => if o = port + 1 then 0 else o }

/-- HOST_HOT_RESET (14 R323): the port's link comes up afresh. -/
def execHostHotReset (port : Nat) (s : State) : Host.Outcome State Fault Refusal :=
  .next (if port < 2 then { s.freeSems port with linkUp := s.linkUp.set port true } else s)

/-- HOST_LINK_LOSS (13 R320). -/
def execHostLinkLoss (port : Nat) (s : State) : Host.Outcome State Fault Refusal :=
  .next (if port < 2 then { s.freeSems port with linkUp := s.linkUp.set port false } else s)

/-- Answers a host: 0 performed, 1 refused, 2 performed with the poisoned attribute. -/
def State.answerHost (s : State) (port status : Nat) (data : List Double) : State :=
  { s with hostOut := s.hostOut ++ [HostOut.answer port status data] }

/-- Offsets of the window that respond in a device state (14 R323, R324). (DEDUCED: assumption 69). -/
def DeviceState.responds (d : DeviceState) (off : Nat) : Bool :=
  match d with
  | .fatal => off / 8 == 0x20
  | .recovery => off / 8 == 0x20 || (0x1000000 ≤ off && off < 0x2000000)
  | _ => true

/-- FetchAdd, Swap and CAS of a host (13 R319): kinds 2, 3 and 4, on values of n bytes. -/
def hostAtomic (kind n old : Nat) (payload : List Double) : Nat :=
  let x := (dbl payload 0).toNat % 2 ^ (8 * n)
  let y := (dbl payload 1).toNat % 2 ^ (8 * n)
  match kind with
  | 2 => (old + x) % 2 ^ (8 * n)
  | 3 => x
  | _ => if old = x then y else old

/-- The fabric request that carries a host's request within one line to another device: kind, offset, payload
(assumption 12). -/
def hostMessage (kind size off : Nat) (payload : List Double) : Nat × Nat × List Double :=
  let line := off / lineBytes * lineBytes
  let lane (x : Nat) : List Double := [BitVec.ofNat 64 x, 0, 0]
  let x := (dbl payload 0).toNat % 2 ^ 32
  match kind, size with
  | 0, _ => (0, line, [])
  | 1, _ => (1, line, spanPayload (off % lineBytes) ((bytesOfDoubles payload).take size))
  | 2, 8 => (14, off, [dbl payload 0])
  | 3, 8 => (16, off, [dbl payload 0])
  | 4, 8 => (17, off, [dbl payload 0, dbl payload 1])
  | 2, _ => (2, off, lane x)
  | 3, _ => (8, off, lane x)
  | _, _ => (9, off, lane (x + 2 ^ 32 * ((dbl payload 1).toNat % 2 ^ 32)))

/-- A read of a host over several lines: bytes, and whether a line could not be delivered.  Lines of another device are
asked for, and held until they are answered; `fuel` bounds the lines. -/
def State.hostRead (s : State) (port asid va n : Nat) (k : List Byte → Bool → State → Served) : Nat → Served
  | 0 => k [] false s
  | fuel + 1 =>
    if n = 0 then k [] false s
    else
      let m := min n (lineBytes - va % lineBytes)
      let more (bs : List Byte) (bad : Bool) (s : State) : Served :=
        s.hostRead port asid (va + m) (n - m) (fun cs b s => k (bs ++ cs) (bad || b) s) fuel
      if s.ownedSpan asid va m then .held s
      else
        match s.devPeek asid va m with
        | (.bytes bs, s) => more (bs.map s.orFill) (bs.contains none) s
        | (.fault code at_, s) => .fault code at_ s
        | (.held, s) => .held s
        | (.fabric t off _, s) =>
          match s.farDo (.host port) 0 t (off / lineBytes * lineBytes) lineBytes [] none 0 port with
          | (some ds, s) => more (((bytesOfDoubles ds).drop (off % lineBytes)).take m) false s
          | (none, s) => .held s

/-- The lines of a host's write, in order; those of another device are sent on; `fuel` bounds the lines. -/
def State.hostWriteLines (s : State) (port asid va : Nat) (bs : List Byte) : Nat → Served
  | 0 => .done [] false s
  | fuel + 1 =>
    if bs.isEmpty then .done [] false s
    else
      let m := min bs.length (lineBytes - va % lineBytes)
      match s.devPoke (portOwner port) asid va (bs.take m) with
      | (.done, s) => s.hostWriteLines port asid (va + m) (bs.drop m) fuel
      | (.fault code at_, s) => .fault code at_ s
      | (.fabric t off _, s) =>
        (s.newMessage (.relay (some port) 0 0) none 1 t (off / lineBytes * lineBytes) m
          (spanPayload (off % lineBytes) (bs.take m)) 0 port).hostWriteLines port asid (va + m) (bs.drop m) fuel
      | (.held, s) | (.owned, s) => .held s

/-- A write of a host over several lines.  One that cannot go on at some line, or faults there, writes none of them: each
byte of a write has one place in the coherence order (08 R193). -/
def State.hostWrite (s : State) (port asid va : Nat) (bs : List Byte) : Served :=
  let fuel := bs.length / lineBytes + 2
  match s.devReadyLines (portOwner port) asid va bs.length fuel with
  | (.fault code at_, s) => .fault code at_ s
  | (.held, s) | (.owned, s) => .held s
  | (.done, s) | (.fabric .., s) => s.hostWriteLines port asid va bs fuel

/-- A host's request of device memory at its home: kinds 0 read, 1 write, 2 FetchAdd, 3 Swap, 4 CAS. -/
def State.serveHost (s : State) (port kind asid va size : Nat) (payload : List Double) : Served :=
  match kind with
  | 0 =>
    if va % lineBytes + size ≤ lineBytes then s.serveRead asid va size fun bs bad s => .done (doublesPadded bs) bad s
    else s.hostRead port asid va size (fun bs bad s => .done (doublesPadded bs) bad (s.farDone (.host port))) (size / lineBytes + 2)
  | 1 => s.hostWrite port asid va ((bytesOfDoubles payload).take size)
  | _ => s.serveRead asid va size fun bs bad s =>
      let old := leValue bs
      s.serveWrite (portOwner port) asid va (leBytes size (hostAtomic kind size old payload)) fun s => .done [BitVec.ofNat 64 old] bad s

/-- A host's request is refused (13 R304, R319). -/
def State.refuseHost (s : State) (port : Nat) : State := (s.portCount (48 + port) cRefused).answerHost port 1 []

/-- A write of a host port is still on its way to another device: later ones of the port wait for it (13 R321). -/
def State.hostWriting (s : State) (port : Nat) : Bool := s.messages.any (·.hostWrite port)

/-- A host's request through BAR2 or CXL.mem (13 R304, R319, R322; 11 R480). (DESIGN CHOICE: assumption 86). -/
def State.hostMemory (s : State) (port kind offset size : Nat) (payload : List Double) : State :=
  let atomic := kind ≥ 2
  if 5 ≤ kind || (atomic && !((size == 4 || size == 8) && offset % size == 0)) then s.refuseHost port
  else if kind != 0 && s.hostWriting port then s
  else
    match s.inbound (14 + port) offset size (kind != 0) with
    | none => s.refuseHost port
    | some (asid, va) =>
      match s.serveHost port kind asid va size payload with
      | .done data bad s => if kind = 1 then s else s.answerHost port (if bad then 2 else 0) data
      | .fault code at_ s => ((s.farDone (.host port)).refuseHost port).postEvent (faultEvent 0xFFFE asid code at_)
      | .far t off s =>
        let (k, o, d) := hostMessage kind size off payload
        let owner : MsgOwner := if kind = 0 then .relay (some port) (off % lineBytes) size else .relay (some port) 0 0
        s.newMessage owner none k t o size d 0 port
      | .pushed s | .held s => s

/-- An atomic of a host on the management window: of one aligned double it reads the register and writes it; any other
access reads as zero (14 R328). -/
def State.hostWindowAtomic (s : State) (port kind offset size : Nat) (payload : List Double) : State :=
  let old := leValue (s.windowBytes offset size)
  ((s.windowWrite (port + 1) offset (leBytes size (hostAtomic kind size old payload))).noteWindow offset).answerHost port 0
    [BitVec.ofNat 64 old]

/-- HOST_REQUEST (13 R319; 14 R323, R324, R328): kinds 0 to 4 reach device memory; the others the management window
through BAR0: 8 reads, 9 writes, 10, 11 and 12 are FetchAdd, Swap and CAS.  In FATAL nothing is under way that a write
could wait for. -/
def execHostRequest (port kind offset size : Nat) (payload : List (BitVec 64)) (s : State) :
    Host.Outcome State Fault Refusal :=
  .next <|
    if 2 ≤ port || !s.linkUp.getD port false then s
    else if kind < 8 then
      if s.device = .ready then s.hostMemory port kind offset size payload else s.answerHost port 1 []
    else if !s.device.responds offset || 13 ≤ kind then s.answerHost port 1 []
    else if kind = 8 then s.answerHost port 0 (doublesPadded (s.windowBytes offset size))
    else if s.device ≠ .fatal && s.hostWriting port then s
    else if kind = 9 then (s.windowWrite (port + 1) offset ((bytesOfDoubles payload).take size)).noteWindow offset
    else s.hostWindowAtomic port (kind - 8) offset size payload

end Sys2Proof.Machine
end

