-- ==== Sys2Proof/Machine/Special.lean ====
section
/-! DEFINITION. Special registers and the slices' modes: MFS, MTS, FMT, WIN, SETX (03 R55 to R57, R59; 11 R272; 16 R375;
17 R397, R398, R423; 18 R455). -/

namespace Sys2Proof.Machine
set_option Elab.async false
open Sys2Proof

/-- Special registers of 64 bits (03 R55). -/
def isWideSpecial (n : Nat) : Bool := n == 4 || (0x10 ≤ n && n ≤ 0x13)

/-- Registers that ordinary code may not name (03 R55). -/
def isHandlerSpecial (n : Nat) : Bool := (0x0E ≤ n && n ≤ 0x12) || n == 0x16

/-- Registers that MTS may not write (03 R55). -/
def isReadOnlySpecial (n : Nat) : Bool := n == 4 || (8 ≤ n && n ≤ 0x0D) || (0x13 ≤ n && n ≤ 0x15)

/-- WB does not exist on the easel (03 R59). -/
def specialKind (n : Nat) : Kind := if n = 1 then .vector else .any

/-- What a special register reads in a lane (17 R398). -/
def Ctx.special (c : Ctx) (s : State) (n l : Nat) : Nat :=
  let sl := c.gang.slice (l / 4)
  match n with
  | 0x00 => sl.fmt.toNat
  | 0x01 => sl.wb.toNat
  | 0x02 => sl.x0.toNat
  | 0x03 => sl.x1.toNat
  | 0x04 => if c.gang.isSeq then 0 else (c.lanes.map (2 ^ ·)).sum
  | 0x05 | 0x06 | 0x07 => (sl.lc.getD (n - 5) 0).toNat
  | 0x08 | 0x09 | 0x0A | 0x0B | 0x0C | 0x0D => c.gang.ifc (n - 8)
  | 0x0E => sl.tstate.toNat
  | 0x0F => sl.tcause.toNat
  | 0x10 => if c.gang.isSeq then 0 else (c.gang.lane l).taddr.toNat
  | 0x11 => if c.gang.isSeq then 0 else sl.tmask.toNat
  | 0x12 => sl.epc.toNat
  | 0x13 => s.clock.toNat
  | 0x14 => c.crew.job % 2 ^ 24
  | 0x15 => c.crew.feat.toNat
  | _ => c.asid

/-- MFS's destination. -/
def mfsDst (n : Nat) (d : BitVec 7) : Use := if isWideSpecial n then .dst64 d else .dst d

/-- MFS (17 R398). -/
def execMfs (d : BitVec 7) (n : BitVec 5) : State → Host.Outcome State Fault Refusal :=
  runOp (.mfs d n)
    { kind := specialKind n.toNat, handlerOnly := isHandlerSpecial n.toNat, uses := fun _ => [mfsDst n.toNat d] }
    fun c _ s =>
      .ok ((s.writeField c (fun _ => mfsDst n.toNat d) (c.lanes.map (c.special s n.toNat))).retireNext c)

/-- Whether a slice may take a value in a special register (03 R56, 04 R94, 11 R272). -/
def specialOk (n : Nat) (sl : Slice) (v : Nat) : Bool :=
  match n with
  | 0x00 => fmtOk (BitVec.ofNat 32 v)
  | 0x01 => v % 8 == 0 && v ≤ 504
  | 0x02 | 0x03 => v ≤ 511
  | 0x0E => tstateWriteOk sl.tstate (BitVec.ofNat 32 v)
  | 0x0F => tcauseWriteOk (BitVec.ofNat 32 v)
  | 0x12 => v % 4 == 0
  | 0x16 => v < 4096
  | _ => true

/-- A slice's special register written. -/
def Slice.setSpecial (sl : Slice) (n v : Nat) : Slice :=
  let w : Word := BitVec.ofNat 32 v
  match n with
  | 0x00 => { sl with fmt := w }
  | 0x01 => { sl with wb := w }
  | 0x02 => { sl with x0 := w }
  | 0x03 => { sl with x1 := w }
  | 0x05 | 0x06 | 0x07 => { sl with lc := sl.lc.set (n - 5) w }
  | 0x0E => { sl with tstate := w }
  | 0x0F => { sl with tcause := w }
  | 0x11 => { sl with tmask := BitVec.ofNat 64 v }
  | 0x12 => { sl with epc := BitVec.ofNat 64 v }
  | _ => sl

/-- The value MTS gives a slice: its own First (03 R56), for FMT, WB, IDX0 and IDX1 too, though 02 R27 has one value for
every copy of a one-party gang (DEDUCED: assumption 89); ASID, one register of the running context, takes the
party's. -/
def Ctx.mtsValue (c : Ctx) (n : Nat) (vals : List Nat) (slice : Nat) : Option Nat :=
  if n = 0x16 then c.firstVal vals else c.firstOf vals slice

/-- MTS (17 R398). -/
def execMts (a : BitVec 7) (n : BitVec 5) : State → Host.Outcome State Fault Refusal :=
  runOp (.mts a n)
    { kind := specialKind n.toNat, handlerOnly := isHandlerSpecial n.toNat, bad := isReadOnlySpecial n.toNat
      uses := fun _ => [if isWideSpecial n.toNat then .src64 a else .src a] }
    fun c args s => do
      let vals := args.getD 0 []
      let n := n.toNat
      need (c.sls.all fun i => match c.mtsValue n vals i with
        | some v => specialOk n (c.gang.slice i) v
        | none => true) .illegal
      let s := if n = 0x10 && !c.gang.isSeq then
          s.mapIssuer c fun g => (c.lanes.zip vals).foldl
            (fun g (l, v) => g.mapLane l fun ln => { ln with taddr := BitVec.ofNat 64 v }) g
        else s
      let s := match c.firstVal vals with
        | some v => if n = 0x16 then s.mapCrew c.crew.id fun k => { k with hasid := BitVec.ofNat 32 v } else s
        | none => s
      .ok (s.retireEach c fun i sl => match c.mtsValue n vals i with
        | some v => (sl.setSpecial n v).advance
        | none => sl.advance)

/-- FMT (16 R375). -/
def execFmt (i : BitVec 16) : State → Host.Outcome State Fault Refusal :=
  runOp (.fmt i) {} fun c _ s => .ok (s.retire c fun sl => ({ sl with fmt := i.setWidth 32 } : Slice).advance)

/-- WIN (18 R455). -/
def execWin (i : BitVec 18) : State → Host.Outcome State Fault Refusal :=
  runOp (.win i) { kind := .vector } fun c _ s =>
    .ok (s.retire c fun sl => ({ sl with wb := i.setWidth 32 } : Slice).advance)

/-- SETX (17 R423): the value of the party's lowest active lane for every slice of the party. -/
def execSetx (a : BitVec 7) (w : BitVec 1) (o : BitVec 9) : State → Host.Outcome State Fault Refusal :=
  runOp (.setx a w o) { uses := fun _ => [.src a] } fun c args s =>
    match c.firstVal (args.getD 0 []) with
    | none => .ok (s.retireNext c)
    | some v => do
      need (v + o.toNat ≤ 511) .illegal
      let x : Word := BitVec.ofNat 32 (v + o.toNat)
      .ok (s.retire c fun sl => (if w == 1 then { sl with x1 := x } else { sl with x0 := x } : Slice).advance)

end Sys2Proof.Machine
end

