-- ==== Sys2Proof/Machine/Dispatch.lean ====
section
/-! DEFINITION. One arm per constructor of Instr, each a direct call of its meaning. -/

namespace Sys2Proof.Machine

def exec (i : Instr) (s : State) : Host.Outcome State Fault Refusal :=
  match i with
  | .aadd t a sx r p z l => Sys2Proof.Machine.execAadd t a sx r p z l s
  | .amin t a sx r p z l => Sys2Proof.Machine.execAmin t a sx r p z l s
  | .amax t a sx r p z l => Sys2Proof.Machine.execAmax t a sx r p z l s
  | .aand t a sx r p z l => Sys2Proof.Machine.execAand t a sx r p z l s
  | .aor t a sx r p z l => Sys2Proof.Machine.execAor t a sx r p z l s
  | .axor t a sx r p z l => Sys2Proof.Machine.execAxor t a sx r p z l s
  | .axch t a sx r p z l => Sys2Proof.Machine.execAxch t a sx r p z l s
  | .acas t a sx r p z l => Sys2Proof.Machine.execAcas t a sx r p z l s
  | .afadd t a sx r p z l => Sys2Proof.Machine.execAfadd t a sx r p z l s
  | .amsg t b l => Sys2Proof.Machine.execAmsg t b l s
  | .and d a b => Sys2Proof.Machine.execAnd d a b s
  | .andi d a imm => Sys2Proof.Machine.execAndi d a imm s
  | .bar c n => Sys2Proof.Machine.execBar c n s
  | .bara c n => Sys2Proof.Machine.execBara c n s
  | .bfi d a b => Sys2Proof.Machine.execBfi d a b s
  | .bfx d a b sx => Sys2Proof.Machine.execBfx d a b sx s
  | .bra o => Sys2Proof.Machine.execBra o s
  | .braZ c o => Sys2Proof.Machine.execBraZ c o s
  | .brc c o => Sys2Proof.Machine.execBrc c o s
  | .call c o => Sys2Proof.Machine.execCall c o s
  | .cbt a l => Sys2Proof.Machine.execCbt a l s
  | .cbtReg b l => Sys2Proof.Machine.execCbtReg b l s
  | .cflush a => Sys2Proof.Machine.execCflush a s
  | .clz d a z => Sys2Proof.Machine.execClz d a z s
  | .coal d a b x => Sys2Proof.Machine.execCoal d a b x s
  | .cvt d a z v l => Sys2Proof.Machine.execCvt d a z v l s
  | .dmma t a b l => Sys2Proof.Machine.execDmma t a b l s
  | .dot8 d a b f => Sys2Proof.Machine.execDot8 d a b f s
  | .dot4 d a b f => Sys2Proof.Machine.execDot4 d a b f s
  | .dqt d a b l => Sys2Proof.Machine.execDqt d a b l s
  | .eret => Sys2Proof.Machine.execEret s
  | .eretAbandon => Sys2Proof.Machine.execEretAbandon s
  | .exit => Sys2Proof.Machine.execExit s
  | .fadd d a b p => Sys2Proof.Machine.execFadd d a b p s
  | .fsub d a b p => Sys2Proof.Machine.execFsub d a b p s
  | .fmul d a b p => Sys2Proof.Machine.execFmul d a b p s
  | .ffma d a b p => Sys2Proof.Machine.execFfma d a b p s
  | .fmin d a b p => Sys2Proof.Machine.execFmin d a b p s
  | .fmax d a b p => Sys2Proof.Machine.execFmax d a b p s
  | .fcmp d a b x c => Sys2Proof.Machine.execFcmp d a b x c s
  | .frcp d a k l => Sys2Proof.Machine.execFrcp d a k l s
  | .frsq d a k l => Sys2Proof.Machine.execFrsq d a k l s
  | .fsqrt d a k l => Sys2Proof.Machine.execFsqrt d a k l s
  | .fexp2 d a k l => Sys2Proof.Machine.execFexp2 d a k l s
  | .flog2 d a k l => Sys2Proof.Machine.execFlog2 d a k l s
  | .fsin d a k l => Sys2Proof.Machine.execFsin d a k l s
  | .fcos d a k l => Sys2Proof.Machine.execFcos d a k l s
  | .ftanh d a k l => Sys2Proof.Machine.execFtanh d a k l s
  | .fence sx r => Sys2Proof.Machine.execFence sx r s
  | .fmt imm => Sys2Proof.Machine.execFmt imm s
  | .grpl t a b l => Sys2Proof.Machine.execGrpl t a b l s
  | .iadd d a b f => Sys2Proof.Machine.execIadd d a b f s
  | .isub d a b f => Sys2Proof.Machine.execIsub d a b f s
  | .imul d a b f => Sys2Proof.Machine.execImul d a b f s
  | .imulh d a b f => Sys2Proof.Machine.execImulh d a b f s
  | .imad d a b f => Sys2Proof.Machine.execImad d a b f s
  | .imin d a b f => Sys2Proof.Machine.execImin d a b f s
  | .imax d a b f => Sys2Proof.Machine.execImax d a b f s
  | .iaddi d a imm => Sys2Proof.Machine.execIaddi d a imm s
  | .icmp d a b x c => Sys2Proof.Machine.execIcmp d a b x c s
  | .jdec t a sx r p z l => Sys2Proof.Machine.execJdec t a sx r p z l s
  | .join => Sys2Proof.Machine.execJoin s
  | .ld t a o l => Sys2Proof.Machine.execLd t a o l s
  | .ldw t a o l => Sys2Proof.Machine.execLdw t a o l s
  | .ldq t a o l => Sys2Proof.Machine.execLdq t a o l s
  | .lda t a sx r w l => Sys2Proof.Machine.execLda t a sx r w l s
  | .ldx t a b l => Sys2Proof.Machine.execLdx t a b l s
  | .lea d a b u sx => Sys2Proof.Machine.execLea d a b u sx s
  | .loop c n => Sys2Proof.Machine.execLoop c n s
  | .lui d imm => Sys2Proof.Machine.execLui d imm s
  | .mapf d a => Sys2Proof.Machine.execMapf d a s
  | .mcrd t a b => Sys2Proof.Machine.execMcrd t a b s
  | .mfs d n => Sys2Proof.Machine.execMfs d n s
  | .mts a n => Sys2Proof.Machine.execMts a n s
  | .mkab d a b v x => Sys2Proof.Machine.execMkab d a b v x s
  | .mon t a sx r w l => Sys2Proof.Machine.execMon t a sx r w l s
  | .mwait d a => Sys2Proof.Machine.execMwait d a s
  | .nop => Sys2Proof.Machine.execNop s
  | .or d a b => Sys2Proof.Machine.execOr d a b s
  | .ori d a imm => Sys2Proof.Machine.execOri d a imm s
  | .pack d a b k h => Sys2Proof.Machine.execPack d a b k h s
  | .popc d a => Sys2Proof.Machine.execPopc d a s
  | .prom a sx r => Sys2Proof.Machine.execProm a sx r s
  | .qadjInjected d a => Sys2Proof.Machine.execQadjInjected d a s
  | .qadjConsumed d a => Sys2Proof.Machine.execQadjConsumed d a s
  | .qadjClearLost d a => Sys2Proof.Machine.execQadjClearLost d a s
  | .qadjQueryToLost d a => Sys2Proof.Machine.execQadjQueryToLost d a s
  | .qbind p q => Sys2Proof.Machine.execQbind p q s
  | .qbindUn q => Sys2Proof.Machine.execQbindUn q s
  | .qnt d a l => Sys2Proof.Machine.execQnt d a l s
  | .qntFix d a l => Sys2Proof.Machine.execQntFix d a l s
  | .qntHealth d l => Sys2Proof.Machine.execQntHealth d l s
  | .qstat d n => Sys2Proof.Machine.execQstat d n s
  | .quiet d a b l => Sys2Proof.Machine.execQuiet d a b l s
  | .rcp o => Sys2Proof.Machine.execRcp o s
  | .rdx d a f => Sys2Proof.Machine.execRdx d a f s
  | .scan d a e f => Sys2Proof.Machine.execScan d a e f s
  | .regang => Sys2Proof.Machine.execRegang s
  | .ret a => Sys2Proof.Machine.execRet a s
  | .rply => Sys2Proof.Machine.execRply s
  | .sel d a b v => Sys2Proof.Machine.execSel d a b v s
  | .setx a w o => Sys2Proof.Machine.execSetx a w o s
  | .shfl d a b m => Sys2Proof.Machine.execShfl d a b m s
  | .shl d a b => Sys2Proof.Machine.execShl d a b s
  | .shr d a b => Sys2Proof.Machine.execShr d a b s
  | .shli d a sx => Sys2Proof.Machine.execShli d a sx s
  | .shri d a sx => Sys2Proof.Machine.execShri d a sx s
  | .sra d a b => Sys2Proof.Machine.execSra d a b s
  | .spawn a => Sys2Proof.Machine.execSpawn a s
  | .spcfg o z w => Sys2Proof.Machine.execSpcfg o z w s
  | .st t a o => Sys2Proof.Machine.execSt t a o s
  | .stw t a o => Sys2Proof.Machine.execStw t a o s
  | .stq t a o => Sys2Proof.Machine.execStq t a o s
  | .stl t a sx r w => Sys2Proof.Machine.execStl t a sx r w s
  | .tbnd t a l => Sys2Proof.Machine.execTbnd t a l s
  | .tcfg w e g x n => Sys2Proof.Machine.execTcfg w e g x n s
  | .tclr c x n => Sys2Proof.Machine.execTclr c x n s
  | .tdrn d a x k l => Sys2Proof.Machine.execTdrn d a x k l s
  | .tlbiPage a => Sys2Proof.Machine.execTlbiPage a s
  | .tlbiAsid a => Sys2Proof.Machine.execTlbiAsid a s
  | .tlbiAll => Sys2Proof.Machine.execTlbiAll s
  | .tmma t a b l => Sys2Proof.Machine.execTmma t a b l s
  | .trap imm => Sys2Proof.Machine.execTrap imm s
  | .tsta d a v x => Sys2Proof.Machine.execTsta d a v x s
  | .tstg t b => Sys2Proof.Machine.execTstg t b s
  | .tsub t a l => Sys2Proof.Machine.execTsub t a l s
  | .ttbl t a => Sys2Proof.Machine.execTtbl t a s
  | .unpk d a b sx m => Sys2Proof.Machine.execUnpk d a b sx m s
  | .unpkCb d a b => Sys2Proof.Machine.execUnpkCb d a b s
  | .vote d a f => Sys2Proof.Machine.execVote d a f s
  | .waitp a p => Sys2Proof.Machine.execWaitp a p s
  | .win imm => Sys2Proof.Machine.execWin imm s
  | .xcp d a x k l => Sys2Proof.Machine.execXcp d a x k l s
  | .xcpr d a x k l => Sys2Proof.Machine.execXcpr d a x k l s
  | .xqap d a x k => Sys2Proof.Machine.execXqap d a x k s
  | .xwait d a => Sys2Proof.Machine.execXwait d a s
  | .xwaitAll d => Sys2Proof.Machine.execXwaitAll d s
  | .xor d a b => Sys2Proof.Machine.execXor d a b s
  | .xori d a imm => Sys2Proof.Machine.execXori d a imm s
  | .yld => Sys2Proof.Machine.execYld s
  | .loadDataArrival fl part word => Sys2Proof.Machine.execLoadDataArrival fl part word s
  | .atomicReturn fl part => Sys2Proof.Machine.execAtomicReturn fl part s
  | .storeAck fl part => Sys2Proof.Machine.execStoreAck fl part s
  | .sfqResult fl part word => Sys2Proof.Machine.execSfqResult fl part word s
  | .cvqResult fl part word => Sys2Proof.Machine.execCvqResult fl part word s
  | .paletteArrival fl => Sys2Proof.Machine.execPaletteArrival fl s
  | .xcprDataArrival cluster slot row => Sys2Proof.Machine.execXcprDataArrival cluster slot row s
  | .homeRequest fl part => Sys2Proof.Machine.execHomeRequest fl part s
  | .translationRequest fl part => Sys2Proof.Machine.execTranslationRequest fl part s
  | .fillReturn fill => Sys2Proof.Machine.execFillReturn fill s
  | .writeBack asid line => Sys2Proof.Machine.execWriteBack asid line s
  | .writeBackAck wb => Sys2Proof.Machine.execWriteBackAck wb s
  | .ownershipRelease owner => Sys2Proof.Machine.execOwnershipRelease owner s
  | .faultReport fl part => Sys2Proof.Machine.execFaultReport fl part s
  | .handlerEntry crew member party => Sys2Proof.Machine.execHandlerEntry crew member party s
  | .faultLogReply fl part => Sys2Proof.Machine.execFaultLogReply fl part s
  | .mcrdRequestArrival fl => Sys2Proof.Machine.execMcrdRequestArrival fl s
  | .mcrdLineSend stream => Sys2Proof.Machine.execMcrdLineSend stream s
  | .mcrdTailReplay stream => Sys2Proof.Machine.execMcrdTailReplay stream s
  | .mcrdLineDeliver delivery => Sys2Proof.Machine.execMcrdLineDeliver delivery s
  | .spcfgComplete die => Sys2Proof.Machine.execSpcfgComplete die s
  | .mwaitTimeout crew member slice => Sys2Proof.Machine.execMwaitTimeout crew member slice s
  | .spuriousWake crew member slice => Sys2Proof.Machine.execSpuriousWake crew member slice s
  | .yldExpire crew member party => Sys2Proof.Machine.execYldExpire crew member party s
  | .quietTimeout crew member party => Sys2Proof.Machine.execQuietTimeout crew member party s
  | .engineInstructionStart engine pos => Sys2Proof.Machine.execEngineInstructionStart engine pos s
  | .tmmaComplete engine pos cycles => Sys2Proof.Machine.execTmmaComplete engine pos cycles s
  | .dmmaComplete engine pos => Sys2Proof.Machine.execDmmaComplete engine pos s
  | .drainComplete engine pos => Sys2Proof.Machine.execDrainComplete engine pos s
  | .tclrComplete engine pos => Sys2Proof.Machine.execTclrComplete engine pos s
  | .tstgComplete engine pos => Sys2Proof.Machine.execTstgComplete engine pos s
  | .ttblComplete engine pos => Sys2Proof.Machine.execTtblComplete engine pos s
  | .tokenArbitration => Sys2Proof.Machine.execTokenArbitration s
  | .tokenAge easel => Sys2Proof.Machine.execTokenAge easel s
  | .recordPush push => Sys2Proof.Machine.execRecordPush push s
  | .recordPop cluster => Sys2Proof.Machine.execRecordPop cluster s
  | .schedAge rec => Sys2Proof.Machine.execSchedAge rec s
  | .skipLimit rec => Sys2Proof.Machine.execSkipLimit rec s
  | .crewStart crew => Sys2Proof.Machine.execCrewStart crew s
  | .crewDone crew => Sys2Proof.Machine.execCrewDone crew s
  | .preemptRequest crew => Sys2Proof.Machine.execPreemptRequest crew s
  | .preemptWait rec => Sys2Proof.Machine.execPreemptWait rec s
  | .preemptStopped crew => Sys2Proof.Machine.execPreemptStopped crew s
  | .contextSaved crew => Sys2Proof.Machine.execContextSaved crew s
  | .standbyResume crew => Sys2Proof.Machine.execStandbyResume crew s
  | .packetAccept cluster => Sys2Proof.Machine.execPacketAccept cluster s
  | .queueLook cluster entry => Sys2Proof.Machine.execQueueLook cluster entry s
  | .copy cluster slot => Sys2Proof.Machine.execCopy cluster slot s
  | .transpose cluster slot => Sys2Proof.Machine.execTranspose cluster slot s
  | .convert cluster slot => Sys2Proof.Machine.execConvert cluster slot s
  | .convertTranspose cluster slot => Sys2Proof.Machine.execConvertTranspose cluster slot s
  | .quantise cluster slot => Sys2Proof.Machine.execQuantise cluster slot s
  | .quantiseTranspose cluster slot => Sys2Proof.Machine.execQuantiseTranspose cluster slot s
  | .crumbEncode cluster slot => Sys2Proof.Machine.execCrumbEncode cluster slot s
  | .crumbDecode cluster slot => Sys2Proof.Machine.execCrumbDecode cluster slot s
  | .paletteExpand cluster slot => Sys2Proof.Machine.execPaletteExpand cluster slot s
  | .gather cluster slot => Sys2Proof.Machine.execGather cluster slot s
  | .scatter cluster slot => Sys2Proof.Machine.execScatter cluster slot s
  | .scaleMax cluster slot => Sys2Proof.Machine.execScaleMax cluster slot s
  | .alignedIntegerSum cluster slot => Sys2Proof.Machine.execAlignedIntegerSum cluster slot s
  | .fill cluster slot => Sys2Proof.Machine.execFill cluster slot s
  | .launch cluster slot => Sys2Proof.Machine.execLaunch cluster slot s
  | .graph cluster slot => Sys2Proof.Machine.execGraph cluster slot s
  | .waitval cluster slot => Sys2Proof.Machine.execWaitval cluster slot s
  | .signal cluster slot => Sys2Proof.Machine.execSignal cluster slot s
  | .waitvalRead cluster slot => Sys2Proof.Machine.execWaitvalRead cluster slot s
  | .waitvalTimeout cluster slot => Sys2Proof.Machine.execWaitvalTimeout cluster slot s
  | .launchSlotGrant cluster slot => Sys2Proof.Machine.execLaunchSlotGrant cluster slot s
  | .graphBufferReady cluster slot => Sys2Proof.Machine.execGraphBufferReady cluster slot s
  | .graphNodesStart cluster slot => Sys2Proof.Machine.execGraphNodesStart cluster slot s
  | .xqapAppend cluster slot => Sys2Proof.Machine.execXqapAppend cluster slot s
  | .reductionContribution cluster slot rank => Sys2Proof.Machine.execReductionContribution cluster slot rank s
  | .bteSlotResume cluster slot => Sys2Proof.Machine.execBteSlotResume cluster slot s
  | .completionRecordWrite cluster slot => Sys2Proof.Machine.execCompletionRecordWrite cluster slot s
  | .ringCoalCount ring => Sys2Proof.Machine.execRingCoalCount ring s
  | .ringCoalTime ring => Sys2Proof.Machine.execRingCoalTime ring s
  | .eventRecordDrain => Sys2Proof.Machine.execEventRecordDrain s
  | .ringRdIndexWrite ring value => Sys2Proof.Machine.execRingRdIndexWrite ring value s
  | .migrationStart unit => Sys2Proof.Machine.execMigrationStart unit s
  | .migrationCopyDone unit ecc => Sys2Proof.Machine.execMigrationCopyDone unit ecc s
  | .migrationRoundDone unit ecc => Sys2Proof.Machine.execMigrationRoundDone unit ecc s
  | .migrationFreeze unit => Sys2Proof.Machine.execMigrationFreeze unit s
  | .migrationDone unit => Sys2Proof.Machine.execMigrationDone unit s
  | .faultResume context => Sys2Proof.Machine.execFaultResume context s
  | .faultResumeAbort context => Sys2Proof.Machine.execFaultResumeAbort context s
  | .tlbiRequestPage asid va => Sys2Proof.Machine.execTlbiRequestPage asid va s
  | .tlbiRequestAsid asid => Sys2Proof.Machine.execTlbiRequestAsid asid s
  | .tlbiRequestAll => Sys2Proof.Machine.execTlbiRequestAll s
  | .semaphoreTake sem owner => Sys2Proof.Machine.execSemaphoreTake sem owner s
  | .semaphoreFree sem owner => Sys2Proof.Machine.execSemaphoreFree sem owner s
  | .queueTableWrite cluster entry value => Sys2Proof.Machine.execQueueTableWrite cluster entry value s
  | .doorbell cluster entry => Sys2Proof.Machine.execDoorbell cluster entry s
  | .jobEntryWrite die entry value => Sys2Proof.Machine.execJobEntryWrite die entry value s
  | .droppedClear => Sys2Proof.Machine.execDroppedClear s
  | .counterClear offset => Sys2Proof.Machine.execCounterClear offset s
  | .attestationStart => Sys2Proof.Machine.execAttestationStart s
  | .attestationReportDone => Sys2Proof.Machine.execAttestationReportDone s
  | .telemetryRefresh => Sys2Proof.Machine.execTelemetryRefresh s
  | .registerWrite offset value => Sys2Proof.Machine.execRegisterWrite offset value s
  | .messageInject msg => Sys2Proof.Machine.execMessageInject msg s
  | .messageResponse msg code payload => Sys2Proof.Machine.execMessageResponse msg code payload s
  | .inboundFabricRequest origin tag kind offset size job payload => Sys2Proof.Machine.execInboundFabricRequest origin tag kind offset size job payload s
  | .amsgReceive origin tag job payload => Sys2Proof.Machine.execAmsgReceive origin tag job payload s
  | .respTimeout msg => Sys2Proof.Machine.execRespTimeout msg s
  | .queryWait msg => Sys2Proof.Machine.execQueryWait msg s
  | .queryReceive source tag => Sys2Proof.Machine.execQueryReceive source tag s
  | .queryAnswer msg performed => Sys2Proof.Machine.execQueryAnswer msg performed s
  | .waveStart job => Sys2Proof.Machine.execWaveStart job s
  | .down job wave pass => Sys2Proof.Machine.execDown job wave pass s
  | .up job wave pass child payload => Sys2Proof.Machine.execUp job wave pass child payload s
  | .decide job wave lost => Sys2Proof.Machine.execDecide job wave lost s
  | .portRetrain port => Sys2Proof.Machine.execPortRetrain port s
  | .retrainLimit port => Sys2Proof.Machine.execRetrainLimit port s
  | .hostRequest port kind offset size payload => Sys2Proof.Machine.execHostRequest port kind offset size payload s
  | .hostHotReset port => Sys2Proof.Machine.execHostHotReset port s
  | .hostLinkLoss port => Sys2Proof.Machine.execHostLinkLoss port s
  | .powerOnReset => Sys2Proof.Machine.execPowerOnReset s
  | .reset => Sys2Proof.Machine.execReset s
  | .resetDone => Sys2Proof.Machine.execResetDone s
  | .bootVerify => Sys2Proof.Machine.execBootVerify s
  | .trainingDone failed => Sys2Proof.Machine.execTrainingDone failed s
  | .bridgeRetryFail segment => Sys2Proof.Machine.execBridgeRetryFail segment s
  | .internalParityError => Sys2Proof.Machine.execInternalParityError s
  | .controllerFailure stack => Sys2Proof.Machine.execControllerFailure stack s
  | .ueLimit stack => Sys2Proof.Machine.execUeLimit stack s
  | .thermalSensorUpdate sensor celsius => Sys2Proof.Machine.execThermalSensorUpdate sensor celsius s
  | .refresh stack => Sys2Proof.Machine.execRefresh stack s
  | .calibration stack => Sys2Proof.Machine.execCalibration stack s
  | .scrub stack line ecc => Sys2Proof.Machine.execScrub stack line ecc s
  | .activate stack bank row mask stream => Sys2Proof.Machine.execActivate stack bank row mask stream s
  | .supplementaryActivate stack bank row mask => Sys2Proof.Machine.execSupplementaryActivate stack bank row mask s
  | .precharge stack bank row => Sys2Proof.Machine.execPrecharge stack bank row s
  | .select stack bank subarray => Sys2Proof.Machine.execSelect stack bank subarray s
  | .hbmRead fill ecc => Sys2Proof.Machine.execHbmRead fill ecc s
  | .stripeWrite stripe => Sys2Proof.Machine.execStripeWrite stripe s
  | .parityDelta stripe pos => Sys2Proof.Machine.execParityDelta stripe pos s
  | .gatherWait stripe => Sys2Proof.Machine.execGatherWait stripe s
  | .linkLevelReplay port => Sys2Proof.Machine.execLinkLevelReplay port s
  | .portTraining port lanes => Sys2Proof.Machine.execPortTraining port lanes s
  | .ticketWrite fl part word => Sys2Proof.Machine.execTicketWrite fl part word s

end Sys2Proof.Machine
end

