-- ==== Sys2Proof/Machine/Issue.lean ====
section
/-! DEFINITION. What stands around an instruction: its fetch (11 R272, R276; 16 R390), which party of a unit is to issue
(10 R255 to R257), and what happens in each device state (14 R323, R324).  `Step` puts them together. -/

namespace Sys2Proof.Machine
set_option Elab.async false
open Sys2Proof

/-! ### Fetch -/

/-- What a fetch gives: a word, a fault code, or nothing yet. -/
inductive Fetched where
  | word (w : Word)
  | fault (code : Nat)
  | held
  deriving DecidableEq, Repr

/-- The ASID instructions are fetched under: the crew's, or the supervisor's in handler state (11 R276). -/
def Ctx.fetchAsid (c : Ctx) (s : State) : Nat := if c.inHandler then s.supAsid else c.crew.asid

/-- A fetch from memory, through the home of the address (07 R169, R170; 08 R198; 11 R266); one from another device waits
for its answer (13 R305, R311). (DESIGN CHOICE: assumption 106). -/
def State.fetchMem (s : State) (u : FarUser) (job die asid va : Nat) : Fetched × State :=
  let word (bs : List (Option Byte)) : Fetched :=
    .word (BitVec.ofNat 32 (leValue (((bs.drop (va % lineBytes)).take 4).map s.orFill)))
  if natBits va 56 8 ≠ 0 then (.fault Cause.address.code, s)
  else if s.frozen asid va || s.ownedByOther asid (va / lineBytes) none then (.held, s)
  else
    match s.homeBytes? asid (va / lineBytes) with
    | some bs =>
      match s.hitCode asid va .fetch with
      | (0, s) => (word bs, s)
      | (code, s) => (.fault code, s)
    | none =>
      match s.translate asid va .fetch with
      | (.error code, s) => (.fault code, s)
      | (.ok (.hbm pa), s) => let (bs, s) := s.fillFrom asid (.hbm pa); (word bs, s)
      | (.ok (.crumb p off), s) => let (bs, s) := s.fillFrom asid (.crumb p off); (word bs, s)
      | (.ok (.window _), s) => (.word 0, s)
      | (.ok (.host p a), s) =>
        (word (s.hostBytes p (a / lineBytes * lineBytes) lineBytes), { s with freeCount := s.freeCount + 1 })
      | (.ok (.fabric t off), s) =>
        match s.farDo u 0 t (off / lineBytes * lineBytes) lineBytes [] none job die with
        | (some ds, s) => (word ((bytesOfDoubles ds).map some), s)
        | (none, s) => (.held, s)

/-- The loop buffer's word at an address (16 R390); the handler's loops and those it interrupts have addresses of different
spaces. (DEDUCED: assumption 21). -/
def Slice.buffered (sl : Slice) (a : Double) : Option Word :=
  sl.loops.findSome? fun r => if r.inH == sl.inHandler && r.holds a then tabFind r.buf a.toNat else none

/-- A word of a loop body goes into the loop buffer when it is first fetched. -/
def Slice.buffer (a : Double) (w : Word) (sl : Slice) : Slice :=
  { sl with loops := sl.loops.map fun r =>
      if r.inH == sl.inHandler && r.holds a && (tabFind r.buf a.toNat).isNone then { r with buf := tabInsert r.buf a.toNat w } else r }

/-- The instruction word of the issuing thread. -/
def State.fetchFor (s : State) (c : Ctx) : Fetched × State :=
  match c.first.buffered c.base with
  | some w => (.word w, s)
  | none =>
    let u : FarUser := .fetch c.crew.id c.member c.party
    match s.fetchMem u c.crew.job c.die (c.fetchAsid s) c.base.toNat with
    | (.word w, s) =>
      let s := s.farDone u
      (.word w, s.mapIssuer c fun g => g.mapSlices c.sls (Slice.buffer c.base w))
    | r => r

/-! ### Which party issues (10 R256, R257) -/

/-- The crews whose parties issue; in STOPPING only those in handler state do, until their ERET (02 R45, 11 R274). -/
def Crew.issues (c : Crew) (inHandler : Bool) : Bool := c.state == .running || (c.state == .stopping && inHandler)

/-- The members of a crew at a unit: a slice group of a core, or the easel as core 16. -/
def Crew.membersAt (c : Crew) (cluster core group : Nat) : List Nat :=
  c.members.filter fun m => c.cluster == cluster && match c.member? m with
    | some g => if g.isSeq then core == 16 && group == 0 else g.core == core && g.group == group
    | none => false

/-- The parties of a member: number, issue count at its last issue, lowest slice. -/
def Gang.parties (g : Gang) : List (Nat × Nat × Nat) :=
  (dedup (g.liveSlices.map fun i => (g.slice i).party)).map fun p =>
    let i := (g.partySlices p).headD 0
    (p, (g.slice i).stamp, i)

/-- A party at a unit, with what ranks it: last issue, member, lowest slice. -/
structure Candidate where
  thread : ThreadRef
  rank   : Nat × Nat × Nat
  deriving DecidableEq, Repr

/-- Whether one rank comes first (10 R256). -/
def rankBefore (a b : Nat × Nat × Nat) : Bool :=
  a.1 < b.1 || (a.1 == b.1 && (a.2.1 < b.2.1 || (a.2.1 == b.2.1 && a.2.2 ≤ b.2.2)))

/-- Puts a candidate in its place. -/
def insertCandidate (x : Candidate) : List Candidate → List Candidate
  | [] => [x]
  | y :: ys => if rankBefore x.rank y.rank then x :: y :: ys else y :: insertCandidate x ys

/-- Every live party at a unit, in the order of 10 R256. -/
def State.candidates (s : State) (cluster core group : Nat) : List Candidate :=
  let all := s.crews.flatMap fun c =>
    (c.membersAt cluster core group).flatMap fun m => match c.member? m with
      | some g => (g.parties.filter fun (_, _, low) => c.issues (g.slice low).inHandler).map fun (p, stamp, low) =>
          ⟨⟨c.id, m, p⟩, (stamp, m, low)⟩
      | none => []
  all.foldl (fun acc x => insertCandidate x acc) []

/-- A wait or a park that withholds a party's issue before its instruction is looked at (10 R257). -/
def State.withheld (s : State) (c : Ctx) : Bool :=
  (c.sls.any fun i => match (c.gang.slice i).wait with
    | .regang | .bar _ | .yld _ | .spcfg _ => true
    | _ => false) ||
  (!c.inHandler && !(s.parkedOf c.crew.id c.member c.sls).isEmpty)

/-- The trap a waiting slice has been given (02 R26, R34). -/
def Ctx.waitingTrap (c : Ctx) : Option Cause :=
  c.sls.findSome? fun i => match (c.gang.slice i).wait with
    | .trap k => some k
    | _ => none

/-- The major opcode of the instruction such a slice waits at: REGANG, or BAR. -/
def waitingOpcode : Cause → Nat
  | .regang => opcodeOf .regang
  | _ => opcodeOf (.bar 1 0)

/-- A waiting slice takes the trap it has been given; its wait is over. -/
def State.takeWaitingTrap (s : State) (c : Ctx) (k : Cause) : State :=
  if !c.inHandler && s.handlerBusy c then s
  else
    (s.mapIssuer c fun g => g.mapSlices c.sls fun sl => { sl with wait := .none }).takeTrap c k [] (waitingOpcode k)

/-- What the issuing thread is to do now. -/
inductive Turn where
  /-- nothing -/
  | none
  /-- it has entered the handler, or the crew is gone -/
  | taken
  /-- its instruction -/
  | run (i : Instr)
  deriving DecidableEq, Repr

/-- The turn of the thread that `cur` names: a trap it has been given, its fetch, its word. -/
def State.turn (s : State) : Turn × State :=
  match s.issuer? with
  | none => (.none, s)
  | some c =>
    if s.withheld c then (.none, s)
    else
      match c.waitingTrap with
      | some k => (.taken, s.takeWaitingTrap c k)
      | none =>
        match s.fetchFor c with
        | (.held, s) => (.none, s)
        | (.fault code, s) => (.taken, s.takeFetchTrap c code)
        | (.word w, s) =>
          match decodeWord w with
          | .ok i => (.run i, s)
          | .error _ => (.taken, s.takeTrap c .illegal [] (w.toNat / 2 ^ 25))

/-- Another party of the group has issued: a YLD of the others ends (18 R459). -/
def State.endYields (s : State) (cluster core group : Nat) (me : ThreadRef) : State :=
  { s with crews := s.crews.map fun c =>
      let ms := c.membersAt cluster core group
      ms.foldl (fun c m => c.mapMember m fun g => { g with slices := g.slices.map fun sl =>
        match sl.wait with
        | .yld _ => if c.id == me.crew && m == me.member && sl.party == me.party then sl else { sl with wait := .none }
        | _ => sl }) c }

/-! ### Device states (14 R323, R324) -/

/-- Whether a step of the device takes place in a device state; instruction words never come as steps of their own. -/
def DeviceState.admits (d : DeviceState) (i : Instr) : Bool :=
  !i.isWord &&
    match d, i with
    | _, .powerOnReset | _, .reset | _, .hostRequest .. | _, .hostHotReset _ | _, .hostLinkLoss _ => true
    | .ready, _ => true
    | .fatal, _ => false
    | _, .registerWrite off _ => off == 0x100 || (0x1000000 ≤ off && off < 0x2000000)
    | _, .resetDone | _, .bootVerify | _, .trainingDone _ | _, .bridgeRetryFail _ | _, .internalParityError
    | _, .telemetryRefresh | _, .controllerFailure _ | _, .ueLimit _ | _, .thermalSensorUpdate .. | _, .refresh _
    | _, .calibration _ => true
    | _, _ => false

/-- Counts a cycle with an idle slot of each throttled stack: IDLE_PER_8 of every eight (12 R298 to R300). -/
def State.countThrottled (s : State) : State :=
  if s.clock.toNat % 8 < max 1 (bitsOf s.memCtl 52 3) then
    ((List.range 8).filter fun k => s.throttled.getD k false).foldl (fun s k => s.bump k throttleCycles) s
  else s

/-- Easels not ready for want of tokens: one whose sequencer runs its fault handler waits for none (06 R139; 14 R329). -/
def State.tokenWaits (s : State) : Nat :=
  (s.tokenReqs.filter fun r => !s.crews.any fun k => (k.state == .running || k.state == .stopping) && k.cluster == r.easel &&
    (k.seq.any fun g => (g.slice 0).inHandler)).length

/-- One cycle of the arithmetic clock; it does not run in RESET or FATAL.  Each easel whose instruction waits for tokens
adds to TOKEN_WAIT (14 R329). (DESIGN CHOICE: assumption 82). -/
def State.tick (s : State) : State :=
  if s.device = .reset || s.device = .fatal then s
  else
    let s := s.countThrottled
    { s with clock := s.clock + 1, tokenWait := s.tokenWait + BitVec.ofNat 64 s.tokenWaits }

end Sys2Proof.Machine
end

