-- ==== Sys2Proof/Machine/Step.lean ====
section
/-! DEFINITION. The step of the machine (assumption 1): the next move of the agenda, or one that the arbiter chooses
when the agenda is empty, is a turn of a unit's parties, a step of a device agent, or a cycle of the clock. -/

namespace Sys2Proof.Machine
set_option Elab.async false
open Sys2Proof

/-- A turn of one thread: its next instruction, from fetch to effect (03 R73; 11 R272). -/
def State.runThread (s : State) (t : ThreadRef) : Host.Outcome State Fault Refusal :=
  match ({ s with cur := t } : State).turn with
  | (.none, s') => .next s'
  | (.taken, s') => .next s'
  | (.run i, s') => exec i s'

/-- The first candidate that is ready issues; the others' turns leave only what a wait leaves (10 R256, R257). -/
def State.issueFirst (s : State) (cluster core group : Nat) : List Candidate → Host.Outcome State Fault Refusal
  | [] => .next s
  | c :: cs =>
    match s.runThread c.thread with
    | .next s' =>
      if s.issued < s'.issued then .next (s'.endYields cluster core group c.thread)
      else s'.issueFirst cluster core group cs
    | r => r

/-- One move. (DESIGN CHOICE: assumption 1). -/
def State.move (s : State) : Move → Host.Outcome State Fault Refusal
  | .tick => .next s.tick
  | .event e => if s.device.admits e then exec e s else .next s
  | .issue cluster core group =>
    if s.device = .ready then s.issueFirst cluster core group (s.candidates cluster core group) else .next s

/-- The step of the machine. -/
def step (s : State) : Host.Outcome State Fault Refusal :=
  match s.agenda with
  | m :: rest => State.move { s with agenda := rest } m
  | [] => State.move { s with arbCount := s.arbCount + 1 } (Config.arbiter s.arbCount)

/-- A lone crew of ASID 4095, the physical alias (11 R267): one gang of sixteen lanes on core 0, and a sequencer role
on the easel of cluster 0. -/
def probeCrew (seq : Bool) (handler : Bool) : Crew :=
  let sl : Slice := { noSlice with
    finished := false
    mask := if seq then 1 else 15
    tstate := if handler then 1 else 0 }
  let gang : Gang := {
    isSeq := seq, width := if seq then 1 else 16, core := if seq then 16 else 0, group := 0, allot := 512, index := 0, kind := if seq then 3 else 0
    codePtr := 0, slices := List.replicate (if seq then 1 else 4) sl, lanes := List.replicate (if seq then 1 else 16) noLane
    g := [0, 0, 0, 0], gs := [0, 0, 0, 0], paths := List.replicate 6 [], qbind := List.replicate 8 (some 0), palette := 0
    health := ⟨0, 0, 0⟩, ticket := 0, err := 0, tickets := [], nextParty := 1, holds := 0 }
  let idle : Gang := { gang with
    isSeq := !seq, width := if seq then 16 else 1, core := if seq then 0 else 16
    slices := [{ sl with finished := true }] }
  { id := 0, state := .running, cluster := 0, rcd := ⟨0, 0, 0, 0, 0, 0, 0, 0⟩, origin := .plain, asid := aliasAsid, job := 0
    launch := none, supervisor := true, hasid := 4095, feat := 0xFFFFFFFF, prio := 0
    gangs := [if seq then idle else gang], seq := some (if seq then gang else idle)
    barriers := List.replicate 16 Barrier.empty, coreMem := [], cluMem := [], ports := [], frame := none, log := []
    started := 0, age := 0, queue := 24, victimOf := none, abandoned := false, named := [], canvases := [], stages := [], tags := [], begun := false, late := [] }

/-- Whether an instruction runs on the easel only (03 R71), and whether it runs in handler state only. -/
def probeKind (nbits w : Nat) : Bool × Bool :=
  match decodeTableWord nbits w with
  | some i => match i with
    | .tmma .. | .dmma .. | .tbnd .. | .tcfg .. | .tclr .. | .tdrn .. | .tstg .. | .ttbl .. =>
      (true, false)
    | .eret | .eretAbandon | .rply => (false, true)
    | _ => (false, false)
  | none => (false, false)

/-- The state with an instruction word placed where the next step fetches (assumption 14): the device is READY, a lone
crew runs, the word stands in its home's line 0, and the next move is its unit's. -/
def State.withFetchWord (s : State) (nbits w : Nat) : State :=
  let (seq, handler) := probeKind nbits w
  { s with
    agenda := [.issue 0 (if seq then 16 else 0) 0]
    device := .ready
    crews := [probeCrew seq handler]
    lines := [⟨aliasAsid, 0, bytesOfWord (BitVec.ofNat 32 (w % 2 ^ nbits)) ++ List.replicate 124 0, true, none, none, 0, 0⟩] }

end Sys2Proof.Machine
end

