-- ==== Sys2Proof/Safety.lean ====
section
/-! DEFINITION. What a safe run is: a machine all of whose memories are in canonical form, and that goes on. -/

namespace Sys2Proof.Machine
set_option Elab.async false
open Sys2Proof

/-- Every byte memory of the state is in its canonical form (assumption 3). -/
def State.memoriesWf (s : State) : Bool :=
  Memory.wf s.hbm && s.chip.all (fun t => t.all fun (_, m) => Memory.wf m) && Memory.wf s.staging &&
    s.crews.all fun c => (c.cluMem.all fun (_, m) => Memory.wf m) && (c.coreMem.all fun (_, m) => Memory.wf m) &&
      (c.gangs ++ c.seq.toList).all fun g => g.lanes.all fun l => Memory.wf l.priv

/-- A step goes on: it neither faults nor is refused. -/
def goesOn : Host.Outcome State Fault Refusal → Prop
  | .next _ => True
  | _ => False

/-- A step is safe from a state when it goes on and leaves every memory canonical. -/
def SafeStep (s : State) : Prop := ∃ s', step s = .next s' ∧ s'.memoriesWf = true

end Sys2Proof.Machine
end

