-- ==== Sys2Proof/Certificates/Slice0/Needs.lean ====
section
/-! DEFINITION. The vocabulary of the statements about instruction words: what each word names and needs, written once
more from the entries of files 15 to 18, the hypotheses under which a word executes, and what a statement observes. -/

namespace Sys2Proof.Claim
set_option Elab.async false
open Sys2Proof Sys2Proof.Machine

/-- The operands of an atomic (15 R333, R337): a global or local pair, the operand, the old value's register. -/
def atomicNeeds (k : AccKind) (t a : BitVec 7) (z : BitVec 1) : OpSpec :=
  { uses := fun _ => [.src64 a, atomicSrc k t] ++ (if z == 1 then [] else [.dst t]) }

/-- Two 32-bit sources and a 32-bit destination. -/
def threeNeeds (d a b : BitVec 7) : OpSpec := { uses := fun _ => [.src a, .src b, .dst d] }

/-- A 32-bit source and a 32-bit destination. -/
def twoNeeds (d a : BitVec 7) : OpSpec := { uses := fun _ => [.src a, .dst d] }

/-- The operands of IADD and ISUB: pairs in the form that works on 64 bits (16 R379). -/
def addNeeds (d a b : BitVec 7) (f : BitVec 4) : OpSpec :=
  if f.toNat = 4 then { uses := fun _ => [.src64 a, .src64 b, .dst64 d] } else threeNeeds d a b

/-- The operands of a two-source floating-point instruction (16 R367): pairs for FP64. -/
def floatNeeds (d a b : BitVec 7) (p : BitVec 2) : OpSpec :=
  { uses := fun _ => [elemSrc (precFmt p) a, elemSrc (precFmt p) b, elemDst (precFmt p) d] }

/-- A special function (16 R371): feature SFQ, one source and one destination. -/
def sfqNeeds (d a : BitVec 7) : OpSpec := { kind := .vector, feat := [0], uses := fun _ => [.src a, .dst d] }

/-- A block-transfer packet's word (09 R219): feature XFER, the packet's registers and one more operand. -/
def packetNeeds (kind : Kind) (a : BitVec 7) (u : Use) : OpSpec :=
  { kind := kind, feat := [6], uses := fun _ => [packetUse a, u] }

/-- What an instruction word names and needs (files 15 to 18; 03 R50, R71; 02 R40). -/
def needs : Instr → OpSpec
  | .aadd t a _ _ _ z _ => atomicNeeds .aadd t a z
  | .amin t a _ _ _ z _ => atomicNeeds .amin t a z
  | .amax t a _ _ _ z _ => atomicNeeds .amax t a z
  | .aand t a _ _ _ z _ => atomicNeeds .aand t a z
  | .aor t a _ _ _ z _ => atomicNeeds .aor t a z
  | .axor t a _ _ _ z _ => atomicNeeds .axor t a z
  | .axch t a _ _ _ z _ => atomicNeeds .axch t a z
  | .acas t a _ _ _ z _ => atomicNeeds .acas t a z
  | .afadd t a _ _ _ z _ => atomicNeeds .afadd t a z
  | .amsg t b _ => { kind := .vector, feat := [8], uses := fun _ => [packetUse b, .dst t] }
  | .and d a b | .or d a b | .xor d a b | .shl d a b | .shr d a b | .sra d a b => threeNeeds d a b
  | .andi d a _ | .ori d a _ | .xori d a _ | .iaddi d a _ => twoNeeds d a
  | .shli d a _ | .shri d a _ => twoNeeds d a
  | .bar _ _ | .bara _ _ => { noHandler := true }
  | .bfi d a b => { uses := fun _ => [.src a, .src b, .mod d] }
  | .bfx d a b _ => threeNeeds d a b
  | .bra _ => {}
  | .braZ c _ => { uses := fun _ => [condUse c] }
  | .brc c _ => { kind := .vector, uses := fun _ => [.src c] }
  | .call c _ => { uses := fun _ => [.dst64 c] }
  | .cbt a _ => { kind := .vector, extraWr := [.palette], uses := fun _ => [.src64 a] }
  | .cbtReg b _ =>
    { kind := .vector, extraWr := [.palette], uses := fun sl => [if paletteSize sl = 8 then .src64 b else .src128 b] }
  | .cflush a => { kind := .vector, uses := fun _ => [.src64 a] }
  | .clz d a _ => twoNeeds d a
  | .coal d a b x =>
    { fmtOk := fun sl => pickFmt x sl ≠ 10
      uses := fun sl => [elemSrc (pickFmt x sl) a, elemSrc (pickFmt x sl) b, elemDst (pickFmt x sl) d] }
  | .cvt d a _ v _ =>
    { kind := .vector, feat := [1]
      fmtOk := fun sl => cvtFrom v sl ≤ 9 && cvtTo v sl ≤ 9
      uses := fun sl => [elemSrc (cvtFrom v sl) a, elemDst (cvtTo v sl) d] }
  | .dmma t a b _ => { kind := .easel, feat := [4], uses := fun _ => descUses a ++ descUses b ++ [.mod64 t] }
  | .dot8 d a b f =>
    { kind := .vector, feat := [2]
      fmtOk := fun sl => dot8Accepts (f.toNat % 2 == 1) (fmtA sl.fmt) (fmtB sl.fmt)
      uses := fun _ => [.src a, .src b, .mod d] }
  | .dot4 d a b _ =>
    { kind := .vector, feat := [2]
      fmtOk := fun sl => fmtA sl.fmt == 3 && fmtB sl.fmt == 3
      uses := fun _ => [.src a, .src b, .mod d] }
  | .dqt d a b _ =>
    { kind := .vector, feat := [1], fmtOk := quantFmts
      uses := fun sl => [.src a, .src64 b, elemDst (fmtB sl.fmt) d] }
  | .eret | .eretAbandon => { handlerOnly := true }
  | .exit => { noHandler := true }
  | .fadd d a b p | .fsub d a b p | .fmul d a b p | .fmin d a b p | .fmax d a b p => floatNeeds d a b p
  | .ffma d a b p =>
    { uses := fun _ => [elemSrc (precFmt p) a, elemSrc (precFmt p) b, if precFmt p = 9 then .mod64 d else .mod d] }
  | .fcmp d a b x _ => { uses := fun _ => [elemSrc (if x == 1 then 9 else 8) a, elemSrc (if x == 1 then 9 else 8) b, .dst d] }
  | .frcp d a _ _ | .frsq d a _ _ | .fsqrt d a _ _ | .fexp2 d a _ _ | .flog2 d a _ _ | .fsin d a _ _ | .fcos d a _ _
  | .ftanh d a _ _ => sfqNeeds d a
  | .fence _ _ => {}
  | .fmt _ => {}
  | .grpl t a b _ => { kind := .vector, uses := fun _ => [.src64 a, .src64 b, .mod64 t] }
  | .iadd d a b f | .isub d a b f => addNeeds d a b f
  | .imul d a b _ | .imulh d a b _ | .imin d a b _ | .imax d a b _ => threeNeeds d a b
  | .imad d a b _ => { uses := fun _ => [.src a, .src b, .mod d] }
  | .icmp d a b _ _ => threeNeeds d a b
  | .jdec t a _ _ _ z _ => { uses := fun _ => [.src64 a] ++ (if z == 1 then [] else [.dst t]) }
  | .join => { kind := .vector }
  | .ld t a _ _ => { uses := fun _ => [.src64 a, .dst t] }
  | .ldw t a _ _ => { uses := fun _ => [.src64 a, .dst64 t] }
  | .ldq t a _ _ => { uses := fun _ => [.src64 a, .dst128 t] }
  | .lda t a _ _ w _ | .mon t a _ _ w _ => { uses := fun _ => [.src64 a, if w == 1 then .dst64 t else .dst t] }
  | .ldx t a b _ =>
    { kind := .vector, fmtOk := fun sl => fmtB sl.fmt ≠ 10, uses := fun sl => [.src64 a, .src b, ldxDst t sl] }
  | .lea d a b _ _ => { uses := fun _ => [.src64 a, .src b, .dst64 d] }
  | .loop c _ => { uses := fun _ => [.src c] }
  | .lui d _ => { uses := fun _ => [.dst d] }
  | .mapf d a => { priv := true, bad := isQueueField d || isQueueField a, uses := fun _ => [.src64 a, .dst d] }
  | .mcrd t a b => { kind := .vector, feat := [7], uses := fun _ => [.src64 a, .src b, .src t] }
  | .mfs d n =>
    { kind := specialKind n.toNat, handlerOnly := isHandlerSpecial n.toNat, uses := fun _ => [mfsDst n.toNat d] }
  | .mts a n =>
    { kind := specialKind n.toNat, handlerOnly := isHandlerSpecial n.toNat, bad := isReadOnlySpecial n.toNat
      uses := fun _ => [if isWideSpecial n.toNat then .src64 a else .src a] }
  | .mkab d a b _ x =>
    { fmtOk := fun sl => pickFmt x sl ≠ 10
      uses := fun sl => [elemSrc (pickFmt x sl) a, .src b, elemDst (pickFmt x sl) d] }
  | .mwait d a => twoNeeds d a
  | .nop => {}
  | .pack d a b k _ =>
    { kind := .vector, fmtOk := fun sl => packable (packFmt k sl), uses := fun _ => [.src a, .src b, .dst d] }
  | .popc d a => twoNeeds d a
  | .prom a _ _ => { uses := fun _ => [.src64 a] }
  | .qadjInjected d a | .qadjConsumed d a | .qadjClearLost d a | .qadjQueryToLost d a =>
    { priv := true, uses := fun _ => [.src64 a, .dst d] }
  | .qbind _ _ | .qbindUn _ => { kind := .vector }
  | .qnt d a _ | .qntFix d a _ =>
    { kind := .vector, feat := [1], fmtOk := quantFmts, uses := fun sl => [qntSrc a sl, qntDst d sl] }
  | .qntHealth d _ => { kind := .vector, feat := [1], uses := fun _ => [.dst128 d] }
  | .qstat d _ => { uses := fun _ => [.dst d] }
  | .quiet d a b _ =>
    { kind := .vector, feat := [8], noHandler := true, uses := fun _ => [.src a, .src b, .dst d] }
  | .rcp _ => { kind := .vector }
  | .rdx d a _ | .scan d a _ _ => { kind := .vector, uses := fun _ => [.src a, .dst d] }
  | .regang => { kind := .vector, noHandler := true }
  | .ret a => { bad := 120 ≤ a.toNat && a.toNat < 124, uses := fun _ => [.src64 a] }
  | .rply => { handlerOnly := true }
  | .sel d a b _ => { uses := fun _ => [selUse a true false, selUse b true false, selUse d true true] }
  | .setx a _ _ => { uses := fun _ => [.src a] }
  | .shfl d a b _ => { kind := .vector, uses := fun _ => [.src a, .src b, .dst d] }
  | .spawn a => { kind := .vector, uses := fun _ => [.src64 a] }
  | .spcfg _ _ w => { priv := true, bad := 8 < w.toNat }
  | .st t a _ => { uses := fun _ => [.src64 a, .src t] }
  | .stw t a _ => { uses := fun _ => [.src64 a, .src64 t] }
  | .stq t a _ => { uses := fun _ => [.src64 a, .src128 t] }
  | .stl t a _ _ w => { uses := fun _ => [.src64 a, if w == 1 then .src64 t else .src t] }
  | .tbnd t a _ => { kind := .easel, feat := [3], uses := fun _ => [.src64 a, .dst64 t] }
  | .tcfg _ _ _ _ _ => { kind := .easel, feat := [3] }
  | .tclr _ _ _ => { kind := .easel, feat := [3] }
  | .tdrn d a _ _ _ => { kind := .easel, feat := [3], bad := isQueueField a, uses := fun _ => [.src128 d, .dst64 d] }
  | .tlbiPage a | .tlbiAsid a => { priv := true, uses := fun _ => [.src64 a] }
  | .tlbiAll => { priv := true }
  | .tmma t a b _ =>
    { kind := .easel, feat := [3], layout := some t
      uses := fun _ => descUses a ++ (if b == 120 then [] else descUses b) ++ [.mod64 t] }
  | .trap _ => {}
  | .tsta d a _ x => { fmtOk := fun sl => pickFmt x sl ≠ 10, uses := fun sl => [elemSrc (pickFmt x sl) a, .dst d] }
  | .tstg t b => { kind := .easel, feat := [3], layout := some t, uses := fun _ => descUses b ++ [.src64 t] }
  | .tsub t a _ => { kind := .vector, uses := fun _ => [.src64 a, .dst64 t] }
  | .ttbl t a => { kind := .easel, feat := [3, 5], uses := fun _ => descUses a ++ [.src64 t] }
  | .unpk d a b _ _ => { kind := .vector, fmtOk := fun sl => packable (packFmt b sl), uses := fun _ => [.src a, .dst d] }
  | .unpkCb d a b =>
    { kind := .vector, extraRd := [.palette]
      fmtOk := fun sl => fmtA sl.fmt == 10 && (fmtB sl.fmt == 6 || fmtB sl.fmt == 7 || fmtB sl.fmt == 8) &&
        fmtScale sl.fmt == 0
      uses := fun _ => [.src64 a, .src b, .dst d] }
  | .vote d a f => { kind := .vector, uses := fun _ => [.src a, voteDst f d] }
  | .waitp a p => { noHandler := p == 0, uses := fun _ => [.src a] }
  | .win _ => { kind := .vector }
  | .xcp d a _ _ _ => packetNeeds .any a (.dst d)
  | .xcpr d a _ _ _ => packetNeeds .vector a (.dst d)
  | .xqap d a _ _ => packetNeeds .any a (.src64 d)
  | .xwait d a => { feat := [6], uses := fun _ => [.src a, .dst d] }
  | .xwaitAll d => { feat := [6], uses := fun _ => [.dst d] }
  | .yld => {}
  | .loadDataArrival _ _ _ | .atomicReturn _ _ | .storeAck _ _ | .sfqResult _ _ _ | .cvqResult _ _ _
  | .paletteArrival _ | .xcprDataArrival _ _ _ | .homeRequest _ _ | .translationRequest _ _ | .fillReturn _
  | .writeBack _ _ | .writeBackAck _ | .ownershipRelease _ | .faultReport _ _ | .handlerEntry _ _ _
  | .faultLogReply _ _ | .mcrdRequestArrival _ | .mcrdLineSend _ | .mcrdTailReplay _ | .mcrdLineDeliver _
  | .spcfgComplete _ | .mwaitTimeout _ _ _ | .spuriousWake _ _ _ | .yldExpire _ _ _ | .quietTimeout _ _ _
  | .engineInstructionStart _ _ | .tmmaComplete _ _ _ | .dmmaComplete _ _ | .drainComplete _ _ | .tclrComplete _ _
  | .tstgComplete _ _ | .ttblComplete _ _ | .tokenArbitration | .tokenAge _ | .recordPush _ | .recordPop _
  | .schedAge _ | .skipLimit _ | .crewStart _ | .crewDone _ | .preemptRequest _ | .preemptWait _ | .preemptStopped _
  | .contextSaved _ | .standbyResume _ | .packetAccept _ | .queueLook _ _ | .copy _ _ | .transpose _ _
  | .convert _ _ | .convertTranspose _ _ | .quantise _ _ | .quantiseTranspose _ _ | .crumbEncode _ _
  | .crumbDecode _ _ | .paletteExpand _ _ | .gather _ _ | .scatter _ _ | .scaleMax _ _ | .alignedIntegerSum _ _
  | .fill _ _ | .launch _ _ | .graph _ _ | .waitval _ _ | .signal _ _ | .waitvalRead _ _ | .waitvalTimeout _ _
  | .launchSlotGrant _ _ | .graphBufferReady _ _ | .graphNodesStart _ _ | .xqapAppend _ _
  | .reductionContribution _ _ _ | .bteSlotResume _ _ | .completionRecordWrite _ _ | .ringCoalCount _
  | .ringCoalTime _ | .eventRecordDrain | .ringRdIndexWrite _ _ | .migrationStart _ | .migrationCopyDone _ _
  | .migrationRoundDone _ _ | .migrationFreeze _ | .migrationDone _ | .faultResume _ | .faultResumeAbort _
  | .tlbiRequestPage _ _ | .tlbiRequestAsid _ | .tlbiRequestAll | .semaphoreTake _ _ | .semaphoreFree _ _
  | .queueTableWrite _ _ _ | .doorbell _ _ | .jobEntryWrite _ _ _ | .droppedClear | .counterClear _
  | .attestationStart | .attestationReportDone | .telemetryRefresh | .registerWrite _ _ | .messageInject _
  | .messageResponse _ _ _ | .inboundFabricRequest _ _ _ _ _ _ _ | .amsgReceive _ _ _ _ | .respTimeout _
  | .queryWait _ | .queryReceive _ _ | .queryAnswer _ _ | .waveStart _ | .down _ _ _ | .up _ _ _ _ _ | .decide _ _ _
  | .portRetrain _ | .retrainLimit _ | .hostRequest _ _ _ _ _ | .hostHotReset _ | .hostLinkLoss _ | .powerOnReset
  | .reset | .resetDone | .bootVerify | .trainingDone _ | .bridgeRetryFail _ | .internalParityError
  | .controllerFailure _ | .ueLimit _ | .thermalSensorUpdate _ _ | .refresh _ | .calibration _ | .scrub _ _ _
  | .activate _ _ _ _ _ | .supplementaryActivate _ _ _ _ | .precharge _ _ _ | .select _ _ _ | .hbmRead _ _
  | .stripeWrite _ | .parityDelta _ _ | .gatherWait _ | .linkLevelReplay _ | .portTraining _ _ | .ticketWrite _ _ _ => {}

/-- The control word that names a B layout no longer waits for a write in flight, or SPB is declared (02 R41; 03 R66). -/
def LayoutKnown (c : Ctx) (o : OpSpec) : Prop :=
  ∀ t, o.layout = some t → c.crew.feat.getLsbD 5 = true ∨
    ∀ k ∈ c.sls, (c.gang.slice k).scoreOk (c.gang.regsOf k (.mod64 t)) [] = true

/-- The layout it names is neither slot-sparse nor palette, or SPB is declared (02 R41; 06 R142). -/
def LayoutDeclared (c : Ctx) (o : OpSpec) : Prop :=
  ∀ t, o.layout = some t → c.crew.feat.getLsbD 5 = true ∨
    (natBits (c.readField c.gang 0 (.mod64 t)) 18 3 ≠ 3 ∧ natBits (c.readField c.gang 0 (.mod64 t)) 18 3 ≠ 4)

/-- The step of 03 R73 at which a word traps, if a check fails: legality, feature and privilege, the operands' bounds and
queues, and the format. -/
def Admits (c : Ctx) (i : Instr) : Prop :=
  i.wellFormed = true ∧ (needs i).bad = false ∧ (needs i).kind.admits c.gang.isSeq = true ∧
  ((needs i).noHandler = true → c.inHandler = false) ∧
  (∀ k ∈ c.sls, ∀ u ∈ (needs i).uses (c.gang.slice k), u.legal c.gang.isSeq = true) ∧
  (∀ b ∈ (needs i).feat, c.crew.feat.getLsbD b = true) ∧ LayoutKnown c (needs i) ∧ LayoutDeclared c (needs i) ∧
  (c.inHandler = true ∨ ((needs i).handlerOnly = false ∧ ((needs i).priv = true → c.crew.supervisor = true))) ∧
  (∀ k ∈ c.sls, ∀ u ∈ (needs i).uses (c.gang.slice k),
    (resolve c.gang.isSeq c.gang.allot (c.gang.slice k) u).isSome = true ∧ (u.isQueue = true → (c.port? u).isSome = true)) ∧
  (∀ k ∈ c.sls, (needs i).fmtOk (c.gang.slice k) = true)

/-- No register a word reads or writes waits for an instruction in flight, but one that it reads inside that
instruction's lookahead window (03 R66, R67). -/
def Ready (c : Ctx) (i : Instr) : Prop := c.scoreOk (needs i) = true

/-- The hypotheses under which a word executes: its thread lives, the word is admitted and ready, its operands are `args`
(reading them leaves `s'`), and the ports it pushes to have room. -/
structure Issues (s : State) (c : Ctx) (i : Instr) (args : List (List Nat)) (s' : State) : Prop where
  live : s.issuer? = some c
  admitted : Admits c i
  ready : Ready c i
  fetched : c.fetch (needs i).uses (readPositions ((needs i).uses c.first)) s = .ok (args, s')
  room : c.roomOk (needs i) s' = true

/-- Operand k of the party's lowest active lane, when a lane is active. -/
def firstArg (c : Ctx) (args : List (List Nat)) (k : Nat) : Option Nat := c.firstVal (args.getD k [])

/-- A state in which one word has issued in every slice of a party, each slice having moved on by `f`, and nothing else of
the machine has changed. -/
def moved (s : State) (c : Ctx) (f : Nat → Slice → Slice) : State :=
  State.mapIssuer { s with issued := s.issued + 1 } c fun g =>
    ({ g with slices := g.slices.mapIdx fun i sl =>
        if c.sls.contains i then f i (sl.countIssue (s.issued + 1)) else sl } : Gang).part c.party (s.issued + 1)

/-- Outside the crews, the clusters' port queues and the count of issued words, two states are the same: same clock, same
memories, same lines, same accesses in flight, same queues, same registers of the device, same engines, tags, slots and
queue tables of every cluster. -/
def OnlyThreads (s t : State) : Prop :=
  t = { s with crews := t.crews, clusters := t.clusters, issued := t.issued } ∧
  ∀ k, t.cluster k = { s.cluster k with ports := (t.cluster k).ports }

/-- A slice's special registers, and the exception registers among them, are the same (03 R55, 11 R272). -/
def SameSpecials (a b : Slice) : Prop :=
  b.fmt = a.fmt ∧ b.wb = a.wb ∧ b.x0 = a.x0 ∧ b.x1 = a.x1 ∧ b.tstate = a.tstate ∧ b.tcause = a.tcause ∧
  b.tmask = a.tmask ∧ b.epc = a.epc ∧ b.mask = a.mask ∧ b.stack = a.stack

/-- What a gang holds beside its slices and the v, s, h and g registers of its lanes. -/
def SameGangState (a b : Gang) : Prop :=
  b.isSeq = a.isSeq ∧ b.width = a.width ∧ b.core = a.core ∧ b.group = a.group ∧ b.allot = a.allot ∧ b.paths = a.paths ∧
  b.qbind = a.qbind ∧ b.palette = a.palette ∧ b.health = a.health ∧ b.ticket = a.ticket ∧ b.err = a.err ∧
  b.tickets = a.tickets ∧ b.holds = a.holds

/-- A crew is the same but for its members and its ASID register: same barriers, state, log, scratchpads and places. -/
def SameCrew (s t : State) (c : Ctx) : Prop :=
  s.crew? c.crew.id = some c.crew ∧ ∃ d, t.crew? c.crew.id = some d ∧
    d = { c.crew with gangs := d.gangs, seq := d.seq, hasid := d.hasid }

/-- A slice is the same but for its place in its program: where it is, its loops and their counters, its party and its last
issue; its awaited registers are those of before, their lookahead windows one instruction shorter in the party that issued. -/
def MovedOn (issued : Bool) (a b : Slice) : Prop :=
  b = { a with pc := b.pc, loops := b.loops, lc := b.lc, party := b.party, stamp := b.stamp, pend := b.pend } ∧
  (issued = false → b = a) ∧ (issued = true → b.pend = a.pend.map fun p => { p with win := p.win - 1 })

/-- A register of a member of a crew, as a lane reads it; 0 where the crew or the member is gone. -/
def regOf (s : State) (crew m l : Nat) (r : RegName) : Nat :=
  match (s.crew? crew).bind (·.member? m) with
  | some g => g.readReg l r
  | none => 0

/-- Every crew but one, and every other member of that one, is the same. -/
def SameMembers (s t : State) (crew m : Nat) : Prop :=
  (∀ id, id ≠ crew → t.crew? id = s.crew? id) ∧
  ∀ n, n ≠ m → (t.crew? crew).bind (·.member? n) = (s.crew? crew).bind (·.member? n)

/-- Every crew but one, and every other member of that one, is the same, and so is that one's ASID register. -/
def SameOthers (s t : State) (crew m : Nat) : Prop :=
  (t.crew? crew).map (·.hasid) = (s.crew? crew).map (·.hasid) ∧ SameMembers s t crew m

/-- Every byte of memory reads as before: HBM as it is stored, the lines at their homes, the staging area, and every local
space (07 R161, R162). -/
def SameMemory (s t : State) : Prop :=
  (∀ a, memByte t.hbm a = memByte s.hbm a) ∧ (∀ asid line, t.homeBytes? asid line = s.homeBytes? asid line) ∧
  (∀ a, memByte t.staging a = memByte s.staging a) ∧
  ∀ crew m p, t.readLocal crew m p 1 = s.readLocal crew m p 1

/-- The byte of a stored value, `size` bytes from an offset up, that an offset holds; none outside. -/
def byteAt (start size value off : Nat) : Option Byte :=
  if start ≤ off ∧ off < start + size then some (BitVec.ofNat 8 (value / 256 ^ (off - start))) else none

/-- The byte that a store of `size` bytes at one local place leaves at another, if it reaches it. -/
def storedByte (size value : Nat) : Place → Place → Option Byte
  | .priv l o, .priv l' o' => if l = l' then byteAt o size value o' else none
  | .core k o, .core k' o' => if k = k' then byteAt o size value o' else none
  | .clu o, .clu o' => byteAt o size value o'
  | .chip d o, .chip d' o' => if d = d' then byteAt o size value o' else none
  | _, _ => none

/-- The step of a COPY command's slot that an XF names (09 R224). -/
def transformOf (cluster slot : Nat) : Nat → Option Instr
  | 0x00 => some (.copy cluster slot)
  | 0x01 => some (.transpose cluster slot)
  | 0x02 => some (.convert cluster slot)
  | 0x03 => some (.convertTranspose cluster slot)
  | 0x04 => some (.quantise cluster slot)
  | 0x05 => some (.quantiseTranspose cluster slot)
  | 0x06 => some (.crumbEncode cluster slot)
  | 0x07 => some (.crumbDecode cluster slot)
  | 0x08 => some (.paletteExpand cluster slot)
  | 0x09 => some (.gather cluster slot)
  | 0x0A => some (.scatter cluster slot)
  | 0x0D => some (.fill cluster slot)
  | _ => none

/-- What 14 R325 asks of the firmware: once the boot ROM has accepted an image, its version is at least ROLLBACK_MIN. -/
def FirmwareRule (s : State) : Prop := s.device = .training ∨ s.device = .ready → s.rollbackMin ≤ s.fwVersion

end Sys2Proof.Claim
end

