-- ==== Sys2Proof/Certificates/Slice0/Effects.lean ====
section
/-! DEFINITION. The vocabulary of the statements about what instruction words do: the results of those that write a
register, the moves of those that steer a party, the accesses and results that others send on their way. -/

namespace Sys2Proof.Claim
set_option Elab.async false
open Sys2Proof Sys2Proof.Machine

/-- The destination and, for every active lane in rising order, the result of a word that writes a register or pushes to a
queue at once (files 15 to 18).  `s` is the state after its operands have been read. -/
def resultOf (c : Ctx) (s : State) (args : List (List Nat)) : Instr → Option ((Slice → Use) × List Nat)
  | .and d _ _ => some (fun _ => .dst d, c.perLane args (f2 (· &&& ·)))
  | .andi d _ i => some (fun _ => .dst d, c.perLane args (f2 fun x _ => x &&& i.toNat))
  | .or d _ _ => some (fun _ => .dst d, c.perLane args (f2 (· ||| ·)))
  | .ori d _ i => some (fun _ => .dst d, c.perLane args (f2 fun x _ => x ||| i.toNat))
  | .xor d _ _ => some (fun _ => .dst d, c.perLane args (f2 (· ^^^ ·)))
  | .xori d _ i => some (fun _ => .dst d, c.perLane args (f2 fun x _ => x ^^^ i.toNat))
  | .shl d _ _ => some (fun _ => .dst d, c.perLane args (f2 shlVal))
  | .shr d _ _ => some (fun _ => .dst d, c.perLane args (f2 shrVal))
  | .shli d _ n => some (fun _ => .dst d, c.perLane args (f2 fun x _ => shlVal x n.toNat))
  | .shri d _ n => some (fun _ => .dst d, c.perLane args (f2 fun x _ => shrVal x n.toNat))
  | .sra d _ _ => some (fun _ => .dst d, c.perLane args (f2 sraVal))
  | .bfx d _ _ s => some (fun _ => .dst d, c.perLane args (f2 (bfxVal (s == 1))))
  | .bfi d _ _ => some (fun _ => .dst d, c.perLane args (f3 bfiVal))
  | .clz d _ z => some (fun _ => .dst d, c.perLane args (f2 fun x _ => if z == 1 then ctzFrom x 32 0 else clzVal x))
  | .popc d _ => some (fun _ => .dst d, c.perLane args (f2 fun x _ => popcount x 32))
  | .iadd d _ _ f =>
    if f.toNat = 4 then some (fun _ => .dst64 d, c.perLane args (f2 fun x y => (x + y) % 2 ^ 64))
    else some (fun _ => .dst d, c.perLane args (f2 fun x y => narrowSum f.toNat (signedOf 32 x + signedOf 32 y) (x + y)))
  | .isub d _ _ f =>
    if f.toNat = 4 then some (fun _ => .dst64 d, c.perLane args (f2 fun x y => (((x : Int) - y) % 2 ^ 64).toNat))
    else some (fun _ => .dst d, c.perLane args (f2 fun x y => narrowSum f.toNat (signedOf 32 x - signedOf 32 y) (x - y)))
  | .imul d _ _ f => some (fun _ => .dst d, c.perLane args (f2 fun x y => narrowProduct f.toNat (signedOf 32 x * signedOf 32 y)))
  | .imulh d _ _ f => some (fun _ => .dst d, c.perLane args (f2 fun x y =>
      if f.toNat = 1 then x * y / 2 ^ 32 else word32 (signedOf 32 x * signedOf 32 y / 2 ^ 32)))
  | .imad d _ _ f => some (fun _ => .dst d, c.perLane args (f3 fun x y z =>
      narrowProduct f.toNat (signedOf 32 x * signedOf 32 y + signedOf 32 z)))
  | .imin d _ _ f => some (fun _ => .dst d, c.perLane args (f2 fun x y =>
      if f.toNat = 1 then min x y else if signedOf 32 x ≤ signedOf 32 y then x else y))
  | .imax d _ _ f => some (fun _ => .dst d, c.perLane args (f2 fun x y =>
      if f.toNat = 1 then max x y else if signedOf 32 x ≤ signedOf 32 y then y else x))
  | .iaddi d _ i => some (fun _ => .dst d, c.perLane args (f2 fun x _ => word32 (x + i.toInt)))
  | .icmp d _ _ x k => some (fun _ => .dst d, c.perLane args fun sl xs =>
      icmpVal x.toNat k.toNat sl (xs.getD 0 0) (xs.getD 1 0))
  | .lea d _ _ u n => some (fun _ => .dst64 d, c.perLane args (f2 fun x y =>
      ((x + (if u == 1 then (y : Int) else signedOf 32 y) * 2 ^ n.toNat) % 2 ^ 64).toNat))
  | .lui d i => some (fun _ => .dst d, c.perLane args fun _ _ => i.toNat * 2 ^ 14)
  | .sel d _ _ v => some (fun _ => selUse d false true, c.perLane args (f3 fun x y z => if (z != 0) != (v == 1) then x else y))
  | .coal d _ _ x => some (fun sl => elemDst (pickFmt x sl) d, c.perLane args fun sl xs =>
      coalVal (fmtAbsent sl.fmt) (pickFmt x sl) (xs.getD 0 0) (xs.getD 1 0))
  | .mkab d _ _ v x => some (fun sl => elemDst (pickFmt x sl) d, c.perLane args fun sl xs =>
      mkabVal (v == 1) (pickFmt x sl) (xs.getD 0 0) (xs.getD 1 0))
  | .tsta d _ v x => some (fun _ => .dst d, c.perLane args fun sl xs =>
      tstaVal (fmtAbsent sl.fmt) (v == 1) (pickFmt x sl) (xs.getD 0 0))
  | .pack d _ _ k h => some (fun _ => .dst d, c.perLane args fun sl xs =>
      packVal (fmtWidth (packFmt k sl)) h.toNat (xs.getD 0 0) (xs.getD 1 0))
  | .unpk d _ b s m => some (fun _ => .dst d, c.perLane args fun sl xs =>
      unpkVal (fmtWidth (packFmt b sl)) m.toNat (s == 1) (xs.getD 0 0))
  | .unpkCb d _ _ => some (fun _ => .dst d, c.perLane args fun sl xs =>
      unpkCbVal sl.fmt c.gang.palette.toNat (xs.getD 0 0) (natBits (xs.getD 1 0) 0 5))
  | .dot8 d _ _ f => some (fun _ => .dst d, c.perLane args fun sl xs =>
      dotVal 8 4 f.toNat sl (xs.getD 0 0) (xs.getD 1 0) (xs.getD 2 0))
  | .dot4 d _ _ f => some (fun _ => .dst d, c.perLane args fun sl xs =>
      dotVal 4 8 f.toNat sl (xs.getD 0 0) (xs.getD 1 0) (xs.getD 2 0))
  | .fadd d _ _ p => some (fun _ => elemDst (precFmt p) d, c.perLane args fun sl xs => elemsOf (precFmt p) fun k =>
      floatBin Val.add (fmtAbsent sl.fmt) (precFmt p) (elem (xs.getD 0 0) (fmtWidth (precFmt p)) k)
        (elem (xs.getD 1 0) (fmtWidth (precFmt p)) k))
  | .fsub d _ _ p => some (fun _ => elemDst (precFmt p) d, c.perLane args fun sl xs => elemsOf (precFmt p) fun k =>
      floatBin (fun x y => x.add y.negate) (fmtAbsent sl.fmt) (precFmt p) (elem (xs.getD 0 0) (fmtWidth (precFmt p)) k)
        (elem (xs.getD 1 0) (fmtWidth (precFmt p)) k))
  | .fmul d _ _ p => some (fun _ => elemDst (precFmt p) d, c.perLane args fun sl xs => elemsOf (precFmt p) fun k =>
      floatBin Val.mul (fmtAbsent sl.fmt) (precFmt p) (elem (xs.getD 0 0) (fmtWidth (precFmt p)) k)
        (elem (xs.getD 1 0) (fmtWidth (precFmt p)) k))
  | .fmin d _ _ p => some (fun _ => elemDst (precFmt p) d, c.perLane args fun sl xs => elemsOf (precFmt p) fun k =>
      floatPick false (fmtAbsent sl.fmt) (precFmt p) (elem (xs.getD 0 0) (fmtWidth (precFmt p)) k)
        (elem (xs.getD 1 0) (fmtWidth (precFmt p)) k))
  | .fmax d _ _ p => some (fun _ => elemDst (precFmt p) d, c.perLane args fun sl xs => elemsOf (precFmt p) fun k =>
      floatPick true (fmtAbsent sl.fmt) (precFmt p) (elem (xs.getD 0 0) (fmtWidth (precFmt p)) k)
        (elem (xs.getD 1 0) (fmtWidth (precFmt p)) k))
  | .ffma d _ _ p => some (fun _ => elemDst (precFmt p) d, c.perLane args fun sl xs => elemsOf (precFmt p) fun k =>
      floatFma (fmtAbsent sl.fmt) (precFmt p) (elem (xs.getD 0 0) (fmtWidth (precFmt p)) k)
        (elem (xs.getD 1 0) (fmtWidth (precFmt p)) k) (elem (xs.getD 2 0) (fmtWidth (precFmt p)) k))
  | .fcmp d _ _ x k => some (fun _ => .dst d, c.perLane args fun sl xs =>
      boolNat (fcmpCond k.toNat (decodeVal (fmtAbsent sl.fmt) (if x == 1 then 9 else 8) (xs.getD 0 0))
        (decodeVal (fmtAbsent sl.fmt) (if x == 1 then 9 else 8) (xs.getD 1 0))))
  | .shfl d _ _ m => some (fun _ => .dst d, c.lanes.mapIdx fun k l =>
      shflVal m.toNat c.gang.width (c.lanes.zip (args.getD 0 [])) l ((args.getD 1 []).getD k 0) ((args.getD 0 []).getD k 0))
  | .vote d _ f => some (fun _ => voteDst f d, c.lanes.map fun _ => voteVal f.toNat (c.lanes.zip (args.getD 0 [])))
  | .rdx d _ f => some (fun _ => .dst d, c.lanes.map fun l =>
      combineVals (fmtAbsent (c.gang.slice (l / 4)).fmt) f.toNat (args.getD 0 []))
  | .scan d _ e f => some (fun _ => .dst d, c.lanes.mapIdx fun k l =>
      combineVals (fmtAbsent (c.gang.slice (l / 4)).fmt) f.toNat ((args.getD 0 []).take (if e == 1 then k else k + 1)))
  | .mfs d n => some (fun _ => mfsDst n.toNat d, c.lanes.map (c.special s n.toNat))
  | .qstat d n => (if c.gang.isSeq then some n.toNat else c.gang.qbind.getD n.toNat none).map fun p =>
      (fun _ => .dst d, c.lanes.map fun _ => (s.port c.crew.cluster p).status)
  | _ => none

/-- Where RET sends a slice (17 R420). -/
def retMove (c : Ctx) (vals : List Nat) (i : Nat) (sl : Slice) : Slice :=
  match c.retTarget vals i with
  | some t => sl.jump (BitVec.ofNat 64 t)
  | none => sl.advance

/-- The top entry is a path, or a join point at this JOIN (02 R23, 16 R383). -/
def joinOk (base : Double) : List StackEntry → Bool
  | e :: _ => e.isPath || e.pc == base
  | [] => false

/-- The new body ends inside the innermost loop (16 R390). -/
def loopFits (last : Double) : List LoopRec → Bool
  | r :: _ => decide (last.toNat ≤ r.last.toNat)
  | [] => true

/-- A slice after SETX: IDX1 or IDX0 takes the value, if a lane was active (17 R423). -/
def setxMove (w : BitVec 1) (v : Option Nat) (sl : Slice) : Slice :=
  match v with
  | some v => (if w == 1 then { sl with x1 := BitVec.ofNat 32 v } else { sl with x0 := BitVec.ofNat 32 v } : Slice).advance
  | none => sl.advance

/-- A slice after MTS (17 R398). -/
def mtsMove (n : Nat) (v : Option Nat) (sl : Slice) : Slice :=
  match v with
  | some v => (sl.setSpecial n v).advance
  | none => sl.advance

/-- A slice after RCP: the entry for its join point is pushed (02 R23). -/
def rcpMove (target : Double) (sl : Slice) : Slice :=
  ({ sl with stack := sl.entry false target sl.mask :: sl.stack } : Slice).advance

/-- A slice after FMT (16 R375). -/
def fmtMove (i : BitVec 16) (sl : Slice) : Slice := ({ sl with fmt := i.setWidth 32 } : Slice).advance

/-- A slice after WIN (18 R455). -/
def winMove (i : BitVec 18) (sl : Slice) : Slice := ({ sl with wb := i.setWidth 32 } : Slice).advance

/-- Where a word that steers its party sends each slice, and when it may (02 R22, R23; 15 R346, R347; 16 R375, R383, R389,
R390; 17 R403, R416, R420, R423; 18 R455). -/
def moveOf (c : Ctx) (args : List (List Nat)) : Instr → Option (Bool × (Nat → Slice → Slice))
  | .join => some (c.sls.all fun i => joinOk c.base (c.gang.slice i).stack, fun _ sl => sl.join)
  | .nop => some (true, fun _ sl => sl.advance)
  | .bra o => some (true, fun _ sl => sl.jump (c.base + 4 * o.signExtend 64))
  | .braZ _ o => some (true, fun i sl =>
      if c.firstOf (args.getD 0 []) i == some 0 then sl.jump (c.base + 4 * o.signExtend 64) else sl.advance)
  | .brc _ o => some (c.sls.all fun i =>
        !(c.gang.slice i).mixed (c.trueMask (args.getD 0 []) i) || (c.gang.slice i).stack.length < 32,
      fun i sl => sl.brc (c.trueMask (args.getD 0 []) i) (c.base + 4 * o.signExtend 64))
  | .ret _ => some ((c.sls.filterMap (c.retTarget (args.getD 0 []))).all fun t => natBits t 56 8 == 0 && t % 4 == 0,
      retMove c (args.getD 0 []))
  | .rcp o => some (c.sls.all fun i => (c.gang.slice i).stack.length < 32,
      fun _ => rcpMove (c.base + 4 * o.signExtend 64))
  | .loop _ n => some (c.sls.all fun i => (c.firstOf (args.getD 0 []) i).getD 0 == 0 ||
        ((c.gang.slice i).loops.length < 3 &&
          loopFits (c.base + 4 * BitVec.ofNat 64 (n.toNat + 1)) (c.gang.slice i).loops),
      fun i sl => sl.loop ((c.firstOf (args.getD 0 []) i).getD 0) n.toNat)
  | .fmt i => some (true, fun _ => fmtMove i)
  | .win i => some (true, fun _ => winMove i)
  | .setx _ w o => some ((firstArg c args 0).all fun v => v + o.toNat ≤ 511,
      fun _ => setxMove w ((firstArg c args 0).map (· + o.toNat)))
  | .mts _ n => some ((n.toNat ≠ 0x10 || c.gang.isSeq) && n.toNat ≠ 0x16 &&
        c.sls.all fun i => (c.mtsValue n.toNat (args.getD 0 []) i).all fun v => specialOk n.toNat (c.gang.slice i) v,
      fun i => mtsMove n.toNat (c.mtsValue n.toNat (args.getD 0 []) i))
  | _ => none

/-- An access: what it is, its alignment, whether it must be global, its path, and each lane's address and data. -/
structure Access where
  what   : Launching
  align  : Nat
  globalOnly : Bool
  path   : Nat
  addrs  : List Nat
  datas  : List Nat

/-- An atomic's access (15 R335; 03 R69). -/
def atomicAccess (k : AccKind) (args : List (List Nat)) (t : BitVec 7) (s : BitVec 3) (r : BitVec 2) (p z : BitVec 1)
    (l : BitVec 4) : Access where
  what := { kind := k, dst := if z == 1 then none else some fun _ => .dst t, la := l.toNat, strength := synStrength s r p }
  align := 4
  globalOnly := false
  path := 3
  addrs := args.getD 0 []
  datas := args.getD 1 []

/-- The access of a word that makes one part per active lane (15 R333 to R339; 16 R382, R385, R386; 17 R400, R407, R426;
18 R430, R431; 07 R172 for the paths). -/
def accessOf (args : List (List Nat)) : Instr → Option Access
  | .ld t _ o l => let as := memAddrs 4 o (args.getD 0 [])
    some ⟨{ kind := .load, size := 4, dst := some fun _ => .dst t, la := l.toNat }, 4, false, loadPath as, as, []⟩
  | .ldw t _ o l => let as := memAddrs 8 o (args.getD 0 [])
    some ⟨{ kind := .load, size := 8, dst := some fun _ => .dst64 t, la := l.toNat }, 8, false, loadPath as, as, []⟩
  | .ldq t _ o l => let as := memAddrs 16 o (args.getD 0 [])
    some ⟨{ kind := .load, size := 16, dst := some fun _ => .dst128 t, la := l.toNat }, 16, false, loadPath as, as, []⟩
  | .lda t _ s r w l =>
    some ⟨{ kind := .load, size := strongSize w, dst := some fun _ => if w == 1 then .dst64 t else .dst t, la := l.toNat
            strength := ⟨true, s.toNat, r == 1, false, false⟩ },
      strongSize w, false, loadPath (args.getD 0 []), args.getD 0 [], []⟩
  | .mon t _ s r w l =>
    some ⟨{ kind := .mon, size := strongSize w, dst := some fun _ => if w == 1 then .dst64 t else .dst t, la := l.toNat
            strength := ⟨true, s.toNat, r == 1, false, false⟩ },
      strongSize w, false, loadPath (args.getD 0 []), args.getD 0 [], []⟩
  | .st _ _ o => some ⟨{ kind := .store, size := 4 }, 4, false, 2, memAddrs 4 o (args.getD 0 []), args.getD 1 []⟩
  | .stw _ _ o => some ⟨{ kind := .store, size := 8 }, 8, false, 2, memAddrs 8 o (args.getD 0 []), args.getD 1 []⟩
  | .stq _ _ o => some ⟨{ kind := .store, size := 16 }, 16, false, 2, memAddrs 16 o (args.getD 0 []), args.getD 1 []⟩
  | .stl _ _ s r w =>
    some ⟨{ kind := .store, size := strongSize w, strength := ⟨true, s.toNat, false, r == 1, false⟩ },
      strongSize w, false, 2, args.getD 0 [], args.getD 1 []⟩
  | .aadd t _ s r p z l => some (atomicAccess .aadd args t s r p z l)
  | .amin t _ s r p z l => some (atomicAccess .amin args t s r p z l)
  | .amax t _ s r p z l => some (atomicAccess .amax args t s r p z l)
  | .aand t _ s r p z l => some (atomicAccess .aand args t s r p z l)
  | .aor t _ s r p z l => some (atomicAccess .aor args t s r p z l)
  | .axor t _ s r p z l => some (atomicAccess .axor args t s r p z l)
  | .axch t _ s r p z l => some (atomicAccess .axch args t s r p z l)
  | .acas t _ s r p z l => some (atomicAccess .acas args t s r p z l)
  | .afadd t _ s r p z l => some (atomicAccess .afadd args t s r p z l)
  | .jdec t _ s r p z l =>
    some ⟨{ kind := .jdec, dst := if z == 1 then none else some fun _ => .dst t, la := l.toNat
            strength := { synStrength s r p with release := true } }, 128, true, 3, args.getD 0 [], []⟩
  | .prom _ s r => some ⟨{ kind := .prom, strength := synStrength s r 1 }, 4, false, 3, args.getD 0 [], []⟩
  | .spawn _ =>
    some ⟨{ kind := .spawn, size := 64, strength := ⟨true, 5, false, true, false⟩ }, 64, true, 2, args.getD 0 [], []⟩
  | _ => none

/-- Every lane's address leads to a place it may name, and is a multiple of the alignment (16 R385). -/
def Access.reaches (a : Access) (c : Ctx) (s : State) : Prop :=
  (∀ p ∈ c.lanes.zip a.addrs, ∃ q, c.place? s p.1 p.2 a.what.size = some q ∧ (a.globalOnly = true → q.isGlobal = true)) ∧
  ∀ x ∈ a.addrs, x % a.align = 0

/-- Its path has room for one more instruction, and the parked-access table for a global access (03 R57, 11 R271). -/
def Access.hasRoom (a : Access) (c : Ctx) (s : State) : Prop :=
  c.lanes ≠ [] → c.gang.ifc a.path < 65535 ∧ (anyGlobal a.addrs = true → s.parkRoom c = true)

/-- Size in bytes, destination and lookahead of the result that a special-function or conversion instruction sends, and
each lane's result (16 R372, 15 R358, R364). -/
def queuedOf (c : Ctx) (args : List (List Nat)) : Instr → Option (Nat × (Slice → Use) × BitVec 4 × List Nat)
  | .frcp d _ k l => sfq .rcp d k l
  | .frsq d _ k l => sfq .rsq d k l
  | .fsqrt d _ k l => sfq .sqrt d k l
  | .fexp2 d _ k l => sfq .exp2 d k l
  | .flog2 d _ k l => sfq .log2 d k l
  | .fsin d _ k l => sfq .sin d k l
  | .fcos d _ k l => sfq .cos d k l
  | .ftanh d _ k l => sfq .tanh d k l
  | .cvt d _ z v l => some (8, fun sl => elemDst (cvtTo v sl) d, l, c.perLane args fun sl xs =>
      cvtVal sl.fmt (cvtFrom v sl) (cvtTo v sl) (z == 1) (xs.getD 0 0))
  | .dqt d _ _ l => some (8, fun sl => elemDst (fmtB sl.fmt) d, l, c.perLane args fun sl xs =>
      dqtVal sl.fmt (xs.getD 0 0) (xs.getD 1 0))
  | _ => none
where
  sfq (g : SpecFun) (d : BitVec 7) (k : BitVec 1) (l : BitVec 4) : Option (Nat × (Slice → Use) × BitVec 4 × List Nat) :=
    some (4, fun _ => .dst d, l, c.perLane args fun sl xs => sfqVal g (fmtAbsent sl.fmt) (sfqFmt k) (xs.getD 0 0))

/-- The requests granted, of requests considered one after another, from a level of tokens: each that what is left of it
covers (10 R258). -/
def grantRound : Nat → List TokenReq → List TokenReq
  | _, [] => []
  | level, r :: rs => if r.units ≤ level then r :: grantRound (level - r.units) rs else grantRound level rs

/-- The flight that carries results which are already known. -/
def resultFlight (size : Nat) (dst : Slice → Use) (la : Nat) : Launching :=
  { kind := .result, size := size, dst := some dst, la := la, start := .performed }

end Sys2Proof.Claim
end

