-- ==== Sys2Proof/Certificates/Slice0/Obligations.lean ====
section
/-! DEFINITION. The statements for the provers.  `Claim.Issues s c i args s'` are the hypotheses on the state and the
operands alone under which an instruction word executes: its thread lives, it passes the checks of 03 R73, the scoreboard
lets it issue, `args` are its operands, lane by lane, and `s'` is the state once its queue operands have been popped. -/

open Sys2Proof Sys2Proof.Machine Sys2Proof.Claim

/-! ### What instruction words do -/

/-- Every word that writes its result at once completes: the result of each active lane goes to the destination field and
the party goes on to the next instruction (02 R29; 03 R50; 15 R331).  AND, ANDI, OR, ORI, XOR, XORI, SHL, SHR, SHLI, SHRI,
SRA, BFX, BFI, CLZ, POPC, IADD, ISUB, IMUL, IMULH, IMAD, IMIN, IMAX, IADDI, ICMP, LEA, LUI, SEL, COAL, MKAB, TSTA, PACK,
UNPK, UNPK.cb, DOT8, DOT4, FADD, FSUB, FMUL, FMIN, FMAX, FFMA, FCMP, SHFL, VOTE, RDX, SCAN, MFS and QSTAT. -/
def Obligations.RegisterResultsComplete : Prop :=
  ∀ (s s' : State) (c : Ctx) (i : Instr) (args : List (List Nat)) (dst : Slice → Use) (vals : List Nat),
    Issues s c i args s' → resultOf c s' args i = some (dst, vals) →
    exec i s = .next ((s'.writeField c dst vals).retireNext c)

/-- Every word that only steers its party or sets a mode completes by moving the party's slices (02 R22, R23): NOP, BRA,
BRA.Z, BRC, RET, RCP, JOIN, LOOP, FMT, WIN, SETX, and MTS to every register but ASID and a gang's TADDR. -/
def Obligations.MovesComplete : Prop :=
  ∀ (s s' : State) (c : Ctx) (i : Instr) (args : List (List Nat)) (f : Nat → Slice → Slice),
    Issues s c i args s' → moveOf c args i = some (true, f) → exec i s = .next (moved s' c f)

/-- Every word that makes one access per active lane completes by sending the access on its way, once every lane's address
is one it may name and there is room for it (16 R385; 03 R57): LD, LDW, LDQ, LDA, MON, ST, STW, STQ, STL, AADD, AMIN, AMAX,
AAND, AOR, AXOR, AXCH, ACAS, AFADD, JDEC, PROM and SPAWN. -/
def Obligations.AccessesComplete : Prop :=
  ∀ (s s' : State) (c : Ctx) (i : Instr) (args : List (List Nat)) (a : Access),
    Issues s c i args s' → accessOf args i = some a → a.reaches c s' → a.hasRoom c s' →
    exec i s = .next (s'.issueFlight c i { a.what with path := some a.path } a.addrs a.datas [])

/-- An access that names a place it may not takes a precise ADDRESS trap before any lane's access, and one that is not
aligned takes ALIGN (16 R385; 11 R284); no access is made. -/
def Obligations.BadAddressesTrap : Prop :=
  ∀ (s s' : State) (c : Ctx) (i : Instr) (args : List (List Nat)) (a : Access),
    Issues s c i args s' → accessOf args i = some a →
    ((∃ p ∈ c.lanes.zip a.addrs, ∀ q, c.place? s' p.1 p.2 a.what.size = some q → a.globalOnly = true ∧ q.isGlobal = false) →
      exec i s = .next (s.takeTrap c .address (c.lanes.zip a.addrs) (opcodeOf i))) ∧
    ((∀ p ∈ c.lanes.zip a.addrs, ∃ q, c.place? s' p.1 p.2 a.what.size = some q ∧ (a.globalOnly = true → q.isGlobal = true)) →
      (∃ x ∈ a.addrs, x % a.align ≠ 0) → exec i s = .next (s.takeTrap c .align (c.lanes.zip a.addrs) (opcodeOf i)))

/-- The special functions FRCP, FRSQ, FSQRT, FEXP2, FLOG2, FSIN, FCOS and FTANH, and CVT and DQT, complete by sending their results on the way, once their queue has room (16 R371,
R372; 15 R358, R364; how many instructions it holds is the model's choice, assumption 91). -/
def Obligations.QueuedResultsComplete : Prop :=
  ∀ (s s' : State) (c : Ctx) (i : Instr) (args : List (List Nat)) (size : Nat) (dst : Slice → Use) (l : BitVec 4)
    (vals : List Nat),
    Issues s c i args s' → queuedOf c args i = some (size, dst, l, vals) → s'.queueRoom c i = true →
    exec i s = .next (s'.issueFlight c i (resultFlight size dst l.toNat) [] [] vals)

/-- CALL, EXIT, REGANG, YLD and MTS to TADDR and ASID complete (15 R348; 02 R23, R26, R28; 16 R366; 17 R398, R419; 18 R459): CALL
writes the address after it to its link and branches; EXIT takes the active lanes from its slices, and on the easel waits
for the engines; REGANG waits unless the whole gang is there; YLD waits only for a gang that shares its slices. -/
def Obligations.CallExitRegangYieldComplete : Prop :=
  ∀ (s s' : State) (c : Ctx) (args : List (List Nat)),
    (∀ r o, Issues s c (.call r o) args s' →
      exec (.call r o) s = .next (moved (s'.writeField c (fun _ => .dst64 r) (c.lanes.map fun _ => (c.base + 4).toNat)) c
        fun _ sl => sl.jump (c.base + 4 * o.signExtend 64))) ∧
    (Issues s c .exit args s' → (c.gang.isSeq = true → s'.engineBusy c.crew.id = false) →
      exec .exit s = .next ((moved s' c fun _ sl => sl.exit).settle c)) ∧
    (Issues s c .regang args s' → c.gang.liveSlices.all c.sls.contains = true →
      exec .regang s = .next (s'.retireNext c)) ∧
    (Issues s c .regang args s' → c.gang.liveSlices.all c.sls.contains = false →
      exec .regang s = .next ((moved s' c fun _ sl => { sl with wait := .regang }).settle c)) ∧
    (Issues s c .yld args s' → c.gang.isSeq = true ∨ s'.sharesGroup c = false →
      exec .yld s = .next (s'.retireNext c)) ∧
    (Issues s c .yld args s' → c.gang.isSeq = false → s'.sharesGroup c = true →
      exec .yld s = .next ((s'.retireNext c).mapIssuer c fun g =>
        g.mapSlices c.sls fun sl => { sl with wait := .yld (s'.clock.toNat + 32) })) ∧
    (∀ a, Issues s c (.mts a 0x10) args s' → c.gang.isSeq = false →
      exec (.mts a 0x10) s = .next ((s'.mapIssuer c fun g => (c.lanes.zip (args.getD 0 [])).foldl
        (fun g (l, v) => g.mapLane l fun ln => { ln with taddr := BitVec.ofNat 64 v }) g).retireNext c)) ∧
    (∀ a v, Issues s c (.mts a 0x16) args s' → firstArg c args 0 = some v → v < 4096 →
      exec (.mts a 0x16) s = .next ((s'.mapCrew c.crew.id fun k => { k with hasid := BitVec.ofNat 32 v }).retireNext c))

/-- TRAP takes the precise trap TRAP with its immediate in TCAUSE.INFO (18 R443); ERET ends handler state in the party's
slices and drops the handler registers, and ERET.ABANDON abandons the crew (11 R275, R287; 16 R365). That the event of this
abandonment carries the cause code 0x0F is the model's choice (assumption 117). -/
def Obligations.TrapAndReturnsComplete : Prop :=
  ∀ (s s' : State) (c : Ctx) (args : List (List Nat)),
    (∀ k, s.issuer? = some c → Admits c (.trap k) → exec (.trap k) s = .next (s.takeTrap c .trap [] k.toNat)) ∧
    (Issues s c .eret args s' → (∀ i ∈ c.sls, (c.gang.slice i).stack.length = (c.gang.slice i).savedDepth) →
      ∃ t, exec .eret s = .next t ∧
        t.crews = ((moved s' c fun _ sl => sl.eret).mapIssuer c fun g =>
          { g with lanes := g.lanes.mapIdx fun l ln => if c.sls.contains (l / 4) then ln.loseHandlerRegs else ln }).crews ∧
        t.flights = s'.flights.map (Flight.afterEret c)) ∧
    (Issues s c .eretAbandon args s' → (∀ i ∈ c.sls, (c.gang.slice i).stack.length = (c.gang.slice i).savedDepth) →
      exec .eretAbandon s = .next (State.abandonCrew { s' with issued := s'.issued + 1 } c.crew.id 0x0F 0))

/-- The accesses that are not one part per lane complete: LDX with each slice's size (16 R387), CFLUSH with a part per
line (15 R353), CBT from memory or registers (15 R350), MCRD with one request (17 R396), and TSUB with the
descriptor of the lowest active lane (18 R447). -/
def Obligations.OtherAccessesComplete : Prop :=
  ∀ (s s' : State) (c : Ctx) (args : List (List Nat)),
    (∀ t a b l, let addrs := List.zipWith (fun x y => (x + y) % 2 ^ 64) (args.getD 0 []) (args.getD 1 [])
      let sizes := c.lanes.map fun k => ldxSize (c.gang.slice (k / 4))
      Issues s c (.ldx t a b l) args s' → c.lanes ≠ [] →
      (∀ p ∈ (c.lanes.zip addrs).zip sizes, (c.place? s' p.1.1 p.1.2 p.2).isSome = true) →
      (∀ p ∈ addrs.zip sizes, p.1 % p.2 = 0) →
      c.gang.ifc (loadPath addrs) < 65535 → (anyGlobal addrs = true → s'.parkRoom c = true) →
      ∃ o : Launching, o.kind = .load ∧ o.path = some (loadPath addrs) ∧ o.la = l.toNat ∧
        exec (.ldx t a b l) s = .next ((s'.retireNext c).startFlight c (.ldx t a b l) o
          ((c.parts o addrs [] []).mapIdx fun k p => { p with size := sizes.getD k 4 }))) ∧
    (∀ a, let o : Launching := { kind := .flush, size := 128, path := some 2 }
      Issues s c (.cflush a) args s' → flushParts c o (args.getD 0 []) ≠ [] →
      (∀ p ∈ c.lanes.zip (args.getD 0 []), natBits p.2 56 8 = 0 ∨ natBits p.2 56 8 = 0xFE) →
      c.gang.ifc 2 < 65535 → s'.parkRoom c = true →
      exec (.cflush a) s =
        .next ((s'.retireNext c).startFlight c (.cflush a) o (flushParts c o (args.getD 0 [])))) ∧
    (∀ a l x, Issues s c (.cbt a l) args s' → firstArg c args 0 = some x →
      (c.place? s' (c.lanes.headD 0) x (paletteSize c.first)).isSome = true → x % paletteSize c.first = 0 →
      c.gang.ifc (loadPath [x]) < 65535 → s'.parkRoom c = true →
      exec (.cbt a l) s = .next (s'.startPalette c (.cbt a l)
        { kind := .palette, size := paletteSize c.first, path := some (loadPath [x]) } x 0 l.toNat)) ∧
    (∀ b l x, Issues s c (.cbtReg b l) args s' → firstArg c args 0 = some x →
      exec (.cbtReg b l) s = .next (s'.startPalette c (.cbtReg b l)
        { kind := .palette, size := paletteSize c.first, start := .performed } 0 x l.toNat)) ∧
    (∀ t a b src w dst, Issues s c (.mcrd t a b) args s' →
      firstArg c args 0 = some src → firstArg c args 1 = some w → firstArg c args 2 = some dst →
      mcrdMask w ≠ 0 → natBits w 9 7 = 0 → c.crew.mcrdReach src dst w = true → src % 128 = 0 → dst % 128 = 0 →
      c.gang.ifc 5 < 65535 → s'.parkRoom c = true →
      ∃ o : Launching, o.kind = .mcrd ∧ o.path = some 5 ∧ o.size = 128 * mcrdCount w ∧
        o.aux = [BitVec.ofNat 64 dst, BitVec.ofNat 64 (mcrdCount w), BitVec.ofNat 64 (mcrdMask w), BitVec.ofNat 64 src] ∧
        exec (.mcrd t a b) s =
          .next ((s'.retireNext c).startFlight c (.mcrd t a b) o ((c.parts o [src] [] []).take 1))) ∧
    (∀ t a l desc, Issues s c (.tsub t a l) args s' → firstArg c args 0 = some desc → natBits desc 56 8 = 0 →
      desc % 128 = 0 → s'.parkRoom c = true →
      s'.submit c.crew c.asid desc (.flight s'.serial) ≠ .error .wait →
      ∃ o : Launching, o.kind = .tsub ∧ o.size = 8 ∧ o.la = l.toNat ∧ o.aux.head? = some (BitVec.ofNat 64 desc) ∧
        exec (.tsub t a l) s = .next (s'.issueFlight c (.tsub t a l) o (c.lanes.map fun _ => desc) [] []))

/-- FENCE, WAITP and RPLY complete (16 R374; 18 R454; 17 R421): a fence's release half once every earlier access of the
party has been performed, its acquire half as an order on later ones; WAITP once its path is short enough; RPLY sends the
party's parked parts again. -/
def Obligations.FenceWaitReplayComplete : Prop :=
  ∀ (s s' : State) (c : Ctx) (args : List (List Nat)),
    (∀ sc r, Issues s c (.fence sc r) args s' → (2 ≤ r.toNat → c.allPerformed s' (fun _ => true) = true) →
      r.toNat % 2 = 0 ∨ c.allPerformed s' AccKind.reads = true → exec (.fence sc r) s = .next (s'.retireNext c)) ∧
    (∀ sc r, Issues s c (.fence sc r) args s' → (2 ≤ r.toNat → c.allPerformed s' (fun _ => true) = true) →
      r.toNat % 2 = 1 → c.allPerformed s' AccKind.reads = false →
      exec (.fence sc r) s = .next ((s'.retireNext c).startFlight c (.fence sc r)
        { kind := .fence, strength := ⟨true, sc.toNat, true, decide (2 ≤ r.toNat), false⟩ } [])) ∧
    (∀ a p, Issues s c (.waitp a p) args s' → c.gang.ifc p.toNat ≤ (firstArg c args 0).getD 0 →
      exec (.waitp a p) s = .next (s'.retireNext c)) ∧
    (Issues s c .rply args s' →
      exec .rply s = .next ((s'.retireNext c).replay c.crew.id fun m _ i => m == c.member && c.sls.contains i))

/-- QNT, QNT.FIX and QNT.HEALTH complete (17 R413; 04 R100): each lane's block is quantised, the gang's health counters
take the counts, and the codes are on their way; HEALTH reads the counters and clears them. -/
def Obligations.QuantiseComplete : Prop :=
  ∀ (s s' : State) (c : Ctx) (args : List (List Nat)) (d : BitVec 7) (l : BitVec 4),
    let quant (fixed : Bool) : List (Nat × Quantised) := c.lanes.mapIdx fun k ln =>
      (ln, qntVal fixed (c.gang.slice (ln / 4)) ((args.getD 0 []).getD k 0) ((args.getD 1 []).getD k 0))
    let done (i : Instr) (fixed : Bool) : State :=
      ((s'.retireNext c).mapIssuer c fun g =>
        { g with health := (quant fixed).foldl (fun h q => h.count q.2) g.health }).startFlight c i
          { kind := .result, size := 16, la := l.toNat } ((quant fixed).flatMap fun q => c.qntParts d fixed q.1 q.2)
    (∀ a, Issues s c (.qnt d a l) args s' → c.lanes ≠ [] → s'.queueRoom c (.qnt d a l) = true → exec (.qnt d a l) s = .next (done (.qnt d a l) false)) ∧
    (∀ a, Issues s c (.qntFix d a l) args s' → c.lanes ≠ [] → s'.queueRoom c (.qntFix d a l) = true → exec (.qntFix d a l) s = .next (done (.qntFix d a l) true)) ∧
    (Issues s c (.qntHealth d l) args s' → s'.queueRoom c (.qntHealth d l) = true →
      exec (.qntHealth d l) s = .next ((s'.issueFlight c (.qntHealth d l) (resultFlight 16 (fun _ => .dst128 d) l.toNat) [] []
        (c.lanes.map fun _ => c.gang.health.sat + 2 ^ 32 * c.gang.health.ufl + 2 ^ 64 * c.gang.health.invalid)).mapIssuer c
          fun g => { g with health := ⟨0, 0, 0⟩ }))

/-- The block-transfer commands of a thread complete (09 R219 to R223; 16 R376, R377; 18 R456): the command joins those
waiting for a context slot, its ticket is the gang's next, and the ticket is on its way to its register (XQAP has none);
XWAIT and XWAIT.ALL return the error word once the awaited commands are done. -/
def Obligations.CommandsComplete : Prop :=
  ∀ (s s' : State) (c : Ctx) (args : List (List Nat)),
    (∀ d a x k l v, Issues s c (.xcp d a x k l) args s' → firstArg c args 0 = some v →
      0 < (s'.cluster c.crew.cluster).room →
      exec (.xcp d a x k l) s = .next (((s'.giveCommand c .packet (packetOf v x k) 0).2.retireNext c).sendTicket c
        (.xcp d a x k l) (fun _ => .dst d) 4 l.toNat (c.gang.ticket + 1).toNat)) ∧
    (∀ d a x k v desc, Issues s c (.xqap d a x k) args s' → firstArg c args 0 = some v → firstArg c args 1 = some desc →
      0 < (s'.cluster c.crew.cluster).room →
      exec (.xqap d a x k) s = .next ((s'.giveCommand c .xqap (packetOf v x k) desc).2.retireNext c)) ∧
    (∀ d a x k l v n g, Issues s c (.xcpr d a x k l) args s' → firstArg c args 0 = some v →
      c.xcprTarget (packetOf v x k) = .ok (n, g) → c.gang.ifc 4 < 65535 → 0 < (s'.cluster c.crew.cluster).room →
      (n ≠ c.member ∨ c.xcprScore (packetOf v x k) g = true) →
      exec (.xcpr d a x k l) s = .next (((((State.giveCommand { s' with serial := s'.serial + 1 } c .xcpr (packetOf v x k)
          s'.serial).2.mapIssuer c fun g => { g with paths := listModify g.paths 4 (· ++ [⟨s'.serial, false⟩]) }).retireNext
          c).sendTicket c (.xcpr d a x k l) (fun _ => .dst d) 4 l.toNat (c.gang.ticket + 1).toNat).mapGang c.crew.id n
        fun h => h.awaitXcpr s'.serial (xcprReg (packetOf v x k)) (xcprRegs (packetOf v x k) g))) ∧
    (∀ t a b l graph patch w, Issues s c (.grpl t a b l) args s' →
      firstArg c args 0 = some graph → firstArg c args 1 = some patch → firstArg c args 2 = some w →
      0 < (s'.cluster c.crew.cluster).room →
      exec (.grpl t a b l) s = .next (((s'.giveCommand c .packet
        (grplPacket graph patch w (c.gang.ticket + 1).toNat c.crew.job) 0).2.retireNext c).sendTicket c (.grpl t a b l)
          (fun _ => .dst64 t) 8 l.toNat (c.gang.ticket + 1).toNat)) ∧
    (∀ d a v, Issues s c (.xwait d a) args s' → firstArg c args 0 = some v → ticketUpTo v c.gang.ticket.toNat = true →
      (∀ t ∈ c.gang.tickets, ticketUpTo t v = false) → exec (.xwait d a) s = .next (s'.xwaitDone c d)) ∧
    (∀ d, Issues s c (.xwaitAll d) args s' → c.gang.tickets = [] → exec (.xwaitAll d) s = .next (s'.xwaitDone c d))

/-- Barriers and waits complete (02 R32, R33; 15 R342; 17 R402, R415; 08 R206; 13 R316): BAR and BARA record the arrival of
the party's slices, and BAR waits; MWAIT returns each slice's code, and until every slice with an active lane has one they
wait, each with its own timeout; QUIET waits until the slice's messages are counted, gives NOJOB for a job without an
entry, and waits with w0 := entry.WAVE; a wait ends with its status or with TIMEOUT. Which messages of the party's BTE
commands QUIET awaits is the model's reading (assumption 121). -/
def Obligations.BarriersAndWaitsComplete : Prop :=
  ∀ (s s' : State) (c : Ctx) (args : List (List Nat)),
    (∀ k n, Issues s c (.bar k n) args s' → c.barCountOk n.toNat k.toNat = true → c.allPerformed s' (fun _ => true) = true →
      exec (.bar k n) s = .next (((moved s' c fun _ sl => { sl with wait := .bar n.toNat }).mapCrew c.crew.id fun w =>
        { w with barriers := listModify w.barriers n.toNat fun b => b.record k.toNat c.member c.sls }).settle c)) ∧
    (∀ k n, Issues s c (.bara k n) args s' → c.barCountOk n.toNat k.toNat = true → c.allPerformed s' (fun _ => true) = true →
      exec (.bara k n) s = .next (((moved s' c fun _ sl => sl.advance).mapCrew c.crew.id fun w =>
        { w with barriers := listModify w.barriers n.toNat fun b => b.record k.toNat c.member c.sls }).settle c)) ∧
    (∀ d a, Issues s c (.mwait d a) args s' →
      (∀ i ∈ c.sls, (c.gang.slice i).mask ≠ 0 → (c.mwaitCode s' i).isSome = true) →
      ∃ t, exec (.mwait d a) s = .next t ∧ t.issued = s'.issued + 1 ∧
        t.crews = (moved (s'.writeField c (fun _ => .dst d) (c.lanes.map fun l => (c.mwaitCode s' (l / 4)).getD 0)) c
          fun i sl => sl.afterMwait (if (c.gang.slice i).mask ≠ 0 then c.mwaitCode s' i else none)).crews) ∧
    (∀ d a b l job w since n v, Issues s c (.quiet d a b l) args s' → c.first.wait = .quiet job w since n →
      c.first.wake = some v → exec (.quiet d a b l) s = .next (s'.endQuiet c (.quiet d a b l) d l.toNat v)) ∧
    (∀ d a, Issues s c (.mwait d a) args s' →
      (∃ i ∈ c.sls, (c.gang.slice i).mask ≠ 0 ∧ c.mwaitCode s' i = none) →
      exec (.mwait d a) s = .next (s'.mapIssuer c fun g => { g with slices := g.slices.mapIdx fun i sl =>
        if i ∈ c.sls ∧ (c.gang.slice i).mask ≠ 0 then
          match sl.wait with
          | .mwait _ _ => sl
          | _ => { sl with wait := .mwait s'.clock.toNat (1024 * (c.firstOf (args.getD 0 []) i).getD 0), wake := none }
        else sl })) ∧
    (∀ d a b l job w since n, Issues s c (.quiet d a b l) args s' → c.first.wait = .quiet job w since n →
      c.first.wake = none →
      (n ≠ 0 → since + n ≤ s'.clock.toNat →
        exec (.quiet d a b l) s = .next (s'.endQuiet c (.quiet d a b l) d l.toNat 2)) ∧
      (n = 0 ∨ s'.clock.toNat < since + n → exec (.quiet d a b l) s = .next s)) ∧
    (∀ d a b l, Issues s c (.quiet d a b l) args s' → c.first.wait = .none →
      let job := if a = 120 ∨ c.lanes = [] then c.crew.job else natBits ((firstArg c args 0).getD 0) 0 24
      (s'.uncounted c = true → exec (.quiet d a b l) s = .next s) ∧
      (s'.uncounted c = false → s'.jobEntry? c.die job = none →
        exec (.quiet d a b l) s = .next (s'.endQuiet c (.quiet d a b l) d l.toNat 3)) ∧
      (∀ e, s'.uncounted c = false → s'.jobEntry? c.die job = some e →
        exec (.quiet d a b l) s = .next (s'.mapIssuer c fun g => g.mapSlices c.sls fun sl =>
          { sl with
            wait := .quiet job (bitsOf (s'.jobDouble c.die e 5) 0 32) s'.clock.toNat (1024 * (firstArg c args 1).getD 0)
            wake := none })))

/-- The supervisor's instructions and the queue bindings complete (17 R393, R394, R408, R410, R427; 18 R438, R439; 13 R317;
07 R185): MAPF steps each lane's address, and keeps the statuses it has while a step waits; TLBI drops what its pair covers; SPCFG of the size in force goes on, and of
another size waits for the resize it begins; QADJ adjusts the job's counters with status 0; QBIND binds one queue. -/
def Obligations.SupervisorWordsComplete : Prop :=
  ∀ (s s' : State) (c : Ctx) (args : List (List Nat)),
    (∀ d a ok sts u, Issues s c (.mapf d a) args s' → (∀ p ∈ c.lanes.zip (args.getD 0 []), natBits p.2 56 8 = 0) →
      s'.mapLanes c c.first.wait.mapped ((c.lanes.zip (args.getD 0 [])).drop c.first.wait.mapped.length) = (ok, sts, u) →
      let rest (w : Wait) : State := u.mapIssuer c fun g => g.mapSlices c.sls fun sl => { sl with wait := w }
      (ok = true → exec (.mapf d a) s = .next (((rest .none).writeField c (fun _ => .dst d) sts).retireNext c)) ∧
      (ok = false → exec (.mapf d a) s = .next (rest (.mapf sts)))) ∧
    (∀ a v, Issues s c (.tlbiPage a) args s' → firstArg c args 0 = some v → natBits v 12 4 = 0 → natBits v 56 8 = 0 →
      natBits v 0 12 ≠ 4095 →
      exec (.tlbiPage a) s = .next ((s'.tlbiPage (natBits v 0 12) (natBits v 16 40 * 2 ^ 16)).retireNext c)) ∧
    (∀ a v, Issues s c (.tlbiAsid a) args s' → firstArg c args 0 = some v → natBits v 12 52 = 0 → natBits v 0 12 ≠ 4095 →
      exec (.tlbiAsid a) s = .next ((s'.tlbiAsid (natBits v 0 12)).retireNext c)) ∧
    (Issues s c .tlbiAll args s' → c.lanes ≠ [] → exec .tlbiAll s = .next (s'.tlbiAll.retireNext c)) ∧
    (∀ o z w, let die := (c.die + o.toNat) % 2
      Issues s c (.spcfg o z w) args s' → c.lanes ≠ [] → s'.spcfg.getD die none = none →
      w.toNat = s'.chipWays.getD die 0 → exec (.spcfg o z w) s = .next (s'.retireNext c)) ∧
    (∀ o z w, let die := (c.die + o.toNat) % 2
      let r : Resize := ⟨w.toNat, z == 1, ⟨c.crew.id, c.member, c.party⟩, s'.serial, s'.busyCommands⟩
      Issues s c (.spcfg o z w) args s' → c.lanes ≠ [] → s'.spcfg.getD die none = none →
      w.toNat ≠ s'.chipWays.getD die 0 →
      exec (.spcfg o z w) s = .next (moved { s' with spcfg := s'.spcfg.set die (some r) } c
        fun _ sl => { sl with wait := .spcfg die })) ∧
    (∀ d a v, Issues s c (.qadjInjected d a) args s' → firstArg c args 0 = some v →
      (s'.jobEntry? c.die (natBits v 0 24)).isSome = true → exec (.qadjInjected d a) s =
        .next (((s'.countInjected c.die (natBits v 0 24) (BitVec.ofNat 32 (natBits v 32 32)).toInt).writeField c
          (fun _ => .dst d) (c.lanes.map fun _ => 0)).retireNext c)) ∧
    (∀ d a v, Issues s c (.qadjConsumed d a) args s' → firstArg c args 0 = some v →
      (s'.jobEntry? c.die (natBits v 0 24)).isSome = true → exec (.qadjConsumed d a) s =
        .next (((s'.countConsumed c.die (natBits v 0 24) (BitVec.ofNat 32 (natBits v 32 32)).toInt).writeField c
          (fun _ => .dst d) (c.lanes.map fun _ => 0)).retireNext c)) ∧
    (∀ d a v, Issues s c (.qadjClearLost d a) args s' → firstArg c args 0 = some v →
      (s'.jobEntry? c.die (natBits v 0 24)).isSome = true → exec (.qadjClearLost d a) s =
        .next (((s'.clearLost c.die (natBits v 0 24)).writeField c (fun _ => .dst d) (c.lanes.map fun _ => 0)).retireNext c)) ∧
    (∀ d a v, Issues s c (.qadjQueryToLost d a) args s' → firstArg c args 0 = some v →
      (s'.jobEntry? c.die (natBits v 0 24)).isSome = true → exec (.qadjQueryToLost d a) s =
        .next (((s'.loseQueried c.die (natBits v 0 24)).writeField c (fun _ => .dst d) (c.lanes.map fun _ => 0)).retireNext c)) ∧
    (∀ p q, Issues s c (.qbind p q) args s' → c.crew.seq.isSome = true → exec (.qbind p q) s =
      .next ((s'.retireNext c).mapIssuer c fun g => { g with qbind := g.qbind.set q.toNat (some p.toNat) })) ∧
    (∀ q, Issues s c (.qbindUn q) args s' → c.crew.seq.isSome = true → exec (.qbindUn q) s =
      .next ((s'.retireNext c).mapIssuer c fun g => { g with qbind := g.qbind.set q.toNat none }))

/-- AMSG completes (13 R307; 15 R339): a message whose reserved fields are zero leaves for its target with its job and die, as
a release at system scope (03 R69), and its status comes back to the register; one with a reserved field set returns BADMSG without being sent. -/
def Obligations.ActiveMessageCompletes : Prop :=
  ∀ (s s' : State) (c : Ctx) (args : List (List Nat)) (t b : BitVec 7) (l : BitVec 4) (v : Nat),
    Issues s c (.amsg t b l) args s' → firstArg c args 0 = some v →
    let ds := packetOf v 0 1
    let o : Launching :=
      { kind := .amsg, size := 0, dst := some fun _ => .dst t, la := l.toNat, strength := ⟨true, 6, false, true, false⟩ }
    (bitsOf (dbl ds 0) 32 32 = 0 ∧ dbl ds 7 = 0 →
      exec (.amsg t b l) s = .next ((s'.issueFlight c (.amsg t b l) { o with start := .fabric (s'.serial + 1) } [] []
        []).newMessage (.amsg s'.serial) (some c.crew.id) 13 (bitsOf (dbl ds 0) 0 10) 0 64 ds c.crew.job c.die)) ∧
    (¬(bitsOf (dbl ds 0) 32 32 = 0 ∧ dbl ds 7 = 0) →
      exec (.amsg t b l) s = .next (s'.issueFlight c (.amsg t b l) { o with start := .performed } [] []
        (c.lanes.map fun _ => amBadMsg)))

/-- The matrix instructions of the easel complete (05, 06; 15 R359, R360; 18 R432 to R449): TMMA and DMMA once their tokens
are granted and an entry is free, with the work-cycle bound on its way to their register; TBND returns the bound; TCFG
configures an engine; TCLR, TDRN, TSTG and TTBL enter the queue of the engine their target names, TCLR of a new tag after
dealing it a canvas. -/
def Obligations.MatrixWordsComplete : Prop :=
  ∀ (s s' : State) (c : Ctx) (args : List (List Nat)),
    (∀ t a b l ma mb rest e k mode u,
      Issues s c (.tmma t a b l) args s' →
      (takeOperand a args).1 = ma → (if b == 120 then (MatOp.stage, (takeOperand a args).2)
        else takeOperand b (takeOperand a args).2) = (mb, rest) →
      let w : Double := BitVec.ofNat 64 ((rest.getD 0 []).headD 0)
      let bound := tmmaBound (ctlKc w) (fmtA c.easelFmt) (ctlLayout w) (ctlCont w)
      c.checkTmma s' w ma mb = .ok (e, k, mode) → s'.engineRoom c e = true →
      s'.issueMat c (.tmma t a b l) t l.toNat e ma mb (aImageBytes c.easelFmt w) (bImageBytes c.easelFmt w)
        { newOp s' c .tmma e k (ctlTarget w).tag w with wcb := bound, units := bound * unitsPerCycle mode } = some u →
      u.issued = s'.issued + 1 → exec (.tmma t a b l) s = .next u) ∧
    (∀ t a b l ma mb rest e k u,
      Issues s c (.dmma t a b l) args s' →
      (takeOperand a args).1 = ma → takeOperand b (takeOperand a args).2 = (mb, rest) →
      let w : Double := BitVec.ofNat 64 ((rest.getD 0 []).headD 0)
      dmmaCtlOk w = true → ma.legal = true → mb.legal = true →
      (∀ p, (s'.cluster c.crew.cluster).place (ctlTarget w) = some p →
        modeFits ((s'.engine (c.engineNo p.1)).modeAhead p.2) modeDgt = true) →
      (s'.cluster c.crew.cluster).target? (ctlTarget w) = some (e, k) →
      s'.operandFits c.crew ⟨1, 32, 0, 64⟩ ma = true → s'.operandFits c.crew ⟨1, 8, 0, 256⟩ mb = true → s'.engineRoom c e = true →
      s'.issueMat c (.dmma t a b l) t l.toNat e ma mb 2048 2048
        { newOp s' c .dmma e k (ctlTarget w).tag w with wcb := dmmaBound, units := dmmaBound * unitsPerCycle modeDgt } = some u →
      u.issued = s'.issued + 1 → exec (.dmma t a b l) s = .next u) ∧
    (∀ t a l, Issues s c (.tbnd t a l) args s' →
      let w : Double := BitVec.ofNat 64 ((args.getD 0 []).headD 0)
      tmmaCtlOk w = true → (tmmaMode c.easelFmt (ctlLayout w)).isSome = true →
      exec (.tbnd t a l) s = .next (s'.wordFlight c (.tbnd t a l) t l.toNat
        (tmmaBound (ctlKc w) (fmtA c.easelFmt) (ctlLayout w) (ctlCont w))).2) ∧
    (∀ w e g x n m, Issues s c (.tcfg w e g x n) args s' → x = 1 ∨ n.toNat < 8 →
      (if x = 1 then (tabFind (s'.cluster c.crew.cluster).tags n.toNat).map Prod.fst else some n.toNat) = some m →
      exec (.tcfg w e g x n) s = .next ((s'.retireNext c).mapEngine (c.engineNo m) fun y =>
        { y with cfg := g.toNat + 4 * e.toNat + 16 * w.toNat })) ∧
    (∀ k x n e cv, Issues s c (.tclr k x n) args s' → (if x = 1 then k = 0 else n.toNat < 8) →
      (s'.cluster c.crew.cluster).target? ⟨x == 1, n.toNat, k.toNat⟩ = some (e, cv) → s'.engineRoom c e = true →
      exec (.tclr k x n) s = .next (State.enqueue { s'.retireNext c with serial := s'.serial + 1 } c e
        (newOp s' c .tclr e cv (if x == 1 then some n.toNat else none) 0))) ∧
    (∀ n e cv, Issues s c (.tclr 0 1 n) args s' →
      (s'.cluster c.crew.cluster).target? ⟨true, n.toNat, 0⟩ = none → s'.dealCanvas c = some (e, cv) →
      s'.engineRoom c e = true →
      let u := s'.mapCluster c.crew.cluster fun cl => { cl with tags := tabInsert cl.tags n.toNat (e, cv) }
      exec (.tclr 0 1 n) s = .next (State.enqueue { u.retireNext c with serial := u.serial + 1 } c e
        (newOp u c .tclr e cv (some n.toNat) 0))) ∧
    (∀ d a x k l ds e cv, Issues s c (.tdrn d a x k l) args s' →
      let v := (args.getD 0 []).headD 0
      let w : Double := BitVec.ofNat 64 v
      c.drnDescs w a (k == 1) = .ok ds → drnCtlOk w x.toNat (k == 1) a.toNat = true →
      (∀ d ∈ ds, Desc.legal d = true ∧ (x.toNat = 6 → Desc.takesCrumbs d (drnAllot w) = true)) →
      (∀ p ∈ ds.zip [(drnRows w, drnCols w), (drnCols w, drnRows w)],
        s'.drainFits c.crew w x.toNat c.easelFmt p.2.1 p.2.2 p.1 = true) →
      (s'.cluster c.crew.cluster).target? (drnTarget w) = some (e, cv) → s'.engineRoom c e = true →
      (drnToPort w = true → drnWords w ≤ (s'.port c.crew.cluster (drnPort w)).room) →
      ∃ o : EngOp, o.kind = .tdrn ∧ o.canvas = cv ∧ o.ctl = w ∧ o.xf = x.toNat ∧ o.k = (k == 1) ∧ o.aDesc = ds[0]? ∧
        o.bDesc = ds[1]? ∧ o.dst = s'.serial ∧
        exec (.tdrn d a x k l) s = .next (State.enqueue (
          let u := (s'.wordFlight c (.tdrn d a x k l) d l.toNat 0).2
          if drnToPort w then u.mapPort c.crew.cluster (drnPort w) fun q => { q with drains := q.drains + drnWords w } else u) c e o)) ∧
    (∀ t b mb rest e k img u, Issues s c (.tstg t b) args s' → takeOperand b args = (mb, rest) →
      let w : Double := BitVec.ofNat 64 ((rest.getD 0 []).headD 0)
      tmmaCtlOk w = true →
      bImageBytes c.easelFmt w ≤ portLimit → b ≠ 120 → mb.legal = true →
      (s'.cluster c.crew.cluster).place (ctlTarget w) = some (e, k) → s'.stage c e k = none →
      (s'.cluster c.crew.cluster).target? (ctlTarget w) = some (e, k) →
      s'.operandFits c.crew (bExtent c.easelFmt w) mb = true →
      s'.engineRoom c e = true → s'.takeImage c.crew.cluster mb (bImageBytes c.easelFmt w) = some (img, u) →
      exec (.tstg t b) s = .next ((({ u.retireNext c with serial := u.serial + 1 } : State).mapEngine (c.engineNo e) fun n =>
          { n with stages := n.stages.set k (some ⟨ctlKc w, ctlLayout w, ctlCont w, c.easelFmt, none⟩) }).enqueue c e
        { newOp u c .tstg e k (ctlTarget w).tag w with bDesc := mb.desc?, bImg := img })) ∧
    (∀ t a ma rest e img u, Issues s c (.ttbl t a) args s' → takeOperand a args = (ma, rest) →
      let w : Double := BitVec.ofNat 64 ((rest.getD 0 []).headD 0)
      ttblCtlOk w = true → natBits c.easelFmt.toNat 12 2 ≠ 3 →
      (∀ d, ma = .desc d → d.legal = true ∧ d.rot = 0) →
      (if w.getLsbD 12 then (tabFind (s'.cluster c.crew.cluster).tags (bitsOf w 13 5)).map Prod.fst
        else some (bitsOf w 13 5)) = some e →
      s'.operandFits c.crew ⟨1, ttblCount w, 0, 16⟩ ma = true → s'.engineRoom c e = true →
      s'.takeImage c.crew.cluster ma (16 * ttblCount w) = some (img, u) →
      exec (.ttbl t a) s = .next (State.enqueue { u.retireNext c with serial := u.serial + 1 } c e
        { newOp u c .ttbl e 2 none w with aDesc := ma.desc?, aImg := img }))

/-! ### What the steps of the device do

Which pending work a device step is about is named by the model's operands (assumption 2). -/

/-- The steps that bring results back: when a part of an instruction in flight has been performed and its crew is in a bank,
the word named arrives (03 R67; 07 R173; 15 R351, R358; 16 R372; 09 R221): LOAD_DATA_ARRIVAL, ATOMIC_RETURN, STORE_ACK,
SFQ_RESULT, CVQ_RESULT, TICKET_WRITE and PALETTE_ARRIVAL. -/
def Obligations.ResultWordsArrive : Prop :=
  ∀ (s : State) (fl part word : Nat) (f : Flight) (p : Part) (c : Crew),
    s.flight? fl = some f → f.parts[part]? = some p → s.crew? f.crew = some c → p.state = .performed → f.wait = 0 →
    c.inBank = true → (p.dst = [] ∨ ∃ d ∈ p.dst, d.1 = word) →
    (f.kind = .load ∨ f.kind = .mon ∨ f.kind = .tsub ∨ f.kind = .amsg →
      exec (.loadDataArrival fl part word) s = .next (s.arrive f part word p)) ∧
    (f.kind.combines = true → word = 0 → exec (.atomicReturn fl part) s = .next (s.arrive f part 0 p)) ∧
    (f.kind = .store ∨ f.kind = .flush ∨ f.kind = .spawn → word = 0 →
      exec (.storeAck fl part) s = .next (s.arrive f part 0 p)) ∧
    (f.kind = .result → 0x35 ≤ f.opcode → f.opcode ≤ 0x3C →
      exec (.sfqResult fl part word) s = .next (s.arrive f part word p)) ∧
    (f.kind = .result → f.opcode = 0x32 ∨ f.opcode = 0x33 ∨ f.opcode = 0x34 →
      exec (.cvqResult fl part word) s = .next (s.arrive f part word p)) ∧
    (f.kind = .result → (∃ d a x k l, f.opcode = opcodeOf (.xcp d a x k l)) ∨ (∃ t a l, f.opcode = opcodeOf (.tbnd t a l)) →
      exec (.ticketWrite fl part word) s = .next (s.arrive f part word p)) ∧
    (f.kind = .palette → f.parts = [p] → ∃ t, exec (.paletteArrival fl) s = .next t ∧ t.lines = s.lines ∧ t.hbm = s.hbm ∧
      ∀ d g g', s.crew? f.crew = some c → c.member? f.member = some g → t.crew? f.crew = some d →
        d.member? f.member = some g' → g'.palette = BitVec.ofNat 128 (p.result.toNat % 2 ^ (8 * p.size)) ∧ g'.lanes = g.lanes)

/-- HOME_REQUEST (07 R168 to R170, R175; 11 R266; 15 R353; 18 R447): a part that may be performed is performed at its
local holder, from its core's or easel's copy of the line, or at the home of a line it holds; a home that misses sends it on to the translation home; a permission
it lacks is its fault; a flush acts on the line, and a TSUB submits its task. Whether a hit checks permission is a
free choice (assumption 13). -/
def Obligations.HomeRequestsAreServed : Prop :=
  ∀ (s : State) (fl part : Nat) (f : Flight) (p : Part),
    s.flight? fl = some f → f.parts[part]? = some p → p.state = .sent →
    (f.kind = .tsub → s.mayPerform f f.parts = true → exec (.homeRequest fl part) s = .next (s.performTsub f)) ∧
    (f.kind = .mcrd → exec (.homeRequest fl part) s = .next s) ∧
    (f.kind ≠ .tsub → f.kind ≠ .mcrd → f.laneOrder part = true → s.mayPerform f (f.at_ (f.group part)) = true →
      (∀ place, s.placeOf f p = some place → place.isGlobal = false →
        exec (.homeRequest fl part) s = .next (s.performLocal f (f.group part) place)) ∧
      (∀ va, s.placeOf f p = some (.global va) → s.frozen f.asid va = false → s.ownedByOther f.asid (va / 128) none = false →
        (f.kind = .flush → exec (.homeRequest fl part) s = .next (s.flushLine f (f.group part) (va / 128))) ∧
        (f.kind ≠ .flush → ∀ l, s.cacheHit? f va = some l →
          exec (.homeRequest fl part) s = .next (s.performHome f (f.group part) va l)) ∧
        (f.kind ≠ .flush → s.cacheHit? f va = none → ∀ l u code, s.served? f.asid (va / 128) = some l →
          s.hitCode f.asid va f.kind.want = (code, u) →
          exec (.homeRequest fl part) s = .next (if code = 0 then (u.expandHeld f.asid (va / 128)).performHome f (f.group part) va l
            else u.mapParts f.id (f.group part) fun p => { p with state := .faulted code })) ∧
        (f.kind ≠ .flush → s.cacheHit? f va = none → s.served? f.asid (va / 128) = none →
          exec (.homeRequest fl part) s =
            .next (s.mapParts f.id (f.group part) fun p => { p with state := .miss }))))

/-- TRANSLATION_REQUEST, HBM_READ and FILL_RETURN (07 R170; 11 R266; 12 R294, R295; 13 R305): a miss is translated, and is
faulted, forwarded to another device, or has its line read; the line read comes to the home and the requests that
waited for it are made again. Which cached translation is used is a free choice (assumption 9). -/
def Obligations.MissesAreTranslatedAndFilled : Prop :=
  (∀ (s u : State) (fl part : Nat) (f : Flight) (p : Part),
    s.flight? fl = some f → f.parts[part]? = some p → p.state = .miss → s.frozen f.asid p.addr.toNat = false →
    s.ownedByOther f.asid (p.addr.toNat / 128) none = false → s.homeBytes? f.asid (p.addr.toNat / 128) = none →
    (∀ code, s.translate f.asid p.addr.toNat f.kind.want = (.error code, u) →
      exec (.translationRequest fl part) s =
        .next (u.mapParts f.id (f.group part) fun p => { p with state := .faulted code })) ∧
    (∀ pa, s.translate f.asid p.addr.toNat f.kind.want = (.ok (.hbm pa), u) →
      exec (.translationRequest fl part) s =
        .next (u.startFill f (f.group part) (p.addr.toNat / 128) (pa / 128 * 128) none)) ∧
    (∀ c off, s.translate f.asid p.addr.toNat f.kind.want = (.ok (.crumb c off), u) →
      exec (.translationRequest fl part) s =
        .next (u.startFill f (f.group part) (p.addr.toNat / 128) (off / 128 * 128) (some c))) ∧
    (∀ t off, s.translate f.asid p.addr.toNat f.kind.want = (.ok (.fabric t off), u) →
      u.mayPerform f (f.at_ (f.lineGroup part)) = true →
      exec (.translationRequest fl part) s = .next (u.forward f (f.lineGroup part) t off))) ∧
  (∀ (s : State) (fill ecc : Nat) (x : Fill), (s.fills.find? fun x => x.id == fill && x.data.isNone) = some x →
    s.fillLocked x = false →
    ∃ t, exec (.hbmRead fill ecc) s = .next t ∧ t = { (s.readFill x ecc).2 with fills := t.fills } ∧
      t.fills = (s.readFill x ecc).2.fills.map fun y => if y.id == fill then
        { x with data := some ((s.readFill x ecc).1.map (·.getD 0)), undeliv := (s.readFill x ecc).1.contains none } else y) ∧
  (∀ (s : State) (fill : Nat) (x : Fill) (bs : List Byte), (s.fills.find? fun x => x.id == fill) = some x →
    x.data = some bs → x.undeliv = false → s.homeBytes? x.asid x.line = none →
    ∃ t, exec (.fillReturn fill) s = .next t ∧ t.line? x.asid x.line = some ⟨x.asid, x.line, bs, false, none, none, x.way, 0⟩ ∧
      t.fills = s.fills.filter (fun y => !(y.asid == x.asid && y.line == x.line)) ∧ t.hbm = s.hbm ∧
      ∀ f ∈ t.flights, f.asid = x.asid → f.kind ≠ .flush → ∀ p ∈ f.parts,
        p.addr.toNat / 128 = x.line → natBits p.addr.toNat 56 8 = 0 → p.state ≠ .fill)

/-- FAULT_REPORT, HANDLER_ENTRY and FAULT_LOG_REPLY (11 R271, R272, R280, R286, R287): a faulted part parks, once the
parked-access table has room, and its slices have a report, or its context's fault log has its code; in handler state it abandons the crew; a RUNNING party with a report enters the handler; a replayed
lane of a context that is away is answered into its fault log. That a part of an abandoned crew is discarded is the
model's reading (assumption 78). -/
def Obligations.FaultsAreReported : Prop :=
  (∀ (s : State) (fl part code : Nat) (f : Flight) (p : Part) (c : Crew),
    s.flight? fl = some f → f.parts[part]? = some p → p.state = .faulted code → s.crew? f.crew = some c →
    (c.abandoned = true → exec (.faultReport fl part) s = .next (s.dropPart fl part)) ∧
    (c.abandoned = false → f.inHandler = true →
      exec (.faultReport fl part) s = .next (s.abandonCrew f.crew Cause.hfault.code p.addr.toNat)) ∧
    (let park (s : State) : State := ((s.mapParts fl (f.group part) fun p => { p with state := .parked code }).mapFlight fl fun f =>
      { f with parkedOnce := true, reported := if f.held then f.reported else f.slices })
     c.abandoned = false → f.inHandler = false →
      (f.parts.any Part.isParked = false → s.parkSpace f = false → exec (.faultReport fl part) s = .next s) ∧
      (f.parts.any Part.isParked = true ∨ s.parkSpace f = true →
        (c.away = false → exec (.faultReport fl part) s = .next (park s)) ∧
        (∀ u, c.away = true → s.changeLog f.crew (noteFault f f.crew code ((f.at_ (f.group part)).map (·.lane))) = (true, u) →
          exec (.faultReport fl part) s = .next (park u))))) ∧
  (∀ (s u : State) (fl part : Nat) (f : Flight) (p : Part) (c : Crew),
    s.flight? fl = some f → f.parts[part]? = some p → p.state = .performed → s.crew? f.crew = some c → c.away = true →
    f.kind ≠ .mcrd → s.changeLog c.id (noteReply f part p) = (true, u) →
    exec (.faultLogReply fl part) s = .next ((u.mapParts fl [part] fun p => { p with state := .returned }).settleFlights)) ∧
  (∀ (s : State) (crew member party : Nat) (c : Ctx) (f : Flight), s.thread? crew member party = some c →
    c.crew.state = .running → c.inHandler = false → s.handlerBusy c = false → (∀ d, c.first.wait ≠ .spcfg d) →
    (∀ done, c.first.wait ≠ .mapf done) →
    ((s.parkedOf c.crew.id c.member c.sls).find? fun f => f.reported.any c.sls.contains) = some f →
    ∃ (t : State) (addrs : List (Nat × Nat)), exec (.handlerEntry crew member party) s = .next t ∧
      addrs = parkedAddrs (s.parkedOf c.crew.id c.member c.sls) c.sls ∧
      t.crews = (s.takeEntry c ⟨((f.parts.find? Part.isParked).map Part.code).getD 0, f.faultWrites, 0, false, addrs,
        addrs.map Prod.fst, true⟩ (((f.parts.find? Part.isParked).map Part.code).getD 0)).crews ∧
      ∀ g ∈ t.flights, g.crew = c.crew.id → g.member = c.member → ∀ i ∈ c.sls, i ∉ g.reported)

/-- WRITE_BACK, WRITE_BACK_ACK and OWNERSHIP_RELEASE (07 R184; 08 R198; 11 R479; 12 R294): a clean line is dropped with its copies, a dirty
one goes to the write-back buffer and its write-back is made; what is in compact form leaves with its whole group, which is
the model's reading (assumption 87); an acknowledged write-back leaves the buffer; an operation that has ended, and whose
posted writes are performed, gives up its lines. -/
def Obligations.LinesLeaveTheirHomes : Prop :=
  (∀ (s : State) (asid line : Nat) (l : Line), s.frozen asid (line * 128) = false →
    (s.line? asid line).or (s.compact? asid line) = some l → s.lineOwned l = false →
    (∀ w ∈ s.writeBacks, w.asid = asid → w.line = line → w.sent = true) →
    (l.form = none →
      (l.dirty = false → exec (.writeBack asid line) s = .next { s.dropCopies asid line with lines := s.lines.erase l }) ∧
      (l.dirty = true → exec (.writeBack asid line) s =
        .next ((s.bufferLine l none none).2.makeWriteBack (s.bufferLine l none none).1))) ∧
    (∀ form allot, l.form = some (form, allot) →
      (l.dirty = false → exec (.writeBack asid line) s = .next (s.unloadGroup form asid line none none)) ∧
      (l.dirty = true → exec (.writeBack asid line) s =
        .next ((s.unloadGroup form asid line none none).makeGroup form asid line)))) ∧
  (∀ (s : State) (asid line : Nat) (w : WriteBack), s.frozen asid (line * 128) = false → s.unsent? asid line = some w →
    (w.form = none → exec (.writeBack asid line) s = .next (s.makeWriteBack w)) ∧
    (∀ form allot, w.form = some (form, allot) → exec (.writeBack asid line) s = .next (s.makeGroup form asid line))) ∧
  (∀ (s : State) (wb : Nat) (w : WriteBack), (s.writeBacks.find? fun w => w.id == wb && w.sent && w.acked) = some w →
    w.flush = none →
    exec (.writeBackAck wb) s = .next { s with writeBacks := s.writeBacks.filter (·.id != wb) }) ∧
  (∀ (s : State) (owner : Nat), (∀ e ∈ s.engines, ∀ o ∈ e.2.queue, o.id ≠ owner) →
    (∀ k ∈ s.clusters, ∀ i < 16, ∀ sl, k.2.slots[i]? = some sl → sl.state ≠ .free →
      (sl.state = .completing → s.slotQuiet k.1 i = false) → slotOwner k.1 i ≠ owner) →
    exec (.ownershipRelease owner) s = .next { s with owned := s.owned.filter fun o => o.owner != owner })

/-- STRIPE_WRITE, GATHER_WAIT and PARITY_DELTA (12 R292, R293): a gather of four lines or more, and every gather in a degraded state,
is applied with its parity at once; a smaller one locks its stripe and leaves a delta for each line; each delta folds into
the parity, and the last one unlocks the stripe and acknowledges the gather. -/
def Obligations.StripesAreWritten : Prop :=
  (∀ (s : State) (stripe : Nat) (g : Gather), s.stripeLocked stripe = false →
    (s.gathers.find? fun g => g.stripe == stripe) = some g →
    (4 ≤ g.lines.length ∨ 0 < s.lostCount →
      exec (.stripeWrite stripe) s = .next (State.applyGather { s with gathers := s.gathers.erase g } g)) ∧
    (g.lines.length < 4 → s.lostCount = 0 → ∃ t, exec (.stripeWrite stripe) s = .next t ∧ t.stripeLocked stripe = true ∧
      t.writeBacks = s.writeBacks) ∧
    (g.since + bitsOf s.memCtl 32 12 ≤ s.clock.toNat → exec (.gatherWait stripe) s = .next (s.stripeWrite stripe)) ∧
    (s.clock.toNat < g.since + bitsOf s.memCtl 32 12 → exec (.gatherWait stripe) s = .next s)) ∧
  (∀ (s : State) (stripe pos : Nat) (g : Gather) (d : List Byte),
    (s.gathers.find? fun g => g.stripe == stripe && g.locked) = some g → g.deltas.lookup pos = some d → pos ∉ g.taken →
    let u := (s.asStream fun s => ((), s.putStack (parityStack g.stripe) g.stripe
      (xorLines (s.rawLine (parityStack g.stripe) g.stripe) d))).2
    (g.taken.length + 1 = g.deltas.length → exec (.parityDelta stripe pos) s =
      .next (State.ackLines { u with gathers := u.gathers.erase g } (g.lines.flatMap fun (_, _, _, wbs) => wbs))) ∧
    (g.taken.length + 1 ≠ g.deltas.length → exec (.parityDelta stripe pos) s =
      .next { u with gathers := u.gathers.map fun x => if x == g then { g with taken := g.taken ++ [pos] } else x }))

/-- The multicast steps (07 R177 to R180): a request merges into the stream that serves it or begins one; a stream sends its next
line to every pair in it, and after its last line the lines late joiners missed; a delivered line is written into the core
scratchpads of the requests it serves. That a pair is a cluster and a core, whatever the crew, is the model's reading
(assumption 125). -/
def Obligations.MulticastStepsMove : Prop :=
  (∀ (s : State) (fl : Nat) (f : Flight) (p : Part), s.flight? fl = some f → f.parts[0]? = some p → f.kind = .mcrd →
    p.state = .sent → s.mayPerform f f.parts = true → s.issuersDone f = true → exec (.mcrdRequestArrival fl) s = .next (s.mcrdArrive f)) ∧
  (∀ (s : State) (stream : Nat) (m : Stream) (bs : List Byte),
    (s.streams.find? fun m => m.id == stream && m.next < m.count) = some m → m.got = none →
    (∃ u, s.peek m.asid (m.src + m.next * 128) 128 = (.bytes (bs.map some), u) ∧ u.streams = s.streams ∧
      u.deliveries = s.deliveries ∧ u.serial = s.serial) →
    ∃ t, exec (.mcrdLineSend stream) s = .next t ∧ t.deliveries = s.deliveries ++
      [⟨m.id, m.next, m.offset + m.next * 128, bs, m.pairs.map fun (c, k, _) => (c, k), m.flights⟩] ∧
      t.streams = modifyWhere (·.id == m.id) (fun m => { m with next := m.next + 1, got := none }) s.streams) ∧
  (∀ (s : State) (stream : Nat) (m : Stream),
    (s.streams.find? fun m => m.id == stream && m.next == m.count && m.tail < m.tailEnd) = some m →
    exec (.mcrdTailReplay stream) s = .next (s.sendLine m m.tail
      ((m.pairs.filter fun (_, _, k) => m.tail < k).map fun (c, k, _) => (c, k)) fun m => { m with tail := m.tail + 1 })) ∧
  (∀ (s : State) (delivery : Nat) (d : Delivery), s.deliveries[delivery]? = some d →
    exec (.mcrdLineDeliver delivery) s = .next (State.settleStream
      ((d.flights.filterMap ({ s with deliveries := s.deliveries.eraseIdx delivery } : State).flight?).foldl
        (fun s f => s.deliverTo d f) { s with deliveries := s.deliveries.eraseIdx delivery }) d.stream))

/-- Waits end (17 R401, R402; 08 R206; 18 R459; 13 R316; 07 R185, R186): MWAIT_TIMEOUT gives code 3, but not while a MON is
still to be armed, and SPURIOUS_WAKE code 2, YLD_EXPIRE ends
a YLD, QUIET_TIMEOUT gives status 2, each in its slices only; SPCFG_COMPLETE gives the die its ways, once those it takes
from the cache are empty or those it gives back are no longer reached, and lets the slices go on. -/
def Obligations.WaitsEnd : Prop :=
  (∀ (s : State) (crew member slice : Nat), ∃ f g h : Slice → Slice,
    exec (.mwaitTimeout crew member slice) s = .next (s.mapGang crew member (·.mapSlice slice f)) ∧
    exec (.spuriousWake crew member slice) s = .next (s.mapGang crew member (·.mapSlice slice g)) ∧
    exec (.yldExpire crew member slice) s = .next (s.mapGang crew member fun x => x.mapSlices (x.partySlices slice) h) ∧
    (∀ sl since t m, sl.wait = .mwait since t → t ≠ 0 → since + t ≤ s.clock.toNat → sl.wake = none → sl.monitor = some m →
      m.event = none → f sl = if s.monPending crew member slice then sl else { sl with wake := some 3 }) ∧
    (∀ sl since t, sl.wait = .mwait since t → t = 0 ∨ s.clock.toNat < since + t → f sl = sl) ∧
    (∀ sl m, sl.monitor = some m → m.event = none → (∀ t, sl.spur = some t → t + 65536 ≤ s.clock.toNat) →
      g sl = { sl with monitor := some { m with event := some 2 }, spur := some s.clock.toNat }) ∧
    (∀ sl t, sl.spur = some t → s.clock.toNat < t + 65536 → g sl = sl) ∧
    (∀ sl til, sl.wait = .yld til → h sl = if til ≤ s.clock.toNat then { sl with wait := .none } else sl)) ∧
  (∀ (s : State) (crew member party : Nat), ∃ f : Slice → Slice,
    exec (.quietTimeout crew member party) s = .next (s.mapGang crew member fun x => x.mapSlices (x.partySlices party) f) ∧
    ∀ sl job w since t, sl.wait = .quiet job w since t → sl.wake = none →
      f sl = if t ≠ 0 ∧ since + t ≤ s.clock.toNat then { sl with wake := some 2 } else sl) ∧
  (∀ (s : State) (crew member : Nat) (c : Crew) (g : Gang), (∀ d ∈ s.crews, d.id = crew → d = c) → s.crew? crew = some c →
    c.member? member = some g →
    (∀ slice sl since t m, g.slices[slice]? = some sl → sl.wait = .mwait since t → t ≠ 0 → since + t ≤ s.clock.toNat →
      sl.wake = none → sl.monitor = some m → m.event = none → s.monPending crew member slice = false → exec (.mwaitTimeout crew member slice) s =
        .next (s.mapGang crew member (·.mapSlice slice fun sl => { sl with wake := some 3 }))) ∧
    (∀ slice sl m, g.slices[slice]? = some sl → sl.monitor = some m → m.event = none →
      (∀ t, sl.spur = some t → t + 65536 ≤ s.clock.toNat) → exec (.spuriousWake crew member slice) s =
        .next (s.mapGang crew member (·.mapSlice slice fun sl =>
          { sl with monitor := some { m with event := some 2 }, spur := some s.clock.toNat }))) ∧
    (∀ party, (∀ i ∈ g.partySlices party, ∃ til, (g.slice i).wait = .yld til ∧ til ≤ s.clock.toNat) →
      exec (.yldExpire crew member party) s =
        .next (s.mapGang crew member fun x => x.mapSlices (x.partySlices party) fun sl => { sl with wait := .none })) ∧
    (∀ party, (∀ i ∈ g.partySlices party, (g.slice i).wake = none ∧
        ∃ job w since t, (g.slice i).wait = .quiet job w since t ∧ t ≠ 0 ∧ since + t ≤ s.clock.toNat) →
      exec (.quietTimeout crew member party) s =
        .next (s.mapGang crew member fun x => x.mapSlices (x.partySlices party) fun sl => { sl with wake := some 2 }))) ∧
  (∀ (s : State) (die : Nat) (r : Resize), s.spcfg.getD die none = some r →
    let ended (u : State) : State :=
      (u.resize die r).mapGang r.thread.crew r.thread.member (Gang.endSpcfg die r.thread.party u.issued)
    (s.chipWays.getD die 0 < r.ways → (s.drainWays die r.ways).drained die r.ways = true →
      exec (.spcfgComplete die) s = .next (ended (s.drainWays die r.ways))) ∧
    (r.ways ≤ s.chipWays.getD die 0 → s.chipBusy die (r.ways * wayBytes) r = false →
      exec (.spcfgComplete die) s = .next (ended s) ∧ (ended s).chipWays = s.chipWays.set die r.ways ∧
      (ended s).spcfg = s.spcfg.set die none ∧
      (r.ways < s.chipWays.getD die 0 → ∀ m, s.chip[die]? = some m →
        (ended s).chip[die]? = some (m.filter fun (k, _) => 16 - r.ways ≤ k % 16))))

/-- The engines' steps (06 R140, R143, R145, R152, R155 to R161; 05 R109; 18 R446, R449): an instruction starts when the
rest of its queue lets it; a multiplication changes its canvas, gives back the tokens it did not use and delivers its
completion word; TCLR empties its canvas, TSTG gives its image, TTBL writes palette FIRST + m, modulo 64, for each of
the palettes of its image and leaves the others, a drain writes its copies and
its status word. The instants at which operands are read and drains are written are the model's reading (assumption
22). -/
def Obligations.EngineStepsComplete : Prop :=
  (∀ (s : State) (engine pos : Nat) (o : EngOp) (c : Crew), (s.engine engine).queue[pos]? = some o → s.crew? o.crew = some c →
    o.started = false → (s.engine engine).mayStart pos o = true → s.issueSeen o = true →
    ∃ (t : State) (o' : EngOp), exec (.engineInstructionStart engine pos) s = .next t ∧ t.engine engine =
      { s.engine engine with queue := (s.engine engine).queue.set pos o' } ∧ o'.started = true ∧ o'.kind = o.kind ∧
      o'.id = o.id ∧ o'.canvas = o.canvas ∧ t.crews = s.crews ∧ t.tokens = s.tokens) ∧
  (∀ (s : State) (engine pos cycles : Nat) (o : EngOp), (s.engine engine).queue[pos]? = some o → o.started = true →
    (o.kind = .tmma → 2 ≤ cycles → cycles ≤ o.wcb →
      exec (.tmmaComplete engine pos cycles) s =
        .next (s.finishMat engine pos cycles o (o.multiply (s.engine engine).palette))) ∧
    (o.kind = .dmma → exec (.dmmaComplete engine pos) s = .next (s.finishMat engine pos 21 o o.multiplyDigits)) ∧
    (o.kind = .tclr → ∃ t, exec (.tclrComplete engine pos) s = .next t ∧ t.engine engine =
      { s.engine engine with
        canvases := listModify (s.engine engine).canvases o.canvas fun _ => emptyCanvas
        queue := (s.engine engine).queue.eraseIdx pos }) ∧
    (o.kind = .tstg → exec (.tstgComplete engine pos) s =
      .next ((s.mapEngine engine fun e => e.giveStage pos o.canvas (o.bImg.getD [])).retireOp engine pos)) ∧
    (o.kind = .ttbl → ∃ t, exec (.ttblComplete engine pos) s = .next t ∧
      (t.engine engine).queue = (s.engine engine).queue.eraseIdx pos ∧
      (t.engine engine).canvases = (s.engine engine).canvases ∧ t.crews = s.crews ∧
      ∀ n, (t.engine engine).palette n =
        let m := (n + 64 - bitsOf o.ctl 0 6) % 64
        if n < 64 ∧ m ≤ bitsOf o.ctl 6 6 then
          (fmtCbEntry o.fmt, BitVec.ofNat 128 (leValue (((o.aImg.getD []).drop (16 * m)).take 16)))
        else (s.engine engine).palette n) ∧
    (o.kind = .tdrn → ∀ c, s.crew? o.crew = some c →
      let copies := o.drain ((s.engine engine).canvas o.canvas)
      let u : State := { (s.seenBy fun r => o.id < r.serial).writeDrain c o copies with spcfg := s.spcfg }
      let v := if drnClear o.ctl then u.mapCanvas engine o.canvas fun _ => emptyCanvas else u
      let x := match drnRelease o.ctl, o.tag with
        | true, some n => v.mapCluster c.cluster fun cl => { cl with tags := tabErase cl.tags n }
        | _, _ => v
      exec (.drainComplete engine pos) s =
        .next ((x.retireOp engine pos).deliverWord o.dst (o.drainWord ((s.engine engine).canvas o.canvas) copies))))

/-- TOKEN_ARBITRATION and TOKEN_AGE (10 R258): the level first rises by the refill, never over the capacity; while an aged
request waits, the oldest of them is granted if the level covers it, and no other; while none is aged, the easels are
considered once each from the one after the last granted, and each request that the remaining level covers is
granted; a request that has waited TOKEN_AGE cycles is aged. How long a request stands is the model's reading
(assumption 25). -/
def Obligations.PowerTokensAreGranted : Prop :=
  (∀ (s : State), ∃ t, exec .tokenArbitration s = .next t ∧ t.crews = s.crews ∧ t.engines = s.engines ∧
    t.tokens + ((t.granted.drop s.granted.length).map Prod.snd).sum =
      min (bitsOf s.tokenCtl 0 24) (s.tokens + bitsOf s.tokenCtl 24 16) ∧
    (let level := min (bitsOf s.tokenCtl 0 24) (s.tokens + bitsOf s.tokenCtl 24 16)
     ((∃ r ∈ s.tokenReqs, s.requestAged r = true) → ∃ r ∈ s.tokenReqs, s.requestAged r = true ∧
        (∀ q ∈ s.tokenReqs, s.requestAged q = true → r.since ≤ q.since) ∧
        (r.units ≤ level → t.granted = s.granted ++ [(r.easel, r.units)] ∧ t.lastGrant = r.easel ∧
          t.tokenReqs = s.tokenReqs.filter (· != r)) ∧
        (level < r.units → t.granted = s.granted ∧ t.lastGrant = s.lastGrant ∧ t.tokenReqs = s.tokenReqs)) ∧
     ((∀ r ∈ s.tokenReqs, s.requestAged r = false) →
        let round := (List.range 24).filterMap fun k => s.requestOf ((s.lastGrant + 1 + k) % 24)
        let won := grantRound level round
        t.granted = s.granted ++ won.map (fun r => (r.easel, r.units)) ∧
        t.lastGrant = (won.getLast?.map (·.easel)).getD s.lastGrant ∧
        t.tokenReqs = s.tokenReqs.filter (!won.contains ·)))) ∧
  (∀ (s : State) (easel : Nat), exec (.tokenAge easel) s = .next { s with tokenReqs := s.tokenReqs.map fun r =>
    if r.easel == easel && (r.aged || r.since + bitsOf s.schedCtl 32 16 ≤ s.clock.toNat) then { r with aged := true } else r })

/-- RECORD_PUSH, SCHED_AGE, SKIP_LIMIT and RECORD_POP (10 R236, R238 to R240): a push whose turn it is enters its queue
while an entry is free, and waits while neither the queue nor its spill ring has room; ageing raises a waiting
record's priority one step for each period; a record passed over SKIP_LIMIT times blocks; a pop fails the record that
breaks a rule and loads the one that fits. Which queue comes first is a free choice (assumption 18), and only on-chip
entries are considered (assumption 39). -/
def Obligations.RecordsAreScheduled : Prop :=
  (∀ (s : State) (push : Nat) (p : Push), s.pushes[push]? = some p → s.pushTurn push p = true → s.pushDropped p = false →
    (s.spilled p.queue = [] → (s.onChip p.queue).length < 64 →
      exec (.recordPush push) s = .next (State.pushMade
        { s with pushes := s.pushes.eraseIdx push, serial := s.serial + 1, records := s.records ++ [s.newQueued p false] } p)) ∧
    (64 ≤ (s.onChip p.queue).length → s.spillRoom p.queue = false → exec (.recordPush push) s = .next s)) ∧
  (∀ (s : State) (n : Nat), exec (.schedAge n) s = .next { s with records := s.records.map fun r =>
    let period : Nat := 1024 * bitsOf s.schedCtl 0 16
    if r.id = n ∧ period ≠ 0 ∧ r.prio < 3 ∧ r.since + period ≤ s.clock.toNat then
      { r with boosts := r.boosts + 1, since := r.since + period
               topAt := if r.rcd.prio + r.boosts = 2 then s.clock.toNat else r.topAt }
    else r }) ∧
  (∀ (s : State) (n : Nat), exec (.skipLimit n) s = .next { s with records := s.records.map fun r =>
    if r.id = n ∧ s.skipLimit ≤ r.skips then { r with blocking := true } else r }) ∧
  (∀ (s u : State) (cluster : Nat) (q : QueuedRec) (skipped : List Nat), cluster < 24 →
    let s1 := ((((({ s with freeCount := s.freeCount + 1 } : State).returnBuffers none).2.refill cluster 64).refill
      (24 + cluster / 12) 64).refill (25 - cluster / 12) 64)
    let chosen := s1.choose cluster (match s1.blockingAt cluster with | some b => [b] | none => s1.considered cluster) []
    let tidy (t : State) : State := (t.refill cluster 64).refill (24 + cluster / 12) 64
    (∀ st, chosen = (some (q, .fails st, skipped), u) → exec (.recordPop cluster) s = .next (tidy (u.failRecord q cluster st))) ∧
    (chosen = (some (q, .now, skipped), u) → exec (.recordPop cluster) s = .next (tidy (State.load
      { u with records := u.records.map fun r => if skipped.contains r.id then { r with skips := r.skips + 1 } else r } q cluster
        (u.room cluster [])))) ∧
    (chosen = (none, u) → exec (.recordPop cluster) s = .next (tidy u)))

/-- CREW_START and CREW_DONE (10 R241, R244; 02 R45): a loaded crew whose bank is free starts, its images read from its
save frame, its fault log applied and the frame given back first; a crew all of whose members have finished, with nothing left in flight, is DONE, makes its
completion signals and is gone. -/
def Obligations.CrewsStartAndEnd : Prop :=
  (∀ (s : State) (c : Crew), s.crew? c.id = some c → c.state = .loading → s.bankFree c = true →
    exec (.crewStart c.id) s = .next (s.resume c)) ∧
  (∀ (s : State) (c : Crew), s.crew? c.id = some c → c.state = .loading → s.bankFree c = true → c.seq = none → c.log = [] →
    c.frame = none → ∃ (t : State) (d : Crew), exec (.crewStart c.id) s = .next t ∧ t.crew? c.id = some d ∧ d.state = .running ∧
      d.started = s.serial ∧ d.cluster = c.cluster ∧ t.records = s.records ∧ t.hbm = s.hbm ∧
      ((∀ f ∈ s.flights, f.complete = false ∧ f.kind ≠ .fence) → t.flights = s.flights)) ∧
  (∀ (s : State) (c : Crew), s.crew? c.id = some c → c.state = .running → c.finished = true → s.crewQuiet c = true →
    s.crewCounted c = true → exec (.crewDone c.id) s =
      .next ((s.mapCrew c.id fun k => { k with state := .done }).finishCrew { c with state := .done })) ∧
  (∀ (s : State) (c : Crew), s.crew? c.id = some c → c.finished = false ∨ s.crewQuiet c = false →
    exec (.crewDone c.id) s = .next s)

/-- Pre-emption (02 R43 to R45; 10 R259 to R261): PREEMPT_REQUEST stops a RUNNING crew; PREEMPT_WAIT stops the victim of a
record that has waited at priority 3, and loads the record where it has room beside the victim; PREEMPT_STOPPED takes a
stopped crew out of its bank once it has its frames and its images are in them; CONTEXT_SAVED puts its record back in its
former queue, while an entry is free, at its former age, and loads a record that waited for the crew's partition;
STANDBY_RESUME makes it RUNNING again. Priorities compared and the way of a victim are the model's reading (assumptions 46,
47), and so is that a crew that resumes counts as started then (assumption 130). -/
def Obligations.CrewsArePreempted : Prop :=
  (∀ (s : State) (context : Nat), exec (.preemptRequest context) s =
    .next (s.mapCrew context fun c => if c.state = .running then { c with state := .stopping } else c)) ∧
  (∀ (s : State) (n : Nat) (r : QueuedRec) (c : Crew), (s.records.find? fun r => r.id == n && !r.spilled) = some r →
    bitsOf s.schedCtl 16 16 ≠ 0 → r.prio = 3 → r.topAt + 1024 * bitsOf s.schedCtl 16 16 ≤ s.clock.toNat →
    s.poolEmpty framePool = false → s.placeable r = false → (∀ k ∈ s.crews, k.victimOf ≠ some n) → s.victimFor r = some c →
    let u := s.mapCrew c.id fun k => { k with state := .stopping, victimOf := some n }
    ∃ f v, u.fitIn r (u.roomBeside c.cluster c.id) (u.easelFree c.cluster [c.id]) = (f, v) ∧
      (f = .now → exec (.preemptWait n) s = .next (v.load r c.cluster (v.roomBeside c.cluster c.id))) ∧
      (f ≠ .now → exec (.preemptWait n) s = .next v)) ∧
  (∀ (s u : State) (c : Crew) (v : State), s.crew? c.id = some c → c.state = .stopping → c.finished = false → s.stopped c = true →
    s.streamBusy c (s.standbyOn c) = false →
    s.takeFrames ((if c.seq.isSome || s.tight c then [c] else []) ++ s.standbyOn c) = (true, u) →
    u.writeEasel c = (true, v) →
    exec (.preemptStopped c.id) s = .next (v.rotate c (s.standbyOn c) (s.tight c))) ∧
  (∀ (s u : State) (c : Crew), s.crew? c.id = some c → c.state = .stream → (s.onChip c.queue).length < 64 →
    s.writeFrame c c.easelLength (c.bankBytes ++ c.log.flatMap FaultLog.bytes) = (true, u) →
    ∃ q, q.id = c.age ∧ q.queue = c.queue ∧ q.saved = some c.id ∧ q.rcd = c.rcd ∧ exec (.contextSaved c.id) s = .next
      (((State.mapCrew { u with records := u.records ++ [q] } c.id fun k =>
        { k with state := .saved, victimOf := none }).takeIn c).streamTight c.cluster)) ∧
  (∀ (s : State) (c : Crew), s.crew? c.id = some c → c.state = .standby → c.victimOf = none → (∀ k ∈ c.cores, s.coreFree c.cluster k [] = true) →
    c.seq = none ∨ s.easelFree c.cluster [] = true →
    exec (.standbyResume c.id) s = .next (s.resume c))

/-- The steps of the shared queues and of acceptance (09 R215 to R218, R223, R234; 19 R460): the next command in turn goes
into the lowest free slot, where a malformed packet ends with its status; a queue with its next packet's stamp in
place is consumed; DOORBELL is a look; a write of a queue's entry sets its ENABLE and its address, and with ENABLE 1 checks
the descriptor there, which reads back with ENABLE clear where it breaks R214, as does one that a look finds broken; an
append goes on from its claim or its wait. What a queue look needs (assumption 34), that reserved doubles of a descriptor
are not looked at (assumption 93), that a packet held back is not consumed (assumption 127) and that an address outside
every space clears ENABLE too (assumption 128) are the model's reading. -/
def Obligations.CommandsAreAccepted : Prop :=
  (∀ (s : State) (cluster k : Nat) (cmd : Command), s.nextCommand cluster = some cmd →
    ((List.range 16).find? fun k => (s.slot cluster k).state == .free) = some k →
    ∃ u : State, exec (.packetAccept cluster) s = .next (u.acceptAt cluster k cmd) ∧ u = { s with clusters := u.clusters } ∧
      (u.cluster cluster).slots = (s.cluster cluster).slots ∧ (u.cluster cluster).turn = cmd.sourceNo) ∧
  (∀ (s : State) (cluster k : Nat) (cmd : Command), cmd.kind ≠ .xqap → packetStatus cmd.packet (cmd.kind == .xcpr) ≠ 0 →
    s.acceptAt cluster k cmd = (State.mapSlot { s with serial := s.serial + 1 } cluster k fun _ =>
      { freeSlot with state := .active, cmd := some cmd, since := s.clock.toNat, order := s.serial }).endCommand ⟨cluster, k, cmd⟩
        (packetStatus cmd.packet (cmd.kind == .xcpr))) ∧
  (∀ (s : State) (cluster entry : Nat), exec (.doorbell cluster entry) s = exec (.queueLook cluster entry) s) ∧
  (∀ (s u v : State) (cluster q : Nat) (d : QueueDesc) (p : List Double), (s.queueEntry cluster q).desc.getLsbD 0 = true →
    (s.queueEntry cluster q).faulted = false → (s.cluster cluster).room ≠ 0 →
    (∀ o ∈ s.farOps, o.user ≠ (s.lookRef cluster q).looker) →
    bteLook (s.lookRef cluster q) (s.queueEntry cluster q).addr s = (.ok (some (d, p)), u) →
    bitsOf (dbl p 0) 16 16 = d.stamp d.rd → u.mayStart cluster q p = true →
    bteConsume (s.lookRef cluster q) q (s.queueEntry cluster q).addr d p u = (.ok (), v) →
    let left := v.farOps.filter fun o => !(o.user == (s.lookRef cluster q).looker && o.kind == 0)
    exec (.queueLook cluster q) s = .next { v with farOps := left } ∧
    exec (.doorbell cluster q) s = .next { v with farOps := left }) ∧
  (∀ (s : State) (cluster entry : Nat) (value : Double), value.getLsbD 0 = false →
    exec (.queueTableWrite cluster entry value) s =
      .next ((s.farDone (.look cluster entry)).mapQueue cluster entry fun e =>
        { e with desc := value &&& ~~~0x3E, faulted := false })) ∧
  (∀ (s u : State) (cluster entry : Nat) (value : Double) (bs : List Byte), value.getLsbD 0 = true →
    let w := (s.farDone (.look cluster entry)).mapQueue cluster entry fun e =>
      { e with desc := value &&& ~~~0x3E, faulted := false }
    let r := w.lookRef cluster entry
    let addr := (w.queueEntry cluster entry).addr
    let clear (x : State) : State := x.mapQueue cluster entry fun e => { e with desc := e.desc &&& ~~~1 }
    let log2 := bitsOf (dbl (doublesOf bs) 1) 0 5
    let scope := bitsOf (dbl (doublesOf bs) 1) 5 3
    let keeps : Prop := 2 ≤ log2 ∧ log2 ≤ 16 ∧ 3 ≤ scope ∧ scope ≤ 6 ∧ bitsOf (dbl (doublesOf bs) 1) 8 56 = 0 ∧
      (dbl (doublesOf bs) 0).toNat % (64 * 2 ^ log2) = 0
    (∀ place, w.btePlace r addr 64 = some place → bteBytes r addr 64 w = (.ok bs, u) →
      (keeps → exec (.queueTableWrite cluster entry value) s = .next u) ∧
      (¬keeps → exec (.queueTableWrite cluster entry value) s = .next (clear u) ∧
        ((clear u).queueEntry cluster entry).desc.getLsbD 0 = false)) ∧
    (w.btePlace r addr 64 = none → exec (.queueTableWrite cluster entry value) s = .next (clear w)) ∧
    ∀ code va, (∃ place, w.btePlace r addr 64 = some place) → bteBytes r addr 64 w = (.error (.fault code va), u) →
      exec (.queueTableWrite cluster entry value) s = .next ((u.mapQueue cluster entry fun e =>
        { e with faulted := true }).postEvent (faultEvent (0x9000 + 16 * cluster + entry) r.cmd.asid code va))) ∧
  (∀ (s u : State) (cluster q : Nat), (s.queueEntry cluster q).desc.getLsbD 0 = true →
    (s.queueEntry cluster q).faulted = false → (s.cluster cluster).room ≠ 0 →
    (∀ o ∈ s.farOps, o.user ≠ (s.lookRef cluster q).looker) →
    bteLook (s.lookRef cluster q) (s.queueEntry cluster q).addr s = (.ok none, u) →
    let left := u.farOps.filter fun o => !(o.user == (s.lookRef cluster q).looker && o.kind == 0)
    exec (.queueLook cluster q) s = .next (State.mapQueue { u with farOps := left } cluster q fun e =>
      { e with desc := e.desc &&& ~~~1 })) ∧
  (∀ (s : State) (cluster slot : Nat) (sl : Slot) (r : BteRef), s.command? cluster slot = some (sl, r) → r.cmd.kind = .xqap →
    sl.state = .active ∨ (sl.state = .waiting ∧ sl.wait = .slotRoom) →
    exec (.xqapAppend cluster slot) s =
      .next ((s.mapSlot cluster slot fun k => { k with
        state := .active, wait := .none, fetched := if sl.wait == .slotRoom then [] else k.fetched }).runCommand r (bteAppend r)))

/-- The transforms (09 R222, R224 to R227): a step of each runs the active command of its XF and leaves a command of another
XF, and XCPR_DATA_ARRIVAL writes one register of every lane of the gang it goes to. -/
def Obligations.TransformsRun : Prop :=
  (∀ (s : State) (cluster slot : Nat) (sl : Slot) (r : BteRef), s.command? cluster slot = some (sl, r) → sl.state = .active →
    r.cmd.kind ≠ .xqap → pktType r.cmd.packet = 1 →
    (pktXf r.cmd.packet = 0x00 → exec (.copy cluster slot) s = .next (s.runCopy r)) ∧
    (pktXf r.cmd.packet = 0x01 → exec (.transpose cluster slot) s = .next (s.runCopy r)) ∧
    (pktXf r.cmd.packet = 0x02 → exec (.convert cluster slot) s = .next (s.runCopy r)) ∧
    (pktXf r.cmd.packet = 0x03 → exec (.convertTranspose cluster slot) s = .next (s.runCopy r)) ∧
    (pktXf r.cmd.packet = 0x04 → exec (.quantise cluster slot) s = .next (s.runCopy r)) ∧
    (pktXf r.cmd.packet = 0x05 → exec (.quantiseTranspose cluster slot) s = .next (s.runCopy r)) ∧
    (pktXf r.cmd.packet = 0x06 → exec (.crumbEncode cluster slot) s = .next (s.runCopy r)) ∧
    (pktXf r.cmd.packet = 0x07 → exec (.crumbDecode cluster slot) s = .next (s.runCopy r)) ∧
    (pktXf r.cmd.packet = 0x08 → exec (.paletteExpand cluster slot) s = .next (s.runCopy r)) ∧
    (pktXf r.cmd.packet = 0x09 → exec (.gather cluster slot) s = .next (s.runCopy r)) ∧
    (pktXf r.cmd.packet = 0x0A → exec (.scatter cluster slot) s = .next (s.runCopy r)) ∧
    (pktXf r.cmd.packet = 0x0D → exec (.fill cluster slot) s = .next (s.runCopy r)) ∧
    (r.cmd.kind = .packet → pktXf r.cmd.packet = 0x0B →
      exec (.scaleMax cluster slot) s = .next (s.runCommand r (bteScaleMax r))) ∧
    (r.cmd.kind = .packet → pktXf r.cmd.packet = 0x0C →
      exec (.alignedIntegerSum cluster slot) s = .next (s.runCommand r (bteIntegerSum r)))) ∧
  (∀ (s u : State) (cluster slot : Nat) (sl : Slot) (r : BteRef), s.command? cluster slot = some (sl, r) → sl.state = .active →
    r.cmd.kind = .packet → pktType r.cmd.packet = 1 →
    let stream : Bool := (tileOf r.cmd.packet).contiguous
    let went (u : State) : State := if stream then { u with streaming := s.streaming } else u
    (∀ i, transformOf cluster slot (pktXf r.cmd.packet) = some i →
      (bteCopy r (if stream then { s with streaming := true } else s) = (.ok (), u) → exec i s = .next (went u)) ∧
      (bteCopy r (if stream then { s with streaming := true } else s) = (.error (.stop 0), u) →
        exec i s = .next (went (u.endCommand r 0)))) ∧
    (pktXf r.cmd.packet = 0x0B → bteScaleMax r s = (.error (.stop 0), u) →
      exec (.scaleMax cluster slot) s = .next (u.endCommand r 0)) ∧
    (pktXf r.cmd.packet = 0x0C → bteIntegerSum r s = (.error (.stop 0), u) →
      exec (.alignedIntegerSum cluster slot) s = .next (u.endCommand r 0)) ∧
    ∀ k status, u.command? cluster slot = some (k, r) →
      let d := (u.endCommand r status).slot cluster slot
      d.state = .completing ∧ d.status = status ∧ d.bytes = k.bytes ∧ d.sat = k.sat ∧ d.ufl = k.ufl ∧
      (∀ o ∈ (u.endCommand r status).owned, o.owner ≠ r.owner) ∧ SameMemory u (u.endCommand r status)) ∧
  (∀ (s : State) (r : BteRef) (t : Tile) (xf i j bits : Nat) (table : List Byte), xf ≠ 0x09 → fmtWidth t.sf = 8 →
    (t.orow + i).toNat * t.sp * 8 + (t.ocol + j).toNat * 8 = 8 * bits → bits < 2 ^ 63 → t.src + bits < 2 ^ 64 →
    0 ≤ t.orow + i → t.orow + i < t.erows → 0 ≤ t.ocol + j → t.ocol + j < t.ecols →
    ∀ place, s.btePlace r (t.src + bits) 1 = some place → place.isGlobal = false →
      bteElem r t xf table i j s = (.ok (.code (leValue (s.readLocal (r.cmd.crew.getD 0) 0 place 1))), s)) ∧
  (∀ (s : State) (r : BteRef) (t : Tile) (p q : Nat) (m : Made) (place : Place), r.cmd.kind = .packet → fmtWidth t.df % 8 = 0 →
    s.btePlace r (t.dst + p * t.dp + q * (fmtWidth t.df / 8)) (fmtWidth t.df / 8) = some place → place.isGlobal = false →
    bteEmit r t p q m s = (.ok (), (s.writeLocal (r.cmd.crew.getD 0) 0 place (leBytes (fmtWidth t.df / 8) m.code)).mapSlot
      r.cluster r.slot fun k =>
        { k with
          bytes := k.bytes + fmtWidth t.df / 8, sat := min (k.sat + m.sat) 0xFFF, ufl := min (k.ufl + m.ufl) 0xFFF
          invalid := k.invalid || m.invalid })) ∧
  (∀ (s : State) (cluster slot rank : Nat) (sl : Slot) (r : BteRef), s.command? cluster slot = some (sl, r) →
    sl.state = .waiting → sl.wait = .reduction →
    exec (.reductionContribution cluster slot rank) s = .next (s.runCommand r (bteArrived r rank)) ∧
    ∀ u, bteArrived r rank s = (.ok (), u) → exec (.reductionContribution cluster slot rank) s = .next u) ∧
  (∀ (s : State) (cluster slot row : Nat) (sl : Slot) (r : BteRef) (ws : List Word) (c : Crew) (g : Gang),
    s.command? cluster slot = some (sl, r) → sl.rows.lookup row = some ws → 1 < sl.rows.length →
    s.crew? (r.cmd.crew.getD 0) = some c → c.gangs[bitsOf (dbl r.cmd.packet 7) 0 4]? = some g → g.isSeq = false →
    ws.length ≤ g.lanes.length →
    ∃ (t : State) (d : Crew) (h : Gang), exec (.xcprDataArrival cluster slot row) s = .next t ∧
      t.crew? (r.cmd.crew.getD 0) = some d ∧ d.gangs[bitsOf (dbl r.cmd.packet 7) 0 4]? = some h ∧
      (∀ l w, ws[l]? = some w → h.readReg l (.v row) = w.toNat) ∧
      (∀ l j, j ≠ row → h.readReg l (.v j) = g.readReg l (.v j)) ∧ t.hbm = s.hbm ∧ t.lines = s.lines) ∧
  (∀ (s : State) (cluster slot : Nat) (sl : Slot) (r : BteRef), s.command? cluster slot = some (sl, r) →
    (∀ xf i, transformOf cluster slot xf = some i → xf ≠ pktXf r.cmd.packet → exec i s = .next s) ∧
    (pktXf r.cmd.packet ≠ 0x0B → exec (.scaleMax cluster slot) s = .next s) ∧
    (pktXf r.cmd.packet ≠ 0x0C → exec (.alignedIntegerSum cluster slot) s = .next s))

/-- The other commands of the block-transfer engines (09 R213, R231, R234; 10 R245, R246, R253): each step of LAUNCH,
GRAPH, WAITVAL and SIGNAL runs the active command of its TYPE; a further read, a timeout whose condition does not hold at
last, a launch slot, a buffer or the nodes' turn let a waiting one go on; a slot that a freeze has parked resumes; the record of a completing command
is written. When WAITVAL reads, when a malformed graph is refused, and how a replay ends, are the model's reading
(assumptions 33, 35, 36). -/
def Obligations.QueueCommandsRun : Prop :=
  ∀ (s : State) (cluster slot : Nat) (sl : Slot) (r : BteRef), s.command? cluster slot = some (sl, r) →
    let p := r.cmd.packet
    let again := s.mapSlot cluster slot fun k => { k with state := .active, wait := .none }
    let afresh := s.mapSlot cluster slot fun k => { k with state := .active, wait := .none, fetched := [] }
    let pushes : Prop := ∀ l, sl.launchNo = some l → s.launchOpen l = true
    (sl.state = .active → r.cmd.kind = .packet →
      (pktType p = 2 → exec (.launch cluster slot) s = .next (s.launchStep cluster slot) ∧
        ∀ u, bteLaunch r s = (.ok (), u) → exec (.launch cluster slot) s = .next u) ∧
      (pktType p = 3 → pushes → exec (.graph cluster slot) s = .next (again.runLaunch r (bteGraph r)) ∧
        ∀ u, bteGraph r again = (.ok (), u) → exec (.graph cluster slot) s = .next u) ∧
      (pktType p = 4 → exec (.waitval cluster slot) s = .next (s.runCommand r (bteWaitval r)) ∧
        ∀ x u, bteDouble r (dbl p 1).toNat (s.mapSlot cluster slot fun k => { k with readAt := s.clock.toNat }) = (.ok x, u) →
          (waitHolds p x = true → exec (.waitval cluster slot) s = .next (u.endCommand r 0)) ∧
          (waitHolds p x = false → exec (.waitval cluster slot) s =
            .next (u.mapSlot cluster slot fun k => { k with state := .waiting, wait := .value }))) ∧
      (pktType p = 5 → exec (.signal cluster slot) s = .next (s.runCommand r (bteSignal r)) ∧
        ((dbl p 1).toNat = 0 → exec (.signal cluster slot) s = .next (s.endCommand r 0)) ∧
        (∀ u, (dbl p 1).toNat ≠ 0 → sl.next = 0 → (dbl p 3).getLsbD 0 = false →
          bteStore r (dbl p 1).toNat (leBytes 8 (dbl p 2).toNat) s = (.ok (), u) → u.slotQuiet cluster slot = true →
          exec (.signal cluster slot) s =
            .next ((u.mapSlot cluster slot fun k => { k with next := 1, bytes := 8 }).endCommand r 0)) ∧
        (∀ u v x, (dbl p 1).toNat ≠ 0 → sl.next = 0 → (dbl p 3).getLsbD 0 = true →
          (bteRemote r (dbl p 1).toNat 8 >>= fun _ => bteDouble r (dbl p 1).toNat) s = (.ok x, u) →
          (bteRemote r (dbl p 1).toNat 8 s).1 = .ok none →
          bteStore r (dbl p 1).toNat (leBytes 8 (x + (dbl p 2).toNat)) u = (.ok (), v) → v.slotQuiet cluster slot = true →
          exec (.signal cluster slot) s =
            .next ((v.mapSlot cluster slot fun k => { k with next := 1, bytes := 8 }).endCommand r 0)))) ∧
    (sl.state = .waiting → sl.wait = .value →
      exec (.waitvalRead cluster slot) s = .next ((s.mapSlot cluster slot fun k =>
        { k with state := .active, wait := .none, reread := false, fetched := [] }).runCommand r (bteWaitval r)) ∧
      (bitsOf (dbl p 4) 32 32 ≠ 0 → sl.reread = false → s.clock.toNat ≤ sl.readAt + 4096 →
        sl.since + 1024 * bitsOf (dbl p 4) 32 32 ≤ s.clock.toNat →
        exec (.waitvalTimeout cluster slot) s = .next (s.endCommand r (if s.localHolds r then 0 else 5)))) ∧
    (sl.state = .waiting → r.cmd.kind = .packet → pktType p = 3 → s.slotQuiet cluster slot = true → pushes →
      (sl.wait = .graphBuffer → exec (.graphBufferReady cluster slot) s = .next (afresh.runLaunch r (bteGraph r))) ∧
      (sl.wait = .graphNodes → exec (.graphNodesStart cluster slot) s = .next (afresh.runLaunch r (bteGraph r))) ∧
      (sl.wait = .launchSlot → exec (.launchSlotGrant cluster slot) s = .next (afresh.runLaunch r (bteGraph r))) ∧
      (sl.wait = .launchDone → exec (.graph cluster slot) s = .next (afresh.runLaunch r (bteGraph r)))) ∧
    (sl.state = .waiting → sl.wait = .launchSlot → pktType p ≠ 3 →
      exec (.launchSlotGrant cluster slot) s = .next (again.launchStep cluster slot)) ∧
    (sl.state = .parked → sl.faultCode = 0 → exec (.bteSlotResume cluster slot) s =
      .next (s.mapSlot cluster slot fun k => if k.state == .parked && k.faultCode == 0 then { k with state := .active } else k)) ∧
    (sl.state = .completing → exec (.completionRecordWrite cluster slot) s = .next (s.writeRecord sl r) ∧
      (sl.wait = .none → s.slotQuiet cluster slot = false → exec (.completionRecordWrite cluster slot) s = .next s) ∧
      (sl.wait = .none → s.slotQuiet cluster slot = true → s.noRecord sl r = true →
        exec (.completionRecordWrite cluster slot) s = .next (s.releaseSlot cluster slot)) ∧
      ∀ u, sl.wait = .none → s.slotQuiet cluster slot = true → s.noRecord sl r = false → (s.ring r.cmd.ring).roomy = true → s.ringBusy r = false →
        bteStore (s.recorder r) (s.ring r.cmd.ring).next
          (bytesOfDoubles (sl.record p (s.ring r.cmd.ring).phase s.clock)) s = (.ok (), u) → u.slotQuiet cluster slot = true →
        exec (.completionRecordWrite cluster slot) s = .next (u.recordDone sl r))

/-- Completion rings (09 R228, R231 to R233; 13 R321): a ring counts each record with INTR set or a STATUS other than OK, from
the first of which its time runs; it raises its interrupt when its count reaches COAL_COUNT or COAL_TIME has passed, and
counts afresh, and it raises none with no counted record; a write of RD_INDEX makes room; the oldest event record goes to
ring 63. -/
def Obligations.RingsRaiseInterrupts : Prop :=
  (∀ (s : State) (sl : Slot) (r : BteRef), let t := s.recordDone sl r; let n := r.cmd.ring
    let counted : Bool := (dbl r.cmd.packet 0).getLsbD 53 || sl.status != 0
    (t.ring n).count = (s.ring n).count + (if counted then 1 else 0) ∧ (t.ring n).wr = (s.ring n).wr + 1 ∧
    (t.ring n).since = (if counted && (s.ring n).count == 0 then s.clock.toNat else (s.ring n).since) ∧
    ∀ m, m ≠ n → t.ring m = s.ring m) ∧
  (∀ (s : State) (n : Nat) (counted : Bool), let t := s.recordWritten n counted
    (t.ring n).count = (s.ring n).count + (if counted then 1 else 0) ∧
    (t.ring n).since = (if counted && (s.ring n).count == 0 then s.clock.toNat else (s.ring n).since)) ∧
  (∀ (s : State) (ring : Nat), (s.ring ring).enabled = false ∨ (s.ring ring).count = 0 →
    exec (.ringCoalCount ring) s = .next s ∧ exec (.ringCoalTime ring) s = .next s) ∧
  (∀ (s : State) (ring : Nat), (s.ring ring).enabled = true → 0 < (s.ring ring).count →
    let raised : State := State.mapRing { s with hostOut := s.hostOut ++
      [.interrupt (bitsOf (s.ring ring).conf 5 1) (bitsOf (s.ring ring).conf 8 16)] } ring fun r => { r with count := 0 }
    (bitsOf (s.ring ring).conf 24 8 ≤ (s.ring ring).count → exec (.ringCoalCount ring) s = .next raised) ∧
    ((s.ring ring).count < bitsOf (s.ring ring).conf 24 8 → exec (.ringCoalCount ring) s = .next s) ∧
    (bitsOf (s.ring ring).conf 32 24 ≠ 0 → (s.ring ring).since + bitsOf (s.ring ring).conf 32 24 ≤ s.clock.toNat →
      exec (.ringCoalTime ring) s = .next raised) ∧
    (bitsOf (s.ring ring).conf 32 24 = 0 ∨ s.clock.toNat < (s.ring ring).since + bitsOf (s.ring ring).conf 32 24 →
      exec (.ringCoalTime ring) s = .next s)) ∧
  (∀ (s : State) (ring : Nat) (value : Double), ∃ t, exec (.ringRdIndexWrite ring value) s = .next t ∧
    t.ring ring = { s.ring ring with rd := value } ∧ (∀ n, n ≠ ring → t.ring n = s.ring n) ∧ t.hbm = s.hbm ∧ t.crews = s.crews) ∧
  (∀ (s u : State) (e : EventRec) (rest : List EventRec) (va : Nat), s.eventBuf = e :: rest → (s.ring 63).enabled = true →
    s.eventStuck = false → (s.ring 63).roomy = true → s.place? none none none 0 (s.ring 63).next 32 = some (.global va) →
    s.agentPoke .events 0 0 s.supAsid va (bytesOfDoubles
      [e.d0 ||| BitVec.ofNat 64 (2 ^ 63 * (s.ring 63).phase), e.d1, e.d2, s.clock]) = (.done, u) →
    exec .eventRecordDrain s =
      .next (State.recordWritten { u.farDone .events with eventBuf := rest } 63 (e.d0.toNat % 256 != 0)))

/-- Fault-resume and translation requests (11 R268, R269, R278, R479, R480): the context number says what is made again or given
up; a request of a home drops what it covers. What ABORT does to the device's own accesses (assumption 51), the cause code
0x0F and the address 0 of the event of a crew that ABORT gives up (assumptions 117 and 133), and that a translation request
completes in one step (assumption 74) are the model's. -/
def Obligations.WaitingAccessesResume : Prop :=
  ∀ (s : State),
    (∀ context, context < 0x8000 → (let t := s.replay context fun _ _ _ => true
        exec (.faultResume context) s = .next { t with
          flights := t.flights.map fun f => if f.crew = context then { f with held := false } else f }) ∧
      exec (.faultResumeAbort context) s = .next (s.abandonCrew context Cause.abandon.code 0)) ∧
    (∀ cluster slot, cluster < 24 → slot < 16 →
      exec (.faultResume (0x8000 + 16 * cluster + slot)) s = .next (s.mapSlot cluster slot fun sl =>
        if sl.state == .parked then { sl with state := .active, faultCode := 0, faultVa := 0 }
        else if sl.state == .completing && sl.wait == .record then { sl with wait := .none } else sl) ∧
      exec (.faultResumeAbort (0x8000 + 16 * cluster + slot)) s = .next (s.abortSlot cluster slot) ∧
      exec (.faultResume (0x9000 + 16 * cluster + slot)) s =
        .next (s.mapQueue cluster slot fun e => { e with faulted := false }) ∧
      exec (.faultResumeAbort (0x9000 + 16 * cluster + slot)) s = .next (s.mapQueue cluster slot fun e =>
        if e.faulted then { e with faulted := false, desc := e.desc &&& ~~~1 } else e)) ∧
    exec (.faultResume 0xFFFF) s = .next ((s.writeBacks.filter (·.fault.isSome)).foldl
      (fun t w => t.makeWriteBack { w with fault := none })
      { s with writeBacks := s.writeBacks.map fun w => { w with fault := none } }) ∧
    exec (.faultResumeAbort 0xFFFF) s = .next ((s.writeBacks.filter (·.fault.isSome)).foldl State.flushEnded
      { s with writeBacks := s.writeBacks.filter (·.fault.isNone) }) ∧
    exec (.faultResume 0xFFFD) s = .next (State.retryDevice { s with deviceAcc := [] } s.deviceAcc) ∧
    exec (.faultResumeAbort 0xFFFD) s = .next (State.dropDevice { s with deviceAcc := [] } s.deviceAcc) ∧
    (∀ asid va, asid ≠ aliasAsid → exec (.tlbiRequestPage asid va) s = .next (s.tlbiPage asid va)) ∧
    (∀ asid, asid ≠ aliasAsid → ∃ t, exec (.tlbiRequestAsid asid) s = .next t ∧ (∀ e ∈ t.tlb, e.asid ≠ asid ∧ e ∈ s.tlb) ∧
      (∀ e ∈ s.tlb, e.asid ≠ asid → e ∈ t.tlb) ∧ t.lines = s.lines ∧ t.hbm = s.hbm) ∧
    (∃ t, exec .tlbiRequestAll s = .next t ∧ t.tlb = [] ∧ t.walkCache = [] ∧ t.lines = s.lines ∧ t.hbm = s.hbm)

/-- Page migration (08 R204; 11 R282, R283): a request that can be served leaves IDLE and one that cannot ends with EVENT
3; the copy and its rounds follow while the leaf is as it was found; the freeze waits for ownership; then the leaf
names the new frame. What ends a copy is the model's reading (assumption 50). -/
def Obligations.PagesMigrate : Prop :=
  ∀ (s : State) (unit : Nat) (m : Migration), s.migrations[unit]? = some m →
    (∀ w, m.state = 0 → (s.walk m.asid m.va).1 = w →
      (m.usable unit w = true → exec (.migrationStart unit) s = .next ((s.walked w).mapUnit unit fun m => { m with
        state := 1, rounds := 0, dirty := [], copying := [], due := false, entry := w.entry, pte := w.pte })) ∧
      (m.usable unit w = false →
        exec (.migrationStart unit) s = .next ((s.walked w).abortMigration unit m w.code))) ∧
    (∀ ecc u, m.state = 1 → s.frameBusy m = false → s.leafChanged m = false →
      (s.leafRead m).streamLines m ecc (List.range (frameBytes m.level m.pte / 128)) = (true, u) →
      exec (.migrationCopyDone unit ecc) s =
        .next (u.mapUnit unit fun m => { m with state := 2, copying := m.dirty, dirty := [] })) ∧
    (∀ ecc u, m.state = 2 → m.due = false → s.frameBusy m = false → s.leafChanged m = false →
      (s.leafRead m).streamLines m ecc (m.copying.flatMap m.frameLines) = (true, u) →
      exec (.migrationRoundDone unit ecc) s = .next (u.mapUnit unit fun m =>
        if m.dirty.length ≤ m.freezeLines ∨ m.roundLimit ≤ m.rounds + 1 then
          { m with rounds := m.rounds + 1, copying := [], due := true }
        else { m with rounds := m.rounds + 1, copying := m.dirty, dirty := [] })) ∧
    (m.state = 2 → m.due = true → (∀ o ∈ s.owned, m.holds o.asid (o.line * 128) = false) → s.leafChanged m = false →
      exec (.migrationFreeze unit) s = .next ((s.leafRead m).mapUnit unit fun m => { m with state := 3 })) ∧
    (∀ v, m.state = 3 → s.frameBusy m = false → s.leafChanged m = false →
      ((s.leafRead m).lastCopy m).poke deviceOwner aliasAsid m.entry (leBytes 8 (moveLeaf m.pte m.newFrame).toNat) = (.done, v) →
      exec (.migrationDone unit) s = .next ((((v.tlbiPage m.asid m.va).retarget m).mapUnit unit fun m =>
        { m with state := 0, due := false, dirty := [], copying := [] }).migrationEvent m 0 0)) ∧
    (m.state ≠ 0 → s.frameBusy m = false → s.leafChanged m = true →
      (m.state = 1 → ∀ ecc, exec (.migrationCopyDone unit ecc) s = .next ((s.leafRead m).abortMigration unit m 0)) ∧
      (m.state = 3 → exec (.migrationDone unit) s = .next ((s.leafRead m).abortMigration unit m 0)))

/-- Registers of the window and the management controller (09 R233; 13 R312, R320; 14 R326 to R330): a semaphore is taken
when free and freed by its holder; a counter clears to 0; a report latches its nonce, and its completion advances SEQ;
telemetry shows the clock's wait count; a job entry's double 0 is written, and the first entry of a job to be enabled at
its root begins a wave; every other register takes its writable bits: the doubles from 0x108 to 0x138, rings, handler
entries, inbound windows, migration blocks, pools, the nonce, attributes of queues, double 1 of job entries, the root and
the route table, the staging area; the reserved offsets take none; and a double written at an offset whose write is a
request, through a host's window, is that step. What reserved bits keep, what a unit at work does with its block, and the
instant a report shows (assumptions 65, 66, 67, 72), the number of a job's first wave and which of two entries begins it
(assumption 64), HBM_C and the value of ROLLBACK_MIN in telemetry (assumptions 73, 76), and that a write of 0x120 acts at
once on the readings as they stand (assumption 103) are the model's reading. -/
def Obligations.ManagementRegistersWork : Prop :=
  (∀ (s : State) (sem owner : Nat), 1 ≤ owner → owner ≤ 3 → sem < s.sems.length →
    (s.sems.getD sem 1 = 0 → exec (.semaphoreTake sem owner) s = .next { s with sems := s.sems.set sem owner }) ∧
    (s.sems.getD sem 1 ≠ 0 → exec (.semaphoreTake sem owner) s = .next s) ∧
    (s.sems.getD sem 1 = owner → exec (.semaphoreFree sem owner) s = .next { s with sems := s.sems.set sem 0 }) ∧
    (s.sems.getD sem 1 ≠ owner → exec (.semaphoreFree sem owner) s = .next s)) ∧
  (∀ (s : State), exec .droppedClear s = .next { s with dropped := 0 }) ∧
  (∀ (s : State) (stack k : Nat), stack < 8 → k < 8 → exec (.counterClear (0x81000 + 64 * stack + 8 * k)) s =
    .next { s with stackCounters := listModify s.stackCounters stack fun cs => cs.set k 0 }) ∧
  (∀ (s : State) (block k : Nat), block < 51 → k < 6 → exec (.counterClear (0x82000 + 64 * block + 8 * k)) s =
    .next { s with portCounters := tabPut 0 s.portCounters (6 * block + k) 0 }) ∧
  (∀ (s : State), (s.attCtl.getD 0 0 = 1 → exec .attestationStart s = .next { s with attCtl := s.attCtl.set 2 1 }) ∧
    (s.attCtl.getD 0 0 ≠ 1 → exec .attestationStart s =
      .next { s with attCtl := (s.attCtl.set 0 1).set 1 0, latched := s.nonce })) ∧
  (∀ (s : State), s.attCtl.getD 0 0 ≠ 0 → ∃ t, exec .attestationReportDone s = .next t ∧
    t.report = s.attestReport ((s.attCtl.getD 3 0 + 1) % 2 ^ 32) ∧ t.attCtl.getD 3 0 = (s.attCtl.getD 3 0 + 1) % 2 ^ 32 ∧
    (s.attCtl.getD 2 0 = 1 → t.attCtl.getD 0 0 = 1 ∧ t.latched = s.nonce) ∧
    (s.attCtl.getD 2 0 ≠ 1 → t.attCtl.getD 0 0 = 0 ∧ t.attCtl.getD 1 0 = 1)) ∧
  (∀ (s : State), ∃ t v, exec .telemetryRefresh s = .next t ∧
    t = { s with freeCount := s.freeCount + 1, telemetry := [v, s.tokenWait], rollbackMin := t.rollbackMin } ∧
    s.rollbackMin ≤ t.rollbackMin ∧ t.rollbackMin ≤ max s.rollbackMin s.fwVersion ∧
    bitsOf v 48 8 = ((List.range 8).map s.heat).foldl max 0 % 256) ∧
  (∀ (s : State) (die entry : Nat) (value : Double), die < 2 → entry < 256 →
    value.getLsbD 24 = false ∨ bitsOf value 0 24 = 0 → exec (.jobEntryWrite die entry value) s =
      .next (s.setJob die entry 0 (value &&& jobMask))) ∧
  (∀ (s : State) (die entry : Nat) (value : Double), die < 2 → entry < 256 → value.getLsbD 24 = true →
    bitsOf value 0 24 ≠ 0 →
    let job := bitsOf value 0 24
    let u := s.setJob die entry 0 (value &&& jobMask)
    exec (.jobEntryWrite die entry value) s = .next
      (if s.treeDie job = none ∧ u.isRoot job = true ∧ (∀ x ∈ u.waves, x.job = job → x.ended.isSome = true) then
        u.runPass job (u.nextWave job) 1 else u)) ∧
  (∀ (s : State) (v : Double),
    exec (.registerWrite 0x108 v) s = .next { s with tokenCtl := BitVec.ofNat 64 (v.toNat % 2 ^ 40) } ∧
    exec (.registerWrite 0x110 v) s = .next { s with schedCtl := BitVec.ofNat 64 (v.toNat % 2 ^ 56) } ∧
    exec (.registerWrite 0x118 v) s = .next { s with memCtl := BitVec.ofNat 64 (v.toNat % 2 ^ 55) } ∧
    exec (.registerWrite 0x130 v) s = .next { s with handlerPc := v } ∧
    exec (.registerWrite 0x138 v) s = .next { s with supAsid := bitsOf v 0 12 } ∧
    exec (.registerWrite 0x128 v) s = .next { s with fabricCtl := v &&& fabricMask, accelSet := true } ∧
    exec (.registerWrite 0x120 v) s = .next (State.reheat { s with thermal := thermalWrite s.thermal v }) ∧
    (∀ k, k < 4096 → exec (.registerWrite (0x10000 + 8 * k) v) s =
      .next { s with rootTable := tabPut 0 s.rootTable k v }) ∧
    (∀ k, k < 1024 → exec (.registerWrite (0x40000 + 8 * k) v) s =
      .next { s with routes := tabPut 0 s.routes k (BitVec.ofNat 64 (v.toNat % 2 ^ 48)) })) ∧
  (∀ (s : State) (o : Nat) (v : Double), o % 8 ≠ 0 ∨ (0x140 ≤ o ∧ o < 0x1000) → exec (.registerWrite o v) s = .next s) ∧
  (∀ (s : State) (r : Nat) (v : Double), r < 64 →
    let put (x : Ring) : State :=
      { s with rings := tabPut noRing s.rings r x, eventStuck := s.eventStuck && r != 63 }
    exec (.registerWrite (0x1000 + 32 * r) v) s = .next (put { s.ring r with base := v }) ∧
    exec (.registerWrite (0x1000 + 32 * r + 8) v) s = .next (put { s.ring r with conf := v &&& ringMask }) ∧
    exec (.registerWrite (0x1000 + 32 * r + 16) v) s = .next (put (s.ring r))) ∧
  (∀ (s : State) (q : Nat) (v : Double), q < 64 →
    let put (k : Nat) (x : Double) : State := { s with handlers := tabPut 0 s.handlers (4 * q + k) x }
    exec (.registerWrite (0x2000 + 32 * q) v) s = .next (put 0 v) ∧
    exec (.registerWrite (0x2000 + 32 * q + 8) v) s = .next (put 1 (BitVec.ofNat 64 (v.toNat % 2 ^ 17))) ∧
    exec (.registerWrite (0x2000 + 32 * q + 16) v) s = .next (put 2 v) ∧
    exec (.registerWrite (0x2000 + 32 * q + 24) v) s = .next s) ∧
  (∀ (s : State) (w : Nat) (v : Double), w < 32 →
    let put (k n : Nat) : State := { s with windows := tabPut 0 s.windows (4 * w + k) (BitVec.ofNat 64 (v.toNat % 2 ^ n)) }
    exec (.registerWrite (0x3000 + 32 * w) v) s = .next (put 0 56) ∧
    exec (.registerWrite (0x3000 + 32 * w + 8) v) s = .next (put 1 17) ∧
    exec (.registerWrite (0x3000 + 32 * w + 16) v) s = .next (put 2 36) ∧
    exec (.registerWrite (0x3000 + 32 * w + 24) v) s = .next s) ∧
  (∀ (s : State) (k : Nat) (v : Double) (m : Migration), k < 8 → s.migrations[k]? = some m →
    let put (x : Migration) : State := { s with migrations := s.migrations.set k (if m.state = 0 then x else m) }
    exec (.registerWrite (0x4000 + 32 * k) v) s = .next (put { m with d0 := BitVec.ofNat 64 (v.toNat % 2 ^ 56) }) ∧
    exec (.registerWrite (0x4000 + 32 * k + 8) v) s = .next (put { m with d1 := v }) ∧
    exec (.registerWrite (0x4000 + 32 * k + 16) v) s = .next (put { m with d2 := BitVec.ofNat 64 (v.toNat % 2 ^ 52) }) ∧
    exec (.registerWrite (0x4000 + 32 * k + 24) v) s = .next s) ∧
  (∀ (s : State) (n : Nat) (v : Double), n < 29 →
    let put (k : Nat) (x : Double) : State := { s with pools := tabPut 0 s.pools (4 * n + k) x }
    exec (.registerWrite (0x5000 + 32 * n) v) s = .next (put 0 v) ∧
    exec (.registerWrite (0x5000 + 32 * n + 8) v) s = .next (put 1 (BitVec.ofNat 64 (v.toNat % 2 ^ 5))) ∧
    exec (.registerWrite (0x5000 + 32 * n + 16) v) s = .next s ∧
    exec (.registerWrite (0x5000 + 32 * n + 24) v) s = .next (if n < 3 then put 3 v else s)) ∧
  (∀ (s : State) (k : Nat) (v : Double), k < 4 →
    exec (.registerWrite (0x6020 + 8 * k) v) s = .next { s with nonce := s.nonce.set k v }) ∧
  (∀ (s : State) (c e : Nat) (v : Double), c < 24 → e < 16 →
    exec (.registerWrite (0x20000 + 0x200 * c + 32 * e + 16) v) s =
      .next (s.mapQueue c e fun x => { x with attrs := BitVec.ofNat 64 (v.toNat % 2 ^ 36) })) ∧
  (∀ (s : State) (d e : Nat) (v : Double), d < 2 → e < 256 →
    exec (.registerWrite (0x30000 + 0x4000 * d + 64 * e + 8) v) s =
      .next (s.setJob d e 1 (BitVec.ofNat 64 (v.toNat % 2 ^ 60)))) ∧
  (∀ (s : State) (k : Nat) (v : Double), k < 2 ^ 21 → exec (.registerWrite (0x1000000 + 8 * k) v) s =
    .next { s with staging := memSetBytes s.staging (8 * k) (leBytes 8 v.toNat), staged := true }) ∧
  (∀ (s : State) (owner o : Nat) (v : Double), o % 8 = 0 → ∃ i, (s.windowWrite owner o (leBytes 8 v.toNat)) =
      { s with agenda := .event i :: s.agenda } ∧
    (o = 0x100 → owner ≠ 0 → v.getLsbD 3 = true → i = .reset) ∧
    (o = 0x140 → i = if v.getLsbD 16 then .faultResumeAbort (bitsOf v 0 16) else .faultResume (bitsOf v 0 16)) ∧
    (o = 0x148 → bitsOf v 12 2 = 0 → i = .tlbiRequestPage (bitsOf v 0 12) (2 ^ 16 * bitsOf v 24 40)) ∧
    (o = 0x148 → bitsOf v 12 2 = 1 → i = .tlbiRequestAsid (bitsOf v 0 12)) ∧
    (o = 0x148 → bitsOf v 12 2 = 2 → i = .tlbiRequestAll) ∧
    (o = 0x150 → i = .preemptRequest (bitsOf v 0 16)) ∧
    (o = 0x158 → v = 0 → i = .droppedClear) ∧
    (∀ k, k < 32 → o = 0x200 + 8 * k → owner ≠ 0 →
      i = if v.getLsbD 0 then .semaphoreTake k owner else .semaphoreFree k owner) ∧
    (∀ r, r < 64 → o = 0x1000 + 32 * r + 24 → i = .ringRdIndexWrite r v) ∧
    (∀ k, k < 8 → o = 0x4000 + 32 * k + 24 → v.getLsbD 3 = true → i = .migrationStart k) ∧
    (o = 0x6000 → v.getLsbD 0 = true → i = .attestationStart) ∧
    (∀ c e, c < 24 → e < 16 → (o = 0x20000 + 0x200 * c + 32 * e → i = .queueTableWrite c e v) ∧
      (o = 0x20000 + 0x200 * c + 32 * e + 8 → i = .doorbell c e)) ∧
    (∀ d e, d < 2 → e < 256 → o = 0x30000 + 0x4000 * d + 64 * e → i = .jobEntryWrite d e v) ∧
    (o = 0x108 ∨ (0x110 ≤ o ∧ o ≤ 0x138) → i = .registerWrite o v))

/-- Sending over the fabric and its repair (13 R305, R306, R311, R315): a message leaves by a port of its target's route
and is counted injected; its answer ends it; an overdue one enters QUERY, where the query is sent again; NOT PERFORMED
makes it LOST and PERFORMED delivers it; a query is answered from the requests performed. The statuses of refused
messages are the model's reading (assumptions 53, 54). -/
def Obligations.MessagesAreSentAndRepaired : Prop :=
  (∀ (s : State) (m : Message) (p : Nat), (s.messages.find? fun x => x.id == m.id && x.state == .ready) = some m →
    s.mayInject m = true → m.job = 0 ∨ (s.jobEntry? m.die m.job).isSome = true →
    (s.routePorts m.target)[natBits m.pa 7 33 % (s.routePorts m.target).length]? = some p → s.outstandingTo m.target < 4096 →
    let sent := s.messages.map fun x =>
      if x.id = m.id then { x with port := p, state := .outstanding, since := s.clock.toNat } else x
    exec (.messageInject m.id) s = .next (State.countInjected { s with messages := sent } m.die m.job 1)) ∧
  (∀ (s : State) (m : Message) (payload : List Double), s.message? m.id .outstanding = some m →
    exec (.messageResponse m.id 0 payload) s = .next (s.answered m (some payload) (dbl payload 0).toNat) ∧
    exec (.messageResponse m.id 1 payload) s = .next ((s.portCount m.port cFabErr).answered m none 4) ∧
    exec (.messageResponse m.id 2 payload) s =
      .next (((s.countInjected m.die m.job (-1)).portCount m.port cFabErr).answered m none 4)) ∧
  (∀ (s : State) (m : Message), s.message? m.id .outstanding = some m →
    (m.since + 1024 * bitsOf s.fabricCtl 16 16 ≤ s.clock.toNat → exec (.respTimeout m.id) s = .next (s.toQuery m)) ∧
    (s.clock.toNat < m.since + 1024 * bitsOf s.fabricCtl 16 16 → exec (.respTimeout m.id) s = .next s)) ∧
  (∀ (s : State) (m : Message), s.message? m.id .query = some m →
    (m.since + 1024 * bitsOf s.fabricCtl 32 16 ≤ s.clock.toNat → exec (.queryWait m.id) s = .next { s with
      messages := modifyWhere (·.id == m.id) (fun m => { m with since := s.clock.toNat }) s.messages
      control := s.control ++ [.query m.target m.id] }) ∧
    exec (.queryAnswer m.id 0) s = .next (s.loseMessage m) ∧
    exec (.queryAnswer m.id 1) s = .next (s.deliverMessage m)) ∧
  (∀ (s : State) (source tag : Nat), s.inHand source tag = true → exec (.queryReceive source tag) s = .next s) ∧
  (∀ (s : State) (source tag : Nat), s.inHand source tag = false → ∃ t, exec (.queryReceive source tag) s = .next t ∧
    t.control = s.control ++ [.answer source tag (s.tags.any fun t => t.source == source && t.tag == tag && t.performed)] ∧
    ((∀ x ∈ s.tags, x.source = source → x.tag = tag → x.performed = false) → ⟨source, tag, false⟩ ∈ t.tags))

/-- Requests of peers (13 R304, R309, R311, R315, R318, R322): one that no window admits is refused and counted; one of a
job without an entry is refused with its own code; one that is served is noted, counted consumed and answered, one whose
page lies in another device is passed on, and one whose home cannot serve it yet changes nothing but what its service
has begun; a request that was answered NOT PERFORMED is discarded; an active message ends with its status.  A read
gives its line, and a 64-bit fetch-and-add its old value. Codes of requests, the
counting of refused messages and the size check of a window are the model's (assumptions 12, 57, 58, 61). -/
def Obligations.PeerRequestsAreServed : Prop :=
  (∀ (s : State) (origin tag kind offset size job : Nat) (payload : List Double),
    let port := origin / 1024 % 48
    let source := origin % 1024
    let place := s.inbound srcFabric offset size (messageWrites kind)
    let die := targetDie port place
    (s.discarded source tag = true → exec (.inboundFabricRequest origin tag kind offset size job payload) s = .next s ∧
      exec (.amsgReceive origin tag job payload) s = .next s) ∧
    (s.discarded source tag = false → job ≠ 0 → s.jobEntry? die job = none →
      exec (.inboundFabricRequest origin tag kind offset size job payload) s = .next (s.refusePeer port source tag 2)) ∧
    (s.discarded source tag = false → job = 0 ∨ (s.jobEntry? die job).isSome = true →
      (place = none → exec (.inboundFabricRequest origin tag kind offset size job payload) s =
        .next ((s.refusePeer port source tag 1).countConsumed die job 1)) ∧
      ∀ asid va, place = some (asid, va) →
        (∀ data poison u, s.serve source tag kind asid va payload job die = .done data poison u →
          exec (.inboundFabricRequest origin tag kind offset size job payload) s =
            .next (((u.noteTag source tag).countConsumed die job 1).respond source tag 0 data)) ∧
        (∀ u, s.serve source tag kind asid va payload job die = .pushed u →
          exec (.inboundFabricRequest origin tag kind offset size job payload) s =
            .next ((u.noteTag source tag).countConsumed die job 1)) ∧
        (∀ code at_ u, s.serve source tag kind asid va payload job die = .fault code at_ u →
          exec (.inboundFabricRequest origin tag kind offset size job payload) s =
            .next (((u.refusePeer port source tag 1).countConsumed die job 1).postEvent (faultEvent 0xFFFE asid code at_))) ∧
        (∀ target off u, s.serve source tag kind asid va payload job die = .far target off u →
          exec (.inboundFabricRequest origin tag kind offset size job payload) s =
            .next (u.newMessage (.relay none source tag) none kind target off size payload job die)) ∧
        ∀ u, s.serve source tag kind asid va payload job die = .held u →
          exec (.inboundFabricRequest origin tag kind offset size job payload) s = .next u) ∧
    (∀ n u, s.discarded source tag = false → job = 0 ∨ (s.jobEntry? (s.handlerDie port (bitsOf (dbl payload 0) 10 6)) job).isSome = true →
      s.deviceAcc.contains (.message (bitsOf (dbl payload 0) 10 6) port source tag job payload) = false →
      s.receive port source tag job payload = .status n u →
      exec (.amsgReceive origin tag job payload) s = .next (if n = 0 then (u.noteTag source tag).respond source tag 0 [0]
        else ((u.portCount port cRefused).countConsumed (s.handlerDie port (bitsOf (dbl payload 0) 10 6)) job 1).respond
          source tag 0 [BitVec.ofNat 64 n]))) ∧
  (∀ (s u : State) (source tag asid va job die : Nat) (payload : List Double) (bs : List (Option Byte)),
    s.ownedSpan asid (va / 128 * 128) 128 = false → s.devPeek asid (va / 128 * 128) 128 = (.bytes bs, u) →
    s.serve source tag 0 asid va payload job die = .done (doublesOf (bs.map u.orFill)) (bs.contains none) u) ∧
  (∀ (s u v : State) (source tag asid va job die : Nat) (payload : List Double) (bs : List (Option Byte)),
    s.ownedSpan asid va 8 = false → s.devPeek asid va 8 = (.bytes bs, u) →
    let old := leValue (bs.map u.orFill)
    u.devPoke deviceOwner asid va (leBytes 8 (old + (dbl payload 0).toNat)) = (.done, v) →
    s.serve source tag 14 asid va payload job die = .done [BitVec.ofNat 64 old] false v)

/-- The proof wave (13 R312 to R314, R316): the root begins a wave a PERIOD after the last; DOWN begins a pass at a node
and is sent on; UP adds a child's sums; with the last child's of the second pass the root decides the wave exactly when
both passes agree in injected, consumed and lost, both have nothing pending and as much was consumed as injected; DECIDE sets DECIDED, wakes what waits and is sent on.
The number of the next wave and the instant a node is read at are the model's reading (assumptions 63, 64). -/
def Obligations.WavesProve : Prop :=
  (∀ (s : State) (job : Nat) (x : Wave) (t : Nat), (s.waves.find? (·.job == job)) = some x → x.ended = some t →
    s.isRoot job = true →
    (t + s.wavePeriod job ≤ s.clock.toNat → exec (.waveStart job) s = .next (s.runPass job (s.nextWave job) 1)) ∧
    (s.clock.toNat < t + s.wavePeriod job → exec (.waveStart job) s = .next s)) ∧
  (∀ (s : State) (job wave pass : Nat), (s.treeDie job).isSome = true →
    (s.isRoot job = false → exec (.down job wave pass) s = .next (s.runPass job wave pass)) ∧
    (s.isRoot job = true → exec (.down job wave pass) s = .next s)) ∧
  (∀ (s : State) (job wave pass child : Nat) (payload : List Double) (x : Wave),
    (s.waves.find? fun x => x.job == job && x.w == wave && x.pass == pass && x.left.contains child) = some x →
    exec (.up job wave pass child payload) s = .next ((s.putWave
      { x with left := x.left.erase child, sums := addSums x.sums (payload.map BitVec.toNat) }).settleWave job 2)) ∧
  (∀ (s : State) (job wave child : Nat) (payload : List Double) (x : Wave) (a : List Nat),
    (s.waves.find? fun x => x.job == job && x.w == wave && x.pass == 2 && x.left.contains child) = some x →
    x.left = [child] → x.ended = none → x.first = some a → s.isRoot job = true →
    let b := addSums x.sums (payload.map BitVec.toNat)
    let u := s.putWave { x with left := [], sums := b, ended := some s.clock.toNat }
    (a.getD 0 0 = b.getD 0 0 ∧ a.getD 1 0 = b.getD 1 0 ∧ a.getD 2 0 = b.getD 2 0 ∧ a.getD 3 0 = 0 ∧ b.getD 3 0 = 0 ∧
        a.getD 0 0 = a.getD 1 0 →
      exec (.up job wave 2 child payload) s = .next (u.takeDecision job wave (b.getD 2 0))) ∧
    (¬ (a.getD 0 0 = b.getD 0 0 ∧ a.getD 1 0 = b.getD 1 0 ∧ a.getD 2 0 = b.getD 2 0 ∧ a.getD 3 0 = 0 ∧ b.getD 3 0 = 0 ∧
        a.getD 0 0 = a.getD 1 0) →
      exec (.up job wave 2 child payload) s = .next u)) ∧
  (∀ (s : State) (job wave lost : Nat), (s.treeDie job).isSome = true → ∃ t, exec (.decide job wave lost) s = .next t ∧
    t.control = s.control ++ ((s.setDecided job wave).childrenOf job).map (fun c => Control.decide c job wave lost) ∧
    t.jobs = (s.setDecided job wave).jobs ∧ t.crews = s.crews.map (·.mapAllSlices (Slice.decide_ job wave lost)) ∧
    ∀ sl since n w0, sl.wait = .quiet job w0 since n → w0 < wave → sl.wake = none →
      (Slice.decide_ job wave lost sl).wake = some ((if lost = 0 then 0 else 1) + 2 ^ 8 * min lost (2 ^ 24 - 1)))

/-- Ports and hosts (13 R301, R302, R315, R319 to R322; 14 R323, R324): training brings a port up with four lanes or two;
a retrain is counted, and one past the limit takes the port down; a replay is counted; a hot reset or a lost link
frees the port's semaphores; a host reads and writes the window, and reaches memory only while the device is READY.
Numbers of host requests and the reading of a training result are the model's (assumptions 12, 62). -/
def Obligations.PortsAndHostsWork : Prop :=
  (∀ (s : State) (port lanes : Nat), s.accelSet = true → exec (.portTraining port lanes) s = .next (s.mapLink port fun _ =>
    ⟨lanes == 4 || lanes == 2, (if lanes == 4 || lanes == 2 then lanes else 0), s.fabricCtl.getLsbD 52, 0⟩)) ∧
  (∀ (s : State) (port : Nat) (l : Link), s.ports[port]? = some l → l.up = true →
    exec (.portRetrain port) s = .next ((s.mapLink port fun l => { l with fails := l.fails + 1 }).portCount port cRetrain) ∧
    (max 1 (bitsOf s.fabricCtl 48 4) ≤ l.fails → (∀ m ∈ s.messages, m.port = port → m.state ≠ .outstanding) →
      exec (.retrainLimit port) s = .next (s.mapLink port fun _ => ⟨false, 0, l.slow, 0⟩)) ∧
    (l.fails < max 1 (bitsOf s.fabricCtl 48 4) → exec (.retrainLimit port) s = .next s)) ∧
  (∀ (s : State) (port : Nat), port < 2 → s.ports.length ≤ 48 → s.linkUp.getD port false = true →
    exec (.portRetrain (48 + port)) s = .next (s.portCount (48 + port) cRetrain)) ∧
  (∀ (s : State) (port : Nat), port < 50 → exec (.linkLevelReplay port) s = .next (s.portCount port cReplay)) ∧
  (∀ (s : State) (port : Nat), port < 2 →
    let freed := s.sems.map fun o => if o = port + 1 then 0 else o
    exec (.hostHotReset port) s = .next { s with sems := freed, linkUp := s.linkUp.set port true } ∧
    exec (.hostLinkLoss port) s = .next { s with sems := freed, linkUp := s.linkUp.set port false }) ∧
  (∀ (s : State) (port offset size : Nat) (payload : List Double), port < 2 → s.linkUp.getD port false = true →
    (s.device = .ready → exec (.hostRequest port 8 offset size payload) s =
      .next (s.answerHost port 0 (doublesPadded (s.windowBytes offset size)))) ∧
    (s.device = .ready → s.hostWriting port = false → exec (.hostRequest port 9 offset size payload) s =
      .next ((s.windowWrite (port + 1) offset ((bytesOfDoubles payload).take size)).noteWindow offset)) ∧
    (∀ kind, 2 ≤ kind → kind ≤ 4 → s.device = .ready → s.hostWriting port = false →
      exec (.hostRequest port (8 + kind) offset size payload) s = .next (s.hostWindowAtomic port kind offset size payload)) ∧
    (∀ kind, kind < 8 → s.device = .ready →
      exec (.hostRequest port kind offset size payload) s = .next (s.hostMemory port kind offset size payload)) ∧
    (∀ kind, kind < 8 → s.device ≠ .ready →
      exec (.hostRequest port kind offset size payload) s = .next { s with hostOut := s.hostOut ++ [.answer port 1 []] }))

/-- Reset and bring-up (14 R323 to R325; 01 R16): power-on reset and RESET put every register at its reset value, and
RESET keeps HBM, the staging area, the host links and the sensors' readings, which govern refresh and throttling at once;
the states follow one another; a boot that is not accepted leads to RECOVERY; FATAL names its cause. What RESET keeps
beside ROLLBACK_MIN is the model's reading, with what it keeps of its own (assumptions 68, 76); where the fields of an
image lie and the key its signature is tested under are free (assumptions 8, 104). -/
def Obligations.DeviceComesUp : Prop :=
  (∀ (s : State),
    let r : State := { State.reset with
      agenda := s.agenda, arbCount := s.arbCount, freeCount := s.freeCount, serial := s.serial
      rollbackMin := s.rollbackMin, hostOut := s.hostOut }
    exec .powerOnReset s = .next r ∧
    exec .reset s = .next { r with
      hbm := s.hbm, poisonPas := s.poisonPas, undelivPas := s.undelivPas, damage := s.damage
      staging := s.staging, staged := s.staged, temps := s.temps, linkUp := s.linkUp
      fastRefresh := tabulate 8 fun k => decide (85 ≤ s.heat k), throttled := tabulate 8 fun k => decide (95 ≤ s.heat k) }) ∧
  (∀ (s : State), s.device = .reset → exec .resetDone s = .next { s with device := .boot, clock := 0 }) ∧
  (∀ (s : State), s.device = .boot →
    exec .bootVerify s = .next (if s.imageOk 0 && s.imageOk 1 then
      { s with
        device := .training, fwVersion := s.headerField 0 1 3
        fwHash := sha256 (s.imageBody 0), ucodeHash := sha256 (s.imageBody 1) }
      else { s with device := .recovery }) ∧
    (s.imageOk 0 = false ∨ s.rollbackMin ≤ s.headerField 0 1 3)) ∧
  (∀ (s : State), s.device = .training → exec (.trainingDone 0) s = .next { s with device := .ready }) ∧
  (∀ (s : State) (n : Nat), s.device = .training → n < 8 → s.isLost n = false →
    exec (.trainingDone (2 ^ n)) s = .next (State.loseStack { s with device := .ready } n 1)) ∧
  (∀ (s : State), s.device ≠ .fatal →
    (∀ segment, segment < 6 → exec (.bridgeRetryFail segment) s = .next { s with device := .fatal, fatalCause := 1 }) ∧
    exec .internalParityError s = .next { s with device := .fatal, fatalCause := 3 }) ∧
  (∀ (s : State), s.device = .fatal → exec .internalParityError s = .next s)

/-- Events of the HBM stacks (12 R289 to R291, R295 to R300; 14 R324): a stack is lost with its event record; sensors set
what begins at a threshold and ends 3 °C below it, and 105 °C is FATAL; refresh and calibration take time only; the
scrubber corrects, reconstructs, and rewrites a parity that differs; rows open, for a request outside the streams in place
of every other row of its bank and for a stream in up to four subarrays, widen and close; SELECT names the driving
subarray. What ECC finds is an operand (assumption 85); UE_WINDOW and the scrubber's counters (assumptions 70, 71), and the numbering
of the sensors, 17 to a stack, whose readings act at once (assumption 103), are the model's reading. -/
def Obligations.StackEventsWork : Prop :=
  (∀ (s : State) (stack : Nat), stack < 8 → s.isLost stack = false → s.gathers = [] →
    ∃ t, t.lost = s.lost.set stack true ∧ t.hbm = s.hbm ∧ t.memState = min 2 t.lostCount ∧
      exec (.controllerFailure stack) s = .next t ∧ (s.ueReached stack = true → ∃ u, exec (.ueLimit stack) s = .next u ∧
        u.lost = t.lost ∧ u.memState = t.memState) ∧ (s.ueReached stack = false → exec (.ueLimit stack) s = .next s)) ∧
  (∀ (s : State) (sensor celsius : Nat),
    let u := State.reheat { s with temps := listModify s.temps (sensor / 17) fun ts => ts.set (sensor % 17) celsius }
    (u.heat (sensor / 17) < 105 → exec (.thermalSensorUpdate sensor celsius) s = .next u) ∧
    (105 ≤ u.heat (sensor / 17) → s.device ≠ .fatal →
      exec (.thermalSensorUpdate sensor celsius) s = .next { u with device := .fatal, fatalCause := 2 }) ∧
    (∀ k b, s.fastRefresh[k]? = some b → u.fastRefresh[k]? = some (hysteresis b (bitsOf s.thermal 0 8) (u.heat k))) ∧
    (∀ k b, s.throttled[k]? = some b → u.throttled[k]? = some (hysteresis b (bitsOf s.thermal 8 8) (u.heat k)))) ∧
  (∀ (s : State) (stack : Nat), exec (.refresh stack) s = .next s ∧ exec (.calibration stack) s = .next s) ∧
  (∀ (s : State) (stack line : Nat), stack < 8 → line < 2 ^ 29 → s.lostCount = 0 → bitsOf s.memCtl 44 8 ≠ 0 →
    s.stripeLocked line = false → s.damage = [] → s.poisonPas = [] → s.undelivPas = [] →
    (∀ k, k < 8 → (s.stackCounters.getD k []).length = 8) →
    let count (u : State) (k : Nat) : Nat := (u.stackCounters.getD stack []).getD k 0
    let once (k : Nat) : Nat := min (count s k + 1) 0xFFFFFFFF
    (stack ≠ parityStack line →
      (∃ t, exec (.scrub stack line 0) s = .next t ∧ t.hbm = s.hbm ∧ t.lines = s.lines ∧ count t ceCount = count s ceCount) ∧
      (∃ t, exec (.scrub stack line 1) s = .next t ∧ t.rawLine stack line = s.rawLine stack line ∧ t.damage = [] ∧
        count t ceCount = once ceCount) ∧
      (∃ t, exec (.scrub stack line 2) s = .next t ∧ t.rawLine stack line = s.reconstruct stack line ∧ t.damage = [] ∧
        count t ueCount = once ueCount ∧ count t reconCount = once reconCount)) ∧
    (stack = parityStack line → ∃ t, exec (.scrub stack line 0) s = .next t ∧
      t.rawLine stack line = s.reconstruct stack line ∧
      count t parityMismatch = if s.rawLine stack line = s.reconstruct stack line then count s parityMismatch else once parityMismatch)) ∧
  (∀ (s : State) (stack bank row mask : Nat), stack < 8 → bank < 1024 → row < 65536 → 0 < mask → mask < 256 →
    (∀ r ∈ s.openRows, r.stack = stack → r.bank = bank → r.row ≠ row) →
    let m := mask ||| s.queuedMask stack bank row
    (∃ t, exec (.activate stack bank row mask 0) s = .next t ∧
      (∀ r, r ∈ t.openRows ↔ r = ⟨stack, bank, row, m, false⟩ ∨ (r ∈ s.openRows ∧ ¬(r.stack = stack ∧ r.bank = bank))) ∧
      tabGet t.driving (1024 * stack + bank) 0 = row / 2048) ∧
    (s.streamTo stack bank row = true → s.openRows.Nodup → ∃ t, exec (.activate stack bank row mask 1) s = .next t ∧
      ⟨stack, bank, row, m, true⟩ ∈ t.openRows ∧ (t.openRows.filter fun r => r.inBank stack bank).length ≤ 4 ∧
      (∀ r ∈ s.openRows, ¬(r.stack = stack ∧ r.bank = bank) → r ∈ t.openRows) ∧
      (∀ r ∈ t.openRows, r.stack = stack → r.bank = bank → r.row / 2048 = row / 2048 → r.row = row) ∧
      t.driving = s.driving)) ∧
  (∀ (s : State) (stack bank row mask : Nat) (r : OpenRow), mask < 256 → r ∈ s.openRows → r.stack = stack → r.bank = bank →
    r.row = row → r.mask ||| mask ≠ r.mask →
    let widened := s.openRows.map fun r =>
      if r.stack = stack ∧ r.bank = bank ∧ r.row = row then { r with mask := r.mask ||| mask } else r
    exec (.supplementaryActivate stack bank row mask) s =
      .next (State.bump { s with openRows := widened } stack sactCount)) ∧
  (∀ (s : State) (stack bank row : Nat), ∃ t, exec (.precharge stack bank row) s = .next t ∧
    ∀ r, r ∈ t.openRows ↔ r ∈ s.openRows ∧ ¬(r.stack = stack ∧ r.bank = bank ∧ r.row = row)) ∧
  (∀ (s : State) (stack bank sub : Nat), (∃ r ∈ s.openRows, r.stack = stack ∧ r.bank = bank ∧ r.stream = true ∧ r.row / 2048 = sub) →
    exec (.select stack bank sub) s = .next { s with driving := tabPut 0 s.driving (1024 * stack + bank) sub })

/-! ### What an instruction leaves alone -/

/-- The frame of the words of `RegisterResultsComplete` whose result goes to registers (02 R22; 03 R50, R51, R54): each active
lane's destination registers hold its result, lowest word first; every other register of the gang, and everything else of
the machine but the party's place in its program and the words that its operands pop from queues, is as it was. -/
def Obligations.ResultsGoToTheirDestinations : Prop :=
  ∀ (s s' t : State) (c : Ctx) (i : Instr) (args : List (List Nat)) (dst : Slice → Use) (vals : List Nat),
    Issues s c i args s' → resultOf c s' args i = some (dst, vals) → c.port? (dst c.first) = none → exec i s = .next t →
    let regs (l : Nat) : List RegName := c.gang.regsOf (l / 4) (dst (c.gang.slice (l / 4)))
    let width : Nat := if c.gang.isSeq then 64 else 32
    OnlyThreads s t ∧ t.clusters = s'.clusters ∧ SameMemory s t ∧ SameOthers s t c.crew.id c.member ∧ SameCrew s t c ∧
    (∀ l v k r, (dst c.first).f ≤ 111 → (l, v) ∈ c.lanes.zip vals → l < c.gang.lanes.length → (regs l)[k]? = some r →
      regOf t c.crew.id c.member l r = v / 2 ^ (width * k) % 2 ^ width) ∧
    (∀ l m v k r rest, 124 ≤ (dst c.first).f → c.lanes.zip vals = (l, v) :: rest → (regs l)[k]? = some r →
      c.gang.g.length = 4 → c.gang.gs.length = 4 →
      regOf t c.crew.id c.member m r = v / 2 ^ (width * k) % 2 ^ width) ∧
    (∀ l r, (∀ v, (l, v) ∈ c.lanes.zip vals → r ∉ regs l) → ((∃ n, r = .g n) → (dst c.first).f < 124 ∨ c.lanes = []) →
      regOf t c.crew.id c.member l r = regOf s c.crew.id c.member l r) ∧
    ∃ g, (t.crew? c.crew.id).bind (·.member? c.member) = some g ∧ SameGangState c.gang g ∧
      g = { c.gang with slices := g.slices, lanes := g.lanes, g := g.g, gs := g.gs, nextParty := g.nextParty } ∧
      (∀ k, SameSpecials (c.gang.slice k) (g.slice k) ∧ MovedOn (c.sls.contains k) (c.gang.slice k) (g.slice k)) ∧
      ∀ l, (g.lane l).taddr = (c.gang.lane l).taddr ∧ (g.lane l).priv = (c.gang.lane l).priv ∧
        (if c.gang.isSeq then (g.lane l).h = (c.gang.lane l).h else (g.lane l).hs = (c.gang.lane l).hs)

/-- The frame of the words of `AccessesComplete` (02 R22; 16 R385; 18 R430): at issue no register, no special register and
no byte of memory changes; an instruction goes on its way with one part for each active lane, which carries the address
and the data that its operands give. -/
def Obligations.AccessesChangeNothingAtIssue : Prop :=
  ∀ (s s' t : State) (c : Ctx) (i : Instr) (args : List (List Nat)) (a : Access),
    Issues s c i args s' → accessOf args i = some a → a.reaches c s' → a.hasRoom c s' → exec i s = .next t →
    t = { s with
      crews := t.crews, clusters := t.clusters, issued := t.issued, serial := t.serial, flights := t.flights } ∧
    SameMemory s t ∧ SameOthers s t c.crew.id c.member ∧
    (∀ l r, regOf t c.crew.id c.member l r = regOf s c.crew.id c.member l r) ∧
    (∃ g, (t.crew? c.crew.id).bind (·.member? c.member) = some g ∧ SameGangState { c.gang with paths := g.paths } g ∧
      (∀ k, SameSpecials (c.gang.slice k) (g.slice k)) ∧ ∀ l, (g.lane l).taddr = (c.gang.lane l).taddr) ∧
    (c.lanes = [] → t.flights = s.flights) ∧
    (c.lanes ≠ [] → ∃ f, t.flights = s.flights ++ [f] ∧ f.id = s.serial ∧ f.kind = a.what.kind ∧ f.slices = c.sls ∧
      f.parts.length = c.lanes.length ∧
      ∀ k p, f.parts[k]? = some p → p.lane = c.lanes.getD k 0 ∧ p.size = a.what.size ∧ p.state = .sent ∧
        p.addr = BitVec.ofNat 64 (a.addrs.getD k 0) ∧ p.data = BitVec.ofNat 128 (a.datas.getD k 0))

/-- No instruction word changes a byte of memory when it issues, waits or traps (07 R168; 11 R284), but MAPF, whose step
zeroes the frame it maps (11 R277): a store reaches memory by the steps of its access. -/
def Obligations.WordsLeaveMemoryAlone : Prop :=
  ∀ (s t : State) (i : Instr), i.isWord = true → (∀ d a, i ≠ .mapf d a) → exec i s = .next t → SameMemory s t

/-- A store writes its bytes where its lane's address leads, and no others: at the home of a line that its cache holds
(07 R168; 18 R430), where the check of the line's translation changes HBM by what its walk corrects only, and in a local space
(07 R164, R175), up to the last byte of a die's 16 ways. -/
def Obligations.StoresWriteTheirBytes : Prop :=
  ∀ (s : State) (fl part : Nat) (f : Flight) (p : Part) (g : Gang),
    s.flight? fl = some f → f.parts[part]? = some p → p.state = .sent → f.kind = .store → f.laneOrder part = true →
    s.mayPerform f (f.at_ (f.group part)) = true → (s.crew? f.crew).bind (·.member? f.member) = some g →
    (∀ va l u, s.placeOf f p = some (.global va) → s.frozen f.asid va = false →
      s.ownedByOther f.asid (va / 128) none = false → s.line? f.asid (va / 128) = some l → l.data.length = 128 →
      va % 128 + p.size ≤ 128 → s.hitCode f.asid va .write = (0, u) →
      ∃ t m, exec (.homeRequest fl part) s = .next t ∧ t.line? f.asid (va / 128) = some m ∧ m.dirty = true ∧
        (∀ k, k < 128 → m.data.getD k 0 = (byteAt (va % 128) p.size p.data.toNat k).getD (l.data.getD k 0)) ∧
        (∀ asid line, (asid, line) ≠ (f.asid, va / 128) → t.line? asid line = s.line? asid line) ∧
        t.writeBacks = s.writeBacks ∧ (∀ a, memByte t.hbm a = memByte u.hbm a) ∧
        (∀ crew m q, t.readLocal crew m q 1 = s.readLocal crew m q 1) ∧
        ∀ crew m l r, regOf t crew m l r = regOf s crew m l r) ∧
    (∀ place, s.placeOf f p = some place → place.isGlobal = false → p.lane < g.lanes.length → s.chip.length = 2 →
      (∀ d o, place = .chip d o → o + p.size ≤ 16 * wayBytes) →
      ∃ t, exec (.homeRequest fl part) s = .next t ∧ t.lines = s.lines ∧ t.writeBacks = s.writeBacks ∧
        (∀ a, memByte t.hbm a = memByte s.hbm a) ∧
        (∀ q, (∀ d o, q = .chip d o → o < 16 * wayBytes) → t.readLocal f.crew f.member q 1 =
          match storedByte p.size p.data.toNat place q with
          | some b => [b]
          | none => s.readLocal f.crew f.member q 1) ∧
        (∀ crew m q, crew ≠ f.crew → (∀ d o, q ≠ .chip d o) → t.readLocal crew m q 1 = s.readLocal crew m q 1) ∧
        ∀ crew m l r, regOf t crew m l r = regOf s crew m l r)

/-! ### Checks, traps and returns -/

/-- The traps of a word come in the order of 03 R73, each before any effect (11 R284): ILLEGAL from the word itself, ILLEGAL
from the feature word (with SPB clear, also a TMMA's or TSTG's control word naming a slot-sparse or palette layout, R41:
such a word first waits for its control word), PRIV, REGBOUND, QUEUE, FORMAT; a word that passes them and waits for a register changes nothing
(03 R66; 10 R257). -/
def Obligations.ChecksComeInOrder : Prop :=
  ∀ (s : State) (c : Ctx) (i : Instr), i.isWord = true → s.issuer? = some c →
    let o := needs i
    let word := i.wellFormed = true ∧ o.bad = false ∧ o.kind.admits c.gang.isSeq = true ∧
      (o.noHandler = true → c.inHandler = false) ∧
      ∀ k ∈ c.sls, ∀ u ∈ o.uses (c.gang.slice k), u.legal c.gang.isSeq = true
    let feature := (∀ b ∈ o.feat, c.crew.feat.getLsbD b = true) ∧ LayoutDeclared c o
    let priv := c.inHandler = true ∨ (o.handlerOnly = false ∧ (o.priv = true → c.crew.supervisor = true))
    let bounds := ∀ k ∈ c.sls, ∀ u ∈ o.uses (c.gang.slice k),
      (resolve c.gang.isSeq c.gang.allot (c.gang.slice k) u).isSome = true
    let queues := ∀ k ∈ c.sls, ∀ u ∈ o.uses (c.gang.slice k), u.isQueue = true → (c.port? u).isSome = true
    let formats := ∀ k ∈ c.sls, o.fmtOk (c.gang.slice k) = true
    let traps (cause : Cause) : Prop := exec i s = .next (s.takeTrap c cause [] (opcodeOf i))
    (¬word → traps .illegal) ∧
    (word → (∃ b ∈ o.feat, c.crew.feat.getLsbD b = false) → traps .illegal) ∧
    (word → (∀ b ∈ o.feat, c.crew.feat.getLsbD b = true) → ¬LayoutKnown c o → exec i s = .next s) ∧
    (LayoutKnown c o →
    (word → ¬feature → traps .illegal) ∧
    (word → feature → ¬priv → traps .priv) ∧
    (word → feature → priv → ¬bounds → traps .regBound) ∧
    (word → feature → priv → bounds → ¬queues → traps .queue) ∧
    (word → feature → priv → bounds → queues → ¬formats → traps .format) ∧
    (word → feature → priv → bounds → queues → formats → ¬Ready c i → exec i s = .next s))

/-- Taking a precise trap (11 R272, R273, R276, R284, R286): the party's slices keep mask, FMT, WB, IDX0, IDX1 and stack
depth, EPC is the trapping instruction, TMASK its active lanes, and the party goes to HANDLER_PC; its lookahead windows end
(03 R67), and the handler's ASID register holds the crew's ASID (R276). Nothing else changes but the handler registers of
the party's lanes, which are free. A party waits while another of its physical slices is in handler state, and
in handler state the crew is abandoned. The cause code in handler state is the model's reading (assumption 55), and so
are the wait for another party of the same physical slices (assumption 56) and the lane whose address FAULT_VA then holds
(assumption 132). -/
def Obligations.TrapsEnterTheHandler : Prop :=
  ∀ (s : State) (c : Ctx) (cause : Cause) (addrs : List (Nat × Nat)) (info : Nat), s.issuer? = some c →
    (c.inHandler = true → s.takeTrap c cause addrs info =
      State.abandonCrew { s with issued := s.issued + 1 } c.crew.id cause.code ((addrs.map Prod.snd).headD 0)) ∧
    (c.inHandler = false → s.handlerBusy c = true → s.takeTrap c cause addrs info = s) ∧
    (c.inHandler = false → s.handlerBusy c = false →
      let t := s.takeTrap c cause addrs info
      t = { s with crews := t.crews, issued := s.issued + 1, freeCount := s.freeCount + 512 } ∧
      SameMembers s t c.crew.id c.member ∧ SameCrew s t c ∧
      (t.crew? c.crew.id).map (·.hasid) = some (BitVec.ofNat 32 c.crew.asid) ∧
      ∃ g, (t.crew? c.crew.id).bind (·.member? c.member) = some g ∧
        g = { c.gang with slices := g.slices, lanes := g.lanes } ∧
        (∀ k, k ∉ c.sls → g.slice k = c.gang.slice k) ∧
        (∀ k ∈ c.sls, let a := c.gang.slice k; let b := g.slice k
          b.epc = a.pc ∧ b.pc = s.handlerPc ∧ b.inHandler = true ∧ b.savedMask = a.mask ∧ b.savedFmt = a.fmt ∧
          b.savedWb = a.wb ∧ b.savedX0 = a.x0 ∧ b.savedX1 = a.x1 ∧ b.savedDepth = a.stack.length ∧
          bitsOf (b.tcause.setWidth 64) 0 6 = cause.code ∧
          b.tcause.getLsbD 6 = false ∧ bitsOf (b.tcause.setWidth 64) 14 18 = info % 2 ^ 18 ∧
          (c.gang.isSeq = false → ∀ l, l < 64 → b.tmask.getLsbD l = c.lanes.contains l) ∧
          b.mask = a.mask ∧ b.fmt = a.fmt ∧ b.wb = a.wb ∧ b.x0 = a.x0 ∧ b.x1 = a.x1 ∧ b.stack = a.stack ∧
          b.loops = a.loops ∧ b.lc = a.lc ∧ b.party = a.party ∧
          b = { a with
            pc := b.pc, epc := b.epc, tmask := b.tmask, tcause := b.tcause, tstate := b.tstate, savedFmt := b.savedFmt,
            savedWb := b.savedWb, savedX0 := b.savedX0, savedX1 := b.savedX1, savedDepth := b.savedDepth, wait := .none,
            savedWait := b.savedWait, stamp := s.issued + 1, pend := a.pend.map fun p => { p with win := 0 } }) ∧
        (∀ l, l / 4 ∉ c.sls → g.lane l = c.gang.lane l) ∧
        ∀ l, (if c.gang.isSeq then g.lane l = { c.gang.lane l with hs := (g.lane l).hs }
            else g.lane l = { c.gang.lane l with h := (g.lane l).h, taddr := (g.lane l).taddr }) ∧
          (c.gang.isSeq = false → l / 4 ∈ c.sls → l < c.gang.lanes.length → (g.lane l).taddr =
            if c.lanes.contains l then BitVec.ofNat 64 ((addrs.lookup l).getD 0) else 0))

/-- A trap raised in handler state is not delivered; it abandons the crew (11 R286, R287): every member has stopped, no
handler register is written, and no parked access is left.  A TRAP in handler state does so. -/
def Obligations.TrapsInHandlerStateAbandonTheCrew : Prop :=
  ∀ (s : State) (c : Ctx), s.issuer? = some c → c.inHandler = true →
    (∀ (cause : Cause) (addrs : List (Nat × Nat)) (info : Nat), let t := s.takeTrap c cause addrs info
      (∃ code va, t = State.abandonCrew { s with issued := s.issued + 1 } c.crew.id code va) ∧
      ∃ d, t.crew? c.crew.id = some d ∧ d.abandoned = true ∧
        (∀ m g, c.crew.member? m = some g → ∃ h, d.member? m = some h ∧ h.lanes = g.lanes ∧
          h.slices.map (fun sl => (sl.epc, sl.tcause, sl.pc)) = g.slices.map (fun sl => (sl.epc, sl.tcause, sl.pc)) ∧
          (c.crew.abandoned = false → ∀ sl ∈ h.slices, sl.finished = true)) ∧
        (c.crew.abandoned = false → ∀ f ∈ t.flights, f.crew = c.crew.id → ∀ p ∈ f.parts, p.isParked = false)) ∧
    (∀ k, Admits c (.trap k) → exec (.trap k) s = .next (s.takeTrap c .trap [] k.toNat))

/-- ERET gives back what 11 R275 names, and the return from a trap meets the slice as the trap found it: same program
counter, mask, FMT, WB, IDX0, IDX1, stack and loops, and out of handler state. -/
def Obligations.EretUndoesATrap : Prop :=
  (∀ (sl : Slice), sl.eret.mask = sl.savedMask ∧ sl.eret.fmt = sl.savedFmt ∧ sl.eret.wb = sl.savedWb ∧
    sl.eret.x0 = sl.savedX0 ∧ sl.eret.x1 = sl.savedX1 ∧ sl.eret.pc = sl.epc ∧ sl.eret.inHandler = false ∧
    sl.eret.stack = sl.stack ∧ sl.eret.loops = sl.loops ∧ sl.eret.lc = sl.lc ∧ sl.eret.party = sl.party) ∧
  ∀ (s : State) (c : Ctx) (cause : Cause) (addrs : List (Nat × Nat)) (info : Nat) (g : Gang), s.issuer? = some c →
    c.inHandler = false → s.handlerBusy c = false →
    ((s.takeTrap c cause addrs info).crew? c.crew.id).bind (·.member? c.member) = some g →
    ∀ k ∈ c.sls, let a := c.gang.slice k; let b := (g.slice k).eret
      b.pc = a.pc ∧ b.mask = a.mask ∧ b.fmt = a.fmt ∧ b.wb = a.wb ∧ b.x0 = a.x0 ∧ b.x1 = a.x1 ∧ b.stack = a.stack ∧
      b.loops = a.loops ∧ b.lc = a.lc ∧ b.inHandler = false

/-! ### Operands, control flow and barriers -/

/-- What a field reads in a gang, on the easel and in handler state (03 R50, R59; 11 R273), and queue registers (03 R53): the lanes pop one after another, lowest first, all
or none, and a result's words are pushed lane by lane, each lane's lowest word first. -/
def Obligations.FieldsReadAndQueuesPop : Prop :=
  (∀ (c : Ctx) (l : Nat) (f : BitVec 7), let x := c.readField c.gang l (.src f); let sl := c.gang.slice (l / 4)
    (f.toNat = 120 → x = 0) ∧
    (f.toNat = 121 → x = if c.gang.isSeq then 0 else l) ∧
    (f.toNat = 122 → x = if c.gang.isSeq then 0 else l / 4) ∧
    (f.toNat = 123 → x = if c.gang.isSeq then 16 else c.member) ∧
    (c.gang.isSeq = false → sl.inHandler = true → f.toNat ≤ 7 → x = (tabGet (c.gang.lane l).h f.toNat 0).toNat) ∧
    (c.gang.isSeq = true → sl.inHandler = true → f.toNat ≤ 7 →
      x = (tabGet (c.gang.lane l).hs f.toNat 0).toNat % 2 ^ 32 ∧
      c.readField c.gang l (.src64 f) = (tabGet (c.gang.lane l).hs f.toNat 0).toNat) ∧
    (c.gang.isSeq = true → sl.inHandler = false ∨ 8 ≤ f.toNat →
      (f.toNat ≤ 103 → x = (tabGet (c.gang.lane l).s f.toNat 0).toNat % 2 ^ 32 ∧
        c.readField c.gang l (.src64 f) = (tabGet (c.gang.lane l).s f.toNat 0).toNat) ∧
      (104 ≤ f.toNat → f.toNat ≤ 107 → sl.x0.toNat + (f.toNat - 104) < 104 →
        x = (tabGet (c.gang.lane l).s (sl.x0.toNat + (f.toNat - 104)) 0).toNat % 2 ^ 32) ∧
      (108 ≤ f.toNat → f.toNat ≤ 111 → sl.x1.toNat + (f.toNat - 108) < 104 →
        x = (tabGet (c.gang.lane l).s (sl.x1.toNat + (f.toNat - 108)) 0).toNat % 2 ^ 32) ∧
      (124 ≤ f.toNat → x = (c.gang.gs.getD (f.toNat - 124) 0).toNat % 2 ^ 32)) ∧
    (c.gang.isSeq = false → sl.inHandler = false ∨ 8 ≤ f.toNat →
      (f.toNat ≤ 103 → sl.wb.toNat + f.toNat < c.gang.allot →
        x = (tabGet (c.gang.lane l).v (sl.wb.toNat + f.toNat) 0).toNat) ∧
      (104 ≤ f.toNat → f.toNat ≤ 107 → sl.wb.toNat + (sl.x0.toNat + (f.toNat - 104)) < c.gang.allot →
        x = (tabGet (c.gang.lane l).v (sl.wb.toNat + (sl.x0.toNat + (f.toNat - 104))) 0).toNat) ∧
      (108 ≤ f.toNat → f.toNat ≤ 111 → sl.wb.toNat + (sl.x1.toNat + (f.toNat - 108)) < c.gang.allot →
        x = (tabGet (c.gang.lane l).v (sl.wb.toNat + (sl.x1.toNat + (f.toNat - 108))) 0).toNat) ∧
      (124 ≤ f.toNat → x = (c.gang.g.getD (f.toNat - 124) 0).toNat))) ∧
  (∀ (s : State) (c : Ctx) (u : Use) (p : Nat), c.port? u = some p → p < (s.cluster c.crew.cluster).ports.length →
    let ws := (s.port c.crew.cluster p).words
    (ws.length < u.span * c.lanes.length → c.fetchLanes (fun _ => u) c.lanes s = .error .queued) ∧
    (u.span * c.lanes.length ≤ ws.length → ∃ t,
      c.fetchLanes (fun _ => u) c.lanes s = .ok (c.lanes.mapIdx (fun k _ => joinWords ((ws.drop (u.span * k)).take u.span)), t) ∧
      (t.port c.crew.cluster p).words = ws.drop (u.span * c.lanes.length) ∧
      (∀ n q, (n, q) ≠ (c.crew.cluster, p) → (t.port n q).words = (s.port n q).words) ∧ t.crews = s.crews ∧
      SameMemory s t)) ∧
  (∀ (s : State) (c : Ctx) (u : Use) (p : Nat) (vals : List Nat), c.port? u = some p →
    p < (s.cluster c.crew.cluster).ports.length → vals.length = c.lanes.length →
    let t := s.writeField c (fun _ => u) vals
    let ws := vals.flatMap (splitWords u.span)
    t.crews = s.crews ∧
    (s.pushPending c p = false → (t.port c.crew.cluster p).words = (s.port c.crew.cluster p).words ++ ws) ∧
    (s.pushPending c p = true → (t.port c.crew.cluster p).words = (s.port c.crew.cluster p).words ∧
      (t.port c.crew.cluster p).pushes = (s.port c.crew.cluster p).pushes + ws.length ∧
      ∃ f, t.flights = s.flights ++ [f] ∧ f.crew = c.crew.id ∧ f.member = c.member ∧ f.port = some p ∧ f.pushed = ws))

/-- Loops and divergence: at the LAST of the innermost record the count falls, and the slice goes to START or on past the loop
(16 R390); a body whose count is n runs n times; a move out of a body pops its record and every one inside it; a divergent
BRC and its JOINs bring back the mask and the saved state (02 R23). That a BRC at a loop's LAST with turns left sends the
other path to START is the model's choice (assumption 105). -/
def Obligations.LoopsEndAndPathsRejoin : Prop :=
  (∀ (sl : Slice), (∀ r ∈ sl.loops.head?, r.last ≠ sl.pc) →
    sl.advance.pc = sl.pc + 4 ∧ sl.advance.loops = sl.loops ∧ sl.advance.lc = sl.lc) ∧
  (∀ (sl : Slice) (r : LoopRec) (rs : List LoopRec), sl.loops = r :: rs → r.last = sl.pc →
    let n := sl.lc.getD r.k 0 - 1
    (n ≠ 0 → sl.advance.pc = r.start ∧ sl.advance.loops = r :: rs ∧ sl.advance.lc = sl.lc.set r.k n) ∧
    (n = 0 → sl.advance = ({ sl with loops := rs, lc := sl.lc.set r.k 0 } : Slice).advance)) ∧
  (∀ (sl : Slice) (r : LoopRec) (n j : Nat), sl.loops = [r] → r.last = sl.pc → r.k < sl.lc.length → 0 < n → n < 2 ^ 32 →
    sl.lc.getD r.k 0 = BitVec.ofNat 32 n → j ≤ n →
    let again (x : Slice) : Slice := ({ x with pc := r.last } : Slice).advance
    (0 < j → j < n → (again^[j] sl).pc = r.start ∧ (again^[j] sl).lc.getD r.k 0 = BitVec.ofNat 32 (n - j)) ∧
    (j = n → (again^[j] sl).pc = r.last + 4 ∧ (again^[j] sl).loops = [] ∧ (again^[j] sl).lc.getD r.k 0 = 0)) ∧
  (∀ (sl : Slice) (a : Double), ∃ n, (sl.jump a).pc = a ∧ (sl.jump a).loops = sl.loops.drop n ∧
    (∀ r ∈ sl.loops.drop n, r.holds a = true) ∧ (∀ r, 0 < n → sl.loops[n - 1]? = some r → r.holds a = false) ∧
    (∀ r ∈ sl.loops.take n, (sl.jump a).lc.getD r.k 0 = 0) ∧
    ∀ k, (∀ r ∈ sl.loops.take n, r.k ≠ k) → (sl.jump a).lc.getD k 0 = sl.lc.getD k 0) ∧
  (∀ (sl : Slice) (m : BitVec 4) (target join : Double), m ≠ 0 → m ≠ sl.mask → m &&& sl.mask = m →
    let diverged := sl.brc m target
    let other := diverged.join
    diverged.mask = m ∧ diverged.pc = target ∧ diverged.stack.length = sl.stack.length + 1 ∧
    other.mask = sl.mask &&& ~~~m ∧ other.pc = sl.advance.pc ∧ other.stack = sl.stack ∧ other.fmt = sl.fmt ∧
    other.wb = sl.wb ∧ other.x0 = sl.x0 ∧ other.x1 = sl.x1 ∧
    ∀ rest, sl.stack = sl.entry false join sl.mask :: rest →
      let met := ({ other with pc := join } : Slice).join
      met.mask = sl.mask ∧ met.stack = rest ∧ met.fmt = sl.fmt ∧ met.wb = sl.wb ∧ met.x0 = sl.x0 ∧ met.x1 = sl.x1)

/-- Barriers (02 R32 to R34): when the arrivals reach the count, every slice that waits goes on and the phase is empty again; when
a participant finishes and they no longer can, every slice that waits takes BARDEAD and the phase is empty; else nobody
goes on. -/
def Obligations.BarrierPhasesEnd : Prop :=
  ∀ (c : Crew) (finish : Bool) (stamp n k : Nat), n < c.barriers.length → (c.barriers.getD n Barrier.empty).count = some k →
    let b := c.settleArrivals (c.barriers.getD n Barrier.empty)
    let left := (c.members.filter fun m => match c.member? m with
      | some g => !g.finished && !b.arrived.contains m
      | none => false).length
    let d := c.settleBarrier finish stamp n
    (∀ m g, c.member? m = some g → (m ∈ b.arrived ↔ m ∈ (c.barriers.getD n Barrier.empty).arrived ∨
      (m ∈ c.members ∧ g.finished = false ∧ ∀ i ∈ g.liveSlices, (m, i) ∈ (c.barriers.getD n Barrier.empty).slices))) ∧
    (∀ (m i : Nat) (g : Gang) (sl : Slice), c.member? m = some g → g.slices[i]? = some sl → sl.finished = false → sl.inHandler = false →
      sl.wait = .bar n → ∃ (h : Gang) (x : Slice), d.member? m = some h ∧ h.slices[i]? = some x ∧
        (k ≤ b.arrived.length → x.wait = .none ∧ x.pc = sl.advance.pc ∧ d.barriers.getD n Barrier.empty = Barrier.empty) ∧
        (b.arrived.length < k → finish = true → b.arrived.length + left < k →
          x.wait = .trap .barDead ∧ x.pc = sl.pc ∧ d.barriers.getD n Barrier.empty = Barrier.empty) ∧
        (b.arrived.length < k → finish = false ∨ k ≤ b.arrived.length + left → x = sl)) ∧
    (∀ (m i : Nat) (g : Gang) (sl : Slice), c.member? m = some g → g.slices[i]? = some sl → sl.barWait ≠ .bar n →
      ∃ (h : Gang) (x : Slice), d.member? m = some h ∧ h.slices[i]? = some x ∧ x.pc = sl.pc ∧ x.wait = sl.wait ∧ x.mask = sl.mask)

/-! ### Memory and arithmetic -/

/-- A stripe keeps its parity (12 R288, R292, R295): when the eight lines of a stripe agree and read clean and no stack is lost, they agree
after a line is written, the line reads as written, no other data line changes, and the line is what its stripe's other
seven give. -/
def Obligations.StripesKeepTheirParity : Prop :=
  ∀ (s : State) (line : Nat) (data : List Byte), data.length = 128 → s.lostCount = 0 → line / 7 < 2 ^ 29 →
    (∀ k, k < 8 → tabGet s.damage (stackLine k (line / 7)) 0 = 0) →
    let stripe := line / 7
    let t := s.writeLine line data false
    let agrees (u : State) : Prop := u.reconstruct (parityStack stripe) stripe = u.rawLine (parityStack stripe) stripe
    agrees s →
      agrees t ∧ t.rawLine (dataStack line) stripe = data ∧ t.reconstruct (dataStack line) stripe = data ∧
      (∀ other, other ≠ line → other < hbmLines → t.rawLine (dataStack other) (other / 7) = s.rawLine (dataStack other) (other / 7)) ∧
      (t.readLine line 0).1 = some data ∧ ((t.readLine line 2).1 = some data)

/-- Op(v, x) of the atomics on 32-bit words (15 R333, R337), the lanes' operations one after another (07 R174), and the integer
results of 32-bit operands read as 32-bit words (15 R340; 16 R379; 17 R404; 18 R458). -/
def Obligations.IntegerWordsCompute : Prop :=
  (∀ (v x y fmt : BitVec 32) (easel : Bool), let op (k : AccKind) (n : Nat) := atomicOp k easel fmt v.toNat n
    op .aadd x.toNat = (v + x).toNat ∧ op .aand x.toNat = (v &&& x).toNat ∧ op .aor x.toNat = (v ||| x).toNat ∧
    op .axor x.toNat = (v ^^^ x).toNat ∧ op .axch x.toNat = x.toNat ∧
    op .amin x.toNat = (if v.slt x then v else x).toNat ∧ op .amax x.toNat = (if v.slt x then x else v).toNat ∧
    op .acas (x.toNat + 2 ^ (if easel then 64 else 32) * y.toNat) = (if v = x then y else v).toNat ∧
    op .jdec 0 = (v - 1).toNat) ∧
  (∀ (k : AccKind) (easel : Bool) (fmt : Word) (x v : Nat) (rest : List (Word × Nat)),
    (atomicFold k easel [] v) = ([], v) ∧
    (atomicFold k easel ((fmt, x) :: rest) v).1 = v :: (atomicFold k easel rest (atomicOp k easel fmt v x)).1 ∧
    (atomicFold k easel ((fmt, x) :: rest) v).2 = (atomicFold k easel rest (atomicOp k easel fmt v x)).2) ∧
  (∀ (s : State) (c : Ctx) (d a b : BitVec 7) (x y : Word) (l : Nat), c.lanes = [l] →
    let result (i : Instr) : Option (List Nat) := (resultOf c s [[x.toNat], [y.toNat]] i).map Prod.snd
    result (.and d a b) = some [(x &&& y).toNat] ∧ result (.or d a b) = some [(x ||| y).toNat] ∧
    result (.xor d a b) = some [(x ^^^ y).toNat] ∧ result (.iadd d a b 0) = some [(x + y).toNat] ∧
    result (.isub d a b 0) = some [(x - y).toNat] ∧ result (.imul d a b 0) = some [(x * y).toNat] ∧
    result (.imin d a b 0) = some [(if x.sle y then x else y).toNat] ∧
    result (.imax d a b 0) = some [(if x.sle y then y else x).toNat])

/-! ### Encoding, the step, reset -/

/-- When the word at the issuing thread's program counter decodes to an instruction, a turn of the thread is that
instruction's meaning, in the state its fetch leaves (11 R272, R276); an undecodable word takes ILLEGAL (03 R72); a
step whose move is a unit's issue, with one candidate, is that turn; and a step of a device agent is its meaning.
Outside READY no unit issues, and in FATAL no agent of the device acts: a step leaves the state, but for a reset and
what a host asks of its own link and window (14 R323, R324). The agenda of moves is the model's own (assumption 1). -/
def Obligations.AStepRunsTheDecodedInstruction : Prop :=
  (∀ (s u : State) (th : ThreadRef) (c : Ctx) (w : Word), ({ s with cur := th } : State).issuer? = some c →
    ({ s with cur := th } : State).withheld c = false → c.waitingTrap = none →
    ({ s with cur := th } : State).fetchFor c = (.word w, u) →
    (∀ i, decodeWord w = .ok i → s.runThread th = exec i u) ∧
    (∀ e, decodeWord w = .error e → s.runThread th = .next (u.takeTrap c .illegal [] (w.toNat / 2 ^ 25)))) ∧
  (∀ (s t : State) (rest : List Move) (cluster core group : Nat) (x : Candidate), s.agenda = .issue cluster core group :: rest →
    s.device = .ready → ({ s with agenda := rest } : State).candidates cluster core group = [x] →
    ({ s with agenda := rest } : State).runThread x.thread = .next t →
    step s = .next (if s.issued < t.issued then t.endYields cluster core group x.thread else t)) ∧
  (∀ (s : State) (rest : List Move) (e : Instr), s.agenda = .event e :: rest → s.device = .ready → e.isWord = false →
    step s = exec e { s with agenda := rest }) ∧
  (∀ (s : State) (rest : List Move) (cluster core group : Nat), s.agenda = .issue cluster core group :: rest →
    s.device ≠ .ready → step s = .next { s with agenda := rest }) ∧
  (∀ (s : State) (rest : List Move) (e : Instr), s.agenda = .event e :: rest → s.device = .fatal → e ≠ .powerOnReset →
    e ≠ .reset → (∀ port kind offset size payload, e ≠ .hostRequest port kind offset size payload) →
    (∀ port, e ≠ .hostHotReset port ∧ e ≠ .hostLinkLoss port) → step s = .next { s with agenda := rest })

/-- Words written out in the spec decode to the instructions they stand for (03 R62; 15 R333, R337; 16 R365, R390; 17 R396, R408;
18 R446). -/
def Obligations.SpecWordsDecode : Prop :=
  decodeWord 0xBC1815C0 = .ok (.acas 6 2 5 3 0 0 0) ∧ decodeWord 0x10140400 = .ok (.loop 5 1) ∧
  decodeWord 0xF0100100 = .ok (.amsg 4 16 0) ∧ decodeWord 0x1E000000 = .ok .eret ∧
  decodeWord 0x1E000001 = .ok .eretAbandon ∧ decodeWord 0x4A0C20FF = .ok (.andi 3 4 0xFF) ∧
  decodeWord 0xEE084001 = .ok (.qadjConsumed 2 8)

/-- Decoding the word of a well-formed instruction gives that instruction back, whatever its operands (03 R60 to R65, R72). -/
def Obligations.DecodeOfEncode : Prop :=
  ∀ (i : Instr), i.isWord = true → i.wellFormed = true → decodeWord (encodeWord i) = .ok i

/-- Every word that decodes is the word of what it decodes to, which is well formed: no bit of a word is overlooked (03 R72). -/
def Obligations.EncodeOfDecode : Prop :=
  ∀ (w : Word) (i : Instr), decodeWord w = .ok i → i.isWord = true ∧ i.wellFormed = true ∧ encodeWord i = w

/-- Every step keeps the rule that firmware in force is no older than ROLLBACK_MIN, and no step lowers ROLLBACK_MIN (14
R325). At which step firmware raises ROLLBACK_MIN, and to what, is the model's choice (assumption 76). -/
def Obligations.EveryStepKeepsTheFirmwareRule : Prop :=
  ∀ (s t : State), FirmwareRule s → step s = .next t → FirmwareRule t ∧ s.rollbackMin ≤ t.rollbackMin

/-- The machine after reset (14 R323): RESET is the state, CLOCK reads 0, there are no crews, no lines, no translations
and no accesses in flight; the reset values of 12 R299, 10 R263 and 13 R302 stand; the firmware rule holds; every
memory is in its canonical form. The values named are the spec's; other registers have the values of assumption 4. -/
def Obligations.ResetLeavesTheDeviceEmpty : Prop :=
  State.reset.device = .reset ∧ State.reset.clock = 0 ∧ State.reset.crews = [] ∧ State.reset.lines = [] ∧
  State.reset.tlb = [] ∧ State.reset.flights = [] ∧ State.reset.records = [] ∧ State.reset.messages = [] ∧
  FirmwareRule State.reset ∧ State.reset.memoriesWf = true ∧ State.reset.statusDouble = 0 ∧
  State.reset.windowRead 0x108 = 0x3000FFFFFF ∧ State.reset.windowRead 0x110 = 0x40100000400400 ∧
  State.reset.windowRead 0x118 = 0x2180800E1010FF ∧ State.reset.windowRead 0x120 = 0x5F55 ∧
  State.reset.windowRead 0x128 = 0x4004004000000 ∧ State.reset.tokens = 0xFFFFFF ∧
  (∀ k, k < 32 → State.reset.windowRead (0x200 + 8 * k) = 0)
end

