-- ==== Sys2Proof/Laws/State.lean ====
section
/-! SUPPORT. What each update of the state leaves alone, field by field. -/

namespace Sys2Proof.Machine
open Sys2Proof

variable (s : State) (c : Ctx) (sl : Slice)

/-! ### Updates are updates of a crew, a cluster or a flight -/

@[simp] theorem State.mapGang_eq (id m : Nat) (f : Gang → Gang) : s.mapGang id m f = s.mapCrew id (·.mapMember m f) := rfl

@[simp] theorem State.mapIssuer_eq (f : Gang → Gang) :
    s.mapIssuer c f = s.mapCrew c.crew.id (·.mapMember c.member f) := rfl

@[simp] theorem State.mapPort_eq (k p : Nat) (f : Port → Port) :
    s.mapPort k p f = s.mapCluster k fun cl => { cl with ports := listModify cl.ports p f } := rfl

/-! ### Updating a crew -/

@[simp] theorem State.mapCrew_agenda (id : Nat) (f : Crew → Crew) : (s.mapCrew id f).agenda = s.agenda := rfl
@[simp] theorem State.mapCrew_arbCount (id : Nat) (f : Crew → Crew) : (s.mapCrew id f).arbCount = s.arbCount := rfl
@[simp] theorem State.mapCrew_freeCount (id : Nat) (f : Crew → Crew) : (s.mapCrew id f).freeCount = s.freeCount := rfl
@[simp] theorem State.mapCrew_serial (id : Nat) (f : Crew → Crew) : (s.mapCrew id f).serial = s.serial := rfl
@[simp] theorem State.mapCrew_issued (id : Nat) (f : Crew → Crew) : (s.mapCrew id f).issued = s.issued := rfl
@[simp] theorem State.mapCrew_cur (id : Nat) (f : Crew → Crew) : (s.mapCrew id f).cur = s.cur := rfl
@[simp] theorem State.mapCrew_device (id : Nat) (f : Crew → Crew) : (s.mapCrew id f).device = s.device := rfl
@[simp] theorem State.mapCrew_fatalCause (id : Nat) (f : Crew → Crew) : (s.mapCrew id f).fatalCause = s.fatalCause := rfl
@[simp] theorem State.mapCrew_fwVersion (id : Nat) (f : Crew → Crew) : (s.mapCrew id f).fwVersion = s.fwVersion := rfl
@[simp] theorem State.mapCrew_rollbackMin (id : Nat) (f : Crew → Crew) : (s.mapCrew id f).rollbackMin = s.rollbackMin := rfl
@[simp] theorem State.mapCrew_fwHash (id : Nat) (f : Crew → Crew) : (s.mapCrew id f).fwHash = s.fwHash := rfl
@[simp] theorem State.mapCrew_ucodeHash (id : Nat) (f : Crew → Crew) : (s.mapCrew id f).ucodeHash = s.ucodeHash := rfl
@[simp] theorem State.mapCrew_clock (id : Nat) (f : Crew → Crew) : (s.mapCrew id f).clock = s.clock := rfl
@[simp] theorem State.mapCrew_nextContext (id : Nat) (f : Crew → Crew) : (s.mapCrew id f).nextContext = s.nextContext := rfl
@[simp] theorem State.mapCrew_clusters (id : Nat) (f : Crew → Crew) : (s.mapCrew id f).clusters = s.clusters := rfl
@[simp] theorem State.mapCrew_appended (id : Nat) (f : Crew → Crew) : (s.mapCrew id f).appended = s.appended := rfl
@[simp] theorem State.mapCrew_contribs (id : Nat) (f : Crew → Crew) : (s.mapCrew id f).contribs = s.contribs := rfl
@[simp] theorem State.mapCrew_engines (id : Nat) (f : Crew → Crew) : (s.mapCrew id f).engines = s.engines := rfl
@[simp] theorem State.mapCrew_flights (id : Nat) (f : Crew → Crew) : (s.mapCrew id f).flights = s.flights := rfl
@[simp] theorem State.mapCrew_lines (id : Nat) (f : Crew → Crew) : (s.mapCrew id f).lines = s.lines := rfl
@[simp] theorem State.mapCrew_copies (id : Nat) (f : Crew → Crew) : (s.mapCrew id f).copies = s.copies := rfl
@[simp] theorem State.mapCrew_writeBacks (id : Nat) (f : Crew → Crew) : (s.mapCrew id f).writeBacks = s.writeBacks := rfl
@[simp] theorem State.mapCrew_fills (id : Nat) (f : Crew → Crew) : (s.mapCrew id f).fills = s.fills := rfl
@[simp] theorem State.mapCrew_owned (id : Nat) (f : Crew → Crew) : (s.mapCrew id f).owned = s.owned := rfl
@[simp] theorem State.mapCrew_streams (id : Nat) (f : Crew → Crew) : (s.mapCrew id f).streams = s.streams := rfl
@[simp] theorem State.mapCrew_deliveries (id : Nat) (f : Crew → Crew) : (s.mapCrew id f).deliveries = s.deliveries := rfl
@[simp] theorem State.mapCrew_chipWays (id : Nat) (f : Crew → Crew) : (s.mapCrew id f).chipWays = s.chipWays := rfl
@[simp] theorem State.mapCrew_chip (id : Nat) (f : Crew → Crew) : (s.mapCrew id f).chip = s.chip := rfl
@[simp] theorem State.mapCrew_chipFree (id : Nat) (f : Crew → Crew) : (s.mapCrew id f).chipFree = s.chipFree := rfl
@[simp] theorem State.mapCrew_spcfg (id : Nat) (f : Crew → Crew) : (s.mapCrew id f).spcfg = s.spcfg := rfl
@[simp] theorem State.mapCrew_hbm (id : Nat) (f : Crew → Crew) : (s.mapCrew id f).hbm = s.hbm := rfl
@[simp] theorem State.mapCrew_poisonPas (id : Nat) (f : Crew → Crew) : (s.mapCrew id f).poisonPas = s.poisonPas := rfl
@[simp] theorem State.mapCrew_undelivPas (id : Nat) (f : Crew → Crew) : (s.mapCrew id f).undelivPas = s.undelivPas := rfl
@[simp] theorem State.mapCrew_damage (id : Nat) (f : Crew → Crew) : (s.mapCrew id f).damage = s.damage := rfl
@[simp] theorem State.mapCrew_lost (id : Nat) (f : Crew → Crew) : (s.mapCrew id f).lost = s.lost := rfl
@[simp] theorem State.mapCrew_memState (id : Nat) (f : Crew → Crew) : (s.mapCrew id f).memState = s.memState := rfl
@[simp] theorem State.mapCrew_openRows (id : Nat) (f : Crew → Crew) : (s.mapCrew id f).openRows = s.openRows := rfl
@[simp] theorem State.mapCrew_driving (id : Nat) (f : Crew → Crew) : (s.mapCrew id f).driving = s.driving := rfl
@[simp] theorem State.mapCrew_streaming (id : Nat) (f : Crew → Crew) : (s.mapCrew id f).streaming = s.streaming := rfl
@[simp] theorem State.mapCrew_gathers (id : Nat) (f : Crew → Crew) : (s.mapCrew id f).gathers = s.gathers := rfl
@[simp] theorem State.mapCrew_stackCounters (id : Nat) (f : Crew → Crew) : (s.mapCrew id f).stackCounters = s.stackCounters := rfl
@[simp] theorem State.mapCrew_ueTimes (id : Nat) (f : Crew → Crew) : (s.mapCrew id f).ueTimes = s.ueTimes := rfl
@[simp] theorem State.mapCrew_temps (id : Nat) (f : Crew → Crew) : (s.mapCrew id f).temps = s.temps := rfl
@[simp] theorem State.mapCrew_fastRefresh (id : Nat) (f : Crew → Crew) : (s.mapCrew id f).fastRefresh = s.fastRefresh := rfl
@[simp] theorem State.mapCrew_throttled (id : Nat) (f : Crew → Crew) : (s.mapCrew id f).throttled = s.throttled := rfl
@[simp] theorem State.mapCrew_memCtl (id : Nat) (f : Crew → Crew) : (s.mapCrew id f).memCtl = s.memCtl := rfl
@[simp] theorem State.mapCrew_thermal (id : Nat) (f : Crew → Crew) : (s.mapCrew id f).thermal = s.thermal := rfl
@[simp] theorem State.mapCrew_tlb (id : Nat) (f : Crew → Crew) : (s.mapCrew id f).tlb = s.tlb := rfl
@[simp] theorem State.mapCrew_walkCache (id : Nat) (f : Crew → Crew) : (s.mapCrew id f).walkCache = s.walkCache := rfl
@[simp] theorem State.mapCrew_rootTable (id : Nat) (f : Crew → Crew) : (s.mapCrew id f).rootTable = s.rootTable := rfl
@[simp] theorem State.mapCrew_migrations (id : Nat) (f : Crew → Crew) : (s.mapCrew id f).migrations = s.migrations := rfl
@[simp] theorem State.mapCrew_deviceAcc (id : Nat) (f : Crew → Crew) : (s.mapCrew id f).deviceAcc = s.deviceAcc := rfl
@[simp] theorem State.mapCrew_records (id : Nat) (f : Crew → Crew) : (s.mapCrew id f).records = s.records := rfl
@[simp] theorem State.mapCrew_pushes (id : Nat) (f : Crew → Crew) : (s.mapCrew id f).pushes = s.pushes := rfl
@[simp] theorem State.mapCrew_launches (id : Nat) (f : Crew → Crew) : (s.mapCrew id f).launches = s.launches := rfl
@[simp] theorem State.mapCrew_tasks (id : Nat) (f : Crew → Crew) : (s.mapCrew id f).tasks = s.tasks := rfl
@[simp] theorem State.mapCrew_taken (id : Nat) (f : Crew → Crew) : (s.mapCrew id f).taken = s.taken := rfl
@[simp] theorem State.mapCrew_returns (id : Nat) (f : Crew → Crew) : (s.mapCrew id f).returns = s.returns := rfl
@[simp] theorem State.mapCrew_replays (id : Nat) (f : Crew → Crew) : (s.mapCrew id f).replays = s.replays := rfl
@[simp] theorem State.mapCrew_schedCtl (id : Nat) (f : Crew → Crew) : (s.mapCrew id f).schedCtl = s.schedCtl := rfl
@[simp] theorem State.mapCrew_tokenCtl (id : Nat) (f : Crew → Crew) : (s.mapCrew id f).tokenCtl = s.tokenCtl := rfl
@[simp] theorem State.mapCrew_tokens (id : Nat) (f : Crew → Crew) : (s.mapCrew id f).tokens = s.tokens := rfl
@[simp] theorem State.mapCrew_tokenReqs (id : Nat) (f : Crew → Crew) : (s.mapCrew id f).tokenReqs = s.tokenReqs := rfl
@[simp] theorem State.mapCrew_granted (id : Nat) (f : Crew → Crew) : (s.mapCrew id f).granted = s.granted := rfl
@[simp] theorem State.mapCrew_lastGrant (id : Nat) (f : Crew → Crew) : (s.mapCrew id f).lastGrant = s.lastGrant := rfl
@[simp] theorem State.mapCrew_rings (id : Nat) (f : Crew → Crew) : (s.mapCrew id f).rings = s.rings := rfl
@[simp] theorem State.mapCrew_eventBuf (id : Nat) (f : Crew → Crew) : (s.mapCrew id f).eventBuf = s.eventBuf := rfl
@[simp] theorem State.mapCrew_eventStuck (id : Nat) (f : Crew → Crew) : (s.mapCrew id f).eventStuck = s.eventStuck := rfl
@[simp] theorem State.mapCrew_dropped (id : Nat) (f : Crew → Crew) : (s.mapCrew id f).dropped = s.dropped := rfl
@[simp] theorem State.mapCrew_fabricCtl (id : Nat) (f : Crew → Crew) : (s.mapCrew id f).fabricCtl = s.fabricCtl := rfl
@[simp] theorem State.mapCrew_accelSet (id : Nat) (f : Crew → Crew) : (s.mapCrew id f).accelSet = s.accelSet := rfl
@[simp] theorem State.mapCrew_windows (id : Nat) (f : Crew → Crew) : (s.mapCrew id f).windows = s.windows := rfl
@[simp] theorem State.mapCrew_handlers (id : Nat) (f : Crew → Crew) : (s.mapCrew id f).handlers = s.handlers := rfl
@[simp] theorem State.mapCrew_jobs (id : Nat) (f : Crew → Crew) : (s.mapCrew id f).jobs = s.jobs := rfl
@[simp] theorem State.mapCrew_routes (id : Nat) (f : Crew → Crew) : (s.mapCrew id f).routes = s.routes := rfl
@[simp] theorem State.mapCrew_ports (id : Nat) (f : Crew → Crew) : (s.mapCrew id f).ports = s.ports := rfl
@[simp] theorem State.mapCrew_portCounters (id : Nat) (f : Crew → Crew) : (s.mapCrew id f).portCounters = s.portCounters := rfl
@[simp] theorem State.mapCrew_messages (id : Nat) (f : Crew → Crew) : (s.mapCrew id f).messages = s.messages := rfl
@[simp] theorem State.mapCrew_farOps (id : Nat) (f : Crew → Crew) : (s.mapCrew id f).farOps = s.farOps := rfl
@[simp] theorem State.mapCrew_tags (id : Nat) (f : Crew → Crew) : (s.mapCrew id f).tags = s.tags := rfl
@[simp] theorem State.mapCrew_waves (id : Nat) (f : Crew → Crew) : (s.mapCrew id f).waves = s.waves := rfl
@[simp] theorem State.mapCrew_control (id : Nat) (f : Crew → Crew) : (s.mapCrew id f).control = s.control := rfl
@[simp] theorem State.mapCrew_sems (id : Nat) (f : Crew → Crew) : (s.mapCrew id f).sems = s.sems := rfl
@[simp] theorem State.mapCrew_hostOut (id : Nat) (f : Crew → Crew) : (s.mapCrew id f).hostOut = s.hostOut := rfl
@[simp] theorem State.mapCrew_linkUp (id : Nat) (f : Crew → Crew) : (s.mapCrew id f).linkUp = s.linkUp := rfl
@[simp] theorem State.mapCrew_handlerPc (id : Nat) (f : Crew → Crew) : (s.mapCrew id f).handlerPc = s.handlerPc := rfl
@[simp] theorem State.mapCrew_supAsid (id : Nat) (f : Crew → Crew) : (s.mapCrew id f).supAsid = s.supAsid := rfl
@[simp] theorem State.mapCrew_pools (id : Nat) (f : Crew → Crew) : (s.mapCrew id f).pools = s.pools := rfl
@[simp] theorem State.mapCrew_staging (id : Nat) (f : Crew → Crew) : (s.mapCrew id f).staging = s.staging := rfl
@[simp] theorem State.mapCrew_staged (id : Nat) (f : Crew → Crew) : (s.mapCrew id f).staged = s.staged := rfl
@[simp] theorem State.mapCrew_telemetry (id : Nat) (f : Crew → Crew) : (s.mapCrew id f).telemetry = s.telemetry := rfl
@[simp] theorem State.mapCrew_tokenWait (id : Nat) (f : Crew → Crew) : (s.mapCrew id f).tokenWait = s.tokenWait := rfl
@[simp] theorem State.mapCrew_attCtl (id : Nat) (f : Crew → Crew) : (s.mapCrew id f).attCtl = s.attCtl := rfl
@[simp] theorem State.mapCrew_nonce (id : Nat) (f : Crew → Crew) : (s.mapCrew id f).nonce = s.nonce := rfl
@[simp] theorem State.mapCrew_latched (id : Nat) (f : Crew → Crew) : (s.mapCrew id f).latched = s.latched := rfl
@[simp] theorem State.mapCrew_report (id : Nat) (f : Crew → Crew) : (s.mapCrew id f).report = s.report := rfl

/-! ### Updating a cluster -/

@[simp] theorem State.mapCluster_agenda (k : Nat) (f : Cluster → Cluster) : (s.mapCluster k f).agenda = s.agenda := rfl
@[simp] theorem State.mapCluster_arbCount (k : Nat) (f : Cluster → Cluster) : (s.mapCluster k f).arbCount = s.arbCount := rfl
@[simp] theorem State.mapCluster_freeCount (k : Nat) (f : Cluster → Cluster) : (s.mapCluster k f).freeCount = s.freeCount := rfl
@[simp] theorem State.mapCluster_serial (k : Nat) (f : Cluster → Cluster) : (s.mapCluster k f).serial = s.serial := rfl
@[simp] theorem State.mapCluster_issued (k : Nat) (f : Cluster → Cluster) : (s.mapCluster k f).issued = s.issued := rfl
@[simp] theorem State.mapCluster_cur (k : Nat) (f : Cluster → Cluster) : (s.mapCluster k f).cur = s.cur := rfl
@[simp] theorem State.mapCluster_device (k : Nat) (f : Cluster → Cluster) : (s.mapCluster k f).device = s.device := rfl
@[simp] theorem State.mapCluster_fatalCause (k : Nat) (f : Cluster → Cluster) : (s.mapCluster k f).fatalCause = s.fatalCause := rfl
@[simp] theorem State.mapCluster_fwVersion (k : Nat) (f : Cluster → Cluster) : (s.mapCluster k f).fwVersion = s.fwVersion := rfl
@[simp] theorem State.mapCluster_rollbackMin (k : Nat) (f : Cluster → Cluster) : (s.mapCluster k f).rollbackMin = s.rollbackMin := rfl
@[simp] theorem State.mapCluster_fwHash (k : Nat) (f : Cluster → Cluster) : (s.mapCluster k f).fwHash = s.fwHash := rfl
@[simp] theorem State.mapCluster_ucodeHash (k : Nat) (f : Cluster → Cluster) : (s.mapCluster k f).ucodeHash = s.ucodeHash := rfl
@[simp] theorem State.mapCluster_clock (k : Nat) (f : Cluster → Cluster) : (s.mapCluster k f).clock = s.clock := rfl
@[simp] theorem State.mapCluster_crews (k : Nat) (f : Cluster → Cluster) : (s.mapCluster k f).crews = s.crews := rfl
@[simp] theorem State.mapCluster_nextContext (k : Nat) (f : Cluster → Cluster) : (s.mapCluster k f).nextContext = s.nextContext := rfl
@[simp] theorem State.mapCluster_appended (k : Nat) (f : Cluster → Cluster) : (s.mapCluster k f).appended = s.appended := rfl
@[simp] theorem State.mapCluster_contribs (k : Nat) (f : Cluster → Cluster) : (s.mapCluster k f).contribs = s.contribs := rfl
@[simp] theorem State.mapCluster_engines (k : Nat) (f : Cluster → Cluster) : (s.mapCluster k f).engines = s.engines := rfl
@[simp] theorem State.mapCluster_flights (k : Nat) (f : Cluster → Cluster) : (s.mapCluster k f).flights = s.flights := rfl
@[simp] theorem State.mapCluster_lines (k : Nat) (f : Cluster → Cluster) : (s.mapCluster k f).lines = s.lines := rfl
@[simp] theorem State.mapCluster_copies (k : Nat) (f : Cluster → Cluster) : (s.mapCluster k f).copies = s.copies := rfl
@[simp] theorem State.mapCluster_writeBacks (k : Nat) (f : Cluster → Cluster) : (s.mapCluster k f).writeBacks = s.writeBacks := rfl
@[simp] theorem State.mapCluster_fills (k : Nat) (f : Cluster → Cluster) : (s.mapCluster k f).fills = s.fills := rfl
@[simp] theorem State.mapCluster_owned (k : Nat) (f : Cluster → Cluster) : (s.mapCluster k f).owned = s.owned := rfl
@[simp] theorem State.mapCluster_streams (k : Nat) (f : Cluster → Cluster) : (s.mapCluster k f).streams = s.streams := rfl
@[simp] theorem State.mapCluster_deliveries (k : Nat) (f : Cluster → Cluster) : (s.mapCluster k f).deliveries = s.deliveries := rfl
@[simp] theorem State.mapCluster_chipWays (k : Nat) (f : Cluster → Cluster) : (s.mapCluster k f).chipWays = s.chipWays := rfl
@[simp] theorem State.mapCluster_chip (k : Nat) (f : Cluster → Cluster) : (s.mapCluster k f).chip = s.chip := rfl
@[simp] theorem State.mapCluster_chipFree (k : Nat) (f : Cluster → Cluster) : (s.mapCluster k f).chipFree = s.chipFree := rfl
@[simp] theorem State.mapCluster_spcfg (k : Nat) (f : Cluster → Cluster) : (s.mapCluster k f).spcfg = s.spcfg := rfl
@[simp] theorem State.mapCluster_hbm (k : Nat) (f : Cluster → Cluster) : (s.mapCluster k f).hbm = s.hbm := rfl
@[simp] theorem State.mapCluster_poisonPas (k : Nat) (f : Cluster → Cluster) : (s.mapCluster k f).poisonPas = s.poisonPas := rfl
@[simp] theorem State.mapCluster_undelivPas (k : Nat) (f : Cluster → Cluster) : (s.mapCluster k f).undelivPas = s.undelivPas := rfl
@[simp] theorem State.mapCluster_damage (k : Nat) (f : Cluster → Cluster) : (s.mapCluster k f).damage = s.damage := rfl
@[simp] theorem State.mapCluster_lost (k : Nat) (f : Cluster → Cluster) : (s.mapCluster k f).lost = s.lost := rfl
@[simp] theorem State.mapCluster_memState (k : Nat) (f : Cluster → Cluster) : (s.mapCluster k f).memState = s.memState := rfl
@[simp] theorem State.mapCluster_openRows (k : Nat) (f : Cluster → Cluster) : (s.mapCluster k f).openRows = s.openRows := rfl
@[simp] theorem State.mapCluster_driving (k : Nat) (f : Cluster → Cluster) : (s.mapCluster k f).driving = s.driving := rfl
@[simp] theorem State.mapCluster_streaming (k : Nat) (f : Cluster → Cluster) : (s.mapCluster k f).streaming = s.streaming := rfl
@[simp] theorem State.mapCluster_gathers (k : Nat) (f : Cluster → Cluster) : (s.mapCluster k f).gathers = s.gathers := rfl
@[simp] theorem State.mapCluster_stackCounters (k : Nat) (f : Cluster → Cluster) : (s.mapCluster k f).stackCounters = s.stackCounters := rfl
@[simp] theorem State.mapCluster_ueTimes (k : Nat) (f : Cluster → Cluster) : (s.mapCluster k f).ueTimes = s.ueTimes := rfl
@[simp] theorem State.mapCluster_temps (k : Nat) (f : Cluster → Cluster) : (s.mapCluster k f).temps = s.temps := rfl
@[simp] theorem State.mapCluster_fastRefresh (k : Nat) (f : Cluster → Cluster) : (s.mapCluster k f).fastRefresh = s.fastRefresh := rfl
@[simp] theorem State.mapCluster_throttled (k : Nat) (f : Cluster → Cluster) : (s.mapCluster k f).throttled = s.throttled := rfl
@[simp] theorem State.mapCluster_memCtl (k : Nat) (f : Cluster → Cluster) : (s.mapCluster k f).memCtl = s.memCtl := rfl
@[simp] theorem State.mapCluster_thermal (k : Nat) (f : Cluster → Cluster) : (s.mapCluster k f).thermal = s.thermal := rfl
@[simp] theorem State.mapCluster_tlb (k : Nat) (f : Cluster → Cluster) : (s.mapCluster k f).tlb = s.tlb := rfl
@[simp] theorem State.mapCluster_walkCache (k : Nat) (f : Cluster → Cluster) : (s.mapCluster k f).walkCache = s.walkCache := rfl
@[simp] theorem State.mapCluster_rootTable (k : Nat) (f : Cluster → Cluster) : (s.mapCluster k f).rootTable = s.rootTable := rfl
@[simp] theorem State.mapCluster_migrations (k : Nat) (f : Cluster → Cluster) : (s.mapCluster k f).migrations = s.migrations := rfl
@[simp] theorem State.mapCluster_deviceAcc (k : Nat) (f : Cluster → Cluster) : (s.mapCluster k f).deviceAcc = s.deviceAcc := rfl
@[simp] theorem State.mapCluster_records (k : Nat) (f : Cluster → Cluster) : (s.mapCluster k f).records = s.records := rfl
@[simp] theorem State.mapCluster_pushes (k : Nat) (f : Cluster → Cluster) : (s.mapCluster k f).pushes = s.pushes := rfl
@[simp] theorem State.mapCluster_launches (k : Nat) (f : Cluster → Cluster) : (s.mapCluster k f).launches = s.launches := rfl
@[simp] theorem State.mapCluster_tasks (k : Nat) (f : Cluster → Cluster) : (s.mapCluster k f).tasks = s.tasks := rfl
@[simp] theorem State.mapCluster_taken (k : Nat) (f : Cluster → Cluster) : (s.mapCluster k f).taken = s.taken := rfl
@[simp] theorem State.mapCluster_returns (k : Nat) (f : Cluster → Cluster) : (s.mapCluster k f).returns = s.returns := rfl
@[simp] theorem State.mapCluster_replays (k : Nat) (f : Cluster → Cluster) : (s.mapCluster k f).replays = s.replays := rfl
@[simp] theorem State.mapCluster_schedCtl (k : Nat) (f : Cluster → Cluster) : (s.mapCluster k f).schedCtl = s.schedCtl := rfl
@[simp] theorem State.mapCluster_tokenCtl (k : Nat) (f : Cluster → Cluster) : (s.mapCluster k f).tokenCtl = s.tokenCtl := rfl
@[simp] theorem State.mapCluster_tokens (k : Nat) (f : Cluster → Cluster) : (s.mapCluster k f).tokens = s.tokens := rfl
@[simp] theorem State.mapCluster_tokenReqs (k : Nat) (f : Cluster → Cluster) : (s.mapCluster k f).tokenReqs = s.tokenReqs := rfl
@[simp] theorem State.mapCluster_granted (k : Nat) (f : Cluster → Cluster) : (s.mapCluster k f).granted = s.granted := rfl
@[simp] theorem State.mapCluster_lastGrant (k : Nat) (f : Cluster → Cluster) : (s.mapCluster k f).lastGrant = s.lastGrant := rfl
@[simp] theorem State.mapCluster_rings (k : Nat) (f : Cluster → Cluster) : (s.mapCluster k f).rings = s.rings := rfl
@[simp] theorem State.mapCluster_eventBuf (k : Nat) (f : Cluster → Cluster) : (s.mapCluster k f).eventBuf = s.eventBuf := rfl
@[simp] theorem State.mapCluster_eventStuck (k : Nat) (f : Cluster → Cluster) : (s.mapCluster k f).eventStuck = s.eventStuck := rfl
@[simp] theorem State.mapCluster_dropped (k : Nat) (f : Cluster → Cluster) : (s.mapCluster k f).dropped = s.dropped := rfl
@[simp] theorem State.mapCluster_fabricCtl (k : Nat) (f : Cluster → Cluster) : (s.mapCluster k f).fabricCtl = s.fabricCtl := rfl
@[simp] theorem State.mapCluster_accelSet (k : Nat) (f : Cluster → Cluster) : (s.mapCluster k f).accelSet = s.accelSet := rfl
@[simp] theorem State.mapCluster_windows (k : Nat) (f : Cluster → Cluster) : (s.mapCluster k f).windows = s.windows := rfl
@[simp] theorem State.mapCluster_handlers (k : Nat) (f : Cluster → Cluster) : (s.mapCluster k f).handlers = s.handlers := rfl
@[simp] theorem State.mapCluster_jobs (k : Nat) (f : Cluster → Cluster) : (s.mapCluster k f).jobs = s.jobs := rfl
@[simp] theorem State.mapCluster_routes (k : Nat) (f : Cluster → Cluster) : (s.mapCluster k f).routes = s.routes := rfl
@[simp] theorem State.mapCluster_ports (k : Nat) (f : Cluster → Cluster) : (s.mapCluster k f).ports = s.ports := rfl
@[simp] theorem State.mapCluster_portCounters (k : Nat) (f : Cluster → Cluster) : (s.mapCluster k f).portCounters = s.portCounters := rfl
@[simp] theorem State.mapCluster_messages (k : Nat) (f : Cluster → Cluster) : (s.mapCluster k f).messages = s.messages := rfl
@[simp] theorem State.mapCluster_farOps (k : Nat) (f : Cluster → Cluster) : (s.mapCluster k f).farOps = s.farOps := rfl
@[simp] theorem State.mapCluster_tags (k : Nat) (f : Cluster → Cluster) : (s.mapCluster k f).tags = s.tags := rfl
@[simp] theorem State.mapCluster_waves (k : Nat) (f : Cluster → Cluster) : (s.mapCluster k f).waves = s.waves := rfl
@[simp] theorem State.mapCluster_control (k : Nat) (f : Cluster → Cluster) : (s.mapCluster k f).control = s.control := rfl
@[simp] theorem State.mapCluster_sems (k : Nat) (f : Cluster → Cluster) : (s.mapCluster k f).sems = s.sems := rfl
@[simp] theorem State.mapCluster_hostOut (k : Nat) (f : Cluster → Cluster) : (s.mapCluster k f).hostOut = s.hostOut := rfl
@[simp] theorem State.mapCluster_linkUp (k : Nat) (f : Cluster → Cluster) : (s.mapCluster k f).linkUp = s.linkUp := rfl
@[simp] theorem State.mapCluster_handlerPc (k : Nat) (f : Cluster → Cluster) : (s.mapCluster k f).handlerPc = s.handlerPc := rfl
@[simp] theorem State.mapCluster_supAsid (k : Nat) (f : Cluster → Cluster) : (s.mapCluster k f).supAsid = s.supAsid := rfl
@[simp] theorem State.mapCluster_pools (k : Nat) (f : Cluster → Cluster) : (s.mapCluster k f).pools = s.pools := rfl
@[simp] theorem State.mapCluster_staging (k : Nat) (f : Cluster → Cluster) : (s.mapCluster k f).staging = s.staging := rfl
@[simp] theorem State.mapCluster_staged (k : Nat) (f : Cluster → Cluster) : (s.mapCluster k f).staged = s.staged := rfl
@[simp] theorem State.mapCluster_telemetry (k : Nat) (f : Cluster → Cluster) : (s.mapCluster k f).telemetry = s.telemetry := rfl
@[simp] theorem State.mapCluster_tokenWait (k : Nat) (f : Cluster → Cluster) : (s.mapCluster k f).tokenWait = s.tokenWait := rfl
@[simp] theorem State.mapCluster_attCtl (k : Nat) (f : Cluster → Cluster) : (s.mapCluster k f).attCtl = s.attCtl := rfl
@[simp] theorem State.mapCluster_nonce (k : Nat) (f : Cluster → Cluster) : (s.mapCluster k f).nonce = s.nonce := rfl
@[simp] theorem State.mapCluster_latched (k : Nat) (f : Cluster → Cluster) : (s.mapCluster k f).latched = s.latched := rfl
@[simp] theorem State.mapCluster_report (k : Nat) (f : Cluster → Cluster) : (s.mapCluster k f).report = s.report := rfl

/-! ### Updating a flight -/

@[simp] theorem State.mapFlight_agenda (fl : Nat) (f : Flight → Flight) : (s.mapFlight fl f).agenda = s.agenda := rfl
@[simp] theorem State.mapFlight_arbCount (fl : Nat) (f : Flight → Flight) : (s.mapFlight fl f).arbCount = s.arbCount := rfl
@[simp] theorem State.mapFlight_freeCount (fl : Nat) (f : Flight → Flight) : (s.mapFlight fl f).freeCount = s.freeCount := rfl
@[simp] theorem State.mapFlight_serial (fl : Nat) (f : Flight → Flight) : (s.mapFlight fl f).serial = s.serial := rfl
@[simp] theorem State.mapFlight_issued (fl : Nat) (f : Flight → Flight) : (s.mapFlight fl f).issued = s.issued := rfl
@[simp] theorem State.mapFlight_cur (fl : Nat) (f : Flight → Flight) : (s.mapFlight fl f).cur = s.cur := rfl
@[simp] theorem State.mapFlight_device (fl : Nat) (f : Flight → Flight) : (s.mapFlight fl f).device = s.device := rfl
@[simp] theorem State.mapFlight_fatalCause (fl : Nat) (f : Flight → Flight) : (s.mapFlight fl f).fatalCause = s.fatalCause := rfl
@[simp] theorem State.mapFlight_fwVersion (fl : Nat) (f : Flight → Flight) : (s.mapFlight fl f).fwVersion = s.fwVersion := rfl
@[simp] theorem State.mapFlight_rollbackMin (fl : Nat) (f : Flight → Flight) : (s.mapFlight fl f).rollbackMin = s.rollbackMin := rfl
@[simp] theorem State.mapFlight_fwHash (fl : Nat) (f : Flight → Flight) : (s.mapFlight fl f).fwHash = s.fwHash := rfl
@[simp] theorem State.mapFlight_ucodeHash (fl : Nat) (f : Flight → Flight) : (s.mapFlight fl f).ucodeHash = s.ucodeHash := rfl
@[simp] theorem State.mapFlight_clock (fl : Nat) (f : Flight → Flight) : (s.mapFlight fl f).clock = s.clock := rfl
@[simp] theorem State.mapFlight_crews (fl : Nat) (f : Flight → Flight) : (s.mapFlight fl f).crews = s.crews := rfl
@[simp] theorem State.mapFlight_nextContext (fl : Nat) (f : Flight → Flight) : (s.mapFlight fl f).nextContext = s.nextContext := rfl
@[simp] theorem State.mapFlight_clusters (fl : Nat) (f : Flight → Flight) : (s.mapFlight fl f).clusters = s.clusters := rfl
@[simp] theorem State.mapFlight_appended (fl : Nat) (f : Flight → Flight) : (s.mapFlight fl f).appended = s.appended := rfl
@[simp] theorem State.mapFlight_contribs (fl : Nat) (f : Flight → Flight) : (s.mapFlight fl f).contribs = s.contribs := rfl
@[simp] theorem State.mapFlight_engines (fl : Nat) (f : Flight → Flight) : (s.mapFlight fl f).engines = s.engines := rfl
@[simp] theorem State.mapFlight_lines (fl : Nat) (f : Flight → Flight) : (s.mapFlight fl f).lines = s.lines := rfl
@[simp] theorem State.mapFlight_copies (fl : Nat) (f : Flight → Flight) : (s.mapFlight fl f).copies = s.copies := rfl
@[simp] theorem State.mapFlight_writeBacks (fl : Nat) (f : Flight → Flight) : (s.mapFlight fl f).writeBacks = s.writeBacks := rfl
@[simp] theorem State.mapFlight_fills (fl : Nat) (f : Flight → Flight) : (s.mapFlight fl f).fills = s.fills := rfl
@[simp] theorem State.mapFlight_owned (fl : Nat) (f : Flight → Flight) : (s.mapFlight fl f).owned = s.owned := rfl
@[simp] theorem State.mapFlight_streams (fl : Nat) (f : Flight → Flight) : (s.mapFlight fl f).streams = s.streams := rfl
@[simp] theorem State.mapFlight_deliveries (fl : Nat) (f : Flight → Flight) : (s.mapFlight fl f).deliveries = s.deliveries := rfl
@[simp] theorem State.mapFlight_chipWays (fl : Nat) (f : Flight → Flight) : (s.mapFlight fl f).chipWays = s.chipWays := rfl
@[simp] theorem State.mapFlight_chip (fl : Nat) (f : Flight → Flight) : (s.mapFlight fl f).chip = s.chip := rfl
@[simp] theorem State.mapFlight_chipFree (fl : Nat) (f : Flight → Flight) : (s.mapFlight fl f).chipFree = s.chipFree := rfl
@[simp] theorem State.mapFlight_spcfg (fl : Nat) (f : Flight → Flight) : (s.mapFlight fl f).spcfg = s.spcfg := rfl
@[simp] theorem State.mapFlight_hbm (fl : Nat) (f : Flight → Flight) : (s.mapFlight fl f).hbm = s.hbm := rfl
@[simp] theorem State.mapFlight_poisonPas (fl : Nat) (f : Flight → Flight) : (s.mapFlight fl f).poisonPas = s.poisonPas := rfl
@[simp] theorem State.mapFlight_undelivPas (fl : Nat) (f : Flight → Flight) : (s.mapFlight fl f).undelivPas = s.undelivPas := rfl
@[simp] theorem State.mapFlight_damage (fl : Nat) (f : Flight → Flight) : (s.mapFlight fl f).damage = s.damage := rfl
@[simp] theorem State.mapFlight_lost (fl : Nat) (f : Flight → Flight) : (s.mapFlight fl f).lost = s.lost := rfl
@[simp] theorem State.mapFlight_memState (fl : Nat) (f : Flight → Flight) : (s.mapFlight fl f).memState = s.memState := rfl
@[simp] theorem State.mapFlight_openRows (fl : Nat) (f : Flight → Flight) : (s.mapFlight fl f).openRows = s.openRows := rfl
@[simp] theorem State.mapFlight_driving (fl : Nat) (f : Flight → Flight) : (s.mapFlight fl f).driving = s.driving := rfl
@[simp] theorem State.mapFlight_streaming (fl : Nat) (f : Flight → Flight) : (s.mapFlight fl f).streaming = s.streaming := rfl
@[simp] theorem State.mapFlight_gathers (fl : Nat) (f : Flight → Flight) : (s.mapFlight fl f).gathers = s.gathers := rfl
@[simp] theorem State.mapFlight_stackCounters (fl : Nat) (f : Flight → Flight) : (s.mapFlight fl f).stackCounters = s.stackCounters := rfl
@[simp] theorem State.mapFlight_ueTimes (fl : Nat) (f : Flight → Flight) : (s.mapFlight fl f).ueTimes = s.ueTimes := rfl
@[simp] theorem State.mapFlight_temps (fl : Nat) (f : Flight → Flight) : (s.mapFlight fl f).temps = s.temps := rfl
@[simp] theorem State.mapFlight_fastRefresh (fl : Nat) (f : Flight → Flight) : (s.mapFlight fl f).fastRefresh = s.fastRefresh := rfl
@[simp] theorem State.mapFlight_throttled (fl : Nat) (f : Flight → Flight) : (s.mapFlight fl f).throttled = s.throttled := rfl
@[simp] theorem State.mapFlight_memCtl (fl : Nat) (f : Flight → Flight) : (s.mapFlight fl f).memCtl = s.memCtl := rfl
@[simp] theorem State.mapFlight_thermal (fl : Nat) (f : Flight → Flight) : (s.mapFlight fl f).thermal = s.thermal := rfl
@[simp] theorem State.mapFlight_tlb (fl : Nat) (f : Flight → Flight) : (s.mapFlight fl f).tlb = s.tlb := rfl
@[simp] theorem State.mapFlight_walkCache (fl : Nat) (f : Flight → Flight) : (s.mapFlight fl f).walkCache = s.walkCache := rfl
@[simp] theorem State.mapFlight_rootTable (fl : Nat) (f : Flight → Flight) : (s.mapFlight fl f).rootTable = s.rootTable := rfl
@[simp] theorem State.mapFlight_migrations (fl : Nat) (f : Flight → Flight) : (s.mapFlight fl f).migrations = s.migrations := rfl
@[simp] theorem State.mapFlight_deviceAcc (fl : Nat) (f : Flight → Flight) : (s.mapFlight fl f).deviceAcc = s.deviceAcc := rfl
@[simp] theorem State.mapFlight_records (fl : Nat) (f : Flight → Flight) : (s.mapFlight fl f).records = s.records := rfl
@[simp] theorem State.mapFlight_pushes (fl : Nat) (f : Flight → Flight) : (s.mapFlight fl f).pushes = s.pushes := rfl
@[simp] theorem State.mapFlight_launches (fl : Nat) (f : Flight → Flight) : (s.mapFlight fl f).launches = s.launches := rfl
@[simp] theorem State.mapFlight_tasks (fl : Nat) (f : Flight → Flight) : (s.mapFlight fl f).tasks = s.tasks := rfl
@[simp] theorem State.mapFlight_taken (fl : Nat) (f : Flight → Flight) : (s.mapFlight fl f).taken = s.taken := rfl
@[simp] theorem State.mapFlight_returns (fl : Nat) (f : Flight → Flight) : (s.mapFlight fl f).returns = s.returns := rfl
@[simp] theorem State.mapFlight_replays (fl : Nat) (f : Flight → Flight) : (s.mapFlight fl f).replays = s.replays := rfl
@[simp] theorem State.mapFlight_schedCtl (fl : Nat) (f : Flight → Flight) : (s.mapFlight fl f).schedCtl = s.schedCtl := rfl
@[simp] theorem State.mapFlight_tokenCtl (fl : Nat) (f : Flight → Flight) : (s.mapFlight fl f).tokenCtl = s.tokenCtl := rfl
@[simp] theorem State.mapFlight_tokens (fl : Nat) (f : Flight → Flight) : (s.mapFlight fl f).tokens = s.tokens := rfl
@[simp] theorem State.mapFlight_tokenReqs (fl : Nat) (f : Flight → Flight) : (s.mapFlight fl f).tokenReqs = s.tokenReqs := rfl
@[simp] theorem State.mapFlight_granted (fl : Nat) (f : Flight → Flight) : (s.mapFlight fl f).granted = s.granted := rfl
@[simp] theorem State.mapFlight_lastGrant (fl : Nat) (f : Flight → Flight) : (s.mapFlight fl f).lastGrant = s.lastGrant := rfl
@[simp] theorem State.mapFlight_rings (fl : Nat) (f : Flight → Flight) : (s.mapFlight fl f).rings = s.rings := rfl
@[simp] theorem State.mapFlight_eventBuf (fl : Nat) (f : Flight → Flight) : (s.mapFlight fl f).eventBuf = s.eventBuf := rfl
@[simp] theorem State.mapFlight_eventStuck (fl : Nat) (f : Flight → Flight) : (s.mapFlight fl f).eventStuck = s.eventStuck := rfl
@[simp] theorem State.mapFlight_dropped (fl : Nat) (f : Flight → Flight) : (s.mapFlight fl f).dropped = s.dropped := rfl
@[simp] theorem State.mapFlight_fabricCtl (fl : Nat) (f : Flight → Flight) : (s.mapFlight fl f).fabricCtl = s.fabricCtl := rfl
@[simp] theorem State.mapFlight_accelSet (fl : Nat) (f : Flight → Flight) : (s.mapFlight fl f).accelSet = s.accelSet := rfl
@[simp] theorem State.mapFlight_windows (fl : Nat) (f : Flight → Flight) : (s.mapFlight fl f).windows = s.windows := rfl
@[simp] theorem State.mapFlight_handlers (fl : Nat) (f : Flight → Flight) : (s.mapFlight fl f).handlers = s.handlers := rfl
@[simp] theorem State.mapFlight_jobs (fl : Nat) (f : Flight → Flight) : (s.mapFlight fl f).jobs = s.jobs := rfl
@[simp] theorem State.mapFlight_routes (fl : Nat) (f : Flight → Flight) : (s.mapFlight fl f).routes = s.routes := rfl
@[simp] theorem State.mapFlight_ports (fl : Nat) (f : Flight → Flight) : (s.mapFlight fl f).ports = s.ports := rfl
@[simp] theorem State.mapFlight_portCounters (fl : Nat) (f : Flight → Flight) : (s.mapFlight fl f).portCounters = s.portCounters := rfl
@[simp] theorem State.mapFlight_messages (fl : Nat) (f : Flight → Flight) : (s.mapFlight fl f).messages = s.messages := rfl
@[simp] theorem State.mapFlight_farOps (fl : Nat) (f : Flight → Flight) : (s.mapFlight fl f).farOps = s.farOps := rfl
@[simp] theorem State.mapFlight_tags (fl : Nat) (f : Flight → Flight) : (s.mapFlight fl f).tags = s.tags := rfl
@[simp] theorem State.mapFlight_waves (fl : Nat) (f : Flight → Flight) : (s.mapFlight fl f).waves = s.waves := rfl
@[simp] theorem State.mapFlight_control (fl : Nat) (f : Flight → Flight) : (s.mapFlight fl f).control = s.control := rfl
@[simp] theorem State.mapFlight_sems (fl : Nat) (f : Flight → Flight) : (s.mapFlight fl f).sems = s.sems := rfl
@[simp] theorem State.mapFlight_hostOut (fl : Nat) (f : Flight → Flight) : (s.mapFlight fl f).hostOut = s.hostOut := rfl
@[simp] theorem State.mapFlight_linkUp (fl : Nat) (f : Flight → Flight) : (s.mapFlight fl f).linkUp = s.linkUp := rfl
@[simp] theorem State.mapFlight_handlerPc (fl : Nat) (f : Flight → Flight) : (s.mapFlight fl f).handlerPc = s.handlerPc := rfl
@[simp] theorem State.mapFlight_supAsid (fl : Nat) (f : Flight → Flight) : (s.mapFlight fl f).supAsid = s.supAsid := rfl
@[simp] theorem State.mapFlight_pools (fl : Nat) (f : Flight → Flight) : (s.mapFlight fl f).pools = s.pools := rfl
@[simp] theorem State.mapFlight_staging (fl : Nat) (f : Flight → Flight) : (s.mapFlight fl f).staging = s.staging := rfl
@[simp] theorem State.mapFlight_staged (fl : Nat) (f : Flight → Flight) : (s.mapFlight fl f).staged = s.staged := rfl
@[simp] theorem State.mapFlight_telemetry (fl : Nat) (f : Flight → Flight) : (s.mapFlight fl f).telemetry = s.telemetry := rfl
@[simp] theorem State.mapFlight_tokenWait (fl : Nat) (f : Flight → Flight) : (s.mapFlight fl f).tokenWait = s.tokenWait := rfl
@[simp] theorem State.mapFlight_attCtl (fl : Nat) (f : Flight → Flight) : (s.mapFlight fl f).attCtl = s.attCtl := rfl
@[simp] theorem State.mapFlight_nonce (fl : Nat) (f : Flight → Flight) : (s.mapFlight fl f).nonce = s.nonce := rfl
@[simp] theorem State.mapFlight_latched (fl : Nat) (f : Flight → Flight) : (s.mapFlight fl f).latched = s.latched := rfl
@[simp] theorem State.mapFlight_report (fl : Nat) (f : Flight → Flight) : (s.mapFlight fl f).report = s.report := rfl

/-! ### An instruction has issued -/

@[simp] theorem State.retire_agenda (f : Slice → Slice) : (s.retire c f).agenda = s.agenda := rfl
@[simp] theorem State.retire_arbCount (f : Slice → Slice) : (s.retire c f).arbCount = s.arbCount := rfl
@[simp] theorem State.retire_freeCount (f : Slice → Slice) : (s.retire c f).freeCount = s.freeCount := rfl
@[simp] theorem State.retire_serial (f : Slice → Slice) : (s.retire c f).serial = s.serial := rfl
@[simp] theorem State.retire_cur (f : Slice → Slice) : (s.retire c f).cur = s.cur := rfl
@[simp] theorem State.retire_device (f : Slice → Slice) : (s.retire c f).device = s.device := rfl
@[simp] theorem State.retire_fatalCause (f : Slice → Slice) : (s.retire c f).fatalCause = s.fatalCause := rfl
@[simp] theorem State.retire_fwVersion (f : Slice → Slice) : (s.retire c f).fwVersion = s.fwVersion := rfl
@[simp] theorem State.retire_rollbackMin (f : Slice → Slice) : (s.retire c f).rollbackMin = s.rollbackMin := rfl
@[simp] theorem State.retire_fwHash (f : Slice → Slice) : (s.retire c f).fwHash = s.fwHash := rfl
@[simp] theorem State.retire_ucodeHash (f : Slice → Slice) : (s.retire c f).ucodeHash = s.ucodeHash := rfl
@[simp] theorem State.retire_clock (f : Slice → Slice) : (s.retire c f).clock = s.clock := rfl
@[simp] theorem State.retire_nextContext (f : Slice → Slice) : (s.retire c f).nextContext = s.nextContext := rfl
@[simp] theorem State.retire_clusters (f : Slice → Slice) : (s.retire c f).clusters = s.clusters := rfl
@[simp] theorem State.retire_appended (f : Slice → Slice) : (s.retire c f).appended = s.appended := rfl
@[simp] theorem State.retire_contribs (f : Slice → Slice) : (s.retire c f).contribs = s.contribs := rfl
@[simp] theorem State.retire_engines (f : Slice → Slice) : (s.retire c f).engines = s.engines := rfl
@[simp] theorem State.retire_flights (f : Slice → Slice) : (s.retire c f).flights = s.flights := rfl
@[simp] theorem State.retire_lines (f : Slice → Slice) : (s.retire c f).lines = s.lines := rfl
@[simp] theorem State.retire_copies (f : Slice → Slice) : (s.retire c f).copies = s.copies := rfl
@[simp] theorem State.retire_writeBacks (f : Slice → Slice) : (s.retire c f).writeBacks = s.writeBacks := rfl
@[simp] theorem State.retire_fills (f : Slice → Slice) : (s.retire c f).fills = s.fills := rfl
@[simp] theorem State.retire_owned (f : Slice → Slice) : (s.retire c f).owned = s.owned := rfl
@[simp] theorem State.retire_streams (f : Slice → Slice) : (s.retire c f).streams = s.streams := rfl
@[simp] theorem State.retire_deliveries (f : Slice → Slice) : (s.retire c f).deliveries = s.deliveries := rfl
@[simp] theorem State.retire_chipWays (f : Slice → Slice) : (s.retire c f).chipWays = s.chipWays := rfl
@[simp] theorem State.retire_chip (f : Slice → Slice) : (s.retire c f).chip = s.chip := rfl
@[simp] theorem State.retire_chipFree (f : Slice → Slice) : (s.retire c f).chipFree = s.chipFree := rfl
@[simp] theorem State.retire_spcfg (f : Slice → Slice) : (s.retire c f).spcfg = s.spcfg := rfl
@[simp] theorem State.retire_hbm (f : Slice → Slice) : (s.retire c f).hbm = s.hbm := rfl
@[simp] theorem State.retire_poisonPas (f : Slice → Slice) : (s.retire c f).poisonPas = s.poisonPas := rfl
@[simp] theorem State.retire_undelivPas (f : Slice → Slice) : (s.retire c f).undelivPas = s.undelivPas := rfl
@[simp] theorem State.retire_damage (f : Slice → Slice) : (s.retire c f).damage = s.damage := rfl
@[simp] theorem State.retire_lost (f : Slice → Slice) : (s.retire c f).lost = s.lost := rfl
@[simp] theorem State.retire_memState (f : Slice → Slice) : (s.retire c f).memState = s.memState := rfl
@[simp] theorem State.retire_openRows (f : Slice → Slice) : (s.retire c f).openRows = s.openRows := rfl
@[simp] theorem State.retire_driving (f : Slice → Slice) : (s.retire c f).driving = s.driving := rfl
@[simp] theorem State.retire_streaming (f : Slice → Slice) : (s.retire c f).streaming = s.streaming := rfl
@[simp] theorem State.retire_gathers (f : Slice → Slice) : (s.retire c f).gathers = s.gathers := rfl
@[simp] theorem State.retire_stackCounters (f : Slice → Slice) : (s.retire c f).stackCounters = s.stackCounters := rfl
@[simp] theorem State.retire_ueTimes (f : Slice → Slice) : (s.retire c f).ueTimes = s.ueTimes := rfl
@[simp] theorem State.retire_temps (f : Slice → Slice) : (s.retire c f).temps = s.temps := rfl
@[simp] theorem State.retire_fastRefresh (f : Slice → Slice) : (s.retire c f).fastRefresh = s.fastRefresh := rfl
@[simp] theorem State.retire_throttled (f : Slice → Slice) : (s.retire c f).throttled = s.throttled := rfl
@[simp] theorem State.retire_memCtl (f : Slice → Slice) : (s.retire c f).memCtl = s.memCtl := rfl
@[simp] theorem State.retire_thermal (f : Slice → Slice) : (s.retire c f).thermal = s.thermal := rfl
@[simp] theorem State.retire_tlb (f : Slice → Slice) : (s.retire c f).tlb = s.tlb := rfl
@[simp] theorem State.retire_walkCache (f : Slice → Slice) : (s.retire c f).walkCache = s.walkCache := rfl
@[simp] theorem State.retire_rootTable (f : Slice → Slice) : (s.retire c f).rootTable = s.rootTable := rfl
@[simp] theorem State.retire_migrations (f : Slice → Slice) : (s.retire c f).migrations = s.migrations := rfl
@[simp] theorem State.retire_deviceAcc (f : Slice → Slice) : (s.retire c f).deviceAcc = s.deviceAcc := rfl
@[simp] theorem State.retire_records (f : Slice → Slice) : (s.retire c f).records = s.records := rfl
@[simp] theorem State.retire_pushes (f : Slice → Slice) : (s.retire c f).pushes = s.pushes := rfl
@[simp] theorem State.retire_launches (f : Slice → Slice) : (s.retire c f).launches = s.launches := rfl
@[simp] theorem State.retire_tasks (f : Slice → Slice) : (s.retire c f).tasks = s.tasks := rfl
@[simp] theorem State.retire_taken (f : Slice → Slice) : (s.retire c f).taken = s.taken := rfl
@[simp] theorem State.retire_returns (f : Slice → Slice) : (s.retire c f).returns = s.returns := rfl
@[simp] theorem State.retire_replays (f : Slice → Slice) : (s.retire c f).replays = s.replays := rfl
@[simp] theorem State.retire_schedCtl (f : Slice → Slice) : (s.retire c f).schedCtl = s.schedCtl := rfl
@[simp] theorem State.retire_tokenCtl (f : Slice → Slice) : (s.retire c f).tokenCtl = s.tokenCtl := rfl
@[simp] theorem State.retire_tokens (f : Slice → Slice) : (s.retire c f).tokens = s.tokens := rfl
@[simp] theorem State.retire_tokenReqs (f : Slice → Slice) : (s.retire c f).tokenReqs = s.tokenReqs := rfl
@[simp] theorem State.retire_granted (f : Slice → Slice) : (s.retire c f).granted = s.granted := rfl
@[simp] theorem State.retire_lastGrant (f : Slice → Slice) : (s.retire c f).lastGrant = s.lastGrant := rfl
@[simp] theorem State.retire_rings (f : Slice → Slice) : (s.retire c f).rings = s.rings := rfl
@[simp] theorem State.retire_eventBuf (f : Slice → Slice) : (s.retire c f).eventBuf = s.eventBuf := rfl
@[simp] theorem State.retire_eventStuck (f : Slice → Slice) : (s.retire c f).eventStuck = s.eventStuck := rfl
@[simp] theorem State.retire_dropped (f : Slice → Slice) : (s.retire c f).dropped = s.dropped := rfl
@[simp] theorem State.retire_fabricCtl (f : Slice → Slice) : (s.retire c f).fabricCtl = s.fabricCtl := rfl
@[simp] theorem State.retire_accelSet (f : Slice → Slice) : (s.retire c f).accelSet = s.accelSet := rfl
@[simp] theorem State.retire_windows (f : Slice → Slice) : (s.retire c f).windows = s.windows := rfl
@[simp] theorem State.retire_handlers (f : Slice → Slice) : (s.retire c f).handlers = s.handlers := rfl
@[simp] theorem State.retire_jobs (f : Slice → Slice) : (s.retire c f).jobs = s.jobs := rfl
@[simp] theorem State.retire_routes (f : Slice → Slice) : (s.retire c f).routes = s.routes := rfl
@[simp] theorem State.retire_ports (f : Slice → Slice) : (s.retire c f).ports = s.ports := rfl
@[simp] theorem State.retire_portCounters (f : Slice → Slice) : (s.retire c f).portCounters = s.portCounters := rfl
@[simp] theorem State.retire_messages (f : Slice → Slice) : (s.retire c f).messages = s.messages := rfl
@[simp] theorem State.retire_farOps (f : Slice → Slice) : (s.retire c f).farOps = s.farOps := rfl
@[simp] theorem State.retire_tags (f : Slice → Slice) : (s.retire c f).tags = s.tags := rfl
@[simp] theorem State.retire_waves (f : Slice → Slice) : (s.retire c f).waves = s.waves := rfl
@[simp] theorem State.retire_control (f : Slice → Slice) : (s.retire c f).control = s.control := rfl
@[simp] theorem State.retire_sems (f : Slice → Slice) : (s.retire c f).sems = s.sems := rfl
@[simp] theorem State.retire_hostOut (f : Slice → Slice) : (s.retire c f).hostOut = s.hostOut := rfl
@[simp] theorem State.retire_linkUp (f : Slice → Slice) : (s.retire c f).linkUp = s.linkUp := rfl
@[simp] theorem State.retire_handlerPc (f : Slice → Slice) : (s.retire c f).handlerPc = s.handlerPc := rfl
@[simp] theorem State.retire_supAsid (f : Slice → Slice) : (s.retire c f).supAsid = s.supAsid := rfl
@[simp] theorem State.retire_pools (f : Slice → Slice) : (s.retire c f).pools = s.pools := rfl
@[simp] theorem State.retire_staging (f : Slice → Slice) : (s.retire c f).staging = s.staging := rfl
@[simp] theorem State.retire_staged (f : Slice → Slice) : (s.retire c f).staged = s.staged := rfl
@[simp] theorem State.retire_telemetry (f : Slice → Slice) : (s.retire c f).telemetry = s.telemetry := rfl
@[simp] theorem State.retire_tokenWait (f : Slice → Slice) : (s.retire c f).tokenWait = s.tokenWait := rfl
@[simp] theorem State.retire_attCtl (f : Slice → Slice) : (s.retire c f).attCtl = s.attCtl := rfl
@[simp] theorem State.retire_nonce (f : Slice → Slice) : (s.retire c f).nonce = s.nonce := rfl
@[simp] theorem State.retire_latched (f : Slice → Slice) : (s.retire c f).latched = s.latched := rfl
@[simp] theorem State.retire_report (f : Slice → Slice) : (s.retire c f).report = s.report := rfl

/-! ### Going on to the next instruction -/

@[simp] theorem Slice.advance_mask : (sl.advance).mask = sl.mask := rfl
@[simp] theorem Slice.advance_party : (sl.advance).party = sl.party := rfl
@[simp] theorem Slice.advance_finished : (sl.advance).finished = sl.finished := rfl
@[simp] theorem Slice.advance_stack : (sl.advance).stack = sl.stack := rfl
@[simp] theorem Slice.advance_fmt : (sl.advance).fmt = sl.fmt := rfl
@[simp] theorem Slice.advance_wb : (sl.advance).wb = sl.wb := rfl
@[simp] theorem Slice.advance_x0 : (sl.advance).x0 = sl.x0 := rfl
@[simp] theorem Slice.advance_x1 : (sl.advance).x1 = sl.x1 := rfl
@[simp] theorem Slice.advance_tstate : (sl.advance).tstate = sl.tstate := rfl
@[simp] theorem Slice.advance_tcause : (sl.advance).tcause = sl.tcause := rfl
@[simp] theorem Slice.advance_tmask : (sl.advance).tmask = sl.tmask := rfl
@[simp] theorem Slice.advance_epc : (sl.advance).epc = sl.epc := rfl
@[simp] theorem Slice.advance_savedFmt : (sl.advance).savedFmt = sl.savedFmt := rfl
@[simp] theorem Slice.advance_savedWb : (sl.advance).savedWb = sl.savedWb := rfl
@[simp] theorem Slice.advance_savedX0 : (sl.advance).savedX0 = sl.savedX0 := rfl
@[simp] theorem Slice.advance_savedX1 : (sl.advance).savedX1 = sl.savedX1 := rfl
@[simp] theorem Slice.advance_savedDepth : (sl.advance).savedDepth = sl.savedDepth := rfl
@[simp] theorem Slice.advance_pend : (sl.advance).pend = sl.pend := rfl
@[simp] theorem Slice.advance_wait : (sl.advance).wait = sl.wait := rfl
@[simp] theorem Slice.advance_savedWait : (sl.advance).savedWait = sl.savedWait := rfl
@[simp] theorem Slice.advance_monitor : (sl.advance).monitor = sl.monitor := rfl
@[simp] theorem Slice.advance_wake : (sl.advance).wake = sl.wake := rfl
@[simp] theorem Slice.advance_spur : (sl.advance).spur = sl.spur := rfl
@[simp] theorem Slice.advance_stamp : (sl.advance).stamp = sl.stamp := rfl
@[simp] theorem Slice.advance_bound : (sl.advance).bound = sl.bound := rfl

/-! ### Going to an address -/

@[simp] theorem Slice.jump_mask (a : Double) : (sl.jump a).mask = sl.mask := rfl
@[simp] theorem Slice.jump_party (a : Double) : (sl.jump a).party = sl.party := rfl
@[simp] theorem Slice.jump_finished (a : Double) : (sl.jump a).finished = sl.finished := rfl
@[simp] theorem Slice.jump_stack (a : Double) : (sl.jump a).stack = sl.stack := rfl
@[simp] theorem Slice.jump_fmt (a : Double) : (sl.jump a).fmt = sl.fmt := rfl
@[simp] theorem Slice.jump_wb (a : Double) : (sl.jump a).wb = sl.wb := rfl
@[simp] theorem Slice.jump_x0 (a : Double) : (sl.jump a).x0 = sl.x0 := rfl
@[simp] theorem Slice.jump_x1 (a : Double) : (sl.jump a).x1 = sl.x1 := rfl
@[simp] theorem Slice.jump_tstate (a : Double) : (sl.jump a).tstate = sl.tstate := rfl
@[simp] theorem Slice.jump_tcause (a : Double) : (sl.jump a).tcause = sl.tcause := rfl
@[simp] theorem Slice.jump_tmask (a : Double) : (sl.jump a).tmask = sl.tmask := rfl
@[simp] theorem Slice.jump_epc (a : Double) : (sl.jump a).epc = sl.epc := rfl
@[simp] theorem Slice.jump_savedFmt (a : Double) : (sl.jump a).savedFmt = sl.savedFmt := rfl
@[simp] theorem Slice.jump_savedWb (a : Double) : (sl.jump a).savedWb = sl.savedWb := rfl
@[simp] theorem Slice.jump_savedX0 (a : Double) : (sl.jump a).savedX0 = sl.savedX0 := rfl
@[simp] theorem Slice.jump_savedX1 (a : Double) : (sl.jump a).savedX1 = sl.savedX1 := rfl
@[simp] theorem Slice.jump_savedDepth (a : Double) : (sl.jump a).savedDepth = sl.savedDepth := rfl
@[simp] theorem Slice.jump_pend (a : Double) : (sl.jump a).pend = sl.pend := rfl
@[simp] theorem Slice.jump_wait (a : Double) : (sl.jump a).wait = sl.wait := rfl
@[simp] theorem Slice.jump_savedWait (a : Double) : (sl.jump a).savedWait = sl.savedWait := rfl
@[simp] theorem Slice.jump_monitor (a : Double) : (sl.jump a).monitor = sl.monitor := rfl
@[simp] theorem Slice.jump_wake (a : Double) : (sl.jump a).wake = sl.wake := rfl
@[simp] theorem Slice.jump_spur (a : Double) : (sl.jump a).spur = sl.spur := rfl
@[simp] theorem Slice.jump_stamp (a : Double) : (sl.jump a).stamp = sl.stamp := rfl
@[simp] theorem Slice.jump_bound (a : Double) : (sl.jump a).bound = sl.bound := rfl

@[simp] theorem Slice.jump_pc (a : Double) : (sl.jump a).pc = a := rfl

/-! ### One more instruction has issued -/

@[simp] theorem Slice.countIssue_pc (n : Nat) : (Slice.countIssue n sl).pc = sl.pc := rfl
@[simp] theorem Slice.countIssue_mask (n : Nat) : (Slice.countIssue n sl).mask = sl.mask := rfl
@[simp] theorem Slice.countIssue_party (n : Nat) : (Slice.countIssue n sl).party = sl.party := rfl
@[simp] theorem Slice.countIssue_finished (n : Nat) : (Slice.countIssue n sl).finished = sl.finished := rfl
@[simp] theorem Slice.countIssue_stack (n : Nat) : (Slice.countIssue n sl).stack = sl.stack := rfl
@[simp] theorem Slice.countIssue_loops (n : Nat) : (Slice.countIssue n sl).loops = sl.loops := rfl
@[simp] theorem Slice.countIssue_fmt (n : Nat) : (Slice.countIssue n sl).fmt = sl.fmt := rfl
@[simp] theorem Slice.countIssue_wb (n : Nat) : (Slice.countIssue n sl).wb = sl.wb := rfl
@[simp] theorem Slice.countIssue_x0 (n : Nat) : (Slice.countIssue n sl).x0 = sl.x0 := rfl
@[simp] theorem Slice.countIssue_x1 (n : Nat) : (Slice.countIssue n sl).x1 = sl.x1 := rfl
@[simp] theorem Slice.countIssue_lc (n : Nat) : (Slice.countIssue n sl).lc = sl.lc := rfl
@[simp] theorem Slice.countIssue_tstate (n : Nat) : (Slice.countIssue n sl).tstate = sl.tstate := rfl
@[simp] theorem Slice.countIssue_tcause (n : Nat) : (Slice.countIssue n sl).tcause = sl.tcause := rfl
@[simp] theorem Slice.countIssue_tmask (n : Nat) : (Slice.countIssue n sl).tmask = sl.tmask := rfl
@[simp] theorem Slice.countIssue_epc (n : Nat) : (Slice.countIssue n sl).epc = sl.epc := rfl
@[simp] theorem Slice.countIssue_savedFmt (n : Nat) : (Slice.countIssue n sl).savedFmt = sl.savedFmt := rfl
@[simp] theorem Slice.countIssue_savedWb (n : Nat) : (Slice.countIssue n sl).savedWb = sl.savedWb := rfl
@[simp] theorem Slice.countIssue_savedX0 (n : Nat) : (Slice.countIssue n sl).savedX0 = sl.savedX0 := rfl
@[simp] theorem Slice.countIssue_savedX1 (n : Nat) : (Slice.countIssue n sl).savedX1 = sl.savedX1 := rfl
@[simp] theorem Slice.countIssue_savedDepth (n : Nat) : (Slice.countIssue n sl).savedDepth = sl.savedDepth := rfl
@[simp] theorem Slice.countIssue_wait (n : Nat) : (Slice.countIssue n sl).wait = sl.wait := rfl
@[simp] theorem Slice.countIssue_savedWait (n : Nat) : (Slice.countIssue n sl).savedWait = sl.savedWait := rfl
@[simp] theorem Slice.countIssue_monitor (n : Nat) : (Slice.countIssue n sl).monitor = sl.monitor := rfl
@[simp] theorem Slice.countIssue_wake (n : Nat) : (Slice.countIssue n sl).wake = sl.wake := rfl
@[simp] theorem Slice.countIssue_spur (n : Nat) : (Slice.countIssue n sl).spur = sl.spur := rfl
@[simp] theorem Slice.countIssue_bound (n : Nat) : (Slice.countIssue n sl).bound = sl.bound := rfl

end Sys2Proof.Machine
end

