-- ==== Sys2Proof/Laws/Exceptions.lean ====
section
/-! SUPPORT. Taking an exception, returning from one, and abandoning a crew: everything each can do. -/

namespace Sys2Proof.Machine
set_option Elab.async false
open Sys2Proof

/-- Taking an exception abandons the crew, waits, or enters the handler; outside the crews, the event buffer, the accesses
in flight and the model's own counters it changes nothing. -/
theorem State.takeEntry_cases (s : State) (c : Ctx) (e : Entry) (code : Nat) :
    (c.inHandler = true ∧ s.takeEntry c e code =
      State.abandonCrew { s with issued := s.issued + 1 } c.crew.id code ((e.addrs.map Prod.snd).headD 0)) ∨
    (c.inHandler = false ∧ s.handlerBusy c = true ∧ s.takeEntry c e code = s) ∨
    (c.inHandler = false ∧ s.handlerBusy c = false ∧ s.takeEntry c e code = State.mapIssuer
      (State.mapCrew { s with issued := s.issued + 1, freeCount := s.freeCount + 512 } c.crew.id fun k =>
        { k with hasid := BitVec.ofNat 32 k.asid }) c fun g =>
        (c.enter e s.handlerPc (s.parkedOf c.crew.id c.member c.sls).length s.freeCount g).mapSlices c.sls fun sl =>
          { sl with stamp := s.issued + 1 }) := by
  unfold State.takeEntry
  cases h1 : c.inHandler with
  | true => exact .inl ⟨rfl, by simp⟩
  | false =>
    cases h2 : s.handlerBusy c with
    | true => exact .inr (.inl ⟨rfl, rfl, by simp⟩)
    | false => exact .inr (.inr ⟨rfl, rfl, by simp⟩)

/-- Putting an event record away changes the event buffer or its count of dropped records, and nothing else. -/
theorem State.postEvent_eq (s : State) (r : EventRec) :
    s.postEvent r = { s with eventBuf := (s.postEvent r).eventBuf, dropped := (s.postEvent r).dropped } := by
  unfold State.postEvent
  split <;> rfl

/-- The device event buffer never holds more than 256 records (09 R233). -/
theorem State.postEvent_length (s : State) (r : EventRec) (h : s.eventBuf.length ≤ 256) :
    (s.postEvent r).eventBuf.length ≤ 256 := by
  unfold State.postEvent
  split
  · simp; omega
  · exact h

/-- Abandoning a crew changes the crews, the accesses in flight, the requests for tokens and the event buffer, and nothing
else. -/
theorem State.abandonCrew_eq (s : State) (crew cause va : Nat) : s.abandonCrew crew cause va = { s with
    crews := (s.abandonCrew crew cause va).crews
    flights := (s.abandonCrew crew cause va).flights
    tokenReqs := (s.abandonCrew crew cause va).tokenReqs
    eventBuf := (s.abandonCrew crew cause va).eventBuf
    dropped := (s.abandonCrew crew cause va).dropped } := by
  unfold State.abandonCrew
  split
  · rfl
  · split
    · rfl
    · rw [State.postEvent_eq]
      split <;> rfl

/-- TSTATE at entry: HANDLER is set, and SAVED_MASK is the mask (11 R272). -/
theorem tstateWord_fields (m : BitVec 4) (f : Bool) (n : Nat) :
    (tstateWord m f n).getLsbD 0 = true ∧ (tstateWord m f n).extractLsb' 1 4 = m := by
  have hm := m.isLt
  have hn : min n 255 ≤ 255 := Nat.min_le_right n 255
  constructor
  · have h : (1 + 2 * m.toNat + (if f then 32 else 0) + 64 * min n 255) % 2 = 1 := by cases f <;> simp <;> omega
    simp only [tstateWord, BitVec.getLsbD_ofNat, Nat.testBit_zero, h]
    rfl
  · apply BitVec.eq_of_toNat_eq
    cases f <;> simp [tstateWord, BitVec.extractLsb'_toNat, Nat.shiftRight_eq_div_pow] <;> omega

/-- ERET takes a slice out of handler state. -/
@[simp] theorem Slice.eret_inHandler (sl : Slice) : sl.eret.inHandler = false := by
  simp [Slice.inHandler, Slice.eret, natBits]

end Sys2Proof.Machine
end

