-- ==== Sys2Proof/Laws/RunOp.lean ====
section
/-! SUPPORT. The frame every instruction word runs in: what its checks let through, and every way it can end. -/

namespace Sys2Proof.Machine
set_option Elab.async false
open Sys2Proof

@[simp] theorem need_true (k : Cause) : need true k = .ok () := rfl
@[simp] theorem need_false (k : Cause) : need false k = .error (.of k) := rfl
@[simp] theorem ready_true : ready true = .ok () := rfl
@[simp] theorem ready_false : ready false = .error .wait := rfl

@[simp] theorem State.outcome_ok (s t : State) (c : Ctx) (n : Nat) : s.outcome c n (.ok t) = .next t := rfl
@[simp] theorem State.outcome_wait (s : State) (c : Ctx) (n : Nat) : s.outcome c n (.error .wait) = .next s := rfl
@[simp] theorem State.outcome_queued (s : State) (c : Ctx) (n : Nat) :
    s.outcome c n (.error .queued) = .next (s.holdBindings c) := rfl
@[simp] theorem State.outcome_trap (s : State) (c : Ctx) (n : Nat) (k : Cause) (as : List (Nat × Nat)) :
    s.outcome c n (.error (.trap k as)) = .next (s.takeTrap c k as n) := rfl

/-- An instruction word goes on from every state in which its thread lives. -/
theorem State.outcome_next (s : State) (c : Ctx) (n : Nat) (r : Except Stop State) : ∃ t, s.outcome c n r = .next t := by
  rcases r with (⟨k, as⟩ | _ | _) | t
  · exact ⟨_, rfl⟩
  · exact ⟨_, rfl⟩
  · exact ⟨_, rfl⟩
  · exact ⟨_, rfl⟩

/-- The checks pass exactly when each of them does. -/
theorem check_ok_iff (c : Ctx) (i : Instr) (o : OpSpec) : c.check i o = .ok () ↔
    (i.wellFormed && !o.bad && o.kind.admits c.gang.isSeq && !(o.noHandler && c.inHandler) &&
      (c.allUses o).all (·.legal c.gang.isSeq)) = true ∧
    (o.feat.all c.crew.feat.getLsbD) = true ∧ c.layoutKnown o = true ∧ c.layoutOk o = true ∧
    (c.inHandler || (!o.handlerOnly && (!o.priv || c.crew.supervisor))) = true ∧
    (c.sls.all fun k => (o.uses (c.gang.slice k)).all fun u =>
      (resolve c.gang.isSeq c.gang.allot (c.gang.slice k) u).isSome) = true ∧
    ((c.allUses o).all fun u => !u.isQueue || (c.port? u).isSome) = true ∧
    (c.sls.all fun k => o.fmtOk (c.gang.slice k)) = true := by
  unfold Ctx.check
  generalize (i.wellFormed && !o.bad && o.kind.admits c.gang.isSeq && !(o.noHandler && c.inHandler) &&
      (c.allUses o).all (·.legal c.gang.isSeq)) = b1
  generalize (o.feat.all c.crew.feat.getLsbD) = b2
  generalize c.layoutKnown o = b7
  generalize c.layoutOk o = b8
  generalize (c.inHandler || (!o.handlerOnly && (!o.priv || c.crew.supervisor))) = b3
  generalize (c.sls.all fun k => (o.uses (c.gang.slice k)).all fun u =>
      (resolve c.gang.isSeq c.gang.allot (c.gang.slice k) u).isSome) = b4
  generalize ((c.allUses o).all fun u => !u.isQueue || (c.port? u).isSome) = b5
  generalize (c.sls.all fun k => o.fmtOk (c.gang.slice k)) = b6
  cases b1 <;> cases b2 <;> cases b3 <;> cases b4 <;> cases b5 <;> cases b6 <;> cases b7 <;> cases b8 <;> simp [bind, Except.bind]

/-- A word whose thread lives, that passes its checks, is ready and has its operands, does what its body says. -/
theorem runOp_body {s s' : State} {c : Ctx} {i : Instr} {o : OpSpec} {args : List (List Nat)}
    (body : Ctx → List (List Nat) → State → Except Stop State) (h1 : s.issuer? = some c) (h2 : c.check i o = .ok ())
    (h3 : c.scoreOk o = true) (h4 : c.fetch o.uses (readPositions (o.uses c.first)) s = .ok (args, s'))
    (h5 : c.roomOk o s' = true) : runOp i o body s = s.outcome c (opcodeOf i) (body c args s') := by
  unfold runOp
  rw [h1]
  simp [h2, h3, h4, h5, ready_true, bind, Except.bind]

/-- A word that fails a check traps. -/
theorem runOp_check {s : State} {c : Ctx} {i : Instr} {o : OpSpec} {e : Stop}
    (body : Ctx → List (List Nat) → State → Except Stop State) (h1 : s.issuer? = some c) (h2 : c.check i o = .error e) :
    runOp i o body s = s.outcome c (opcodeOf i) (.error e) := by
  unfold runOp
  rw [h1]
  simp only [h2, bind, Except.bind]

/-- A word that waits for a register changes nothing. -/
theorem runOp_score {s : State} {c : Ctx} {i : Instr} {o : OpSpec}
    (body : Ctx → List (List Nat) → State → Except Stop State) (h1 : s.issuer? = some c) (h2 : c.check i o = .ok ())
    (h3 : c.scoreOk o = false) : runOp i o body s = .next s := by
  unfold runOp
  rw [h1]
  simp only [h2, h3, ready_false, bind, Except.bind, State.outcome_wait]

/-- Every way a word can end: no thread, a trap, a wait, a wait at a queue register, or its effect. -/
theorem runOp_cases (i : Instr) (o : OpSpec) (body : Ctx → List (List Nat) → State → Except Stop State) (s : State) :
    (s.issuer? = none ∧ runOp i o body s = .fault .noIssuer) ∨
    ∃ c, s.issuer? = some c ∧
      ((∃ k as, runOp i o body s = .next (s.takeTrap c k as (opcodeOf i))) ∨ runOp i o body s = .next s ∨
        runOp i o body s = .next (s.holdBindings c) ∨
        ∃ args s' t, c.fetch o.uses (readPositions (o.uses c.first)) s = .ok (args, s') ∧ body c args s' = .ok t ∧
          runOp i o body s = .next t) := by
  cases h : s.issuer? with
  | none => exact .inl ⟨rfl, by simp [runOp, h]⟩
  | some c =>
    refine .inr ⟨c, rfl, ?_⟩
    simp only [runOp, h]
    cases h2 : c.check i o with
    | error e =>
      cases e with
      | trap k as => exact .inl ⟨k, as, rfl⟩
      | wait => exact .inr (.inl rfl)
      | queued => exact .inr (.inr (.inl rfl))
    | ok u =>
      cases h3 : c.scoreOk o with
      | false => exact .inr (.inl rfl)
      | true =>
        cases h4 : c.fetch o.uses (readPositions (o.uses c.first)) s with
        | error e =>
          cases e with
          | trap k as => exact .inl ⟨k, as, by simp [bind, Except.bind]⟩
          | wait => exact .inr (.inl (by simp [bind, Except.bind]))
          | queued => exact .inr (.inr (.inl (by simp [bind, Except.bind])))
        | ok r =>
          obtain ⟨args, s'⟩ := r
          cases h5 : c.roomOk o s' with
          | false => exact .inr (.inr (.inl (by simp [bind, Except.bind, h5])))
          | true =>
            cases h6 : body c args s' with
            | error e =>
              cases e with
              | trap k as => exact .inl ⟨k, as, by simp [bind, Except.bind, h5, h6]⟩
              | wait => exact .inr (.inl (by simp [bind, Except.bind, h5, h6]))
              | queued => exact .inr (.inr (.inl (by simp [bind, Except.bind, h5, h6])))
            | ok t => exact .inr (.inr (.inr ⟨args, s', t, rfl, h6, by simp [bind, Except.bind, h5, h6]⟩))

end Sys2Proof.Machine
end

