-- ==== Sys2Proof/Laws/Table.lean ====
section
/-! SUPPORT. Laws of sparse tables and byte memories: a read after a write, what a write leaves alone, and that every
operation keeps the canonical form. -/

namespace Sys2Proof.Machine
set_option Elab.async false
open Sys2Proof

variable {α : Type}

/-! ### Reading after a write -/

theorem tabFind_insert_self (t : Table α) (k : Nat) (v : α) : tabFind (tabInsert t k v) k = some v := by
  induction t with
  | nil => simp [tabInsert, tabFind]
  | cons e t ih =>
    obtain ⟨j, u⟩ := e
    simp only [tabInsert]
    by_cases h1 : k < j
    · simp [h1, tabFind]
    · by_cases h2 : k = j
      · simp [h2, tabFind]
      · simp only [h1, if_false, h2, tabFind, if_neg (fun h : j = k => h2 h.symm), ih]

theorem tabFind_insert_other (t : Table α) (k n : Nat) (v : α) (h : n ≠ k) :
    tabFind (tabInsert t k v) n = tabFind t n := by
  induction t with
  | nil => simp [tabInsert, tabFind, Ne.symm h]
  | cons e t ih =>
    obtain ⟨j, u⟩ := e
    simp only [tabInsert]
    by_cases h1 : k < j
    · simp [h1, tabFind, Ne.symm h]
    · by_cases h2 : k = j
      · subst h2; simp [tabFind, Ne.symm h]
      · simp only [h1, if_false, h2, tabFind, ih]

theorem tabFind_erase_self (t : Table α) (k : Nat) : tabFind (tabErase t k) k = none := by
  induction t with
  | nil => rfl
  | cons e t ih =>
    obtain ⟨j, u⟩ := e
    by_cases h : j = k <;> simp [tabErase, tabFind, h, ih]

theorem tabFind_erase_other (t : Table α) (k n : Nat) (h : n ≠ k) : tabFind (tabErase t k) n = tabFind t n := by
  induction t with
  | nil => rfl
  | cons e t ih =>
    obtain ⟨j, u⟩ := e
    by_cases h1 : j = k
    · subst h1; simp [tabErase, tabFind, ih, Ne.symm h]
    · simp [tabErase, tabFind, h1, ih]

/-- A key reads as it was last written. -/
@[simp] theorem tabGet_put_self [DecidableEq α] (d : α) (t : Table α) (k : Nat) (v : α) :
    tabGet (tabPut d t k v) k d = v := by
  by_cases h : v = d
  · simp [tabPut, tabGet, h, tabFind_erase_self]
  · simp [tabPut, tabGet, h, tabFind_insert_self]

/-- A write leaves every other key alone. -/
theorem tabGet_put_other [DecidableEq α] (d e : α) (t : Table α) (k n : Nat) (v : α) (h : n ≠ k) :
    tabGet (tabPut d t k v) n e = tabGet t n e := by
  by_cases h1 : v = d
  · simp [tabPut, tabGet, h1, tabFind_erase_other t k n h]
  · simp [tabPut, tabGet, h1, tabFind_insert_other t k n v h]

/-! ### The canonical form -/

/-- Every key of a table lies above a bound. -/
def tabAbove (b : Nat) (t : Table α) : Prop := ∀ e ∈ t, b < e.1

theorem tabCanon_cons [DecidableEq α] (d : α) (j : Nat) (u : α) (t : Table α) :
    tabCanon d ((j, u) :: t) = true ↔ u ≠ d ∧ tabAbove j t ∧ tabCanon d t = true := by
  induction t generalizing j u with
  | nil => simp [tabCanon, tabAbove]
  | cons e t ih =>
    obtain ⟨k, w⟩ := e
    have := ih k w
    simp only [tabCanon, Bool.and_eq_true, decide_eq_true_eq, tabAbove, List.mem_cons, forall_eq_or_imp]
    constructor
    · rintro ⟨⟨h1, h2⟩, h3⟩
      exact ⟨h1, ⟨h2, fun x hx => Nat.lt_trans h2 ((this.1 h3).2.1 x hx)⟩, h3⟩
    · rintro ⟨h1, ⟨h2, _⟩, h3⟩
      exact ⟨⟨h1, h2⟩, h3⟩

theorem tabAbove_insert (b : Nat) (t : Table α) (k : Nat) (v : α) (h : tabAbove b t) (hk : b < k) :
    tabAbove b (tabInsert t k v) := by
  induction t with
  | nil => intro e he; simp [tabInsert] at he; simp [he, hk]
  | cons e t ih =>
    obtain ⟨j, u⟩ := e
    have h1 : b < j := h (j, u) (by simp)
    have h2 : tabAbove b t := fun x hx => h x (by simp [hx])
    simp only [tabInsert]
    split
    · intro x hx; rcases List.mem_cons.1 hx with rfl | hx
      · exact hk
      · exact h x hx
    · split
      · intro x hx; rcases List.mem_cons.1 hx with rfl | hx
        · exact hk
        · exact h2 x hx
      · intro x hx; rcases List.mem_cons.1 hx with rfl | hx
        · exact h1
        · exact ih h2 x hx

theorem tabAbove_erase (b : Nat) (t : Table α) (k : Nat) (h : tabAbove b t) : tabAbove b (tabErase t k) := by
  induction t with
  | nil => exact h
  | cons e t ih =>
    obtain ⟨j, u⟩ := e
    have h2 : tabAbove b t := fun x hx => h x (by simp [hx])
    simp only [tabErase]
    split
    · exact ih h2
    · intro x hx; rcases List.mem_cons.1 hx with rfl | hx
      · exact h (j, u) (by simp)
      · exact ih h2 x hx

theorem tabCanon_insert [DecidableEq α] (d : α) (t : Table α) (k : Nat) (v : α) (h : tabCanon d t = true) (hv : v ≠ d) :
    tabCanon d (tabInsert t k v) = true := by
  induction t with
  | nil => simpa [tabInsert, tabCanon] using hv
  | cons e t ih =>
    obtain ⟨j, u⟩ := e
    obtain ⟨h1, h2, h3⟩ := (tabCanon_cons d j u t).1 h
    simp only [tabInsert]
    split
    · rename_i hlt
      refine (tabCanon_cons d k v _).2 ⟨hv, ?_, h⟩
      intro x hx; rcases List.mem_cons.1 hx with rfl | hx
      · exact hlt
      · exact Nat.lt_trans hlt (h2 x hx)
    · split
      · rename_i heq
        exact (tabCanon_cons d k v t).2 ⟨hv, heq ▸ h2, h3⟩
      · exact (tabCanon_cons d j u _).2 ⟨h1, tabAbove_insert j t k v h2 (by omega), ih h3⟩

theorem tabCanon_erase [DecidableEq α] (d : α) (t : Table α) (k : Nat) (h : tabCanon d t = true) :
    tabCanon d (tabErase t k) = true := by
  induction t with
  | nil => exact h
  | cons e t ih =>
    obtain ⟨j, u⟩ := e
    obtain ⟨h1, h2, h3⟩ := (tabCanon_cons d j u t).1 h
    simp only [tabErase]
    split
    · exact ih h3
    · exact (tabCanon_cons d j u _).2 ⟨h1, tabAbove_erase j t k h2, ih h3⟩

/-- Writing a key keeps a table canonical. -/
theorem tabCanon_put [DecidableEq α] (d : α) (t : Table α) (k : Nat) (v : α) (h : tabCanon d t = true) :
    tabCanon d (tabPut d t k v) = true := by
  unfold tabPut
  split
  · exact tabCanon_erase d t k h
  · exact tabCanon_insert d t k v h ‹_›

/-! ### Byte memories -/

@[simp] theorem memByte_set_self (m : Memory) (a : Nat) (b : Byte) : memByte (memSetByte m a b) a = b := by
  simp [memByte, memSetByte]

theorem memByte_set_other (m : Memory) (a n : Nat) (b : Byte) (h : n ≠ a) : memByte (memSetByte m a b) n = memByte m n :=
  tabGet_put_other 0 0 m a n b h

/-- What a byte reads as after a write of several: the byte written there, or what stood there. -/
theorem memByte_setBytes (m : Memory) (a n : Nat) (bs : List Byte) :
    memByte (memSetBytes m a bs) n = if a ≤ n ∧ n < a + bs.length then bs.getD (n - a) 0 else memByte m n := by
  induction bs generalizing m a with
  | nil => simp [memSetBytes]
  | cons b bs ih =>
    simp only [memSetBytes, ih, List.length_cons]
    by_cases h : n = a
    · subst h
      have h1 : ¬(n + 1 ≤ n ∧ n < n + 1 + bs.length) := by omega
      have h2 : n ≤ n ∧ n < n + (bs.length + 1) := by omega
      rw [if_neg h1, if_pos h2, memByte_set_self]; simp
    · by_cases h1 : a + 1 ≤ n ∧ n < a + 1 + bs.length
      · have h2 : a ≤ n ∧ n < a + (bs.length + 1) := by omega
        rw [if_pos h1, if_pos h2]
        obtain ⟨k, hk⟩ : ∃ k, n - a = k + 1 := ⟨n - a - 1, by omega⟩
        have : n - (a + 1) = k := by omega
        simp [hk, this]
      · have h2 : ¬(a ≤ n ∧ n < a + (bs.length + 1)) := by omega
        rw [if_neg h1, if_neg h2, memByte_set_other m a n b h]

/-- Every write keeps a memory in its canonical form. -/
theorem memSetBytes_wf (m : Memory) (a : Nat) (bs : List Byte) (h : Memory.wf m = true) :
    Memory.wf (memSetBytes m a bs) = true := by
  induction bs generalizing m a with
  | nil => exact h
  | cons b bs ih => exact ih _ _ (tabCanon_put 0 m a b h)

@[simp] theorem memBytes_length (m : Memory) (a n : Nat) : (memBytes m a n).length = n := by
  induction n generalizing a with
  | zero => rfl
  | succ n ih => simp [memBytes, ih]

theorem memBytes_getD (m : Memory) (a n k : Nat) (h : k < n) : (memBytes m a n).getD k 0 = memByte m (a + k) := by
  induction n generalizing a k with
  | zero => omega
  | succ n ih =>
    cases k with
    | zero => simp [memBytes]
    | succ k =>
      have := ih (a + 1) k (by omega)
      simp only [memBytes, List.getD_cons_succ, this]
      congr 1; omega

@[simp] theorem leBytes_length (n v : Nat) : (leBytes n v).length = n := by
  induction n generalizing v with
  | zero => rfl
  | succ n ih => simp [leBytes, ih]

theorem leBytes_getD (n v k : Nat) (h : k < n) : (leBytes n v).getD k 0 = BitVec.ofNat 8 (v / 256 ^ k) := by
  induction n generalizing v k with
  | zero => omega
  | succ n ih =>
    cases k with
    | zero => simp [leBytes]
    | succ k =>
      have := ih (v / 256) k (by omega)
      simp only [leBytes, List.getD_cons_succ, this, Nat.div_div_eq_div_mul, pow_succ, Nat.mul_comm]

/-- Bytes of a value, put together again. -/
theorem leValue_leBytes (n v : Nat) : leValue (leBytes n v) = v % 256 ^ n := by
  induction n generalizing v with
  | zero => simp [leBytes, leValue, Nat.mod_one]
  | succ n ih =>
    simp only [leBytes, leValue, ih, BitVec.toNat_ofNat]
    rw [show (256 : Nat) ^ (n + 1) = 256 * 256 ^ n by rw [pow_succ, Nat.mul_comm], Nat.mod_mul]

end Sys2Proof.Machine
end

