-- ==== Sys2Proof/Laws/Fields.lean ====
section
/-! SUPPORT. Registers and queue ports: what reads after a write, and what a write leaves alone. -/

namespace Sys2Proof.Machine
set_option Elab.async false
open Sys2Proof

theorem Gang.lane_mapLane_self (g : Gang) (l : Nat) (f : Lane → Lane) (h : l < g.lanes.length) :
    (g.mapLane l f).lane l = f (g.lane l) := by
  simp [Gang.lane, Gang.mapLane, listModify, List.getD_eq_getElem?_getD, h]

theorem Gang.lane_mapLane_other (g : Gang) (l m : Nat) (f : Lane → Lane) (h : m ≠ l) :
    (g.mapLane l f).lane m = g.lane m := by
  simp [Gang.lane, Gang.mapLane, listModify, List.getD_eq_getElem?_getD, Ne.symm h]

/-- Writing a register of a lane changes no slice of the gang. -/
@[simp] theorem Gang.writeReg_slices (g : Gang) (l : Nat) (r : RegName) (v : Nat) :
    (g.writeReg l r v).slices = g.slices := by
  cases r <;> simp only [Gang.writeReg, Gang.mapLane] <;> split <;> rfl

@[simp] theorem Gang.writeRegs_slices (g : Gang) (l : Nat) (rs : List RegName) (v : Nat) :
    (g.writeRegs l rs v).slices = g.slices := by
  induction rs generalizing g v with
  | nil => rfl
  | cons r rs ih => simp [Gang.writeRegs, ih]

@[simp] theorem Gang.writeLanes_slices (g : Gang) (use : Slice → Use) (lvs : List (Nat × Nat)) :
    (g.writeLanes use lvs).slices = g.slices := by
  induction lvs generalizing g with
  | nil => rfl
  | cons e lvs ih =>
    obtain ⟨l, v⟩ := e
    simp only [Gang.writeLanes]
    split <;> simp [ih]

/-- The cluster a table holds after an update. -/
@[simp] theorem State.cluster_mapCluster_self (s : State) (k : Nat) (f : Cluster → Cluster) :
    (s.mapCluster k f).cluster k = f (s.cluster k) := by
  simp [State.cluster, State.mapCluster]

theorem State.cluster_mapCluster_other (s : State) (k n : Nat) (f : Cluster → Cluster) (h : n ≠ k) :
    (s.mapCluster k f).cluster n = s.cluster n := by
  simp only [State.cluster, State.mapCluster]
  exact tabGet_put_other _ _ _ _ _ _ h

/-- A crew after an update, found by its number. -/
theorem State.crew?_mapCrew (s : State) (id n : Nat) (f : Crew → Crew) (hf : ∀ c, (f c).id = c.id) :
    (s.mapCrew id f).crew? n = if n = id then (s.crew? n).map f else s.crew? n := by
  simp only [State.crew?, State.mapCrew, modifyWhere]
  induction s.crews with
  | nil => simp
  | cons c cs ih =>
    simp only [List.map_cons, List.find?_cons]
    by_cases h : c.id = id
    · by_cases h2 : n = id
      · subst h2; simp [h, hf]
      · have h3 : ¬(f c).id = n := by rw [hf, h]; exact Ne.symm h2
        have h4 : ¬c.id = n := by rw [h]; exact Ne.symm h2
        simp only [h, beq_self_eq_true, if_true, beq_eq_false_iff_ne.mpr h3, beq_eq_false_iff_ne.mpr (h ▸ h4)]
        simpa [h2] using ih
    · simp only [beq_eq_false_iff_ne.mpr h, Bool.false_eq_true, if_false]
      by_cases h2 : c.id = n
      · have h3 : n ≠ id := h2 ▸ h
        simp [h2, h3]
      · simpa only [beq_eq_false_iff_ne.mpr h2] using ih

@[simp] theorem Crew.mapMember_id (c : Crew) (m : Nat) (f : Gang → Gang) : (c.mapMember m f).id = c.id := by
  unfold Crew.mapMember
  split <;> rfl

/-- A member of a crew after its update, and the other members. -/
theorem Crew.member?_mapMember (c : Crew) (m n : Nat) (f : Gang → Gang) :
    (c.mapMember m f).member? n = if n = m then (c.member? n).map f else c.member? n := by
  unfold Crew.mapMember Crew.member?
  by_cases h : m = 16
  · subst h
    by_cases h2 : n = 16 <;> simp [h2]
  · by_cases h2 : n = 16
    · subst h2; simp [h, Ne.symm h]
    · simp only [h, h2, if_false, listModify, List.getElem?_modify]
      by_cases h3 : n = m
      · subst h3; simp
      · simp [h3, Ne.symm h3]

end Sys2Proof.Machine
end

