-- ==== Sys2Proof/Laws/Hbm.lean ====
section
/-! SUPPORT. Laws of the memory controllers: while every stack answers and every stored line reads clean, an access at a
controller delivers its line and leaves memory so. -/

namespace Sys2Proof.Machine
set_option Elab.async false
open Sys2Proof

/-- Every stack answers, every stored line reads clean, no line is poisoned or undeliverable, and no stripe is locked. -/
structure State.Sound (s : State) : Prop where
  lost : ∀ k, s.isLost k = false
  damage : s.damage = []
  poison : s.poisonPas = []
  undeliv : s.undelivPas = []
  unlocked : ∀ g ∈ s.gathers, g.locked = false

/-- Two states have the same stacks, damage, marks and gathers, and the same stored bits. -/
structure State.SameStored (s t : State) : Prop where
  lost : t.lost = s.lost
  damage : t.damage = s.damage
  poison : t.poisonPas = s.poisonPas
  undeliv : t.undelivPas = s.undelivPas
  hbm : t.hbm = s.hbm
  gathers : t.gathers = s.gathers

/-- A column access changes no stored bit and no mark. -/
theorem State.column_same (s : State) (stack n : Nat) : s.SameStored (s.column stack n) := by
  simp only [State.column, State.openRow, State.drive, State.bump]
  split <;> split <;> exact ⟨rfl, rfl, rfl, rfl, rfl, rfl⟩

theorem State.Sound.of_same {s t : State} (h : s.Sound) (e : s.SameStored t) : t.Sound :=
  ⟨fun k => by rw [State.isLost, e.lost]; exact h.lost k, e.damage.trans h.damage, e.poison.trans h.poison, e.undeliv.trans h.undeliv,
    e.gathers ▸ h.unlocked⟩

theorem State.Sound.column {s : State} (h : s.Sound) (stack n : Nat) : (s.column stack n).Sound := h.of_same (s.column_same stack n)

theorem State.Sound.setRawLine {s : State} (h : s.Sound) (stack n : Nat) (bs : List Byte) : (s.setRawLine stack n bs).Sound :=
  ⟨h.lost, by simp [State.setRawLine, h.damage, tabErase], h.poison, h.undeliv, h.unlocked⟩

theorem State.Sound.putStack {s : State} (h : s.Sound) (stack n : Nat) (bs : List Byte) : (s.putStack stack n bs).Sound :=
  (h.column stack n).setRawLine stack n bs

/-- A controller delivers the stored bits of a sound memory. -/
theorem State.Sound.fetchStack {s : State} (h : s.Sound) (stack n : Nat) :
    s.fetchStack stack n = (some ((s.column stack n).rawLine stack n), s.column stack n) := by
  simp [State.fetchStack, h.lost stack, State.readStack, (h.column stack n).damage, tabGet, tabFind]

/-- No stripe of a sound memory waits for its deltas. -/
theorem State.Sound.settleStripe {s : State} (h : s.Sound) (stripe : Nat) : s.settleStripe stripe = s := by
  have e : s.gathers.filter (fun g => g.stripe == stripe && g.locked) = [] := by
    simp only [List.filter_eq_nil_iff, Bool.and_eq_true, not_and]
    exact fun g hg _ => by simp [h.unlocked g hg]
  simp [State.settleStripe, e]

theorem State.Sound.readLine {s : State} (h : s.Sound) (line : Nat) :
    s.readLine line 0 = (some ((s.column (dataStack line) (line / 7)).rawLine (dataStack line) (line / 7)),
      s.column (dataStack line) (line / 7)) := by
  have e : s.strike (dataStack line) (line / 7) 0 = s := by simp [State.strike]
  simp [State.readLine, h.settleStripe, e, State.fetchLine, h.poison, h.undeliv, h.fetchStack]

theorem State.Sound.lineWritten {s : State} (h : s.Sound) (line : Nat) : (s.lineWritten line false).Sound :=
  ⟨h.lost, h.damage, by simp [State.lineWritten, h.poison], by simp [State.lineWritten, h.undeliv], h.unlocked⟩

theorem State.Sound.lostCount {s : State} (h : s.Sound) : s.lostCount = 0 := by
  simp only [State.lostCount, List.length_eq_zero_iff, List.filter_eq_nil_iff, id]
  intro b hb
  obtain ⟨k, hk, rfl⟩ := List.getElem_of_mem hb
  simpa [State.isLost, List.getD_eq_getElem?_getD, hk] using h.lost k

theorem State.Sound.storedLine {s : State} (h : s.Sound) (stack n : Nat) :
    s.storedLine stack n = ((s.column stack n).rawLine stack n, s.column stack n) := by
  simp [State.storedLine, h.fetchStack]

/-- A write of a line keeps memory sound. -/
theorem State.Sound.writeLine {s : State} (h : s.Sound) (line : Nat) (bs : List Byte) : (s.writeLine line bs false).Sound := by
  have c := h.column (dataStack line) (line / 7)
  simp only [State.writeLine, h.settleStripe, h.lostCount, h.lost, h.storedLine, c.storedLine, if_false, Bool.false_eq_true]
  exact ((((c.column _ _).putStack _ _ _).putStack _ _ _).lineWritten line)

/-- A migration copies any lines of a sound memory. -/
theorem State.Sound.copyLines {s : State} (h : s.Sound) (m : Migration) (os : List Nat) :
    (s.copyLines m 0 os).1 = true ∧ (s.copyLines m 0 os).2.Sound := by
  induction os generalizing s with
  | nil => exact ⟨rfl, h⟩
  | cons o os ih =>
    have e : ∀ a b, s.strike a b 0 = s := fun a b => by simp [State.strike]
    simp only [State.copyLines, State.copyLine, e, h.damage, h.readLine, tabGet, tabFind, Option.getD_none, Nat.zero_lt_two, decide_true]
    exact ih ((h.column _ _).writeLine _ _)

theorem State.Sound.streamLines {s : State} (h : s.Sound) (m : Migration) (os : List Nat) : (s.streamLines m 0 os).1 = true :=
  (State.Sound.copyLines (s := { s with streaming := true }) ⟨h.lost, h.damage, h.poison, h.undeliv, h.unlocked⟩ m os).1

end Sys2Proof.Machine
end

