-- ==== Sys2Proof/Laws/PerInstr.lean ====
section
/-! SUPPORT. A law for each instruction as syntax: bits 31 to 25 of its word are the opcode that 03 R62 gives it. -/

namespace Sys2Proof.Laws
set_option Elab.async false
open Sys2Proof

/-- The opcode of an instruction in the opcode table; a step of a device agent has none. -/
def tableOpcode : Instr → Nat
  | .aadd _ _ _ _ _ _ _ => 0x57
  | .amin _ _ _ _ _ _ _ => 0x58
  | .amax _ _ _ _ _ _ _ => 0x59
  | .aand _ _ _ _ _ _ _ => 0x5A
  | .aor _ _ _ _ _ _ _ => 0x5B
  | .axor _ _ _ _ _ _ _ => 0x5C
  | .axch _ _ _ _ _ _ _ => 0x5D
  | .acas _ _ _ _ _ _ _ => 0x5E
  | .afadd _ _ _ _ _ _ _ => 0x5F
  | .amsg _ _ _ => 0x78
  | .and _ _ _ => 0x17
  | .andi _ _ _ => 0x25
  | .bar _ _ => 0x62
  | .bara _ _ => 0x63
  | .bfi _ _ _ => 0x20
  | .bfx _ _ _ _ => 0x1F
  | .bra _ => 0x01
  | .braZ _ _ => 0x01
  | .brc _ _ => 0x02
  | .call _ _ => 0x05
  | .cbt _ _ => 0x4F
  | .cbtReg _ _ => 0x4F
  | .cflush _ => 0x51
  | .clz _ _ _ => 0x1E
  | .coal _ _ _ _ => 0x42
  | .cvt _ _ _ _ _ => 0x32
  | .dmma _ _ _ _ => 0x6B
  | .dot8 _ _ _ _ => 0x3D
  | .dot4 _ _ _ _ => 0x3E
  | .dqt _ _ _ _ => 0x34
  | .eret => 0x0F
  | .eretAbandon => 0x0F
  | .exit => 0x09
  | .fadd _ _ _ _ => 0x2B
  | .fsub _ _ _ _ => 0x2C
  | .fmul _ _ _ _ => 0x2D
  | .ffma _ _ _ _ => 0x2E
  | .fmin _ _ _ _ => 0x2F
  | .fmax _ _ _ _ => 0x30
  | .fcmp _ _ _ _ _ => 0x31
  | .frcp _ _ _ _ => 0x35
  | .frsq _ _ _ _ => 0x36
  | .fsqrt _ _ _ _ => 0x37
  | .fexp2 _ _ _ _ => 0x38
  | .flog2 _ _ _ _ => 0x39
  | .fsin _ _ _ _ => 0x3A
  | .fcos _ _ _ _ => 0x3B
  | .ftanh _ _ _ _ => 0x3C
  | .fence _ _ => 0x55
  | .fmt _ => 0x0D
  | .grpl _ _ _ _ => 0x75
  | .iadd _ _ _ _ => 0x10
  | .isub _ _ _ _ => 0x11
  | .imul _ _ _ _ => 0x12
  | .imulh _ _ _ _ => 0x13
  | .imad _ _ _ _ => 0x14
  | .imin _ _ _ _ => 0x15
  | .imax _ _ _ _ => 0x16
  | .iaddi _ _ _ => 0x24
  | .icmp _ _ _ _ _ => 0x21
  | .jdec _ _ _ _ _ _ _ => 0x73
  | .join => 0x04
  | .ld _ _ _ _ => 0x48
  | .ldw _ _ _ _ => 0x49
  | .ldq _ _ _ _ => 0x4A
  | .lda _ _ _ _ _ _ => 0x53
  | .ldx _ _ _ _ => 0x4E
  | .lea _ _ _ _ _ => 0x23
  | .loop _ _ => 0x08
  | .lui _ _ => 0x2A
  | .mapf _ _ => 0x7C
  | .mcrd _ _ _ => 0x50
  | .mfs _ _ => 0x79
  | .mts _ _ => 0x7A
  | .mkab _ _ _ _ _ => 0x43
  | .mon _ _ _ _ _ _ => 0x60
  | .mwait _ _ => 0x61
  | .nop => 0x00
  | .or _ _ _ => 0x18
  | .ori _ _ _ => 0x26
  | .pack _ _ _ _ _ => 0x3F
  | .popc _ _ => 0x1D
  | .prom _ _ _ => 0x56
  | .qadjInjected _ _ => 0x77
  | .qadjConsumed _ _ => 0x77
  | .qadjClearLost _ _ => 0x77
  | .qadjQueryToLost _ _ => 0x77
  | .qbind _ _ => 0x64
  | .qbindUn _ => 0x64
  | .qnt _ _ _ => 0x33
  | .qntFix _ _ _ => 0x33
  | .qntHealth _ _ => 0x33
  | .qstat _ _ => 0x65
  | .quiet _ _ _ _ => 0x76
  | .rcp _ => 0x03
  | .rdx _ _ _ => 0x46
  | .scan _ _ _ _ => 0x47
  | .regang => 0x07
  | .ret _ => 0x06
  | .rply => 0x7D
  | .sel _ _ _ _ => 0x22
  | .setx _ _ _ => 0x0C
  | .shfl _ _ _ _ => 0x44
  | .shl _ _ _ => 0x1A
  | .shr _ _ _ => 0x1B
  | .shli _ _ _ => 0x28
  | .shri _ _ _ => 0x29
  | .sra _ _ _ => 0x1C
  | .spawn _ => 0x72
  | .spcfg _ _ _ => 0x7E
  | .st _ _ _ => 0x4B
  | .stw _ _ _ => 0x4C
  | .stq _ _ _ => 0x4D
  | .stl _ _ _ _ _ => 0x54
  | .tbnd _ _ _ => 0x6C
  | .tcfg _ _ _ _ _ => 0x6D
  | .tclr _ _ _ => 0x6F
  | .tdrn _ _ _ _ _ => 0x6E
  | .tlbiPage _ => 0x7B
  | .tlbiAsid _ => 0x7B
  | .tlbiAll => 0x7B
  | .tmma _ _ _ _ => 0x6A
  | .trap _ => 0x0A
  | .tsta _ _ _ _ => 0x41
  | .tstg _ _ => 0x70
  | .tsub _ _ _ => 0x74
  | .ttbl _ _ => 0x71
  | .unpk _ _ _ _ _ => 0x40
  | .unpkCb _ _ _ => 0x40
  | .vote _ _ _ => 0x45
  | .waitp _ _ => 0x52
  | .win _ => 0x0B
  | .xcp _ _ _ _ _ => 0x66
  | .xcpr _ _ _ _ _ => 0x67
  | .xqap _ _ _ _ => 0x68
  | .xwait _ _ => 0x69
  | .xwaitAll _ => 0x69
  | .xor _ _ _ => 0x19
  | .xori _ _ _ => 0x27
  | .yld => 0x0E
  | _ => 0

theorem sum_fields (l : List (Nat × Nat)) (b : Nat) :
    l.foldl (fun acc f => acc + f.1 * 2 ^ f.2) b = b + (l.map fun f => f.1 * 2 ^ f.2).sum := by
  induction l generalizing b with
  | nil => simp
  | cons x l ih => rw [List.foldl_cons, ih, List.map_cons, List.sum_cons, Nat.add_assoc]

/-- A packed word is its fixed bits and the sum of its fields. -/
theorem packWord_toNat (base : Nat) (fs : List (Nat × Nat)) :
    (packWord base fs).toNat = (base + (fs.map fun f => f.1 * 2 ^ f.2).sum) % 2 ^ 32 := by
  rw [packWord, sum_fields, BitVec.toNat_ofNat]

/-- A field of a word as a number. -/
theorem fld_toNat (w : Word) (lo n : Nat) : (fld w lo n).toNat = w.toNat / 2 ^ lo % 2 ^ n := by
  rw [fld, BitVec.extractLsb'_toNat, Nat.shiftRight_eq_div_pow]

theorem opcode_bits (op low x : Nat) (hop : op < 128) (h : low + x < 33554432) :
    (op * 33554432 + low + x) % 2 ^ 32 / 2 ^ 25 % 2 ^ 7 = op := by omega

/-- A word keeps its opcode while its fields stay below it. -/
theorem fld_packWord (op low : Nat) (fs : List (Nat × Nat)) (hop : op < 128)
    (h : low + (fs.map fun f => f.1 * 2 ^ f.2).sum < 33554432) :
    (fld (packWord (op * 33554432 + low) fs) 25 7).toNat = op := by
  rw [fld_toNat, packWord_toNat]
  exact opcode_bits op low _ hop h

namespace Opcode

/-- Bits 31 to 25 of an instruction's word are its opcode. -/
def Statement (i : Instr) : Prop := i.isWord = true → (fld (encodeWord i) 25 7).toNat = tableOpcode i

theorem aadd (t a : BitVec 7) (s : BitVec 3) (r : BitVec 2) (p z : BitVec 1) (l : BitVec 4) : Statement (.aadd t a s r p z l) := fun _ =>
  fld_packWord 0x57 0x0 _ (by decide) (by have := t.isLt; have := a.isLt; have := s.isLt; have := r.isLt; have := p.isLt; have := z.isLt; have := l.isLt; simp only [List.map, List.sum_cons, List.sum_nil]; omega)
theorem amin (t a : BitVec 7) (s : BitVec 3) (r : BitVec 2) (p z : BitVec 1) (l : BitVec 4) : Statement (.amin t a s r p z l) := fun _ =>
  fld_packWord 0x58 0x0 _ (by decide) (by have := t.isLt; have := a.isLt; have := s.isLt; have := r.isLt; have := p.isLt; have := z.isLt; have := l.isLt; simp only [List.map, List.sum_cons, List.sum_nil]; omega)
theorem amax (t a : BitVec 7) (s : BitVec 3) (r : BitVec 2) (p z : BitVec 1) (l : BitVec 4) : Statement (.amax t a s r p z l) := fun _ =>
  fld_packWord 0x59 0x0 _ (by decide) (by have := t.isLt; have := a.isLt; have := s.isLt; have := r.isLt; have := p.isLt; have := z.isLt; have := l.isLt; simp only [List.map, List.sum_cons, List.sum_nil]; omega)
theorem aand (t a : BitVec 7) (s : BitVec 3) (r : BitVec 2) (p z : BitVec 1) (l : BitVec 4) : Statement (.aand t a s r p z l) := fun _ =>
  fld_packWord 0x5A 0x0 _ (by decide) (by have := t.isLt; have := a.isLt; have := s.isLt; have := r.isLt; have := p.isLt; have := z.isLt; have := l.isLt; simp only [List.map, List.sum_cons, List.sum_nil]; omega)
theorem aor (t a : BitVec 7) (s : BitVec 3) (r : BitVec 2) (p z : BitVec 1) (l : BitVec 4) : Statement (.aor t a s r p z l) := fun _ =>
  fld_packWord 0x5B 0x0 _ (by decide) (by have := t.isLt; have := a.isLt; have := s.isLt; have := r.isLt; have := p.isLt; have := z.isLt; have := l.isLt; simp only [List.map, List.sum_cons, List.sum_nil]; omega)
theorem axor (t a : BitVec 7) (s : BitVec 3) (r : BitVec 2) (p z : BitVec 1) (l : BitVec 4) : Statement (.axor t a s r p z l) := fun _ =>
  fld_packWord 0x5C 0x0 _ (by decide) (by have := t.isLt; have := a.isLt; have := s.isLt; have := r.isLt; have := p.isLt; have := z.isLt; have := l.isLt; simp only [List.map, List.sum_cons, List.sum_nil]; omega)
theorem axch (t a : BitVec 7) (s : BitVec 3) (r : BitVec 2) (p z : BitVec 1) (l : BitVec 4) : Statement (.axch t a s r p z l) := fun _ =>
  fld_packWord 0x5D 0x0 _ (by decide) (by have := t.isLt; have := a.isLt; have := s.isLt; have := r.isLt; have := p.isLt; have := z.isLt; have := l.isLt; simp only [List.map, List.sum_cons, List.sum_nil]; omega)
theorem acas (t a : BitVec 7) (s : BitVec 3) (r : BitVec 2) (p z : BitVec 1) (l : BitVec 4) : Statement (.acas t a s r p z l) := fun _ =>
  fld_packWord 0x5E 0x0 _ (by decide) (by have := t.isLt; have := a.isLt; have := s.isLt; have := r.isLt; have := p.isLt; have := z.isLt; have := l.isLt; simp only [List.map, List.sum_cons, List.sum_nil]; omega)
theorem afadd (t a : BitVec 7) (s : BitVec 3) (r : BitVec 2) (p z : BitVec 1) (l : BitVec 4) : Statement (.afadd t a s r p z l) := fun _ =>
  fld_packWord 0x5F 0x0 _ (by decide) (by have := t.isLt; have := a.isLt; have := s.isLt; have := r.isLt; have := p.isLt; have := z.isLt; have := l.isLt; simp only [List.map, List.sum_cons, List.sum_nil]; omega)
theorem amsg (t b : BitVec 7) (l : BitVec 4) : Statement (.amsg t b l) := fun _ =>
  fld_packWord 0x78 0x0 _ (by decide) (by have := t.isLt; have := b.isLt; have := l.isLt; simp only [List.map, List.sum_cons, List.sum_nil]; omega)
theorem and (d a b : BitVec 7) : Statement (.and d a b) := fun _ =>
  fld_packWord 0x17 0x0 _ (by decide) (by have := d.isLt; have := a.isLt; have := b.isLt; simp only [List.map, List.sum_cons, List.sum_nil]; omega)
theorem andi (d a : BitVec 7) (i : BitVec 11) : Statement (.andi d a i) := fun _ =>
  fld_packWord 0x25 0x0 _ (by decide) (by have := d.isLt; have := a.isLt; have := i.isLt; simp only [List.map, List.sum_cons, List.sum_nil]; omega)
theorem bar (c : BitVec 5) (n : BitVec 4) : Statement (.bar c n) := fun _ =>
  fld_packWord 0x62 0x0 _ (by decide) (by have := c.isLt; have := n.isLt; simp only [List.map, List.sum_cons, List.sum_nil]; omega)
theorem bara (c : BitVec 5) (n : BitVec 4) : Statement (.bara c n) := fun _ =>
  fld_packWord 0x63 0x0 _ (by decide) (by have := c.isLt; have := n.isLt; simp only [List.map, List.sum_cons, List.sum_nil]; omega)
theorem bfi (d a b : BitVec 7) : Statement (.bfi d a b) := fun _ =>
  fld_packWord 0x20 0x0 _ (by decide) (by have := d.isLt; have := a.isLt; have := b.isLt; simp only [List.map, List.sum_cons, List.sum_nil]; omega)
theorem bfx (d a b : BitVec 7) (s : BitVec 1) : Statement (.bfx d a b s) := fun _ =>
  fld_packWord 0x1F 0x0 _ (by decide) (by have := d.isLt; have := a.isLt; have := b.isLt; have := s.isLt; simp only [List.map, List.sum_cons, List.sum_nil]; omega)
theorem bra (o : BitVec 18) : Statement (.bra o) := fun _ =>
  fld_packWord 0x01 0x1E00000 _ (by decide) (by have := o.isLt; simp only [List.map, List.sum_cons, List.sum_nil]; omega)
theorem braZ (c : BitVec 7) (o : BitVec 18) : Statement (.braZ c o) := fun _ =>
  fld_packWord 0x01 0x0 _ (by decide) (by have := c.isLt; have := o.isLt; simp only [List.map, List.sum_cons, List.sum_nil]; omega)
theorem brc (c : BitVec 7) (o : BitVec 18) : Statement (.brc c o) := fun _ =>
  fld_packWord 0x02 0x0 _ (by decide) (by have := c.isLt; have := o.isLt; simp only [List.map, List.sum_cons, List.sum_nil]; omega)
theorem call (c : BitVec 7) (o : BitVec 18) : Statement (.call c o) := fun _ =>
  fld_packWord 0x05 0x0 _ (by decide) (by have := c.isLt; have := o.isLt; simp only [List.map, List.sum_cons, List.sum_nil]; omega)
theorem cbt (a : BitVec 7) (l : BitVec 4) : Statement (.cbt a l) := fun _ =>
  fld_packWord 0x4F 0x0 _ (by decide) (by have := a.isLt; have := l.isLt; simp only [List.map, List.sum_cons, List.sum_nil]; omega)
theorem cbtReg (b : BitVec 7) (l : BitVec 4) : Statement (.cbtReg b l) := fun _ =>
  fld_packWord 0x4F 0x40000 _ (by decide) (by have := b.isLt; have := l.isLt; simp only [List.map, List.sum_cons, List.sum_nil]; omega)
theorem cflush (a : BitVec 7) : Statement (.cflush a) := fun _ =>
  fld_packWord 0x51 0x0 _ (by decide) (by have := a.isLt; simp only [List.map, List.sum_cons, List.sum_nil]; omega)
theorem clz (d a : BitVec 7) (z : BitVec 1) : Statement (.clz d a z) := fun _ =>
  fld_packWord 0x1E 0x0 _ (by decide) (by have := d.isLt; have := a.isLt; have := z.isLt; simp only [List.map, List.sum_cons, List.sum_nil]; omega)
theorem coal (d a b : BitVec 7) (x : BitVec 1) : Statement (.coal d a b x) := fun _ =>
  fld_packWord 0x42 0x0 _ (by decide) (by have := d.isLt; have := a.isLt; have := b.isLt; have := x.isLt; simp only [List.map, List.sum_cons, List.sum_nil]; omega)
theorem cvt (d a : BitVec 7) (z v : BitVec 1) (l : BitVec 4) : Statement (.cvt d a z v l) := fun _ =>
  fld_packWord 0x32 0x0 _ (by decide) (by have := d.isLt; have := a.isLt; have := z.isLt; have := v.isLt; have := l.isLt; simp only [List.map, List.sum_cons, List.sum_nil]; omega)
theorem dmma (t a b : BitVec 7) (l : BitVec 4) : Statement (.dmma t a b l) := fun _ =>
  fld_packWord 0x6B 0x0 _ (by decide) (by have := t.isLt; have := a.isLt; have := b.isLt; have := l.isLt; simp only [List.map, List.sum_cons, List.sum_nil]; omega)
theorem dot8 (d a b : BitVec 7) (f : BitVec 2) : Statement (.dot8 d a b f) := fun _ =>
  fld_packWord 0x3D 0x0 _ (by decide) (by have := d.isLt; have := a.isLt; have := b.isLt; have := f.isLt; simp only [List.map, List.sum_cons, List.sum_nil]; omega)
theorem dot4 (d a b : BitVec 7) (f : BitVec 2) : Statement (.dot4 d a b f) := fun _ =>
  fld_packWord 0x3E 0x0 _ (by decide) (by have := d.isLt; have := a.isLt; have := b.isLt; have := f.isLt; simp only [List.map, List.sum_cons, List.sum_nil]; omega)
theorem dqt (d a b : BitVec 7) (l : BitVec 4) : Statement (.dqt d a b l) := fun _ =>
  fld_packWord 0x34 0x0 _ (by decide) (by have := d.isLt; have := a.isLt; have := b.isLt; have := l.isLt; simp only [List.map, List.sum_cons, List.sum_nil]; omega)
theorem eret : Statement .eret := fun _ => fld_packWord 0x0F 0x0 _ (by decide) (by decide)
theorem eretAbandon : Statement .eretAbandon := fun _ => fld_packWord 0x0F 0x1 _ (by decide) (by decide)
theorem exit : Statement .exit := fun _ => fld_packWord 0x09 0x0 _ (by decide) (by decide)
theorem fadd (d a b : BitVec 7) (p : BitVec 2) : Statement (.fadd d a b p) := fun _ =>
  fld_packWord 0x2B 0x0 _ (by decide) (by have := d.isLt; have := a.isLt; have := b.isLt; have := p.isLt; simp only [List.map, List.sum_cons, List.sum_nil]; omega)
theorem fsub (d a b : BitVec 7) (p : BitVec 2) : Statement (.fsub d a b p) := fun _ =>
  fld_packWord 0x2C 0x0 _ (by decide) (by have := d.isLt; have := a.isLt; have := b.isLt; have := p.isLt; simp only [List.map, List.sum_cons, List.sum_nil]; omega)
theorem fmul (d a b : BitVec 7) (p : BitVec 2) : Statement (.fmul d a b p) := fun _ =>
  fld_packWord 0x2D 0x0 _ (by decide) (by have := d.isLt; have := a.isLt; have := b.isLt; have := p.isLt; simp only [List.map, List.sum_cons, List.sum_nil]; omega)
theorem ffma (d a b : BitVec 7) (p : BitVec 2) : Statement (.ffma d a b p) := fun _ =>
  fld_packWord 0x2E 0x0 _ (by decide) (by have := d.isLt; have := a.isLt; have := b.isLt; have := p.isLt; simp only [List.map, List.sum_cons, List.sum_nil]; omega)
theorem fmin (d a b : BitVec 7) (p : BitVec 2) : Statement (.fmin d a b p) := fun _ =>
  fld_packWord 0x2F 0x0 _ (by decide) (by have := d.isLt; have := a.isLt; have := b.isLt; have := p.isLt; simp only [List.map, List.sum_cons, List.sum_nil]; omega)
theorem fmax (d a b : BitVec 7) (p : BitVec 2) : Statement (.fmax d a b p) := fun _ =>
  fld_packWord 0x30 0x0 _ (by decide) (by have := d.isLt; have := a.isLt; have := b.isLt; have := p.isLt; simp only [List.map, List.sum_cons, List.sum_nil]; omega)
theorem fcmp (d a b : BitVec 7) (x : BitVec 1) (c : BitVec 3) : Statement (.fcmp d a b x c) := fun _ =>
  fld_packWord 0x31 0x0 _ (by decide) (by have := d.isLt; have := a.isLt; have := b.isLt; have := x.isLt; have := c.isLt; simp only [List.map, List.sum_cons, List.sum_nil]; omega)
theorem frcp (d a : BitVec 7) (k : BitVec 1) (l : BitVec 4) : Statement (.frcp d a k l) := fun _ =>
  fld_packWord 0x35 0x0 _ (by decide) (by have := d.isLt; have := a.isLt; have := k.isLt; have := l.isLt; simp only [List.map, List.sum_cons, List.sum_nil]; omega)
theorem frsq (d a : BitVec 7) (k : BitVec 1) (l : BitVec 4) : Statement (.frsq d a k l) := fun _ =>
  fld_packWord 0x36 0x0 _ (by decide) (by have := d.isLt; have := a.isLt; have := k.isLt; have := l.isLt; simp only [List.map, List.sum_cons, List.sum_nil]; omega)
theorem fsqrt (d a : BitVec 7) (k : BitVec 1) (l : BitVec 4) : Statement (.fsqrt d a k l) := fun _ =>
  fld_packWord 0x37 0x0 _ (by decide) (by have := d.isLt; have := a.isLt; have := k.isLt; have := l.isLt; simp only [List.map, List.sum_cons, List.sum_nil]; omega)
theorem fexp2 (d a : BitVec 7) (k : BitVec 1) (l : BitVec 4) : Statement (.fexp2 d a k l) := fun _ =>
  fld_packWord 0x38 0x0 _ (by decide) (by have := d.isLt; have := a.isLt; have := k.isLt; have := l.isLt; simp only [List.map, List.sum_cons, List.sum_nil]; omega)
theorem flog2 (d a : BitVec 7) (k : BitVec 1) (l : BitVec 4) : Statement (.flog2 d a k l) := fun _ =>
  fld_packWord 0x39 0x0 _ (by decide) (by have := d.isLt; have := a.isLt; have := k.isLt; have := l.isLt; simp only [List.map, List.sum_cons, List.sum_nil]; omega)
theorem fsin (d a : BitVec 7) (k : BitVec 1) (l : BitVec 4) : Statement (.fsin d a k l) := fun _ =>
  fld_packWord 0x3A 0x0 _ (by decide) (by have := d.isLt; have := a.isLt; have := k.isLt; have := l.isLt; simp only [List.map, List.sum_cons, List.sum_nil]; omega)
theorem fcos (d a : BitVec 7) (k : BitVec 1) (l : BitVec 4) : Statement (.fcos d a k l) := fun _ =>
  fld_packWord 0x3B 0x0 _ (by decide) (by have := d.isLt; have := a.isLt; have := k.isLt; have := l.isLt; simp only [List.map, List.sum_cons, List.sum_nil]; omega)
theorem ftanh (d a : BitVec 7) (k : BitVec 1) (l : BitVec 4) : Statement (.ftanh d a k l) := fun _ =>
  fld_packWord 0x3C 0x0 _ (by decide) (by have := d.isLt; have := a.isLt; have := k.isLt; have := l.isLt; simp only [List.map, List.sum_cons, List.sum_nil]; omega)
theorem fence (s : BitVec 3) (r : BitVec 2) : Statement (.fence s r) := fun _ =>
  fld_packWord 0x55 0x0 _ (by decide) (by have := s.isLt; have := r.isLt; simp only [List.map, List.sum_cons, List.sum_nil]; omega)
theorem fmt (i : BitVec 16) : Statement (.fmt i) := fun _ =>
  fld_packWord 0x0D 0x0 _ (by decide) (by have := i.isLt; simp only [List.map, List.sum_cons, List.sum_nil]; omega)
theorem grpl (t a b : BitVec 7) (l : BitVec 4) : Statement (.grpl t a b l) := fun _ =>
  fld_packWord 0x75 0x0 _ (by decide) (by have := t.isLt; have := a.isLt; have := b.isLt; have := l.isLt; simp only [List.map, List.sum_cons, List.sum_nil]; omega)
theorem iadd (d a b : BitVec 7) (f : BitVec 4) : Statement (.iadd d a b f) := fun _ =>
  fld_packWord 0x10 0x0 _ (by decide) (by have := d.isLt; have := a.isLt; have := b.isLt; have := f.isLt; simp only [List.map, List.sum_cons, List.sum_nil]; omega)
theorem isub (d a b : BitVec 7) (f : BitVec 4) : Statement (.isub d a b f) := fun _ =>
  fld_packWord 0x11 0x0 _ (by decide) (by have := d.isLt; have := a.isLt; have := b.isLt; have := f.isLt; simp only [List.map, List.sum_cons, List.sum_nil]; omega)
theorem imul (d a b : BitVec 7) (f : BitVec 4) : Statement (.imul d a b f) := fun _ =>
  fld_packWord 0x12 0x0 _ (by decide) (by have := d.isLt; have := a.isLt; have := b.isLt; have := f.isLt; simp only [List.map, List.sum_cons, List.sum_nil]; omega)
theorem imulh (d a b : BitVec 7) (f : BitVec 4) : Statement (.imulh d a b f) := fun _ =>
  fld_packWord 0x13 0x0 _ (by decide) (by have := d.isLt; have := a.isLt; have := b.isLt; have := f.isLt; simp only [List.map, List.sum_cons, List.sum_nil]; omega)
theorem imad (d a b : BitVec 7) (f : BitVec 4) : Statement (.imad d a b f) := fun _ =>
  fld_packWord 0x14 0x0 _ (by decide) (by have := d.isLt; have := a.isLt; have := b.isLt; have := f.isLt; simp only [List.map, List.sum_cons, List.sum_nil]; omega)
theorem imin (d a b : BitVec 7) (f : BitVec 4) : Statement (.imin d a b f) := fun _ =>
  fld_packWord 0x15 0x0 _ (by decide) (by have := d.isLt; have := a.isLt; have := b.isLt; have := f.isLt; simp only [List.map, List.sum_cons, List.sum_nil]; omega)
theorem imax (d a b : BitVec 7) (f : BitVec 4) : Statement (.imax d a b f) := fun _ =>
  fld_packWord 0x16 0x0 _ (by decide) (by have := d.isLt; have := a.isLt; have := b.isLt; have := f.isLt; simp only [List.map, List.sum_cons, List.sum_nil]; omega)
theorem iaddi (d a : BitVec 7) (i : BitVec 11) : Statement (.iaddi d a i) := fun _ =>
  fld_packWord 0x24 0x0 _ (by decide) (by have := d.isLt; have := a.isLt; have := i.isLt; simp only [List.map, List.sum_cons, List.sum_nil]; omega)
theorem icmp (d a b : BitVec 7) (x : BitVec 1) (c : BitVec 3) : Statement (.icmp d a b x c) := fun _ =>
  fld_packWord 0x21 0x0 _ (by decide) (by have := d.isLt; have := a.isLt; have := b.isLt; have := x.isLt; have := c.isLt; simp only [List.map, List.sum_cons, List.sum_nil]; omega)
theorem jdec (t a : BitVec 7) (s : BitVec 3) (r : BitVec 2) (p z : BitVec 1) (l : BitVec 4) : Statement (.jdec t a s r p z l) := fun _ =>
  fld_packWord 0x73 0x0 _ (by decide) (by have := t.isLt; have := a.isLt; have := s.isLt; have := r.isLt; have := p.isLt; have := z.isLt; have := l.isLt; simp only [List.map, List.sum_cons, List.sum_nil]; omega)
theorem join : Statement .join := fun _ => fld_packWord 0x04 0x0 _ (by decide) (by decide)
theorem ld (t a o : BitVec 7) (l : BitVec 4) : Statement (.ld t a o l) := fun _ =>
  fld_packWord 0x48 0x0 _ (by decide) (by have := t.isLt; have := a.isLt; have := o.isLt; have := l.isLt; simp only [List.map, List.sum_cons, List.sum_nil]; omega)
theorem ldw (t a o : BitVec 7) (l : BitVec 4) : Statement (.ldw t a o l) := fun _ =>
  fld_packWord 0x49 0x0 _ (by decide) (by have := t.isLt; have := a.isLt; have := o.isLt; have := l.isLt; simp only [List.map, List.sum_cons, List.sum_nil]; omega)
theorem ldq (t a o : BitVec 7) (l : BitVec 4) : Statement (.ldq t a o l) := fun _ =>
  fld_packWord 0x4A 0x0 _ (by decide) (by have := t.isLt; have := a.isLt; have := o.isLt; have := l.isLt; simp only [List.map, List.sum_cons, List.sum_nil]; omega)
theorem lda (t a : BitVec 7) (s : BitVec 3) (r w : BitVec 1) (l : BitVec 4) : Statement (.lda t a s r w l) := fun _ =>
  fld_packWord 0x53 0x0 _ (by decide) (by have := t.isLt; have := a.isLt; have := s.isLt; have := r.isLt; have := w.isLt; have := l.isLt; simp only [List.map, List.sum_cons, List.sum_nil]; omega)
theorem ldx (t a b : BitVec 7) (l : BitVec 4) : Statement (.ldx t a b l) := fun _ =>
  fld_packWord 0x4E 0x0 _ (by decide) (by have := t.isLt; have := a.isLt; have := b.isLt; have := l.isLt; simp only [List.map, List.sum_cons, List.sum_nil]; omega)
theorem lea (d a b : BitVec 7) (u : BitVec 1) (s : BitVec 3) : Statement (.lea d a b u s) := fun _ =>
  fld_packWord 0x23 0x0 _ (by decide) (by have := d.isLt; have := a.isLt; have := b.isLt; have := u.isLt; have := s.isLt; simp only [List.map, List.sum_cons, List.sum_nil]; omega)
theorem loop (c : BitVec 7) (n : BitVec 8) : Statement (.loop c n) := fun _ =>
  fld_packWord 0x08 0x0 _ (by decide) (by have := c.isLt; have := n.isLt; simp only [List.map, List.sum_cons, List.sum_nil]; omega)
theorem lui (d : BitVec 7) (i : BitVec 18) : Statement (.lui d i) := fun _ =>
  fld_packWord 0x2A 0x0 _ (by decide) (by have := d.isLt; have := i.isLt; simp only [List.map, List.sum_cons, List.sum_nil]; omega)
theorem mapf (d a : BitVec 7) : Statement (.mapf d a) := fun _ =>
  fld_packWord 0x7C 0x0 _ (by decide) (by have := d.isLt; have := a.isLt; simp only [List.map, List.sum_cons, List.sum_nil]; omega)
theorem mcrd (t a b : BitVec 7) : Statement (.mcrd t a b) := fun _ =>
  fld_packWord 0x50 0x0 _ (by decide) (by have := t.isLt; have := a.isLt; have := b.isLt; simp only [List.map, List.sum_cons, List.sum_nil]; omega)
theorem mfs (d : BitVec 7) (n : BitVec 5) : Statement (.mfs d n) := fun _ =>
  fld_packWord 0x79 0x0 _ (by decide) (by have := d.isLt; have := n.isLt; simp only [List.map, List.sum_cons, List.sum_nil]; omega)
theorem mts (a : BitVec 7) (n : BitVec 5) : Statement (.mts a n) := fun _ =>
  fld_packWord 0x7A 0x0 _ (by decide) (by have := a.isLt; have := n.isLt; simp only [List.map, List.sum_cons, List.sum_nil]; omega)
theorem mkab (d a b : BitVec 7) (v x : BitVec 1) : Statement (.mkab d a b v x) := fun _ =>
  fld_packWord 0x43 0x0 _ (by decide) (by have := d.isLt; have := a.isLt; have := b.isLt; have := v.isLt; have := x.isLt; simp only [List.map, List.sum_cons, List.sum_nil]; omega)
theorem mon (t a : BitVec 7) (s : BitVec 3) (r w : BitVec 1) (l : BitVec 4) : Statement (.mon t a s r w l) := fun _ =>
  fld_packWord 0x60 0x0 _ (by decide) (by have := t.isLt; have := a.isLt; have := s.isLt; have := r.isLt; have := w.isLt; have := l.isLt; simp only [List.map, List.sum_cons, List.sum_nil]; omega)
theorem mwait (d a : BitVec 7) : Statement (.mwait d a) := fun _ =>
  fld_packWord 0x61 0x0 _ (by decide) (by have := d.isLt; have := a.isLt; simp only [List.map, List.sum_cons, List.sum_nil]; omega)
theorem nop : Statement .nop := fun _ => fld_packWord 0x00 0x0 _ (by decide) (by decide)
theorem or (d a b : BitVec 7) : Statement (.or d a b) := fun _ =>
  fld_packWord 0x18 0x0 _ (by decide) (by have := d.isLt; have := a.isLt; have := b.isLt; simp only [List.map, List.sum_cons, List.sum_nil]; omega)
theorem ori (d a : BitVec 7) (i : BitVec 11) : Statement (.ori d a i) := fun _ =>
  fld_packWord 0x26 0x0 _ (by decide) (by have := d.isLt; have := a.isLt; have := i.isLt; simp only [List.map, List.sum_cons, List.sum_nil]; omega)
theorem pack (d a b : BitVec 7) (k h : BitVec 1) : Statement (.pack d a b k h) := fun _ =>
  fld_packWord 0x3F 0x0 _ (by decide) (by have := d.isLt; have := a.isLt; have := b.isLt; have := k.isLt; have := h.isLt; simp only [List.map, List.sum_cons, List.sum_nil]; omega)
theorem popc (d a : BitVec 7) : Statement (.popc d a) := fun _ =>
  fld_packWord 0x1D 0x0 _ (by decide) (by have := d.isLt; have := a.isLt; simp only [List.map, List.sum_cons, List.sum_nil]; omega)
theorem prom (a : BitVec 7) (s : BitVec 3) (r : BitVec 2) : Statement (.prom a s r) := fun _ =>
  fld_packWord 0x56 0x0 _ (by decide) (by have := a.isLt; have := s.isLt; have := r.isLt; simp only [List.map, List.sum_cons, List.sum_nil]; omega)
theorem qadjInjected (d a : BitVec 7) : Statement (.qadjInjected d a) := fun _ =>
  fld_packWord 0x77 0x0 _ (by decide) (by have := d.isLt; have := a.isLt; simp only [List.map, List.sum_cons, List.sum_nil]; omega)
theorem qadjConsumed (d a : BitVec 7) : Statement (.qadjConsumed d a) := fun _ =>
  fld_packWord 0x77 0x1 _ (by decide) (by have := d.isLt; have := a.isLt; simp only [List.map, List.sum_cons, List.sum_nil]; omega)
theorem qadjClearLost (d a : BitVec 7) : Statement (.qadjClearLost d a) := fun _ =>
  fld_packWord 0x77 0x2 _ (by decide) (by have := d.isLt; have := a.isLt; simp only [List.map, List.sum_cons, List.sum_nil]; omega)
theorem qadjQueryToLost (d a : BitVec 7) : Statement (.qadjQueryToLost d a) := fun _ =>
  fld_packWord 0x77 0x3 _ (by decide) (by have := d.isLt; have := a.isLt; simp only [List.map, List.sum_cons, List.sum_nil]; omega)
theorem qbind (p q : BitVec 3) : Statement (.qbind p q) := fun _ =>
  fld_packWord 0x64 0x0 _ (by decide) (by have := p.isLt; have := q.isLt; simp only [List.map, List.sum_cons, List.sum_nil]; omega)
theorem qbindUn (q : BitVec 3) : Statement (.qbindUn q) := fun _ =>
  fld_packWord 0x64 0x40 _ (by decide) (by have := q.isLt; simp only [List.map, List.sum_cons, List.sum_nil]; omega)
theorem qnt (d a : BitVec 7) (l : BitVec 4) : Statement (.qnt d a l) := fun _ =>
  fld_packWord 0x33 0x0 _ (by decide) (by have := d.isLt; have := a.isLt; have := l.isLt; simp only [List.map, List.sum_cons, List.sum_nil]; omega)
theorem qntFix (d a : BitVec 7) (l : BitVec 4) : Statement (.qntFix d a l) := fun _ =>
  fld_packWord 0x33 0x200 _ (by decide) (by have := d.isLt; have := a.isLt; have := l.isLt; simp only [List.map, List.sum_cons, List.sum_nil]; omega)
theorem qntHealth (d : BitVec 7) (l : BitVec 4) : Statement (.qntHealth d l) := fun _ =>
  fld_packWord 0x33 0x400 _ (by decide) (by have := d.isLt; have := l.isLt; simp only [List.map, List.sum_cons, List.sum_nil]; omega)
theorem qstat (d : BitVec 7) (n : BitVec 3) : Statement (.qstat d n) := fun _ =>
  fld_packWord 0x65 0x0 _ (by decide) (by have := d.isLt; have := n.isLt; simp only [List.map, List.sum_cons, List.sum_nil]; omega)
theorem quiet (d a b : BitVec 7) (l : BitVec 4) : Statement (.quiet d a b l) := fun _ =>
  fld_packWord 0x76 0x0 _ (by decide) (by have := d.isLt; have := a.isLt; have := b.isLt; have := l.isLt; simp only [List.map, List.sum_cons, List.sum_nil]; omega)
theorem rcp (o : BitVec 18) : Statement (.rcp o) := fun _ =>
  fld_packWord 0x03 0x0 _ (by decide) (by have := o.isLt; simp only [List.map, List.sum_cons, List.sum_nil]; omega)
theorem rdx (d a : BitVec 7) (f : BitVec 4) : Statement (.rdx d a f) := fun _ =>
  fld_packWord 0x46 0x0 _ (by decide) (by have := d.isLt; have := a.isLt; have := f.isLt; simp only [List.map, List.sum_cons, List.sum_nil]; omega)
theorem scan (d a : BitVec 7) (e : BitVec 1) (f : BitVec 4) : Statement (.scan d a e f) := fun _ =>
  fld_packWord 0x47 0x0 _ (by decide) (by have := d.isLt; have := a.isLt; have := e.isLt; have := f.isLt; simp only [List.map, List.sum_cons, List.sum_nil]; omega)
theorem regang : Statement .regang := fun _ => fld_packWord 0x07 0x0 _ (by decide) (by decide)
theorem ret (a : BitVec 7) : Statement (.ret a) := fun _ =>
  fld_packWord 0x06 0x0 _ (by decide) (by have := a.isLt; simp only [List.map, List.sum_cons, List.sum_nil]; omega)
theorem rply : Statement .rply := fun _ => fld_packWord 0x7D 0x0 _ (by decide) (by decide)
theorem sel (d a b : BitVec 7) (v : BitVec 1) : Statement (.sel d a b v) := fun _ =>
  fld_packWord 0x22 0x0 _ (by decide) (by have := d.isLt; have := a.isLt; have := b.isLt; have := v.isLt; simp only [List.map, List.sum_cons, List.sum_nil]; omega)
theorem setx (a : BitVec 7) (w : BitVec 1) (o : BitVec 9) : Statement (.setx a w o) := fun _ =>
  fld_packWord 0x0C 0x0 _ (by decide) (by have := a.isLt; have := w.isLt; have := o.isLt; simp only [List.map, List.sum_cons, List.sum_nil]; omega)
theorem shfl (d a b : BitVec 7) (m : BitVec 2) : Statement (.shfl d a b m) := fun _ =>
  fld_packWord 0x44 0x0 _ (by decide) (by have := d.isLt; have := a.isLt; have := b.isLt; have := m.isLt; simp only [List.map, List.sum_cons, List.sum_nil]; omega)
theorem shl (d a b : BitVec 7) : Statement (.shl d a b) := fun _ =>
  fld_packWord 0x1A 0x0 _ (by decide) (by have := d.isLt; have := a.isLt; have := b.isLt; simp only [List.map, List.sum_cons, List.sum_nil]; omega)
theorem shr (d a b : BitVec 7) : Statement (.shr d a b) := fun _ =>
  fld_packWord 0x1B 0x0 _ (by decide) (by have := d.isLt; have := a.isLt; have := b.isLt; simp only [List.map, List.sum_cons, List.sum_nil]; omega)
theorem shli (d a : BitVec 7) (s : BitVec 5) : Statement (.shli d a s) := fun _ =>
  fld_packWord 0x28 0x0 _ (by decide) (by have := d.isLt; have := a.isLt; have := s.isLt; simp only [List.map, List.sum_cons, List.sum_nil]; omega)
theorem shri (d a : BitVec 7) (s : BitVec 5) : Statement (.shri d a s) := fun _ =>
  fld_packWord 0x29 0x0 _ (by decide) (by have := d.isLt; have := a.isLt; have := s.isLt; simp only [List.map, List.sum_cons, List.sum_nil]; omega)
theorem sra (d a b : BitVec 7) : Statement (.sra d a b) := fun _ =>
  fld_packWord 0x1C 0x0 _ (by decide) (by have := d.isLt; have := a.isLt; have := b.isLt; simp only [List.map, List.sum_cons, List.sum_nil]; omega)
theorem spawn (a : BitVec 7) : Statement (.spawn a) := fun _ =>
  fld_packWord 0x72 0x0 _ (by decide) (by have := a.isLt; simp only [List.map, List.sum_cons, List.sum_nil]; omega)
theorem spcfg (o z : BitVec 1) (w : BitVec 4) : Statement (.spcfg o z w) := fun _ =>
  fld_packWord 0x7E 0x0 _ (by decide) (by have := o.isLt; have := z.isLt; have := w.isLt; simp only [List.map, List.sum_cons, List.sum_nil]; omega)
theorem st (t a o : BitVec 7) : Statement (.st t a o) := fun _ =>
  fld_packWord 0x4B 0x0 _ (by decide) (by have := t.isLt; have := a.isLt; have := o.isLt; simp only [List.map, List.sum_cons, List.sum_nil]; omega)
theorem stw (t a o : BitVec 7) : Statement (.stw t a o) := fun _ =>
  fld_packWord 0x4C 0x0 _ (by decide) (by have := t.isLt; have := a.isLt; have := o.isLt; simp only [List.map, List.sum_cons, List.sum_nil]; omega)
theorem stq (t a o : BitVec 7) : Statement (.stq t a o) := fun _ =>
  fld_packWord 0x4D 0x0 _ (by decide) (by have := t.isLt; have := a.isLt; have := o.isLt; simp only [List.map, List.sum_cons, List.sum_nil]; omega)
theorem stl (t a : BitVec 7) (s : BitVec 3) (r w : BitVec 1) : Statement (.stl t a s r w) := fun _ =>
  fld_packWord 0x54 0x0 _ (by decide) (by have := t.isLt; have := a.isLt; have := s.isLt; have := r.isLt; have := w.isLt; simp only [List.map, List.sum_cons, List.sum_nil]; omega)
theorem tbnd (t a : BitVec 7) (l : BitVec 4) : Statement (.tbnd t a l) := fun _ =>
  fld_packWord 0x6C 0x0 _ (by decide) (by have := t.isLt; have := a.isLt; have := l.isLt; simp only [List.map, List.sum_cons, List.sum_nil]; omega)
theorem tcfg (w : BitVec 1) (e g : BitVec 2) (x : BitVec 1) (n : BitVec 5) : Statement (.tcfg w e g x n) := fun _ =>
  fld_packWord 0x6D 0x0 _ (by decide) (by have := w.isLt; have := e.isLt; have := g.isLt; have := x.isLt; have := n.isLt; simp only [List.map, List.sum_cons, List.sum_nil]; omega)
theorem tclr (c x : BitVec 1) (n : BitVec 5) : Statement (.tclr c x n) := fun _ =>
  fld_packWord 0x6F 0x0 _ (by decide) (by have := c.isLt; have := x.isLt; have := n.isLt; simp only [List.map, List.sum_cons, List.sum_nil]; omega)
theorem tdrn (d a : BitVec 7) (x : BitVec 6) (k : BitVec 1) (l : BitVec 4) : Statement (.tdrn d a x k l) := fun _ =>
  fld_packWord 0x6E 0x0 _ (by decide) (by have := d.isLt; have := a.isLt; have := x.isLt; have := k.isLt; have := l.isLt; simp only [List.map, List.sum_cons, List.sum_nil]; omega)
theorem tlbiPage (a : BitVec 7) : Statement (.tlbiPage a) := fun _ =>
  fld_packWord 0x7B 0x0 _ (by decide) (by have := a.isLt; simp only [List.map, List.sum_cons, List.sum_nil]; omega)
theorem tlbiAsid (a : BitVec 7) : Statement (.tlbiAsid a) := fun _ =>
  fld_packWord 0x7B 0x1 _ (by decide) (by have := a.isLt; simp only [List.map, List.sum_cons, List.sum_nil]; omega)
theorem tlbiAll : Statement .tlbiAll := fun _ => fld_packWord 0x7B 0x2 _ (by decide) (by decide)
theorem tmma (t a b : BitVec 7) (l : BitVec 4) : Statement (.tmma t a b l) := fun _ =>
  fld_packWord 0x6A 0x0 _ (by decide) (by have := t.isLt; have := a.isLt; have := b.isLt; have := l.isLt; simp only [List.map, List.sum_cons, List.sum_nil]; omega)
theorem trap (i : BitVec 18) : Statement (.trap i) := fun _ =>
  fld_packWord 0x0A 0x0 _ (by decide) (by have := i.isLt; simp only [List.map, List.sum_cons, List.sum_nil]; omega)
theorem tsta (d a : BitVec 7) (v x : BitVec 1) : Statement (.tsta d a v x) := fun _ =>
  fld_packWord 0x41 0x0 _ (by decide) (by have := d.isLt; have := a.isLt; have := v.isLt; have := x.isLt; simp only [List.map, List.sum_cons, List.sum_nil]; omega)
theorem tstg (t b : BitVec 7) : Statement (.tstg t b) := fun _ =>
  fld_packWord 0x70 0x0 _ (by decide) (by have := t.isLt; have := b.isLt; simp only [List.map, List.sum_cons, List.sum_nil]; omega)
theorem tsub (t a : BitVec 7) (l : BitVec 4) : Statement (.tsub t a l) := fun _ =>
  fld_packWord 0x74 0x0 _ (by decide) (by have := t.isLt; have := a.isLt; have := l.isLt; simp only [List.map, List.sum_cons, List.sum_nil]; omega)
theorem ttbl (t a : BitVec 7) : Statement (.ttbl t a) := fun _ =>
  fld_packWord 0x71 0x0 _ (by decide) (by have := t.isLt; have := a.isLt; simp only [List.map, List.sum_cons, List.sum_nil]; omega)
theorem unpk (d a : BitVec 7) (b s m : BitVec 1) : Statement (.unpk d a b s m) := fun _ =>
  fld_packWord 0x40 0x0 _ (by decide) (by have := d.isLt; have := a.isLt; have := b.isLt; have := s.isLt; have := m.isLt; simp only [List.map, List.sum_cons, List.sum_nil]; omega)
theorem unpkCb (d a b : BitVec 7) : Statement (.unpkCb d a b) := fun _ =>
  fld_packWord 0x40 0x2 _ (by decide) (by have := d.isLt; have := a.isLt; have := b.isLt; simp only [List.map, List.sum_cons, List.sum_nil]; omega)
theorem vote (d a : BitVec 7) (f : BitVec 4) : Statement (.vote d a f) := fun _ =>
  fld_packWord 0x45 0x0 _ (by decide) (by have := d.isLt; have := a.isLt; have := f.isLt; simp only [List.map, List.sum_cons, List.sum_nil]; omega)
theorem waitp (a : BitVec 7) (p : BitVec 3) : Statement (.waitp a p) := fun _ =>
  fld_packWord 0x52 0x0 _ (by decide) (by have := a.isLt; have := p.isLt; simp only [List.map, List.sum_cons, List.sum_nil]; omega)
theorem win (i : BitVec 18) : Statement (.win i) := fun _ =>
  fld_packWord 0x0B 0x0 _ (by decide) (by have := i.isLt; simp only [List.map, List.sum_cons, List.sum_nil]; omega)
theorem xcp (d a : BitVec 7) (x : BitVec 6) (k : BitVec 1) (l : BitVec 4) : Statement (.xcp d a x k l) := fun _ =>
  fld_packWord 0x66 0x0 _ (by decide) (by have := d.isLt; have := a.isLt; have := x.isLt; have := k.isLt; have := l.isLt; simp only [List.map, List.sum_cons, List.sum_nil]; omega)
theorem xcpr (d a : BitVec 7) (x : BitVec 6) (k : BitVec 1) (l : BitVec 4) : Statement (.xcpr d a x k l) := fun _ =>
  fld_packWord 0x67 0x0 _ (by decide) (by have := d.isLt; have := a.isLt; have := x.isLt; have := k.isLt; have := l.isLt; simp only [List.map, List.sum_cons, List.sum_nil]; omega)
theorem xqap (d a : BitVec 7) (x : BitVec 6) (k : BitVec 1) : Statement (.xqap d a x k) := fun _ =>
  fld_packWord 0x68 0x0 _ (by decide) (by have := d.isLt; have := a.isLt; have := x.isLt; have := k.isLt; simp only [List.map, List.sum_cons, List.sum_nil]; omega)
theorem xwait (d a : BitVec 7) : Statement (.xwait d a) := fun _ =>
  fld_packWord 0x69 0x0 _ (by decide) (by have := d.isLt; have := a.isLt; simp only [List.map, List.sum_cons, List.sum_nil]; omega)
theorem xwaitAll (d : BitVec 7) : Statement (.xwaitAll d) := fun _ =>
  fld_packWord 0x69 0x1 _ (by decide) (by have := d.isLt; simp only [List.map, List.sum_cons, List.sum_nil]; omega)
theorem xor (d a b : BitVec 7) : Statement (.xor d a b) := fun _ =>
  fld_packWord 0x19 0x0 _ (by decide) (by have := d.isLt; have := a.isLt; have := b.isLt; simp only [List.map, List.sum_cons, List.sum_nil]; omega)
theorem xori (d a : BitVec 7) (i : BitVec 11) : Statement (.xori d a i) := fun _ =>
  fld_packWord 0x27 0x0 _ (by decide) (by have := d.isLt; have := a.isLt; have := i.isLt; simp only [List.map, List.sum_cons, List.sum_nil]; omega)
theorem yld : Statement .yld := fun _ => fld_packWord 0x0E 0x0 _ (by decide) (by decide)
theorem loadDataArrival (fl part word : Nat) : Statement (.loadDataArrival fl part word) := fun h => (Bool.false_ne_true h).elim
theorem atomicReturn (fl part : Nat) : Statement (.atomicReturn fl part) := fun h => (Bool.false_ne_true h).elim
theorem storeAck (fl part : Nat) : Statement (.storeAck fl part) := fun h => (Bool.false_ne_true h).elim
theorem sfqResult (fl part word : Nat) : Statement (.sfqResult fl part word) := fun h => (Bool.false_ne_true h).elim
theorem cvqResult (fl part word : Nat) : Statement (.cvqResult fl part word) := fun h => (Bool.false_ne_true h).elim
theorem paletteArrival (fl : Nat) : Statement (.paletteArrival fl) := fun h => (Bool.false_ne_true h).elim
theorem xcprDataArrival (cluster slot row : Nat) : Statement (.xcprDataArrival cluster slot row) := fun h => (Bool.false_ne_true h).elim
theorem homeRequest (fl part : Nat) : Statement (.homeRequest fl part) := fun h => (Bool.false_ne_true h).elim
theorem translationRequest (fl part : Nat) : Statement (.translationRequest fl part) := fun h => (Bool.false_ne_true h).elim
theorem fillReturn (fill : Nat) : Statement (.fillReturn fill) := fun h => (Bool.false_ne_true h).elim
theorem writeBack (asid line : Nat) : Statement (.writeBack asid line) := fun h => (Bool.false_ne_true h).elim
theorem writeBackAck (wb : Nat) : Statement (.writeBackAck wb) := fun h => (Bool.false_ne_true h).elim
theorem ownershipRelease (owner : Nat) : Statement (.ownershipRelease owner) := fun h => (Bool.false_ne_true h).elim
theorem faultReport (fl part : Nat) : Statement (.faultReport fl part) := fun h => (Bool.false_ne_true h).elim
theorem handlerEntry (crew member party : Nat) : Statement (.handlerEntry crew member party) := fun h => (Bool.false_ne_true h).elim
theorem faultLogReply (fl part : Nat) : Statement (.faultLogReply fl part) := fun h => (Bool.false_ne_true h).elim
theorem mcrdRequestArrival (fl : Nat) : Statement (.mcrdRequestArrival fl) := fun h => (Bool.false_ne_true h).elim
theorem mcrdLineSend (stream : Nat) : Statement (.mcrdLineSend stream) := fun h => (Bool.false_ne_true h).elim
theorem mcrdTailReplay (stream : Nat) : Statement (.mcrdTailReplay stream) := fun h => (Bool.false_ne_true h).elim
theorem mcrdLineDeliver (delivery : Nat) : Statement (.mcrdLineDeliver delivery) := fun h => (Bool.false_ne_true h).elim
theorem spcfgComplete (die : Nat) : Statement (.spcfgComplete die) := fun h => (Bool.false_ne_true h).elim
theorem mwaitTimeout (crew member slice : Nat) : Statement (.mwaitTimeout crew member slice) := fun h => (Bool.false_ne_true h).elim
theorem spuriousWake (crew member slice : Nat) : Statement (.spuriousWake crew member slice) := fun h => (Bool.false_ne_true h).elim
theorem yldExpire (crew member party : Nat) : Statement (.yldExpire crew member party) := fun h => (Bool.false_ne_true h).elim
theorem quietTimeout (crew member party : Nat) : Statement (.quietTimeout crew member party) := fun h => (Bool.false_ne_true h).elim
theorem engineInstructionStart (engine pos : Nat) : Statement (.engineInstructionStart engine pos) := fun h => (Bool.false_ne_true h).elim
theorem tmmaComplete (engine pos cycles : Nat) : Statement (.tmmaComplete engine pos cycles) := fun h => (Bool.false_ne_true h).elim
theorem dmmaComplete (engine pos : Nat) : Statement (.dmmaComplete engine pos) := fun h => (Bool.false_ne_true h).elim
theorem drainComplete (engine pos : Nat) : Statement (.drainComplete engine pos) := fun h => (Bool.false_ne_true h).elim
theorem tclrComplete (engine pos : Nat) : Statement (.tclrComplete engine pos) := fun h => (Bool.false_ne_true h).elim
theorem tstgComplete (engine pos : Nat) : Statement (.tstgComplete engine pos) := fun h => (Bool.false_ne_true h).elim
theorem ttblComplete (engine pos : Nat) : Statement (.ttblComplete engine pos) := fun h => (Bool.false_ne_true h).elim
theorem tokenArbitration : Statement (.tokenArbitration) := fun h => (Bool.false_ne_true h).elim
theorem tokenAge (easel : Nat) : Statement (.tokenAge easel) := fun h => (Bool.false_ne_true h).elim
theorem recordPush (push : Nat) : Statement (.recordPush push) := fun h => (Bool.false_ne_true h).elim
theorem recordPop (cluster : Nat) : Statement (.recordPop cluster) := fun h => (Bool.false_ne_true h).elim
theorem schedAge (rec : Nat) : Statement (.schedAge rec) := fun h => (Bool.false_ne_true h).elim
theorem skipLimit (rec : Nat) : Statement (.skipLimit rec) := fun h => (Bool.false_ne_true h).elim
theorem crewStart (crew : Nat) : Statement (.crewStart crew) := fun h => (Bool.false_ne_true h).elim
theorem crewDone (crew : Nat) : Statement (.crewDone crew) := fun h => (Bool.false_ne_true h).elim
theorem preemptRequest (crew : Nat) : Statement (.preemptRequest crew) := fun h => (Bool.false_ne_true h).elim
theorem preemptWait (rec : Nat) : Statement (.preemptWait rec) := fun h => (Bool.false_ne_true h).elim
theorem preemptStopped (crew : Nat) : Statement (.preemptStopped crew) := fun h => (Bool.false_ne_true h).elim
theorem contextSaved (crew : Nat) : Statement (.contextSaved crew) := fun h => (Bool.false_ne_true h).elim
theorem standbyResume (crew : Nat) : Statement (.standbyResume crew) := fun h => (Bool.false_ne_true h).elim
theorem packetAccept (cluster : Nat) : Statement (.packetAccept cluster) := fun h => (Bool.false_ne_true h).elim
theorem queueLook (cluster entry : Nat) : Statement (.queueLook cluster entry) := fun h => (Bool.false_ne_true h).elim
theorem copy (cluster slot : Nat) : Statement (.copy cluster slot) := fun h => (Bool.false_ne_true h).elim
theorem transpose (cluster slot : Nat) : Statement (.transpose cluster slot) := fun h => (Bool.false_ne_true h).elim
theorem convert (cluster slot : Nat) : Statement (.convert cluster slot) := fun h => (Bool.false_ne_true h).elim
theorem convertTranspose (cluster slot : Nat) : Statement (.convertTranspose cluster slot) := fun h => (Bool.false_ne_true h).elim
theorem quantise (cluster slot : Nat) : Statement (.quantise cluster slot) := fun h => (Bool.false_ne_true h).elim
theorem quantiseTranspose (cluster slot : Nat) : Statement (.quantiseTranspose cluster slot) := fun h => (Bool.false_ne_true h).elim
theorem crumbEncode (cluster slot : Nat) : Statement (.crumbEncode cluster slot) := fun h => (Bool.false_ne_true h).elim
theorem crumbDecode (cluster slot : Nat) : Statement (.crumbDecode cluster slot) := fun h => (Bool.false_ne_true h).elim
theorem paletteExpand (cluster slot : Nat) : Statement (.paletteExpand cluster slot) := fun h => (Bool.false_ne_true h).elim
theorem gather (cluster slot : Nat) : Statement (.gather cluster slot) := fun h => (Bool.false_ne_true h).elim
theorem scatter (cluster slot : Nat) : Statement (.scatter cluster slot) := fun h => (Bool.false_ne_true h).elim
theorem scaleMax (cluster slot : Nat) : Statement (.scaleMax cluster slot) := fun h => (Bool.false_ne_true h).elim
theorem alignedIntegerSum (cluster slot : Nat) : Statement (.alignedIntegerSum cluster slot) := fun h => (Bool.false_ne_true h).elim
theorem fill (cluster slot : Nat) : Statement (.fill cluster slot) := fun h => (Bool.false_ne_true h).elim
theorem launch (cluster slot : Nat) : Statement (.launch cluster slot) := fun h => (Bool.false_ne_true h).elim
theorem graph (cluster slot : Nat) : Statement (.graph cluster slot) := fun h => (Bool.false_ne_true h).elim
theorem waitval (cluster slot : Nat) : Statement (.waitval cluster slot) := fun h => (Bool.false_ne_true h).elim
theorem signal (cluster slot : Nat) : Statement (.signal cluster slot) := fun h => (Bool.false_ne_true h).elim
theorem waitvalRead (cluster slot : Nat) : Statement (.waitvalRead cluster slot) := fun h => (Bool.false_ne_true h).elim
theorem waitvalTimeout (cluster slot : Nat) : Statement (.waitvalTimeout cluster slot) := fun h => (Bool.false_ne_true h).elim
theorem launchSlotGrant (cluster slot : Nat) : Statement (.launchSlotGrant cluster slot) := fun h => (Bool.false_ne_true h).elim
theorem graphBufferReady (cluster slot : Nat) : Statement (.graphBufferReady cluster slot) := fun h => (Bool.false_ne_true h).elim
theorem graphNodesStart (cluster slot : Nat) : Statement (.graphNodesStart cluster slot) := fun h => (Bool.false_ne_true h).elim
theorem xqapAppend (cluster slot : Nat) : Statement (.xqapAppend cluster slot) := fun h => (Bool.false_ne_true h).elim
theorem reductionContribution (cluster slot rank : Nat) : Statement (.reductionContribution cluster slot rank) := fun h => (Bool.false_ne_true h).elim
theorem bteSlotResume (cluster slot : Nat) : Statement (.bteSlotResume cluster slot) := fun h => (Bool.false_ne_true h).elim
theorem completionRecordWrite (cluster slot : Nat) : Statement (.completionRecordWrite cluster slot) := fun h => (Bool.false_ne_true h).elim
theorem ringCoalCount (ring : Nat) : Statement (.ringCoalCount ring) := fun h => (Bool.false_ne_true h).elim
theorem ringCoalTime (ring : Nat) : Statement (.ringCoalTime ring) := fun h => (Bool.false_ne_true h).elim
theorem eventRecordDrain : Statement (.eventRecordDrain) := fun h => (Bool.false_ne_true h).elim
theorem ringRdIndexWrite (ring : Nat) (value : BitVec 64) : Statement (.ringRdIndexWrite ring value) := fun h => (Bool.false_ne_true h).elim
theorem migrationStart (unit : Nat) : Statement (.migrationStart unit) := fun h => (Bool.false_ne_true h).elim
theorem migrationCopyDone (unit ecc : Nat) : Statement (.migrationCopyDone unit ecc) := fun h => (Bool.false_ne_true h).elim
theorem migrationRoundDone (unit ecc : Nat) : Statement (.migrationRoundDone unit ecc) := fun h => (Bool.false_ne_true h).elim
theorem migrationFreeze (unit : Nat) : Statement (.migrationFreeze unit) := fun h => (Bool.false_ne_true h).elim
theorem migrationDone (unit : Nat) : Statement (.migrationDone unit) := fun h => (Bool.false_ne_true h).elim
theorem faultResume (context : Nat) : Statement (.faultResume context) := fun h => (Bool.false_ne_true h).elim
theorem faultResumeAbort (context : Nat) : Statement (.faultResumeAbort context) := fun h => (Bool.false_ne_true h).elim
theorem tlbiRequestPage (asid va : Nat) : Statement (.tlbiRequestPage asid va) := fun h => (Bool.false_ne_true h).elim
theorem tlbiRequestAsid (asid : Nat) : Statement (.tlbiRequestAsid asid) := fun h => (Bool.false_ne_true h).elim
theorem tlbiRequestAll : Statement (.tlbiRequestAll) := fun h => (Bool.false_ne_true h).elim
theorem semaphoreTake (sem owner : Nat) : Statement (.semaphoreTake sem owner) := fun h => (Bool.false_ne_true h).elim
theorem semaphoreFree (sem owner : Nat) : Statement (.semaphoreFree sem owner) := fun h => (Bool.false_ne_true h).elim
theorem queueTableWrite (cluster entry : Nat) (value : BitVec 64) : Statement (.queueTableWrite cluster entry value) := fun h => (Bool.false_ne_true h).elim
theorem doorbell (cluster entry : Nat) : Statement (.doorbell cluster entry) := fun h => (Bool.false_ne_true h).elim
theorem jobEntryWrite (die entry : Nat) (value : BitVec 64) : Statement (.jobEntryWrite die entry value) := fun h => (Bool.false_ne_true h).elim
theorem droppedClear : Statement (.droppedClear) := fun h => (Bool.false_ne_true h).elim
theorem counterClear (offset : Nat) : Statement (.counterClear offset) := fun h => (Bool.false_ne_true h).elim
theorem attestationStart : Statement (.attestationStart) := fun h => (Bool.false_ne_true h).elim
theorem attestationReportDone : Statement (.attestationReportDone) := fun h => (Bool.false_ne_true h).elim
theorem telemetryRefresh : Statement (.telemetryRefresh) := fun h => (Bool.false_ne_true h).elim
theorem registerWrite (offset : Nat) (value : BitVec 64) : Statement (.registerWrite offset value) := fun h => (Bool.false_ne_true h).elim
theorem messageInject (msg : Nat) : Statement (.messageInject msg) := fun h => (Bool.false_ne_true h).elim
theorem messageResponse (msg code : Nat) (payload : List (BitVec 64)) : Statement (.messageResponse msg code payload) := fun h => (Bool.false_ne_true h).elim
theorem inboundFabricRequest (origin tag kind offset size job : Nat) (payload : List (BitVec 64)) : Statement (.inboundFabricRequest origin tag kind offset size job payload) := fun h => (Bool.false_ne_true h).elim
theorem amsgReceive (origin tag job : Nat) (payload : List (BitVec 64)) : Statement (.amsgReceive origin tag job payload) := fun h => (Bool.false_ne_true h).elim
theorem respTimeout (msg : Nat) : Statement (.respTimeout msg) := fun h => (Bool.false_ne_true h).elim
theorem queryWait (msg : Nat) : Statement (.queryWait msg) := fun h => (Bool.false_ne_true h).elim
theorem queryReceive (source tag : Nat) : Statement (.queryReceive source tag) := fun h => (Bool.false_ne_true h).elim
theorem queryAnswer (msg performed : Nat) : Statement (.queryAnswer msg performed) := fun h => (Bool.false_ne_true h).elim
theorem waveStart (job : Nat) : Statement (.waveStart job) := fun h => (Bool.false_ne_true h).elim
theorem down (job wave pass : Nat) : Statement (.down job wave pass) := fun h => (Bool.false_ne_true h).elim
theorem up (job wave pass child : Nat) (payload : List (BitVec 64)) : Statement (.up job wave pass child payload) := fun h => (Bool.false_ne_true h).elim
theorem decide (job wave lost : Nat) : Statement (.decide job wave lost) := fun h => (Bool.false_ne_true h).elim
theorem portRetrain (port : Nat) : Statement (.portRetrain port) := fun h => (Bool.false_ne_true h).elim
theorem retrainLimit (port : Nat) : Statement (.retrainLimit port) := fun h => (Bool.false_ne_true h).elim
theorem hostRequest (port kind offset size : Nat) (payload : List (BitVec 64)) : Statement (.hostRequest port kind offset size payload) := fun h => (Bool.false_ne_true h).elim
theorem hostHotReset (port : Nat) : Statement (.hostHotReset port) := fun h => (Bool.false_ne_true h).elim
theorem hostLinkLoss (port : Nat) : Statement (.hostLinkLoss port) := fun h => (Bool.false_ne_true h).elim
theorem powerOnReset : Statement (.powerOnReset) := fun h => (Bool.false_ne_true h).elim
theorem reset : Statement (.reset) := fun h => (Bool.false_ne_true h).elim
theorem resetDone : Statement (.resetDone) := fun h => (Bool.false_ne_true h).elim
theorem bootVerify : Statement (.bootVerify) := fun h => (Bool.false_ne_true h).elim
theorem trainingDone (failed : Nat) : Statement (.trainingDone failed) := fun h => (Bool.false_ne_true h).elim
theorem bridgeRetryFail (segment : Nat) : Statement (.bridgeRetryFail segment) := fun h => (Bool.false_ne_true h).elim
theorem internalParityError : Statement (.internalParityError) := fun h => (Bool.false_ne_true h).elim
theorem controllerFailure (stack : Nat) : Statement (.controllerFailure stack) := fun h => (Bool.false_ne_true h).elim
theorem ueLimit (stack : Nat) : Statement (.ueLimit stack) := fun h => (Bool.false_ne_true h).elim
theorem thermalSensorUpdate (sensor celsius : Nat) : Statement (.thermalSensorUpdate sensor celsius) := fun h => (Bool.false_ne_true h).elim
theorem refresh (stack : Nat) : Statement (.refresh stack) := fun h => (Bool.false_ne_true h).elim
theorem calibration (stack : Nat) : Statement (.calibration stack) := fun h => (Bool.false_ne_true h).elim
theorem scrub (stack line ecc : Nat) : Statement (.scrub stack line ecc) := fun h => (Bool.false_ne_true h).elim
theorem activate (stack bank row mask stream : Nat) : Statement (.activate stack bank row mask stream) := fun h => (Bool.false_ne_true h).elim
theorem supplementaryActivate (stack bank row mask : Nat) : Statement (.supplementaryActivate stack bank row mask) := fun h => (Bool.false_ne_true h).elim
theorem precharge (stack bank row : Nat) : Statement (.precharge stack bank row) := fun h => (Bool.false_ne_true h).elim
theorem select (stack bank subarray : Nat) : Statement (.select stack bank subarray) := fun h => (Bool.false_ne_true h).elim
theorem hbmRead (fill ecc : Nat) : Statement (.hbmRead fill ecc) := fun h => (Bool.false_ne_true h).elim
theorem stripeWrite (stripe : Nat) : Statement (.stripeWrite stripe) := fun h => (Bool.false_ne_true h).elim
theorem parityDelta (stripe pos : Nat) : Statement (.parityDelta stripe pos) := fun h => (Bool.false_ne_true h).elim
theorem gatherWait (stripe : Nat) : Statement (.gatherWait stripe) := fun h => (Bool.false_ne_true h).elim
theorem linkLevelReplay (port : Nat) : Statement (.linkLevelReplay port) := fun h => (Bool.false_ne_true h).elim
theorem portTraining (port lanes : Nat) : Statement (.portTraining port lanes) := fun h => (Bool.false_ne_true h).elim
theorem ticketWrite (fl part word : Nat) : Statement (.ticketWrite fl part word) := fun h => (Bool.false_ne_true h).elim

end Opcode

end Sys2Proof.Laws
end

