-- ==== Sys2Proof/Laws/Step.lean ====
section
/-! SUPPORT. Everything a step of the machine can be. -/

namespace Sys2Proof.Machine
set_option Elab.async false
open Sys2Proof

/-- The next move and the state it starts from: the agenda's first, or the arbiter's choice. -/
def State.nextMove (s : State) : Move × State :=
  match s.agenda with
  | m :: rest => (m, { s with agenda := rest })
  | [] => (Config.arbiter s.arbCount, { s with arbCount := s.arbCount + 1 })

theorem step_eq (s : State) : step s = State.move s.nextMove.2 s.nextMove.1 := by
  cases h : s.agenda with
  | nil => simp only [step, State.nextMove, h]
  | cons m rest => simp only [step, State.nextMove, h]

/-- A move that answers a next state is a cycle of the clock, a step of a device agent that its state admits, an agent's
step that it does not take and that changes nothing, or a unit's issue. -/
theorem State.move_cases {s t : State} {m : Move} (h : s.move m = .next t) :
    (m = .tick ∧ t = s.tick) ∨
    (∃ e, m = .event e ∧ s.device.admits e = true ∧ exec e s = .next t) ∨
    (∃ e, m = .event e ∧ s.device.admits e = false ∧ t = s) ∨
    (∃ k n g, m = .issue k n g ∧ s.device = .ready ∧ s.issueFirst k n g (s.candidates k n g) = .next t) ∨
    (∃ k n g, m = .issue k n g ∧ s.device ≠ .ready ∧ t = s) := by
  cases m with
  | tick => exact .inl ⟨rfl, (Host.Outcome.next.inj h).symm⟩
  | event e =>
    simp only [State.move] at h
    split at h
    · exact .inr (.inl ⟨e, rfl, ‹_›, h⟩)
    · exact .inr (.inr (.inl ⟨e, rfl, Bool.eq_false_iff.mpr ‹_›, (Host.Outcome.next.inj h).symm⟩))
  | issue k n g =>
    simp only [State.move] at h
    split at h
    · exact .inr (.inr (.inr (.inl ⟨k, n, g, rfl, ‹_›, h⟩)))
    · exact .inr (.inr (.inr (.inr ⟨k, n, g, rfl, ‹_›, (Host.Outcome.next.inj h).symm⟩)))

/-- What holds of a state, is kept by every thread's turn, and survives the end of a YLD, holds after a unit's issue. -/
theorem State.issueFirst_keeps (P : State → Prop) (k n g : Nat)
    (hturn : ∀ s t th, P s → s.runThread th = .next t → P t) (hyield : ∀ s th, P s → P (s.endYields k n g th))
    (cs : List Candidate) : ∀ s t, P s → s.issueFirst k n g cs = .next t → P t := by
  induction cs with
  | nil => intro s t h ht; exact Host.Outcome.next.inj ht ▸ h
  | cons x cs ih =>
    intro s t h ht
    simp only [State.issueFirst] at ht
    split at ht
    · rename_i s' hs
      have h' := hturn s s' x.thread h hs
      split at ht
      · exact Host.Outcome.next.inj ht ▸ hyield s' x.thread h'
      · exact ih s' t h' ht
    · rename_i hne
      exact absurd ht (hne t)

/-- What holds of a state, does not hang on the agenda and the arbiter's count, and is kept by ticks, agents' steps, turns
and the end of a YLD, is kept by every step. -/
theorem step_keeps (P : State → Prop)
    (hown : ∀ (s : State) a n, P s → P { s with agenda := a, arbCount := n }) (htick : ∀ s, P s → P s.tick)
    (hevent : ∀ s t e, P s → s.device.admits e = true → exec e s = .next t → P t)
    (hturn : ∀ s t th, P s → s.runThread th = .next t → P t)
    (hyield : ∀ s k n g th, P s → P (s.endYields k n g th)) {s t : State} (h : P s) (ht : step s = .next t) : P t := by
  rw [step_eq] at ht
  have h' : P s.nextMove.2 := by
    unfold State.nextMove
    split
    · exact hown s _ s.arbCount h
    · exact hown s s.agenda _ h
  rcases State.move_cases ht with ⟨_, rfl⟩ | ⟨e, _, h1, h2⟩ | ⟨_, _, _, rfl⟩ | ⟨k, n, g, _, _, h2⟩ | ⟨_, _, _, _, _, rfl⟩
  · exact htick _ h'
  · exact hevent _ _ e h' h1 h2
  · exact h'
  · exact State.issueFirst_keeps P k n g hturn (fun s th => hyield s k n g th) _ _ _ h' h2
  · exact h'

end Sys2Proof.Machine
end

