-- ==== Sys2Proof/Tests/Ground.lean ====
section
/-! SUPPORT. Small states for the tests, and how a computed check shows that a word meets a statement's hypotheses. -/

namespace Sys2Proof.Tests
set_option Elab.async false
open Sys2Proof Sys2Proof.Machine Sys2Proof.Claim

/-- The state after reset with a word placed where the next step fetches (assumption 14): a lone gang runs it. -/
def ground (i : Instr) : State := State.reset.withFetchWord 32 (encodeWord i).toNat

/-- The same with the sequencer role of the crew as the thread that runs the word. -/
def easel (i : Instr) : State :=
  { State.reset.withFetchWord 32 (encodeWord i).toNat with
    agenda := [.issue 0 16 0], crews := [probeCrew true false], cur := ⟨0, 16, 0⟩ }

/-- The state with every crew changed. -/
def withCrew (f : Crew → Crew) (s : State) : State := { s with crews := s.crews.map f }

/-- The state with every gang and every sequencer role changed. -/
def withGangs (f : Gang → Gang) : State → State :=
  withCrew fun c => { c with gangs := c.gangs.map f, seq := c.seq.map f }

/-- The state with every slice changed. -/
def withSlices (f : Slice → Slice) : State → State := withGangs fun g => { g with slices := g.slices.map f }

/-- The state with register v[k] of every lane at a value of its lane. -/
def withV (k : Nat) (f : Nat → Nat) : State → State :=
  withGangs fun g => { g with lanes := g.lanes.mapIdx fun l ln => { ln with v := tabPut 0 ln.v k (BitVec.ofNat 32 (f l)) } }

/-- The state with register s[k] of every lane at a value. -/
def withS (k v : Nat) : State → State :=
  withGangs fun g => { g with lanes := g.lanes.map fun ln => { ln with s := tabPut 0 ln.s k (BitVec.ofNat 64 v) } }

/-- Registers v[k] and v[k + 1] of every lane as a pair. -/
def withPair (k v : Nat) (s : State) : State := withV (k + 1) (fun _ => v / 2 ^ 32) (withV k (fun _ => v) s)

/-- Whether a word executes in a state, and its thread, its operands and the state that reading them leaves meet a test. -/
def tries (s : State) (i : Instr) (P : Ctx → List (List Nat) → State → Bool) : Bool :=
  match s.issuer? with
  | none => false
  | some c =>
    match c.check i (needs i) with
    | .error _ => false
    | .ok _ =>
      c.scoreOk (needs i) &&
      match c.fetch (needs i).uses (readPositions ((needs i).uses c.first)) s with
      | .error _ => false
      | .ok (args, s') => c.roomOk (needs i) s' && P c args s'

/-- A word executes in a state, on operands that meet a condition: the hypotheses of a statement hold there together. -/
def Meets (s : State) (i : Instr) (P : Ctx → List (List Nat) → State → Prop) : Prop :=
  ∃ c args s', Issues s c i args s' ∧ P c args s'

theorem admits_of_check {c : Ctx} {i : Instr} (h : c.check i (needs i) = .ok ()) : Admits c i := by
  obtain ⟨h1, h2, h7, h8, h3, h4, h5, h6⟩ := (check_ok_iff c i (needs i)).1 h
  simp only [Bool.and_eq_true, Bool.not_eq_true', Bool.or_eq_true, Bool.and_eq_false_iff, List.all_eq_true,
    Ctx.allUses, List.mem_flatMap, forall_exists_index, and_imp] at h1 h3 h4 h5 h6
  obtain ⟨⟨⟨⟨a, b⟩, d⟩, e⟩, g⟩ := h1
  refine ⟨a, b, d, fun hn => e.resolve_left (by simp [hn]), fun k hk u hu => g u k hk hu, ?_, ?_, ?_, ?_, ?_, h6⟩
  · simpa using h2
  · intro t ht
    simpa [Ctx.layoutKnown, ht] using h7
  · intro t ht
    simpa [Ctx.layoutOk, ht] using h8
  · rcases h3 with h | ⟨h, h'⟩
    · exact .inl h
    · exact .inr ⟨h, fun hp => h'.resolve_left (by simp [hp])⟩
  · exact fun k hk u hu => ⟨h4 k hk u hu, fun hq => (h5 u k hk hu).resolve_left (by simp [hq])⟩

theorem meets_of_bool {s : State} {i : Instr} {P : Ctx → List (List Nat) → State → Prop}
    (B : Ctx → List (List Nat) → State → Bool) (hB : ∀ c args s', B c args s' = true → P c args s')
    (h : tries s i B = true) : Meets s i P := by
  unfold tries at h
  split at h
  · cases h
  · rename_i c hc
    split at h
    · cases h
    · rename_i hk
      simp only [Bool.and_eq_true] at h
      obtain ⟨hr, h⟩ := h
      split at h
      · cases h
      · rename_i args s' hf
        simp only [Bool.and_eq_true] at h
        exact ⟨c, args, s', ⟨hc, admits_of_check hk, hr, hf, h.1⟩, hB _ _ _ h.2⟩

theorem meets {s : State} {i : Instr} {P : Ctx → List (List Nat) → State → Prop} [∀ c a t, Decidable (P c a t)]
    (h : tries s i (fun c a t => decide (P c a t)) = true) : Meets s i P :=
  meets_of_bool _ (fun _ _ _ => of_decide_eq_true) h

end Sys2Proof.Tests
end

