-- ==== Sys2Proof/Tests/Words.lean ====
section
/-! SUPPORT. The hypotheses of each statement about instruction words are met together: a state and operands for each
clause. -/

namespace Sys2Proof.Tests
set_option Elab.async false
open Sys2Proof Sys2Proof.Machine Sys2Proof.Claim

/-- The state with FMT at a value in every slice. -/
def fmtd (f : Word) : State → State := withSlices fun sl => { sl with fmt := f }

/-- Words that write registers, and the FMT each runs under: every format that one of them asks for (04 R95), the fields
120, 112 and 124 as destinations. -/
def resultWords : List (Word × Instr) :=
  [(0, .and 1 2 3), (0, .andi 1 2 5), (0, .or 1 2 3), (0, .ori 1 2 5), (0, .xor 1 2 3), (0, .xori 1 2 5), (0, .shl 1 2 3),
   (0, .shr 1 2 3), (0, .shli 1 2 31), (0, .shri 1 2 31), (0, .sra 1 2 3), (0, .bfx 1 2 3 1), (0, .bfi 1 2 3),
   (0, .clz 1 2 0), (0, .clz 1 2 1), (0, .popc 1 2), (0, .iadd 1 2 3 0), (0, .iadd 2 4 6 4), (0, .isub 1 2 3 0)] ++
  [(0, .isub 2 4 6 4), (0, .imul 1 2 3 0), (0, .imulh 1 2 3 1), (0, .imad 1 2 3 0), (0, .imin 1 2 3 0), (0, .imax 1 2 3 1),
   (0, .iaddi 1 2 5), (0, .icmp 1 2 3 0 0), (0, .lea 2 4 6 0 3), (0, .lui 1 5), (0, .sel 1 2 3 0), (0, .coal 1 2 3 0),
   (0, .mkab 1 2 3 0 0), (0, .tsta 1 2 0 0), (0x11, .pack 1 2 3 0 0), (0x11, .unpk 1 2 0 0 0), (0x8A, .unpkCb 1 2 3)] ++
  [(0x11, .dot8 1 2 3 0), (0x33, .dot4 1 2 3 0), (0, .fadd 1 2 3 1), (0, .fsub 1 2 3 1), (0, .fmul 1 2 3 1),
   (0, .fmin 1 2 3 1), (0, .fmax 1 2 3 1), (0, .ffma 1 2 3 1), (0, .fcmp 1 2 3 0 0), (0, .shfl 1 2 3 0), (0, .vote 1 2 0),
   (0, .rdx 1 2 0), (0, .scan 1 2 0 0), (0, .mfs 2 0x13), (0, .mfs 1 0), (0, .qstat 1 0), (0, .and 124 2 3),
   (0, .and 112 2 3), (0, .and 120 2 121)]

theorem wit_registerResults : ∀ p ∈ resultWords, Meets (fmtd p.1 (ground p.2)) p.2 fun c args s' =>
    (resultOf c s' args p.2).isSome = true := by
  have h : (resultWords.all fun p => tries (fmtd p.1 (ground p.2)) p.2 fun c args s' =>
    decide ((resultOf c s' args p.2).isSome = true)) = true := by decide +kernel
  exact fun p hp => meets (List.all_eq_true.1 h p hp)

/-- Words that steer their party. -/
def movingWords : List Instr :=
  [.nop, .bra 5, .braZ 2 5, .brc 2 5, .ret 2, .rcp 5, .join, .loop 2 511, .fmt 5, .win 504, .setx 2 1 511, .setx 2 0 0,
   .mts 2 0, .mts 2 1, .mts 2 2, .mts 2 5]

/-- A slice with a path still to be run. -/
def withPath (sl : Slice) : Slice := { sl with stack := [⟨true, 8, 3, 0, 0, 0, 0⟩] }

theorem wit_moves : ∀ i ∈ movingWords, Meets (withSlices withPath (ground i)) i fun c args _ =>
    ((moveOf c args i).map Prod.fst) = some true := by
  have h : (movingWords.all fun i => tries (withSlices withPath (ground i)) i fun c args _ =>
    decide (((moveOf c args i).map Prod.fst) = some true)) = true := by decide +kernel
  exact fun i hi => meets (List.all_eq_true.1 h i hi)

/-- Words that make one access per lane. -/
def accessWords : List Instr :=
  [.ld 4 2 0 0, .ldw 4 2 0 0, .ldq 4 2 0 0, .lda 4 2 5 1 0 0, .mon 4 2 5 1 1 0, .st 4 2 0, .stw 4 2 0, .stq 4 2 0,
   .stl 4 2 5 1 0, .aadd 6 2 5 3 0 0 0, .amin 6 2 5 3 0 0 0, .amax 6 2 5 3 0 0 0, .aand 6 2 5 3 0 0 0, .aor 6 2 5 3 0 0 0,
   .axor 6 2 5 3 0 0 0, .axch 6 2 5 3 0 0 0, .acas 6 2 5 3 0 0 0, .afadd 6 2 5 3 0 0 0, .jdec 6 2 5 3 0 0 0, .prom 2 5 3,
   .spawn 2]

/-- `Access.reaches` and `Access.hasRoom`, computed. -/
def reachesB (a : Access) (c : Ctx) (s : State) : Bool :=
  ((c.lanes.zip a.addrs).all fun p => match c.place? s p.1 p.2 a.what.size with
    | some q => !a.globalOnly || q.isGlobal
    | none => false) &&
  a.addrs.all (fun x => x % a.align == 0) && decide (c.gang.ifc a.path < 65535) && s.parkRoom c

theorem reaches_of {a : Access} {c : Ctx} {s : State} (h : reachesB a c s = true) : a.reaches c s ∧ a.hasRoom c s := by
  simp only [reachesB, Bool.and_eq_true, List.all_eq_true, decide_eq_true_eq, beq_iff_eq] at h
  obtain ⟨⟨⟨h1, h2⟩, h3⟩, h4⟩ := h
  refine ⟨⟨fun p hp => ?_, h2⟩, fun _ => ⟨h3, fun _ => h4⟩⟩
  have := h1 p hp
  split at this
  · rename_i q hq
    refine ⟨q, hq, fun hg => ?_⟩
    simpa [hg] using this
  · cases this

theorem wit_accesses : ∀ i ∈ accessWords, Meets (withPair 2 0 (ground i)) i fun c args s' =>
    ∃ a, accessOf args i = some a ∧ a.reaches c s' ∧ a.hasRoom c s' := by
  have h : (accessWords.all fun i => tries (withPair 2 0 (ground i)) i fun c args s' =>
      match accessOf args i with
      | some a => reachesB a c s'
      | none => false) = true := by decide +kernel
  refine fun i hi => meets_of_bool _ (fun c args s' hb => ?_) (List.all_eq_true.1 h i hi)
  split at hb
  · rename_i a ha
    exact ⟨a, ha, reaches_of hb⟩
  · cases hb

/-- A lane names space 5, which leads nowhere; and the last byte of line 0, which is not aligned. -/
theorem wit_badAddresses :
    (Meets (withPair 2 (5 * 2 ^ 56) (ground (.ld 4 2 0 0))) (.ld 4 2 0 0) fun c args s' =>
      ∃ a, accessOf args (.ld 4 2 0 0) = some a ∧ ∃ p ∈ c.lanes.zip a.addrs, c.place? s' p.1 p.2 a.what.size = none) ∧
    (Meets (withPair 2 127 (ground (.ld 4 2 0 0))) (.ld 4 2 0 0) fun c args s' =>
      ∃ a, accessOf args (.ld 4 2 0 0) = some a ∧
        (∀ p ∈ c.lanes.zip a.addrs, (c.place? s' p.1 p.2 a.what.size).isSome = true) ∧ a.globalOnly = false ∧
        ∃ x ∈ a.addrs, x % a.align ≠ 0) := by
  refine ⟨meets_of_bool (fun c args s' => match accessOf args (.ld 4 2 0 0) with
      | some a => (c.lanes.zip a.addrs).any fun p => (c.place? s' p.1 p.2 a.what.size).isNone
      | none => false) ?_ (by decide +kernel),
    meets_of_bool (fun c args s' => match accessOf args (.ld 4 2 0 0) with
      | some a => (c.lanes.zip a.addrs).all (fun p => (c.place? s' p.1 p.2 a.what.size).isSome) && !a.globalOnly &&
          a.addrs.any fun x => x % a.align != 0
      | none => false) ?_ (by decide +kernel)⟩
  · intro c args s' h
    split at h
    · rename_i a ha
      simp only [List.any_eq_true, Option.isNone_iff_eq_none] at h
      exact ⟨a, ha, h⟩
    · cases h
  · intro c args s' h
    split at h
    · rename_i a ha
      simp only [Bool.and_eq_true, List.all_eq_true, List.any_eq_true, Bool.not_eq_true', bne_iff_ne] at h
      exact ⟨a, ha, h.1.1, h.1.2, h.2⟩
    · cases h

/-- Words that send results on their way. -/
def queuedWords : List (Word × Instr) :=
  [(0, .frcp 1 2 0 0), (0, .frsq 1 2 0 0), (0, .fsqrt 1 2 0 0), (0, .fexp2 1 2 0 0), (0, .flog2 1 2 0 0), (0, .fsin 1 2 0 0),
   (0, .fcos 1 2 0 0), (0, .ftanh 1 2 0 0), (0x88, .cvt 1 2 0 0 0), (0x81, .dqt 1 2 4 0)]

theorem wit_queuedResults : ∀ p ∈ queuedWords, Meets (fmtd p.1 (ground p.2)) p.2 fun c args s' =>
    (queuedOf c args p.2).isSome = true ∧ s'.queueRoom c p.2 = true := by
  have h : (queuedWords.all fun p => tries (fmtd p.1 (ground p.2)) p.2 fun c args s' =>
    decide ((queuedOf c args p.2).isSome = true ∧ s'.queueRoom c p.2 = true)) = true := by decide +kernel
  exact fun p hp => meets (List.all_eq_true.1 h p hp)

end Sys2Proof.Tests
end

