-- ==== Sys2Proof/Tests/Words2.lean ====
section
/-! SUPPORT. The hypotheses of the statements about control flow, fences, block transfers, barriers and the supervisor's
words are met together: a state and operands for each clause. -/

namespace Sys2Proof.Tests
set_option Elab.async false
open Sys2Proof Sys2Proof.Machine Sys2Proof.Claim

/-- The state with slice 3 of every gang in a party of its own. -/
def apart : State → State := withGangs fun g =>
  { g with nextParty := 2, slices := g.slices.mapIdx fun i sl => if i = 3 then { sl with party := 1, pc := 64 } else sl }

/-- The state with a second gang in the crew's slices. -/
def twin : State → State := withCrew fun c => { c with gangs := c.gangs ++ c.gangs }

/-- The state in handler state. -/
def handled : State → State := withSlices fun sl => { sl with tstate := 1 }

/-- The state with 64 bytes of lane-private memory, 1 KiB of core scratchpad and 16 KiB of cluster-shared memory. -/
def roomy : State → State := withCrew fun c => { c with rcd := { c.rcd with d3 := 0x4010100000000 } }

/-- The state with a load of the thread still out. -/
def loadOut (s : State) : State := { s with serial := 1, flights := [{
  id := 0, crew := 0, member := 0, slices := [0], kind := .load, opcode := 0x48, asid := 4095, size := 4, dest := 8
  port := none, path := some 0, strength := ⟨false, 0, false, false, false⟩, wait := 0, parkedOnce := false, replaying := false
  held := false, reported := [], inHandler := false, parts := [⟨0, 0, 0, 4, 0, 0, 0, [(0, .v 8)], 0, .sent⟩], aux := [], returns := true }] }

/-- The state with a packet in v[16] and up whose tile is 16 rows of 16 FP32 elements, for v[32] of gang 0. -/
def tilePacket : State → State := fun s =>
  (List.range 8).foldl (fun s k => withPair (16 + 2 * k) ([1, 0, 0, 0, 0, 0, 0x8800F00F, 512].getD k 0) s) s

/-- The state with an entry for job 1 on die 0, and the pair of a QADJ that adds −1 to it. -/
def oneJob (s : State) : State := { withPair 2 0xFFFFFFFF00000001 s with jobs := [(0, 0x1000001)] }

theorem wit_callExitRegangYield :
    (Meets (ground (.call 4 9)) (.call 4 9) fun _ _ _ =>
      True) ∧
    (Meets (ground .exit) .exit fun c _ _ =>
      c.gang.isSeq = false) ∧
    (Meets (easel .exit) .exit fun c _ s' =>
      s'.engineBusy c.crew.id = false) ∧
    (Meets (ground .regang) .regang fun c _ _ =>
      c.gang.liveSlices.all c.sls.contains = true) ∧
    (Meets (apart (ground .regang)) .regang fun c _ _ =>
      c.gang.liveSlices.all c.sls.contains = false) ∧
    (Meets (ground .yld) .yld fun c _ s' =>
      s'.sharesGroup c = false) ∧
    (Meets (twin (ground .yld)) .yld fun c _ s' =>
      c.gang.isSeq = false ∧ s'.sharesGroup c = true) ∧
    (Meets (handled (ground (.mts 2 0x10))) (.mts 2 0x10) fun c _ _ =>
      c.gang.isSeq = false) ∧
    (Meets (handled (withV 9 (fun _ => 4094) (ground (.mts 9 0x16)))) (.mts 9 0x16) fun c args _ =>
      firstArg c args 0 = some 4094) :=
  ⟨meets (by decide +kernel), meets (by decide +kernel), meets (by decide +kernel), meets (by decide +kernel), meets (by decide +kernel), meets (by decide +kernel), meets (by decide +kernel), meets (by decide +kernel), meets (by decide +kernel)⟩

theorem wit_trapAndReturns :
    (Meets (ground (.trap 0x3FFFF)) (.trap 0x3FFFF) fun _ _ _ =>
      True) ∧
    (Meets (ground .eret) .eret fun c _ _ =>
      ∀ i ∈ c.sls, (c.gang.slice i).stack.length = (c.gang.slice i).savedDepth) ∧
    (Meets (ground .eretAbandon) .eretAbandon fun c _ _ =>
      ∀ i ∈ c.sls, (c.gang.slice i).stack.length = (c.gang.slice i).savedDepth) :=
  ⟨meets (by decide +kernel), meets (by decide +kernel), meets (by decide +kernel)⟩

theorem wit_otherAccesses :
    (Meets (withPair 2 124 (ground (.ldx 4 2 6 15))) (.ldx 4 2 6 15) fun c args s' =>
      let addrs := List.zipWith (fun x y => (x + y) % 2 ^ 64) (args.getD 0 []) (args.getD 1 [])
      let sizes := c.lanes.map fun k => ldxSize (c.gang.slice (k / 4))
      c.lanes ≠ [] ∧ (∀ p ∈ (c.lanes.zip addrs).zip sizes, (c.place? s' p.1.1 p.1.2 p.2).isSome = true) ∧
      (∀ p ∈ addrs.zip sizes, p.1 % p.2 = 0) ∧ c.gang.ifc (loadPath addrs) < 65535 ∧ s'.parkRoom c = true) ∧
    (Meets (withPair 2 127 (ground (.cflush 2))) (.cflush 2) fun c args s' =>
      flushParts c { kind := .flush, size := 128, path := some 2 } (args.getD 0 []) ≠ [] ∧
      (∀ p ∈ c.lanes.zip (args.getD 0 []), natBits p.2 56 8 = 0) ∧ c.gang.ifc 2 < 65535 ∧ s'.parkRoom c = true) ∧
    (Meets (withPair 2 112 (ground (.cbt 2 15))) (.cbt 2 15) fun c args s' =>
      firstArg c args 0 = some 112 ∧ (c.place? s' (c.lanes.headD 0) 112 (paletteSize c.first)).isSome = true ∧
      112 % paletteSize c.first = 0 ∧ c.gang.ifc (loadPath [112]) < 65535 ∧ s'.parkRoom c = true) ∧
    (Meets (ground (.cbtReg 4 0)) (.cbtReg 4 0) fun c args _ =>
      firstArg c args 0 = some 0) ∧
    (Meets (roomy (withV 4 (fun _ => 0x10000) (withPair 2 128 (ground (.mcrd 6 2 4))))) (.mcrd 6 2 4) fun c args s' =>
      firstArg c args 0 = some 128 ∧ firstArg c args 1 = some 0x10000 ∧ firstArg c args 2 = some 0 ∧
      mcrdMask 0x10000 ≠ 0 ∧ natBits 0x10000 9 7 = 0 ∧ c.crew.mcrdReach 128 0 0x10000 = true ∧ c.gang.ifc 5 < 65535 ∧
      s'.parkRoom c = true) :=
  ⟨meets (by decide +kernel), meets (by decide +kernel), meets (by decide +kernel), meets (by decide +kernel), meets (by decide +kernel)⟩

/-- A fence with nothing before it; one whose acquire half waits for a load still out; WAITP at the bound; RPLY. -/
theorem wit_fenceWaitReplay :
    (Meets (ground (.fence 5 3)) (.fence 5 3) fun c _ s' =>
      c.allPerformed s' (fun _ => true) = true ∧ c.allPerformed s' AccKind.reads = true) ∧
    (Meets (loadOut (ground (.fence 5 1))) (.fence 5 1) fun c _ s' =>
      c.allPerformed s' AccKind.reads = false) ∧
    (Meets (ground (.waitp 2 5)) (.waitp 2 5) fun c args _ =>
      c.gang.ifc 5 ≤ (firstArg c args 0).getD 0) ∧
    (Meets (ground .rply) .rply fun _ _ _ =>
      True) :=
  ⟨meets (by decide +kernel), meets (by decide +kernel), meets (by decide +kernel), meets (by decide +kernel)⟩

theorem wit_quantise :
    (Meets (fmtd 0x81 (ground (.qnt 8 2 0))) (.qnt 8 2 0) fun c _ s' =>
      c.lanes ≠ [] ∧ s'.queueRoom c (.qnt 8 2 0) = true) ∧
    (Meets (fmtd 0x81 (ground (.qntFix 8 2 0))) (.qntFix 8 2 0) fun c _ s' =>
      c.lanes ≠ [] ∧ s'.queueRoom c (.qntFix 8 2 0) = true) ∧
    (Meets (ground (.qntHealth 4 0)) (.qntHealth 4 0) fun c _ s' =>
      s'.queueRoom c (.qntHealth 4 0) = true) :=
  ⟨meets (by decide +kernel), meets (by decide +kernel), meets (by decide +kernel)⟩

theorem wit_commands :
    (Meets (ground (.xcp 8 16 0 0 2)) (.xcp 8 16 0 0 2) fun c args s' =>
      (firstArg c args 0).isSome = true ∧ 0 < (s'.cluster c.crew.cluster).room) ∧
    (Meets (ground (.xqap 8 16 0 0)) (.xqap 8 16 0 0) fun c args s' =>
      (firstArg c args 0).isSome = true ∧ (firstArg c args 1).isSome = true ∧ 0 < (s'.cluster c.crew.cluster).room) ∧
    (Meets (tilePacket (ground (.xcpr 8 16 0 1 2))) (.xcpr 8 16 0 1 2) fun c args s' =>
      ((firstArg c args 0).map fun v => match c.xcprTarget (packetOf v 0 1) with
        | .ok (n, g) => n == c.member && c.xcprScore (packetOf v 0 1) g
        | .error _ => false) = some true ∧ c.gang.ifc 4 < 65535 ∧
      0 < (s'.cluster c.crew.cluster).room) ∧
    (Meets (ground (.grpl 4 2 6 0)) (.grpl 4 2 6 0) fun c args s' =>
      (firstArg c args 0).isSome = true ∧ (firstArg c args 1).isSome = true ∧ (firstArg c args 2).isSome = true ∧
      0 < (s'.cluster c.crew.cluster).room) ∧
    (Meets (ground (.xwait 4 2)) (.xwait 4 2) fun c args _ =>
      (firstArg c args 0).map (fun v => ticketUpTo v c.gang.ticket.toNat && c.gang.tickets.all fun t => !ticketUpTo t v) = some true) ∧
    (Meets (ground (.xwaitAll 4)) (.xwaitAll 4) fun c _ _ =>
      c.gang.tickets = []) :=
  ⟨meets (by decide +kernel), meets (by decide +kernel), meets (by decide +kernel), meets (by decide +kernel), meets (by decide +kernel), meets (by decide +kernel)⟩

/-- The state in which a command of crew 0's gang has yet to be accepted by its cluster's BTE. -/
def waitsOnMessage (s : State) : State := s.mapCluster 0 fun cl =>
  { cl with inbox := [⟨.packet, List.replicate 8 0, .thread 0 0 1, 0, 0, some 0, some 0, 0, [0, 1, 2, 3], 0⟩] }

/-- An arrival with and without a wait; an MWAIT whose slices have their codes, and one whose slices have none; a QUIET that
wakes, one out of time, one in time, one without an entry of the crew's job, one with an entry of the job it names, one
whose messages are not counted. -/
theorem wit_barriersAndWaits :
    (Meets (ground (.bar 1 15)) (.bar 1 15) fun c _ s' =>
      c.barCountOk 15 1 = true ∧ c.allPerformed s' (fun _ => true) = true) ∧
    (Meets (ground (.bara 1 0)) (.bara 1 0) fun c _ s' =>
      c.barCountOk 0 1 = true ∧ c.allPerformed s' (fun _ => true) = true) ∧
    (Meets (ground (.mwait 4 2)) (.mwait 4 2) fun c _ s' =>
      ∀ i ∈ c.sls, (c.gang.slice i).mask ≠ 0 → (c.mwaitCode s' i).isSome = true) ∧
    (Meets (withSlices (fun sl => { sl with wait := .quiet 0 0 0 0, wake := some 1 }) (ground (.quiet 6 120 7 0))) (.quiet 6 120 7 0) fun c _ _ =>
      c.first.wait = .quiet 0 0 0 0 ∧ c.first.wake = some 1) ∧
    (Meets (withCrew (fun c => { c with job := 9 }) (ground (.quiet 6 120 7 0))) (.quiet 6 120 7 0) fun c _ s' =>
      c.first.wait = .none ∧ s'.uncounted c = false ∧ s'.jobEntry? c.die c.crew.job = none) ∧
    (Meets (withSlices (fun sl => { sl with monitor := some ⟨⟨0, 0, 0⟩, 0, none⟩ }) (ground (.mwait 4 2))) (.mwait 4 2) fun c _ s' =>
      ∃ i ∈ c.sls, (c.gang.slice i).mask ≠ 0 ∧ c.mwaitCode s' i = none) ∧
    (Meets (withSlices (fun sl => { sl with wait := .quiet 0 0 0 7 }) { ground (.quiet 6 120 7 0) with clock := 7 }) (.quiet 6 120 7 0)
      fun c _ s' => c.first.wait = .quiet 0 0 0 7 ∧ c.first.wake = none ∧ 0 + 7 ≤ s'.clock.toNat) ∧
    (Meets (withSlices (fun sl => { sl with wait := .quiet 0 0 0 8 }) { ground (.quiet 6 120 7 0) with clock := 7 }) (.quiet 6 120 7 0)
      fun c _ s' => c.first.wait = .quiet 0 0 0 8 ∧ c.first.wake = none ∧ s'.clock.toNat < 0 + 8) ∧
    (Meets (withPair 2 1 (oneJob (ground (.quiet 6 2 7 0)))) (.quiet 6 2 7 0) fun c args s' =>
      c.first.wait = .none ∧ c.lanes ≠ [] ∧ s'.uncounted c = false ∧
        (s'.jobEntry? c.die (natBits ((firstArg c args 0).getD 0) 0 24)).isSome = true) ∧
    (Meets (waitsOnMessage (ground (.quiet 6 120 7 0))) (.quiet 6 120 7 0) fun c _ s' =>
      c.first.wait = .none ∧ s'.uncounted c = true) :=
  ⟨meets (by decide +kernel), meets (by decide +kernel), meets (by decide +kernel), meets (by decide +kernel), meets (by decide +kernel),
    meets (by decide +kernel), meets (by decide +kernel), meets (by decide +kernel), meets (by decide +kernel), meets (by decide +kernel)⟩

theorem wit_supervisorWords :
    (Meets (ground (.mapf 4 2)) (.mapf 4 2) fun c args s' =>
      (∀ p ∈ c.lanes.zip (args.getD 0 []), natBits p.2 56 8 = 0) ∧
      c.first.wait.mapped = [] ∧ (s'.mapLanes c [] (c.lanes.zip (args.getD 0 []))).1 = true) ∧
    (Meets (withSlices (fun sl => { sl with wait := .mapf [1] }) (ground (.mapf 4 2))) (.mapf 4 2) fun c args s' =>
      c.first.wait.mapped = [1] ∧ (s'.mapLanes c [1] ((c.lanes.zip (args.getD 0 [])).drop 1)).1 = true) ∧
    (Meets (withPair 2 0xFFFFFFFFFF0001 (ground (.tlbiPage 2))) (.tlbiPage 2) fun c args _ =>
      firstArg c args 0 = some 0xFFFFFFFFFF0001) ∧
    (Meets (withPair 2 4094 (ground (.tlbiAsid 2))) (.tlbiAsid 2) fun c args _ =>
      firstArg c args 0 = some 4094) ∧
    (Meets (ground .tlbiAll) .tlbiAll fun c _ _ =>
      c.lanes ≠ []) ∧
    (Meets (ground (.spcfg 1 1 0)) (.spcfg 1 1 0) fun c _ s' =>
      c.lanes ≠ [] ∧ s'.spcfg.getD ((c.die + 1) % 2) none = none ∧ 0 = s'.chipWays.getD ((c.die + 1) % 2) 0) ∧
    (Meets (ground (.spcfg 0 1 8)) (.spcfg 0 1 8) fun c _ s' =>
      c.lanes ≠ [] ∧ s'.spcfg.getD ((c.die + 0) % 2) none = none ∧ 8 ≠ s'.chipWays.getD ((c.die + 0) % 2) 0) ∧
    (Meets (oneJob (ground (.qadjInjected 4 2))) (.qadjInjected 4 2) fun c args s' =>
      firstArg c args 0 = some 0xFFFFFFFF00000001 ∧ (s'.jobEntry? c.die 1).isSome = true) ∧
    (Meets (oneJob (ground (.qadjConsumed 4 2))) (.qadjConsumed 4 2) fun c args s' =>
      firstArg c args 0 = some 0xFFFFFFFF00000001 ∧ (s'.jobEntry? c.die 1).isSome = true) ∧
    (Meets (oneJob (ground (.qadjClearLost 4 2))) (.qadjClearLost 4 2) fun c args s' =>
      firstArg c args 0 = some 0xFFFFFFFF00000001 ∧ (s'.jobEntry? c.die 1).isSome = true) ∧
    (Meets (oneJob (ground (.qadjQueryToLost 4 2))) (.qadjQueryToLost 4 2) fun c args s' =>
      firstArg c args 0 = some 0xFFFFFFFF00000001 ∧ (s'.jobEntry? c.die 1).isSome = true) ∧
    (Meets (ground (.qbind 7 7)) (.qbind 7 7) fun c _ _ =>
      c.crew.seq.isSome = true) ∧
    (Meets (ground (.qbindUn 0)) (.qbindUn 0) fun c _ _ =>
      c.crew.seq.isSome = true) :=
  ⟨meets (by decide +kernel), meets (by decide +kernel), meets (by decide +kernel), meets (by decide +kernel), meets (by decide +kernel), meets (by decide +kernel), meets (by decide +kernel), meets (by decide +kernel), meets (by decide +kernel), meets (by decide +kernel), meets (by decide +kernel), meets (by decide +kernel), meets (by decide +kernel)⟩

theorem wit_activeMessage :
    (Meets (ground (.amsg 4 16 0)) (.amsg 4 16 0) fun c args _ =>
      firstArg c args 0 = some 0 ∧ bitsOf (dbl (packetOf 0 0 1) 0) 32 32 = 0 ∧ dbl (packetOf 0 0 1) 7 = 0) ∧
    (Meets (withV 31 (fun _ => 1) (ground (.amsg 4 16 0))) (.amsg 4 16 0) fun c args _ =>
      (firstArg c args 0).map (fun v => dbl (packetOf v 0 1) 7) = some 0x100000000) :=
  ⟨meets (by decide +kernel), meets (by decide +kernel)⟩

end Sys2Proof.Tests
end

