-- ==== Sys2Proof/Tests/Events1.lean ====
section
/-! SUPPORT. The hypotheses of the statements about accesses, lines and stripes are met together: a state for each clause. -/

namespace Sys2Proof.Tests
set_option Elab.async false
open Sys2Proof Sys2Proof.Machine Sys2Proof.Claim

/-- One lane's part of an access of 4 bytes, whose result of 7 goes to v[8]. -/
def partAt (addr : Nat) (st : PartState) : Part := ⟨0, 0, BitVec.ofNat 64 addr, 4, 0, 5, 7, [(0, .v 8)], 0, st⟩

/-- An access of crew 0 in flight, of one part. -/
def flight (k : AccKind) (addr : Nat) (st : PartState) : Flight where
  id := 0
  crew := 0
  member := 0
  slices := [0]
  kind := k
  opcode := 0x48
  asid := 4095
  size := 4
  dest := 8
  port := none
  path := some 0
  strength := ⟨false, 0, false, false, false⟩
  wait := 0
  parkedOnce := false
  replaying := false
  held := false
  reported := []
  inHandler := false
  parts := [partAt addr st]
  aux := []
  returns := true

/-- The state with that access in flight. -/
def fly (f : Flight) : State := { ground .nop with serial := 1, flights := [f] }

/-- The lone crew. -/
def aCrew : Crew := probeCrew false false

/-- Part 0 of an access has been performed, and its word 0 may arrive. -/
abbrev Arriving (f : Flight) : Prop :=
  let p := f.parts.headD (partAt 0 .sent)
  (fly f).flight? 0 = some f ∧ f.parts[0]? = some p ∧ (fly f).crew? f.crew = some aCrew ∧ p.state = .performed ∧ f.wait = 0 ∧
    aCrew.inBank = true ∧ (∃ d ∈ p.dst, d.1 = 0)

/-- A result of a queue or a ticket, of the instruction with an opcode. -/
def resultOut (op : Nat) : Flight := { flight .result 0 .performed with opcode := op }

/-- One arrival for each clause, the special functions' opcodes at both ends of their range. -/
theorem wit_resultWordsArrive :
    (∀ k ∈ [AccKind.load, .mon, .tsub, .amsg, .aadd, .afadd, .jdec, .store, .flush, .spawn, .palette], Arriving (flight k 0 .performed)) ∧
    (∀ n ∈ ([0x35, 0x3C, 0x32, 0x33, 0x34, opcodeOf (.xcp 0 0 0 0 0), opcodeOf (.tbnd 0 0 0)] : List Nat), Arriving (resultOut n)) :=
  ⟨by decide +kernel, by decide +kernel⟩

/-- Part 0 of an access on its way may be performed. -/
abbrev Sent (f : Flight) : Prop :=
  let p := f.parts.headD (partAt 0 .sent)
  (fly f).flight? 0 = some f ∧ f.parts[0]? = some p ∧ p.state = .sent ∧ f.laneOrder 0 = true ∧
    (fly f).mayPerform f (f.at_ (f.group 0)) = true ∧ (fly f).mayPerform f f.parts = true

/-- A TSUB; the first byte of lane-private memory and of the core scratchpad; a flush; a load of the line its home holds,
with permission; a load of the next line, which misses. -/
theorem wit_homeRequestsAreServed :
    (Sent (flight .tsub 0 .sent)) ∧
    (Sent (flight .store 0xFE00000000000000 .sent) ∧ (fly (flight .store 0xFE00000000000000 .sent)).placeOf
      (flight .store 0xFE00000000000000 .sent) (partAt 0xFE00000000000000 .sent) = some (.priv 0 0)) ∧
    (Sent (flight .load 0xFE20000000000000 .sent) ∧ (fly (flight .load 0xFE20000000000000 .sent)).placeOf
      (flight .load 0xFE20000000000000 .sent) (partAt 0xFE20000000000000 .sent) = some (.core 0 0)) ∧
    (let f := flight .flush 127 .sent;
      Sent f ∧ (fly f).placeOf f (partAt 127 .sent) = some (.global 127) ∧ (fly f).frozen 4095 127 = false ∧
      (fly f).ownedByOther 4095 0 none = false) ∧
    (let f := flight .load 124 .sent;
      Sent f ∧ (fly f).placeOf f (partAt 124 .sent) = some (.global 124) ∧ (fly f).frozen 4095 124 = false ∧
      (fly f).ownedByOther 4095 0 none = false ∧ (fly f).cacheHit? f 124 = none ∧ ((fly f).served? 4095 0).isSome = true ∧
      (fly f).hitCode 4095 124 .read = (0, fly f)) ∧
    (let f := flight .load 124 .sent;
      let s : State := { fly f with copies := [⟨((fly f).cacheOf f).getD 0, 4095, 0, List.replicate 128 0, 0⟩] };
      s.flight? 0 = some f ∧ s.mayPerform f (f.at_ (f.group 0)) = true ∧
      s.placeOf f (partAt 124 .sent) = some (.global 124) ∧ s.frozen 4095 124 = false ∧
      s.ownedByOther 4095 0 none = false ∧ (s.cacheHit? f 124).isSome = true) ∧
    (let f := flight .load 128 .sent;
      Sent f ∧ (fly f).placeOf f (partAt 128 .sent) = some (.global 128) ∧ (fly f).frozen 4095 128 = false ∧
      (fly f).ownedByOther 4095 1 none = false ∧ (fly f).cacheHit? f 128 = none ∧ (fly f).served? 4095 1 = none) :=
  ⟨by decide +kernel, by decide +kernel, by decide +kernel, by decide +kernel, by decide +kernel, by decide +kernel, by decide +kernel⟩

/-- Part 0 of an access has missed at its home, and is to be translated. -/
abbrev Missed (f : Flight) (p : Part) : Prop :=
  (fly f).flight? 0 = some f ∧ f.parts[0]? = some p ∧ p.state = .miss ∧ (fly f).frozen f.asid p.addr.toNat = false ∧
    (fly f).homeBytes? f.asid (p.addr.toNat / 128) = none

/-- A line being read for a home, before and after its bytes have come. -/
def aFill (data : Option (List Byte)) : Fill := ⟨3, 4095, 1, 128, none, data, false, 0⟩

/-- A line of zeros. -/
def zeros : List Byte := List.replicate 128 0

/-- An address past the alias, the first line of HBM that no home holds, an address of another device; a fill before and
after its read. -/
theorem wit_missesAreTranslatedAndFilled :
    (let f := flight .load (2 ^ 52) .miss;
      Missed f (partAt (2 ^ 52) .miss) ∧ (fly f).translate 4095 (2 ^ 52) f.kind.want = (.error 1, fly f)) ∧
    (let f := flight .load 128 .miss;
      Missed f (partAt 128 .miss) ∧ (fly f).translate 4095 128 f.kind.want = (.ok (.hbm 128), fly f)) ∧
    (let f := flight .load (2 ^ 51) .miss;
      Missed f (partAt (2 ^ 51) .miss) ∧ (fly f).translate 4095 (2 ^ 51) f.kind.want = (.ok (.fabric 0 0), fly f) ∧
      (fly f).mayPerform f (f.at_ (f.lineGroup 0)) = true) ∧
    (let s : State := { ground .nop with fills := [aFill none] };
      (s.fills.find? fun x => x.id == 3 && x.data.isNone) = some (aFill none) ∧ s.fillLocked (aFill none) = false) ∧
    (let s : State := { ground .nop with fills := [aFill (some zeros)] };
      (s.fills.find? fun x => x.id == 3) = some (aFill (some zeros)) ∧ s.homeBytes? 4095 1 = none) :=
  ⟨by decide +kernel, by decide +kernel, by decide +kernel, by decide +kernel, by decide +kernel⟩

/-- A faulted part, and the crew it belongs to. -/
abbrev Faulted (s : State) (f : Flight) (c : Crew) : Prop :=
  s.flight? 0 = some f ∧ f.parts[0]? = some (partAt 0 (.faulted 1)) ∧ s.crew? f.crew = some c

/-- The state with its crews changed, and an access in flight. -/
def flyWith (f : Flight) (g : Crew → Crew) : State := withCrew g (fly f)

theorem wit_faultsAreReported :
    (Faulted (flyWith (flight .load 0 (.faulted 1)) fun c => { c with abandoned := true }) (flight .load 0 (.faulted 1))
      { aCrew with abandoned := true }) ∧
    (let f := { flight .load 0 (.faulted 1) with inHandler := true };
      Faulted (fly f) f aCrew ∧ aCrew.abandoned = false) ∧
    (let f := flight .load 0 (.faulted 1);
      Faulted (fly f) f aCrew ∧ aCrew.abandoned = false ∧ f.inHandler = false ∧ aCrew.away = false ∧
      (fly f).parkSpace f = true) ∧
    (let c := { aCrew with state := .saved };
      let s := flyWith (flight .load 0 (.faulted 1)) fun _ => c;
      Faulted s (flight .load 0 (.faulted 1)) c ∧ c.away = true ∧ s.parkSpace (flight .load 0 (.faulted 1)) = true ∧
      (s.changeLog 0 (noteFault (flight .load 0 (.faulted 1)) 0 1 [0])).1 = true) ∧
    (let c := { aCrew with state := .saved };
      let f := flight .load 0 .performed;
      let s := flyWith f fun _ => c;
      s.flight? 0 = some f ∧ f.parts[0]? = some (partAt 0 .performed) ∧ s.crew? f.crew = some c ∧ c.away = true ∧
      (s.changeLog c.id (noteReply f 0 (partAt 0 .performed))).1 = true) ∧
    (let fs := (List.range 64).map fun n => { flight .load (65536 * n) (.parked 1) with id := n + 1 };
      let f := flight .load 0 (.faulted 1);
      let s := { fly f with flights := f :: fs };
      Faulted s f aCrew ∧ f.parts.any Part.isParked = false ∧ s.parkSpace f = false) ∧
    (let f := { flight .load 0 (.parked 1) with reported := [0] };
      let s := fly f;
      ((s.thread? 0 0 0).map fun c => c.crew.state == .running && !c.inHandler && !s.handlerBusy c && c.first.wait == .none &&
        ((s.parkedOf c.crew.id c.member c.sls).find? fun f => f.reported.any c.sls.contains) == some f) = some true) :=
  ⟨by decide +kernel, by decide +kernel, by decide +kernel, by decide +kernel, by decide +kernel, by decide +kernel, by decide +kernel⟩

/-- A clean line, a dirty one, a compact one, an unsent write-back, an acknowledged one, an operation that has ended. -/
theorem wit_linesLeaveTheirHomes :
    (∀ l ∈ ([⟨4095, 0, zeros, false, none, none, 0, 0⟩, ⟨4095, 0, zeros, true, none, none, 15, 0⟩] : List Line),
      let s : State := { ground .nop with lines := [l] };
      s.frozen 4095 0 = false ∧ (s.line? 4095 0).or (s.compact? 4095 0) = some l ∧ s.lineOwned l = false ∧
      ∀ w ∈ s.writeBacks, w.asid = 4095 → w.line = 0 → w.sent = true) ∧
    (∀ dirty ∈ [false, true],
      let s : State := { ground .nop with lines := [⟨4095, 0, zeros, dirty, some (1, 8), none, 0, 0⟩] };
      s.frozen 4095 0 = false ∧ s.writeBacks = [] ∧ ((s.line? 4095 0).or (s.compact? 4095 0)).map (fun l =>
        (l.form, l.dirty, s.lineOwned l)) = some (some (1, 8), dirty, false)) ∧
    (∀ form ∈ [none, some (1, 2)],
      let w : WriteBack := ⟨2, 4095, 0, zeros, none, [], false, 0, none, none, false, form, none⟩;
      let s : State := { ground .nop with writeBacks := [w] };
      s.frozen 4095 0 = false ∧ s.unsent? 4095 0 = some w) ∧
    (let w : WriteBack := ⟨2, 4095, 0, zeros, none, [], true, 0, none, none, true, none, none⟩;
      let s : State := { ground .nop with writeBacks := [w] };
      (s.writeBacks.find? fun w => w.id == 2 && w.sent && w.acked) = some w ∧ w.flush = none) ∧
    (let s : State := { ground .nop with owned := [⟨4095, 0, 5⟩] };
      (∀ e ∈ s.engines, ∀ o ∈ e.2.queue, o.id ≠ 5) ∧ s.clusters = []) :=
  ⟨by decide +kernel, by decide +kernel, by decide +kernel, by decide +kernel, by decide +kernel⟩

/-- A gather of stripe 0 with its first lines, since the given CLOCK. -/
def aGather (n since : Nat) : Gather := ⟨0, since, (List.range n).map fun k => (k, zeros, false, []), false, [], []⟩

/-- A locked gather with a delta for each of its lines, some of them folded in. -/
def aLocked (n : Nat) (taken : List Nat) : Gather :=
  ⟨0, 0, (List.range n).map fun k => (k, zeros, false, []), true, (List.range n).map fun k => (k, zeros), taken⟩

/-- Four lines and three; a gather that has waited GATHER_WAIT cycles and one that has not; the last delta and one before it. -/
theorem wit_stripesAreWritten :
    (let s : State := { ground .nop with gathers := [aGather 4 0] };
      s.stripeLocked 0 = false ∧ (s.gathers.find? fun g => g.stripe == 0) = some (aGather 4 0) ∧ 4 ≤ (aGather 4 0).lines.length) ∧
    (let s : State := { ground .nop with gathers := [aGather 3 0] };
      s.stripeLocked 0 = false ∧ (s.gathers.find? fun g => g.stripe == 0) = some (aGather 3 0) ∧ (aGather 3 0).lines.length < 4 ∧
      s.lostCount = 0 ∧ s.clock.toNat < (aGather 3 0).since + bitsOf s.memCtl 32 12) ∧
    (let s : State := { ground .nop with gathers := [aGather 3 0], clock := BitVec.ofNat 64 (bitsOf State.reset.memCtl 32 12) };
      (s.gathers.find? fun g => g.stripe == 0) = some (aGather 3 0) ∧ (aGather 3 0).since + bitsOf s.memCtl 32 12 ≤ s.clock.toNat) ∧
    (let s : State := { ground .nop with gathers := [aLocked 2 [0]] };
      (s.gathers.find? fun g => g.stripe == 0 && g.locked) = some (aLocked 2 [0]) ∧ (aLocked 2 [0]).deltas.lookup 1 = some zeros ∧
      1 ∉ (aLocked 2 [0]).taken ∧ (aLocked 2 [0]).taken.length + 1 = (aLocked 2 [0]).deltas.length) ∧
    (let s : State := { ground .nop with gathers := [aLocked 3 [0]] };
      (s.gathers.find? fun g => g.stripe == 0 && g.locked) = some (aLocked 3 [0]) ∧ (aLocked 3 [0]).deltas.lookup 2 = some zeros ∧
      2 ∉ (aLocked 3 [0]).taken ∧ (aLocked 3 [0]).taken.length + 1 ≠ (aLocked 3 [0]).deltas.length) :=
  ⟨by decide +kernel, by decide +kernel, by decide +kernel, by decide +kernel, by decide +kernel⟩

end Sys2Proof.Tests
end

