-- ==== Sys2Proof/Tests/Matrix.lean ====
section
/-! SUPPORT. The hypotheses of the statement about the easel's matrix instructions are met together, clause by clause. -/

namespace Sys2Proof.Tests
set_option Elab.async false
open Sys2Proof Sys2Proof.Machine Sys2Proof.Claim

/-- The easel of a crew with cluster-shared memory, under INT8 formats: s[4] and s[6] describe its first bytes, s[8] holds a
control word, and the easel has been granted the power tokens a word asks for. -/
def matState (w units : Nat) (i : Instr) : State :=
  let base := 0xFE40000000000000
  { roomy (fmtd 0x11 (withS 8 w (withS 7 0x200000000000 (withS 6 base (withS 5 0x200000000000 (withS 4 base (easel i))))))) with
    granted := [(0, units)] }

/-- The units of power tokens that a one-chunk INT8 TMMA asks for. -/
def tmmaUnits : Nat := tmmaBound 1 1 0 0 * unitsPerCycle modeInt

/-- A drain control word: FP32 elements, one row of one column. -/
def drnWord : Nat := 8 * 2 ^ 10

/-- The state with tag 31 bound to engine 7's back canvas. -/
def tagged (s : State) : State := s.mapCluster 0 fun cl => { cl with tags := [(31, (7, 1))] }

/-- The same with both ports of an operand's words full. -/
def portState (w units : Nat) (i : Instr) : State :=
  (matState w units i).mapCluster 0 fun cl => { cl with ports := cl.ports.map fun p => { p with words := List.replicate 512 0 } }

theorem wit_matrixWords :
    (Meets (matState 64 tmmaUnits (.tmma 8 4 6 0)) (.tmma 8 4 6 0) fun c args s' =>
      let p := takeOperand 4 args
      let q := takeOperand 6 p.2
      let w : Double := BitVec.ofNat 64 ((q.2.getD 0 []).headD 0)
      (match c.checkTmma s' w p.1 q.1 with
        | .ok (0, 0, m) => s'.engineRoom c 0 && (s'.issueMat c (.tmma 8 4 6 0) 8 0 0 p.1 q.1 (aImageBytes c.easelFmt w)
            (bImageBytes c.easelFmt w) { newOp s' c .tmma 0 0 (ctlTarget w).tag w with
              wcb := tmmaBound 1 1 0 0, units := tmmaBound 1 1 0 0 * unitsPerCycle m }).map (·.issued) == some (s'.issued + 1)
        | _ => false) = true) ∧
    (Meets (matState 0 (dmmaBound * unitsPerCycle modeDgt) (.dmma 8 4 6 0)) (.dmma 8 4 6 0) fun c args s' =>
      let p := takeOperand 4 args
      let q := takeOperand 6 p.2
      let w : Double := BitVec.ofNat 64 ((q.2.getD 0 []).headD 0)
      dmmaCtlOk w = true ∧ p.1.legal = true ∧ q.1.legal = true ∧
      (s'.cluster c.crew.cluster).place (ctlTarget w) = some (0, 0) ∧ (s'.engine (c.engineNo 0)).modeAhead 0 = 0 ∧
      (s'.cluster c.crew.cluster).target? (ctlTarget w) = some (0, 0) ∧
      modeFits ((s'.engine (c.engineNo 0)).modeAhead 0) modeDgt = true ∧
      s'.operandFits c.crew ⟨1, 32, 0, 64⟩ p.1 = true ∧ s'.operandFits c.crew ⟨1, 8, 0, 256⟩ q.1 = true ∧ s'.engineRoom c 0 = true ∧
      (s'.issueMat c (.dmma 8 4 6 0) 8 0 0 p.1 q.1 2048 2048 { newOp s' c .dmma 0 0 (ctlTarget w).tag w with
        wcb := dmmaBound, units := dmmaBound * unitsPerCycle modeDgt }).map (·.issued) = some (s'.issued + 1)) ∧
    (Meets (matState 64 0 (.tbnd 8 8 0)) (.tbnd 8 8 0) fun c args _ =>
      let w : Double := BitVec.ofNat 64 ((args.getD 0 []).headD 0)
      tmmaCtlOk w = true ∧ (tmmaMode c.easelFmt (ctlLayout w)).isSome = true) ∧
    (Meets (matState 0 0 (.tcfg 1 1 1 0 7)) (.tcfg 1 1 1 0 7) fun _ _ _ =>
      (7 : BitVec 5).toNat < 8) ∧
    (Meets (tagged (matState 0 0 (.tcfg 1 1 1 1 31))) (.tcfg 1 1 1 1 31) fun c _ s' =>
      (tabFind (s'.cluster c.crew.cluster).tags 31).map Prod.fst = some 7) ∧
    (Meets (matState 0 0 (.tclr 1 0 7)) (.tclr 1 0 7) fun c _ s' =>
      (s'.cluster c.crew.cluster).target? ⟨false, 7, 1⟩ = some (7, 1) ∧ s'.engineRoom c 7 = true) ∧
    (Meets (tagged (matState 0 0 (.tclr 0 1 31))) (.tclr 0 1 31) fun c _ s' =>
      (s'.cluster c.crew.cluster).target? ⟨true, 31, 0⟩ = some (7, 1) ∧ s'.engineRoom c 7 = true) ∧
    (Meets (matState 0 0 (.tclr 0 1 31)) (.tclr 0 1 31) fun c _ s' =>
      (s'.cluster c.crew.cluster).target? ⟨true, 31, 0⟩ = none ∧ s'.dealCanvas c = some (0, 0) ∧ s'.engineRoom c 0 = true) ∧
    (Meets (matState drnWord 0 (.tdrn 8 4 0 0 0)) (.tdrn 8 4 0 0 0) fun c args s' =>
      let v := (args.getD 0 []).headD 0
      let w : Double := BitVec.ofNat 64 v
      (match c.drnDescs w 4 false with
        | .ok ds => (ds.all fun d => Desc.legal d) &&
            (ds.zip [drnExtent w 0 c.easelFmt (drnRows w) (drnCols w), drnExtent w 0 c.easelFmt (drnCols w) (drnRows w)]).all
              fun p => s'.descFits c.crew p.1 p.2
        | .error _ => false) = true ∧
      drnCtlOk w 0 false 4 = true ∧ (s'.cluster c.crew.cluster).target? (drnTarget w) = some (0, 0) ∧
      s'.engineRoom c 0 = true ∧ drnToPort w = false) ∧
    (Meets (matState 64 0 (.tstg 8 6)) (.tstg 8 6) fun c args s' =>
      let q := takeOperand 6 args
      let w : Double := BitVec.ofNat 64 ((q.2.getD 0 []).headD 0)
      tmmaCtlOk w = true ∧ ctlLayout w < 3 ∧ bImageBytes c.easelFmt w ≤ portLimit ∧ q.1.legal = true ∧
      (s'.cluster c.crew.cluster).place (ctlTarget w) = some (0, 0) ∧ s'.stage c 0 0 = none ∧
      (s'.cluster c.crew.cluster).target? (ctlTarget w) = some (0, 0) ∧
      s'.operandFits c.crew (bExtent c.easelFmt w) q.1 = true ∧
      s'.engineRoom c 0 = true ∧ (s'.takeImage c.crew.cluster q.1 (bImageBytes c.easelFmt w)).isSome = true) ∧
    (Meets (matState 0 0 (.ttbl 8 4)) (.ttbl 8 4) fun c args s' =>
      let q := takeOperand 4 args
      let w : Double := BitVec.ofNat 64 ((q.2.getD 0 []).headD 0)
      c.crew.feat.getLsbD 5 = true ∧ ttblCtlOk w = true ∧ natBits c.easelFmt.toNat 12 2 ≠ 3 ∧
      (q.1.desc?.map fun d => Desc.legal d && d.rot == 0) = some true ∧ w.getLsbD 12 = false ∧
      s'.operandFits c.crew ⟨1, ttblCount w, 0, 16⟩ q.1 = true ∧ s'.engineRoom c 0 = true ∧
      (s'.takeImage c.crew.cluster q.1 (16 * ttblCount w)).isSome = true) :=
  ⟨meets (by decide +kernel), meets (by decide +kernel), meets (by decide +kernel), meets (by decide +kernel), meets (by decide +kernel), meets (by decide +kernel), meets (by decide +kernel), meets (by decide +kernel), meets (by decide +kernel), meets (by decide +kernel), meets (by decide +kernel)⟩

/-- The clauses of TMMA and TTBL with an operand at a port. -/
theorem wit_portOperands :
    (Meets (portState 64 tmmaUnits (.tmma 8 112 119 0)) (.tmma 8 112 119 0) fun c args s' =>
      let p := takeOperand 112 args
      let q := takeOperand 119 p.2
      let w : Double := BitVec.ofNat 64 ((q.2.getD 0 []).headD 0)
      (match c.checkTmma s' w p.1 q.1 with
        | .ok (0, 0, m) => (s'.issueMat c (.tmma 8 112 119 0) 8 0 0 p.1 q.1 (aImageBytes c.easelFmt w)
            (bImageBytes c.easelFmt w) { newOp s' c .tmma 0 0 (ctlTarget w).tag w with
              wcb := tmmaBound 1 1 0 0, units := tmmaBound 1 1 0 0 * unitsPerCycle m }).map (·.issued) == some (s'.issued + 1)
        | _ => false) = true) ∧
    (Meets (portState 0 0 (.ttbl 8 119)) (.ttbl 8 119) fun c args s' =>
      let q := takeOperand 119 args
      let w : Double := BitVec.ofNat 64 ((q.2.getD 0 []).headD 0)
      q.1 = .port 7 ∧ ttblCtlOk w = true ∧ s'.engineRoom c 0 = true ∧
      (s'.takeImage c.crew.cluster q.1 (16 * ttblCount w)).isSome = true) :=
  ⟨meets (by decide +kernel), meets (by decide +kernel)⟩

end Sys2Proof.Tests
end

