-- ==== Sys2Proof/Tests/Events2.lean ====
section
/-! SUPPORT. The hypotheses of the statements about multicast, waits, engines, tokens and scheduling are met together: a
state for each clause. -/

namespace Sys2Proof.Tests
set_option Elab.async false
open Sys2Proof Sys2Proof.Machine Sys2Proof.Claim

/-- A stream of two lines from line 0 to two cores, the next of its lines at `next`, late joiners' lines up to `tailEnd`. -/
def aStream (next tail : Nat) (pairs : List (Nat × Nat × Nat)) : Stream := ⟨5, 4095, 0, 2, 0, pairs, next, tail, none, [0]⟩

theorem wit_multicastStepsMove :
    (let f := flight .mcrd 0 .sent;
      (fly f).flight? 0 = some f ∧ f.parts[0]? = some (partAt 0 .sent) ∧ (fly f).mayPerform f f.parts = true ∧ (fly f).issuersDone f = true) ∧
    (let m := aStream 0 0 [(0, 0, 0)];
      let s := { ground .nop with streams := [m] };
      (s.streams.find? fun m => m.id == 5 && m.next < m.count) = some m ∧ m.got = none ∧
      s.peek m.asid (m.src + m.next * 128) 128 = (.bytes ((bytesOfWord 0 ++ List.replicate 124 0).map some), s)) ∧
    (let m := aStream 2 0 [(0, 0, 0), (0, 1, 1)];
      let s := { ground .nop with streams := [m] };
      (s.streams.find? fun m => m.id == 5 && m.next == m.count && m.tail < m.tailEnd) = some m) ∧
    (let d : Delivery := ⟨5, 0, 0, zeros, [(0, 0)], [0]⟩;
      ({ ground .nop with deliveries := [d] } : State).deliveries[0]? = some d) :=
  ⟨by decide +kernel, by decide +kernel, by decide +kernel, by decide +kernel⟩

/-- A slice at an MWAIT of 64 cycles, with its monitor armed. -/
def mwaiting : Slice := { noSlice with wait := .mwait 0 64, monitor := some ⟨⟨0, 4095, 0⟩, 0, none⟩ }

/-- A timeout at its last cycle, a spurious wake 65536 cycles after another and one cycle before, a YLD at its bound, a
QUIET, a resize that shrinks. -/
theorem wit_waitsEnd :
    (let clock : Double := 64;
      mwaiting.wait = .mwait 0 64 ∧ 0 + 64 ≤ clock.toNat ∧ mwaiting.wake = none ∧ mwaiting.monitor = some ⟨⟨0, 4095, 0⟩, 0, none⟩) ∧
    (let clock : Double := 63;
      mwaiting.wait = .mwait 0 64 ∧ clock.toNat < 0 + 64) ∧
    (let sl := { mwaiting with spur := some 0 };
      let clock : Double := 65536;
      sl.spur = some 0 ∧ 0 + 65536 ≤ clock.toNat ∧ sl.monitor = some ⟨⟨0, 4095, 0⟩, 0, none⟩) ∧
    (let sl := { mwaiting with spur := some 0 };
      let clock : Double := 65535;
      sl.spur = some 0 ∧ clock.toNat < 0 + 65536) ∧
    (let sl := { noSlice with wait := .yld 32 };
      sl.wait = .yld 32) ∧
    (let sl := { noSlice with wait := .quiet 1 0 0 7 };
      sl.wait = .quiet 1 0 0 7 ∧ sl.wake = none) ∧
    (let r : Resize := ⟨0, false, ⟨0, 0, 0⟩, 0, []⟩;
      let s := { ground .nop with chipWays := [8, 0], spcfg := [some r, none] };
      s.spcfg.getD 0 none = some r ∧ r.ways < s.chipWays.getD 0 0 ∧ s.chipBusy 0 (r.ways * wayBytes) r = false) ∧
    (let r : Resize := ⟨8, true, ⟨0, 0, 0⟩, 0, []⟩;
      let s := { ground .nop with spcfg := [none, some r] };
      s.spcfg.getD 1 none = some r ∧ s.chipWays.getD 1 0 < r.ways ∧ (s.drainWays 1 r.ways).drained 1 r.ways = true) :=
  ⟨by decide +kernel, by decide +kernel, by decide +kernel, by decide +kernel, by decide +kernel, by decide +kernel, by decide +kernel, by decide +kernel⟩

/-- The lone crew with every slice of its gang changed, its CLOCK given. -/
def waitingCrew (f : Slice → Slice) (clock : Double) : State := { withSlices f (ground .nop) with clock := clock }

/-- Its only crew is crew 0, and every slice of its gang passes a test. -/
abbrev AllSlices (s : State) (p : Slice → Bool) : Prop :=
  (s.crews.map fun c => (c.id, s.crew? 0 == some c, (c.member? 0).map fun g => g.slices.all p)) = [(0, true, some true)]

/-- Each wait at its bound. -/
theorem wit_waitsEndAtTheirBounds :
    AllSlices (waitingCrew (fun sl => { sl with wait := .mwait 0 64, monitor := some ⟨⟨0, 4095, 0⟩, 0, none⟩ }) 64) (fun sl =>
      sl.wait == .mwait 0 64 && sl.wake.isNone && sl.monitor == some ⟨⟨0, 4095, 0⟩, 0, none⟩) ∧
    (∀ i ∈ [0, 3], (waitingCrew (fun sl => { sl with wait := .mwait 0 64, monitor := some ⟨⟨0, 4095, 0⟩, 0, none⟩ }) 64).monPending
      0 0 i = false) ∧
    AllSlices (waitingCrew (fun sl => { sl with spur := some 0, monitor := some ⟨⟨0, 4095, 0⟩, 0, none⟩ }) 65536) (fun sl =>
      sl.spur == some 0 && sl.monitor == some ⟨⟨0, 4095, 0⟩, 0, none⟩) ∧
    AllSlices (waitingCrew (fun sl => { sl with wait := .yld 32 }) 32) (fun sl => sl.wait == .yld 32) ∧
    AllSlices (waitingCrew (fun sl => { sl with wait := .quiet 1 0 0 7 }) 7) (fun sl => sl.wait == .quiet 1 0 0 7 && sl.wake.isNone) :=
  ⟨by decide +kernel, by decide +kernel, by decide +kernel, by decide +kernel, by decide +kernel⟩

/-- An engine operation of crew 0 at the head of engine 0's queue, after its start or before it. -/
def anOp (k : EngKind) (started : Bool) : EngOp where
  id := 4
  kind := k
  crew := 0
  canvas := if k = .ttbl then 2 else 0
  tag := none
  ctl := if k = .tdrn then BitVec.ofNat 64 drnWord else 64
  ctl2 := 0
  xf := 0
  k := false
  fmt := 0x11
  cfg := 0
  dst := 0
  aDesc := none
  bDesc := none
  aImg := some []
  bImg := some []
  staged := none
  wcb := 28
  units := 28
  started := started
  since := 0

/-- The state with that operation queued. -/
def engineState (k : EngKind) (started : Bool) : State :=
  { easel .nop with engines := [(0, { noEngine with queue := [anOp k started] })], serial := 9 }

/-- Each kind of operation, before its start and after it, TMMA at both ends of its work-cycle range. -/
theorem wit_engineStepsComplete :
    (∀ k ∈ [EngKind.tmma, .dmma, .tdrn, .tclr, .tstg, .ttbl], let s := engineState k false
      (s.engine 0).queue[0]? = some (anOp k false) ∧ s.crew? 0 = some (probeCrew true false) ∧
      (s.engine 0).mayStart 0 (anOp k false) = true ∧ s.issueSeen (anOp k false) = true) ∧
    (∀ k ∈ [EngKind.tmma, .dmma, .tdrn, .tclr, .tstg, .ttbl], ((engineState k true).engine 0).queue[0]? = some (anOp k true) ∧
      (anOp k true).started = true ∧ (anOp k true).kind = k ∧ 2 ≤ (anOp k true).wcb) ∧
    (((engineState .tdrn true).crew? (anOp .tdrn true).crew).isSome = true) :=
  ⟨by decide +kernel, by decide +kernel, by decide +kernel⟩

/-- A request that has waited TOKEN_AGE cycles beside a younger one, one the level covers and one it does not; two that have not
waited so long. -/
theorem wit_powerTokensAreGranted :
    (∀ units ∈ [0xFFFFFF, 0x1000000], let s := { ground .nop with clock := 0x1000, tokenReqs := [⟨1, units, 0, false⟩, ⟨2, 5, 1, false⟩] };
      bitsOf s.schedCtl 32 16 = s.clock.toNat ∧ (∃ r ∈ s.tokenReqs, s.requestAged r = true) ∧
      (units ≤ min (bitsOf s.tokenCtl 0 24) (s.tokens + bitsOf s.tokenCtl 24 16) ↔ units = 0xFFFFFF)) ∧
    (let s := { ground .nop with clock := 0xFFF, tokenReqs := [⟨1, 5, 0, false⟩, ⟨2, 5, 1, false⟩] };
      (∀ r ∈ s.tokenReqs, s.requestAged r = false) ∧
      grantRound 0xFFFFFF ((List.range 24).filterMap fun k => s.requestOf ((s.lastGrant + 1 + k) % 24)) ≠ []) :=
  ⟨by decide +kernel, by decide +kernel⟩

/-- A record of one gang of sixteen lanes with eight registers, at a priority, with no launch. -/
def aRecord (prio : Nat) : Record := ⟨0, 0, 0, 4, 0, BitVec.ofNat 64 (prio * 2 ^ 32), 0xFFFF000000000, 0⟩

/-- That record waiting in cluster 0's queue since CLOCK 0. -/
def queued (n prio : Nat) : QueuedRec := ⟨n, aRecord prio, .plain, 0, 0, 0, 0, 0, false, false, none⟩

/-- A push of it that waits. -/
def aPush : Push := ⟨aRecord 0, .plain, 0, none, none, none⟩

/-- A push into a queue with one free entry, and into a full one with no spill ring; ageing at its period; the skip limit. -/
theorem wit_recordsAreScheduled :
    (let s := { ground .nop with pushes := [aPush], records := (List.range 63).map fun n => queued n 0, serial := 99 };
      s.pushes[0]? = some aPush ∧ s.pushTurn 0 aPush = true ∧ s.pushDropped aPush = false ∧ s.spilled 0 = [] ∧
      (s.onChip 0).length < 64) ∧
    (let s := { ground .nop with pushes := [aPush], records := (List.range 64).map fun n => queued n 0, serial := 99 };
      s.pushes[0]? = some aPush ∧ s.pushTurn 0 aPush = true ∧ s.pushDropped aPush = false ∧ 64 ≤ (s.onChip 0).length ∧
      s.spillRoom 0 = false) ∧
    (let s := { ground .nop with records := [queued 3 2], clock := 0x100000 };
      1024 * bitsOf s.schedCtl 0 16 ≠ 0 ∧ (queued 3 2).prio < 3 ∧ (queued 3 2).since + 1024 * bitsOf s.schedCtl 0 16 ≤ s.clock.toNat) ∧
    (let s := { ground .nop with records := [{ queued 3 0 with skips := State.reset.skipLimit }] };
      s.skipLimit ≤ ({ queued 3 0 with skips := State.reset.skipLimit } : QueuedRec).skips) :=
  ⟨by decide +kernel, by decide +kernel, by decide +kernel, by decide +kernel⟩

/-- What RECORD_POP chooses at cluster 0. -/
def chosenAt (s : State) : Option (QueuedRec × Fit × List Nat) × State :=
  let s1 := ((((({ s with freeCount := s.freeCount + 1 } : State).returnBuffers none).2.refill 0 64).refill 24 64).refill 25 64)
  s1.choose 0 (match s1.blockingAt 0 with | some b => [b] | none => s1.considered 0) []

/-- An empty device with one record waiting for cluster 0. -/
def waitingFor (r : QueuedRec) : State := { State.reset with records := [r] }

/-- A record whose shape asks for no gang fails, one of one gang is placed, and an empty queue gives nothing. -/
theorem wit_recordPop :
    (chosenAt (waitingFor { queued 0 0 with rcd := { aRecord 0 with d3 := 0 } })).1.map (·.2.1) = some (.fails stBadShape) ∧
    (chosenAt (waitingFor (queued 0 0))).1.map (·.2.1) = some .now ∧ (chosenAt State.reset).1 = none := by
  unfold chosenAt State.blockingAt State.considered
  dsimp only
  refine ⟨?_, ?_, ?_⟩ <;> (generalize Config.dieFirst _ = b; cases b <;> decide +kernel)

/-- A loading crew, with no sequencer role and with one; a crew that has finished; one that has not. -/
theorem wit_crewsStartAndEnd :
    (let c := { aCrew with state := .loading, seq := none };
      let s := { ground .nop with crews := [c] };
      s.crew? c.id = some c ∧ c.state = .loading ∧ s.bankFree c = true ∧ c.seq = none ∧ c.log = [] ∧ c.frame = none) ∧
    (let c := { aCrew with state := .loading };
      let s := { ground .nop with crews := [c] };
      s.crew? c.id = some c ∧ c.state = .loading ∧ s.bankFree c = true) ∧
    (let s := withSlices (fun sl => { sl with finished := true }) (ground .nop);
      (s.crews.map fun c => s.crew? c.id == some c && c.state == .running && c.finished && s.crewQuiet c && s.crewCounted c) = [true]) ∧
    ((ground .nop).crew? aCrew.id = some aCrew ∧ aCrew.finished = false) :=
  ⟨by decide +kernel, by decide +kernel, by decide +kernel, by decide +kernel⟩

/-- A record that has waited at priority 3 since CLOCK 0. -/
def urgent : QueuedRec := queued 3 3

/-- The lone crew on every core that the record could use: cores 0 to 15 of cluster 0 each have a gang of it. -/
def fullCrew : Crew :=
  { aCrew with gangs := (List.range 16).flatMap fun k => aCrew.gangs.map fun g => { g with core := k } }

/-- The state in which that record waits, the crew runs, and a save frame is free. -/
def preempting (clock : Double) : State :=
  { ground .nop with crews := [fullCrew], records := [urgent], clock := clock, pools := [(8, 4096), (11, 1)] }

theorem wit_crewsArePreempted :
    ((preempting 0).crew? 0 = some fullCrew ∧ fullCrew.state = .running) ∧
    (let s := preempting (BitVec.ofNat 64 (1024 * bitsOf State.reset.schedCtl 16 16));
      (s.records.find? fun r => r.id == 3 && !r.spilled) = some urgent ∧ bitsOf s.schedCtl 16 16 ≠ 0 ∧ urgent.prio = 3 ∧
      urgent.topAt + 1024 * bitsOf s.schedCtl 16 16 ≤ s.clock.toNat ∧ s.poolEmpty framePool = false ∧ s.placeable urgent = false ∧
      (∀ k ∈ s.crews, k.victimOf ≠ some 3) ∧ s.victimFor urgent = some fullCrew) ∧
    (let c := { aCrew with state := .stopping, seq := none };
      let s := { ground .nop with crews := [c] };
      s.crew? c.id = some c ∧ c.finished = false ∧ s.stopped c = true ∧ s.standbyOn c = [] ∧ s.tight c = false ∧
      s.streamBusy c [] = false ∧ s.takeFrames [] = (true, s) ∧ (s.writeEasel c).1 = true) ∧
    (let c := { aCrew with state := .stopping };
      let s := { ground .nop with crews := [c], pools := [(8, 4096), (9, 4), (11, 1)] , supAsid := 4095 };
      s.crew? c.id = some c ∧ c.finished = false ∧ s.stopped c = true ∧ s.standbyOn c = [] ∧ s.tight c = false ∧
      s.streamBusy c [] = false ∧ (s.takeFrames [c]).1 = true ∧ ((s.takeFrames [c]).2.writeEasel c).1 = true) ∧
    (let c := { aCrew with state := .stream, age := 6 };
      let s : State := { ground .nop with crews := [c] };
      s.crew? c.id = some c ∧ (s.onChip c.queue).length < 64 ∧ (s.writeFrame c c.easelLength (c.bankBytes ++ c.log.flatMap FaultLog.bytes)).1 = true) ∧
    (let c := { aCrew with state := .standby };
      let s := { ground .nop with crews := [c] };
      s.crew? c.id = some c ∧ c.victimOf = none ∧ (∀ k ∈ c.cores, s.coreFree c.cluster k [] = true) ∧ s.easelFree c.cluster [] = true) :=
  ⟨by decide +kernel, by decide +kernel, by decide +kernel, by decide +kernel, by decide +kernel, by decide +kernel⟩

end Sys2Proof.Tests
end

