-- ==== Sys2Proof/Tests/Events3.lean ====
section
/-! SUPPORT. The hypotheses of the statements about block transfers, rings, migration, the fabric, the hosts and the stacks
are met together: a state for each clause. -/

namespace Sys2Proof.Tests
set_option Elab.async false
open Sys2Proof Sys2Proof.Machine Sys2Proof.Claim

/-- A command of a packet given by a thread of crew 0, under the physical alias. -/
def aCommand (p : List Double) : Command := ⟨.packet, p, .thread 0 0 1, 4095, 0, some 0, some 0, 0, [0], 0⟩

/-- A packet of a TYPE and an XF. -/
def aPacket (type xf : Nat) : List Double := [BitVec.ofNat 64 (type + 256 * xf), 0, 0, 0, 0, 0, 0, 0]

/-- A slot that runs a command. -/
def aSlot (st : SlotState) (w : SlotWait) (cmd : Command) : Slot := { freeSlot with state := st, wait := w, cmd := some cmd }

/-- The state with that slot as slot 15 of cluster 23. -/
def slotState (sl : Slot) : State :=
  { ground .nop with clusters := [(23, { noCluster with slots := List.replicate 15 freeSlot ++ [sl] })] }

/-- Slot 15 of cluster 23 runs that slot's command. -/
abbrev Runs (sl : Slot) : Prop :=
  ((slotState sl).command? 23 15).map (fun x => (x.1, x.2.cluster, x.2.slot, some x.2.cmd)) = some (sl, 23, 15, sl.cmd)

/-- A line of the physical alias that begins with some doubles. -/
def aliasLine (line : Nat) (ds : List Double) : Line :=
  ⟨4095, line, bytesOfDoubles (ds ++ List.replicate (16 - ds.length) 0), false, none, none, 0, 0⟩

/-- A served queue whose next packet, a SIGNAL, stands in its slot with its stamp. -/
def servedQueue : State := { ground .nop with
  clusters := [(0, { noCluster with queues := ⟨1025, 4095, false⟩ :: List.replicate 15 ⟨0, 0, false⟩ })]
  lines := [aliasLine 8 [4096, 0x62, 1, 0], aliasLine 32 [0x10005, 0, 0, 0, 0, 0, 0, 0]] }

/-- A served queue whose descriptor, of 2 slots, breaks the rule of 09 R214. -/
def brokenQueue : State := { servedQueue with lines := [aliasLine 8 [4096, 0x61, 1, 0]] }

/-- Whether the descriptor that an enabled entry of that queue names keeps 09 R214, where its bytes are read. -/
def entered (desc : Double) : Option Bool :=
  let w := (servedQueue.farDone (.look 0 0)).mapQueue 0 0 fun e => { e with desc := desc, faulted := false }
  let r := w.lookRef 0 0
  let addr := (w.queueEntry 0 0).addr
  match w.btePlace r addr 64, bteBytes r addr 64 w with
  | some _, (.ok bs, _) => some (queueDesc bs).ok
  | _, _ => none

/-- The next command and the lowest free slot; a packet of a reserved TYPE; a served queue; an entry disabled, one enabled
over a descriptor that keeps R214, over one of zeros, and at an address in no space; a look that finds a broken descriptor;
an append that is active, and one that waits for its room. -/
theorem wit_commandsAreAccepted :
    (let s := { ground .nop with clusters := [(0, { noCluster with inbox := [aCommand (aPacket 5 0)] })] };
      s.nextCommand 0 = some (aCommand (aPacket 5 0)) ∧
      ((List.range 16).find? fun k => (s.slot 0 k).state == .free) = some 0) ∧
    ((aCommand (aPacket 9 0)).kind ≠ .xqap ∧ packetStatus (aCommand (aPacket 9 0)).packet false ≠ 0) ∧
    (let s := servedQueue;
      (s.queueEntry 0 0).desc.getLsbD 0 = true ∧ (s.queueEntry 0 0).faulted = false ∧ (s.cluster 0).room ≠ 0 ∧ s.farOps = [] ∧
      (match bteLook (s.lookRef 0 0) (s.queueEntry 0 0).addr s with
        | (.ok (some (d, p)), u) => bitsOf (dbl p 0) 16 16 == d.stamp d.rd && u.mayStart 0 0 p &&
            (match bteConsume (s.lookRef 0 0) 0 (s.queueEntry 0 0).addr d p u with
              | (.ok (), _) => true
              | _ => false)
        | _ => false) = true) ∧
    ((0x1040 : Double).getLsbD 0 = false) ∧
    (((1025 : Double).getLsbD 0 = true ∧ (1025 : Double) &&& ~~~0x3E = 1025) ∧ ((4097 : Double).getLsbD 0 = true ∧ (4097 : Double) &&& ~~~0x3E = 4097)) ∧
    (entered 1025 = some true ∧ entered 4097 = some false) ∧
    (let w := (servedQueue.farDone (.look 0 0)).mapQueue 0 0 fun e => { e with desc := 0x5500000000000001, faulted := false };
      w.btePlace (w.lookRef 0 0) (w.queueEntry 0 0).addr 64 = none) ∧
    (let s := brokenQueue;
      (s.queueEntry 0 0).desc.getLsbD 0 = true ∧ (s.queueEntry 0 0).faulted = false ∧ (s.cluster 0).room ≠ 0 ∧ s.farOps = [] ∧
      (match bteLook (s.lookRef 0 0) (s.queueEntry 0 0).addr s with
        | (.ok none, _) => true
        | _ => false) = true) ∧
    (let cmd := { aCommand (aPacket 0 0) with kind := .xqap };
      ∀ sl ∈ [aSlot .active .none cmd, aSlot .waiting .slotRoom cmd], Runs sl ∧ cmd.kind = .xqap) :=
  ⟨by decide +kernel, by decide +kernel, by decide +kernel, by decide +kernel, by decide +kernel, by decide +kernel, by decide +kernel,
    by decide +kernel, by decide +kernel⟩

/-- An address of the core scratchpad. -/
def coreAt (o : Nat) : Nat := 0xFE20000000000000 + o

/-- The state with that slot, in which crew 0's core 0 holds doubles from an offset of its scratchpad. -/
def scratch (sl : Slot) (off : Nat) (ds : List Double) : State :=
  withCrew (fun c => { c with rcd := { c.rcd with d3 := 0x4010100000000 }, coreMem := [(0, memSetBytes [] off (bytesOfDoubles ds))] })
    (slotState sl)

/-- How a command's step of some slot in that state ends, and whether its slot has nothing outstanding then. -/
def endOf {α : Type} (sl : Slot) (off : Nat) (ds : List Double) (body : BteRef → BteM α) : Option (Option Halt × Bool) :=
  ((scratch sl off ds).command? 23 15).map fun (_, r) =>
    match body r (scratch sl off ds) with
    | (.ok _, s) => (none, s.slotQuiet 23 15)
    | (.error h, s) => (some h, s.slotQuiet 23 15)

/-- A FILL of one FP32 element at the start of the core scratchpad. -/
def fillPacket : List Double := [0xD01, 0, BitVec.ofNat 64 (coreAt 0), 0x400000004, 0, 0x100000001, 0x80000000, 0]

/-- A reduction of one rank, whose block lies at the start of the core scratchpad: its buffers' list, and its exponents. -/
def reductionBlock : List Double := [BitVec.ofNat 64 (coreAt 256), 0x100000000, BitVec.ofNat 64 (coreAt 64), BitVec.ofNat 64 (coreAt 128), 0, 0, 0, 0]

/-- The packet of that reduction, of one block of INT8 elements that becomes FP32. -/
def reductionPacket (xf : Nat) : List Double :=
  [BitVec.ofNat 64 (1 + 256 * xf), BitVec.ofNat 64 (coreAt 512), BitVec.ofNat 64 (coreAt 512), 0x8000000020, 0, 0x2000000001, 0x8101F000, BitVec.ofNat 64 (coreAt 0)]

/-- A FILL that ends, one whose messages are still out, a maximum and a sum that end, a contribution that is looked for; an
element read from and one written to the core scratchpad. -/
theorem wit_transformsEnd :
    (let sl := aSlot .active .none (aCommand fillPacket);
      transformOf 23 15 (pktXf fillPacket) = some (.fill 23 15) ∧ pktType fillPacket = 1 ∧
      endOf sl 0 [] bteCopy = some (some (.stop 0), true)) ∧
    (let sl := aSlot .active .none (aCommand fillPacket);
      let s : State := { scratch sl 0 [] with messages := [⟨6, .slot 23 15 0, none, 1, 1, 0, 0, 128, [], 0, 0, 0, .ready, 0⟩] };
      (s.command? 23 15).map (fun (_, r) => match bteCopy r s with | (.ok _, _) => true | _ => false) = some true) ∧
    (let sl := { aSlot .active .none (aCommand (reductionPacket 11)) with next := 2 };
      pktXf (reductionPacket 11) = 0x0B ∧ endOf sl 0 reductionBlock bteScaleMax = some (some (.stop 0), true)) ∧
    (let sl := { aSlot .active .none (aCommand (reductionPacket 12)) with next := 4 };
      pktXf (reductionPacket 12) = 0x0C ∧ endOf sl 0 reductionBlock bteIntegerSum = some (some (.stop 0), true)) ∧
    (let sl := aSlot .waiting .reduction (aCommand (reductionPacket 11));
      endOf sl 0 reductionBlock (fun r => bteArrived r 0) = some (none, true)) ∧
    (let sl := aSlot .active .none (aCommand fillPacket);
      let t := { tileOf fillPacket with sf := 1, src := coreAt 0, sp := 4 };
      fmtWidth t.sf = 8 ∧ t.erows = 1 ∧ t.ecols = 1 ∧
      ((scratch sl 0 []).command? 23 15).map (fun (_, r) => (scratch sl 0 []).btePlace r (coreAt 0) 1) = some (some (.core 0 0))) ∧
    (let sl := aSlot .active .none (aCommand fillPacket);
      let t := tileOf fillPacket;
      fmtWidth t.df = 32 ∧ t.dst = coreAt 0 ∧
      ((scratch sl 0 []).command? 23 15).map (fun (_, r) => (scratch sl 0 []).btePlace r (coreAt 0) 4) = some (some (.core 0 0))) :=
  ⟨by decide +kernel, by decide +kernel, by decide +kernel, by decide +kernel, by decide +kernel, by decide +kernel, by decide +kernel⟩

/-- An active command of every XF; a reduction that waits; an XCPR with two rows still to come. -/
theorem wit_transformsRun :
    (∀ xf ∈ List.range 14, let sl := aSlot .active .none (aCommand (aPacket 1 xf))
      Runs sl ∧ sl.state = .active ∧ pktType (aPacket 1 xf) = 1 ∧ pktXf (aPacket 1 xf) = xf) ∧
    (Runs (aSlot .waiting .reduction (aCommand (aPacket 1 11)))) ∧
    (let sl := { aSlot .active .data { aCommand (aPacket 1 0) with kind := .xcpr } with rows := [(5, [7]), (6, [8])] };
      Runs sl ∧ sl.rows.lookup 5 = some [7] ∧ 1 < sl.rows.length ∧ (slotState sl).crew? 0 = some aCrew ∧
      (aCrew.gangs[bitsOf (dbl (aPacket 1 0) 7) 0 4]?).map (fun g => (g.isSeq, decide ([(7 : Word)].length ≤ g.lanes.length))) =
        some (false, true)) :=
  ⟨by decide +kernel, by decide +kernel, by decide +kernel⟩

/-- A LAUNCH of no tasks; a GRAPH in its last stage; a WAITVAL whose value stands and one whose value does not; a SIGNAL with
no address, one that stores and one that adds; a record that is not to be written, and one whose ring has room; a launch
that a GRAPH holds and that is still open. -/
theorem wit_queueCommandsEnd :
    (endOf (aSlot .active .none (aCommand (aPacket 2 0))) 0 [] bteLaunch = some (none, true)) ∧
    (let sl := { aSlot .active .none (aCommand ((aPacket 3 0).set 1 (BitVec.ofNat 64 (coreAt 0)))) with next := 4, ranks := [3] };
      let s := { scratch sl 0 [0, 1, 0, 0, 0, 0, 0, 0] with launches := [(3, { noLaunchSlot with more := true, slot := some (23, 15) })] };
      sl.launchNo = some 3 ∧ s.launchOpen 3 = true ∧ s.slotQuiet 23 15 = true ∧
      (s.command? 23 15).map (fun (_, r) => match bteGraph r s with | (.ok _, _) => true | _ => false) = some true) ∧
    (let p := (aPacket 4 0).set 1 (BitVec.ofNat 64 (coreAt 0));
      endOf (aSlot .active .none (aCommand p)) 0 [] (fun r s =>
        bteDouble r (dbl p 1).toNat (s.mapSlot 23 15 fun k => { k with readAt := s.clock.toNat })) = some (none, true) ∧ waitHolds p 0 = true ∧
      waitHolds (p.set 2 1) 0 = false) ∧
    ((dbl (aPacket 5 0) 1).toNat = 0) ∧
    (let p := (aPacket 5 0).set 1 (BitVec.ofNat 64 (coreAt 0));
      (dbl p 1).toNat ≠ 0 ∧ (dbl p 3).getLsbD 0 = false ∧
      endOf (aSlot .active .none (aCommand p)) 0 [] (fun r => bteStore r (dbl p 1).toNat (leBytes 8 (dbl p 2).toNat)) = some (none, true)) ∧
    (let p := ((aPacket 5 0).set 1 (BitVec.ofNat 64 (coreAt 0))).set 3 1;
      (dbl p 3).getLsbD 0 = true ∧ endOf (aSlot .active .none (aCommand p)) 0 [] (fun r => do
        bteNeed (← bteRemote r (dbl p 1).toNat 8).isNone .freeze
        let x ← bteDouble r (dbl p 1).toNat
        bteStore r (dbl p 1).toNat (leBytes 8 (x + (dbl p 2).toNat))) = some (none, true)) ∧
    (let sl := aSlot .completing .none (aCommand (aPacket 2 0));
      ((slotState sl).command? 23 15).map (fun (sl, r) => (slotState sl).noRecord sl r) = some true) ∧
    (let sl := aSlot .completing .none (aCommand (aPacket 2 0));
      let s := { scratch sl 0 [] with rings := [(0, ⟨BitVec.ofNat 64 (coreAt 0), 4, 0, 0, 0, 0⟩)] };
      (s.command? 23 15).map (fun (sl, r) => (s.noRecord sl r, (s.ring r.cmd.ring).roomy, s.ringBusy r,
        match bteStore (s.recorder r) (s.ring r.cmd.ring).next (bytesOfDoubles (sl.record r.cmd.packet (s.ring r.cmd.ring).phase s.clock)) s with
          | (.ok (), u) => u.slotQuiet 23 15
          | _ => false)) = some (false, true, false, true)) :=
  ⟨by decide +kernel, by decide +kernel, by decide +kernel, by decide +kernel, by decide +kernel, by decide +kernel, by decide +kernel, by decide +kernel⟩

theorem wit_queueCommandsRun :
    (∀ ty ∈ ([2, 3, 4, 5] : List Nat), Runs (aSlot .active .none (aCommand (aPacket ty 0))) ∧ pktType (aPacket ty 0) = ty) ∧
    (Runs (aSlot .waiting .value (aCommand (aPacket 4 0)))) ∧
    (let p := (aPacket 4 0).set 4 0x100000000;
      let sl := aSlot .waiting .value (aCommand p);
      let clock : Double := 1024;
      Runs sl ∧ bitsOf (dbl p 4) 32 32 = 1 ∧ sl.reread = false ∧ clock.toNat ≤ sl.readAt + 4096 ∧ sl.since + 1024 * bitsOf (dbl p 4) 32 32 ≤ clock.toNat) ∧
    (∀ w ∈ [SlotWait.graphBuffer, .graphNodes, .launchSlot, .launchDone], Runs (aSlot .waiting w (aCommand (aPacket 3 0))) ∧ pktType (aPacket 3 0) = 3 ∧
      (slotState (aSlot .waiting w (aCommand (aPacket 3 0)))).slotQuiet 23 15 = true ∧ (aSlot .waiting w (aCommand (aPacket 3 0))).launchNo = none) ∧
    (Runs (aSlot .waiting .launchSlot (aCommand (aPacket 2 0))) ∧ pktType (aPacket 2 0) ≠ 3) ∧
    (Runs (aSlot .parked .none (aCommand (aPacket 2 0))) ∧ (aSlot .parked .none (aCommand (aPacket 2 0))).faultCode = 0) ∧
    (Runs (aSlot .completing .none (aCommand (aPacket 2 0)))) :=
  ⟨by decide +kernel, by decide +kernel, by decide +kernel, by decide +kernel, by decide +kernel, by decide +kernel, by decide +kernel⟩

/-- An enabled ring of sixteen records at line 32, with a count of two records and the interrupt conditions given. -/
def aRing (coal : Nat) : Ring := ⟨4096, BitVec.ofNat 64 (4 + coal), 0, 0, 2, 0⟩

/-- The count at its bound and below it, the time at its bound; ring 63 with the oldest event record. -/
theorem wit_ringsRaiseInterrupts :
    (State.reset.ring 63).count = 0 ∧ (State.reset.ring 63).enabled = false ∧
    (let s := { ground .nop with rings := [(63, aRing (2 * 2 ^ 24))] };
      (s.ring 63).enabled = true ∧ 0 < (s.ring 63).count ∧ bitsOf (s.ring 63).conf 24 8 ≤ (s.ring 63).count ∧ bitsOf (s.ring 63).conf 32 24 = 0) ∧
    (let s := { ground .nop with rings := [(0, aRing (3 * 2 ^ 24 + 9 * 2 ^ 32))], clock := 9 };
      (s.ring 0).enabled = true ∧ 0 < (s.ring 0).count ∧ (s.ring 0).count < bitsOf (s.ring 0).conf 24 8 ∧
      (s.ring 0).since + bitsOf (s.ring 0).conf 32 24 ≤ s.clock.toNat) ∧
    (let s := { ground .nop with rings := [(63, aRing 0)], eventBuf := [⟨1, 2, 3⟩], supAsid := 4095 };
      (s.ring 63).enabled = true ∧ s.eventStuck = false ∧ (s.ring 63).roomy = true ∧
      s.place? none none none 0 (s.ring 63).next 32 = some (.global 4096) ∧
      (s.agentPoke .events 0 0 s.supAsid 4096 (bytesOfDoubles [(1 : Double) ||| BitVec.ofNat 64 (2 ^ 63 * (s.ring 63).phase), 2, 3, s.clock])).1 =
        .done) :=
  ⟨by decide +kernel, by decide +kernel, by decide +kernel, by decide +kernel, by decide +kernel⟩

/-- The highest context of a crew, slot and queue. -/
theorem wit_waitingAccessesResume :
    0x7FFF < 0x8000 ∧ 23 < 24 ∧ 15 < 16 ∧ (4094 : Nat) ≠ aliasAsid ∧ 0x8000 + 16 * 23 + 15 < 0x9000 := by
  decide +kernel

/-- An entry of a page table. -/
def entryTo (pa flags : Nat) : Double := BitVec.ofNat 64 (flags + pa / 256 * 4096)

/-- ASID 8 maps its page 0 to the frame at 0x200000, writable. -/
def mapped : State := { ground .nop with
  rootTable := [(8, entryTo 0x10000 1)]
  lines := [aliasLine 0x200 [entryTo 0x20000 1], aliasLine 0x400 [entryTo 0x30000 1], aliasLine 0x600 [entryTo 0x40000 1],
    aliasLine 0x800 [entryTo 0x50000 1], aliasLine 0xA00 [entryTo 0x200000 7]] }

/-- A migration of that page to the frame at 0x300000, in a state of its unit. -/
def aMigration (st : Nat) (due : Bool) : Migration :=
  ⟨0, 0x08100008, 0x300000, st, 0, [], [], due, 0x50000, entryTo 0x200000 7⟩

/-- The state with that migration in unit 0. -/
def migrating (st : Nat) (due : Bool) : State :=
  { mapped with migrations := aMigration st due :: State.reset.migrations.tail }

/-- The state in which the page's leaf has been taken away meanwhile. -/
def leafGone (st : Nat) : State := { migrating st false with lines := [] }

theorem getD_falses (n k : Nat) : (List.replicate n false).getD k false = false := by
  rw [List.getD_eq_getElem?_getD, List.getElem?_replicate]; split <;> rfl

/-- Its memory is sound. -/
theorem migrating_sound (st : Nat) (due : Bool) : (migrating st due).Sound := ⟨getD_falses 8, rfl, rfl, rfl, fun _ h => nomatch h⟩

/-- Its leaf is held in dense form, so reading it reads no memory. -/
theorem migrating_leafRead (st : Nat) (due : Bool) (m : Migration) (h : m.entry = 0x50000) :
    (migrating st due).leafRead m = migrating st due := by
  unfold State.leafRead State.walked
  rw [h]
  rfl

theorem wit_pagesMigrate :
    (let s := migrating 0 false;
      s.migrations[0]? = some (aMigration 0 false) ∧ (aMigration 0 false).usable 0 (s.walk 8 0).1 = true) ∧
    (let s := ground .nop;
      (s.migrations[7]?).map (fun m => (m.state, m.usable 7 (s.walk m.asid m.va).1)) = some (0, false)) ∧
    (let s := migrating 1 false;
      s.frameBusy (aMigration 1 false) = false ∧ s.leafChanged (aMigration 1 false) = false ∧
      ((s.leafRead (aMigration 1 false)).streamLines (aMigration 1 false) 0 (List.range (frameBytes 0 (aMigration 1 false).pte / 128))).1 = true) ∧
    (let s := migrating 2 false;
      s.frameBusy (aMigration 2 false) = false ∧ s.leafChanged (aMigration 2 false) = false ∧
      ((s.leafRead (aMigration 2 false)).streamLines (aMigration 2 false) 0 ((aMigration 2 false).copying.flatMap (aMigration 2 false).frameLines)).1 = true) ∧
    (let s := migrating 2 true;
      (∀ o ∈ s.owned, (aMigration 2 true).holds o.asid (o.line * 128) = false) ∧ s.leafChanged (aMigration 2 true) = false) ∧
    (let s := migrating 3 false;
      let m := aMigration 3 false;
      s.frameBusy m = false ∧ s.leafChanged m = false ∧ ((s.leafRead m).streamLines m 0 (m.dirty.flatMap m.frameLines)) = (true, s) ∧
      (s.poke deviceOwner aliasAsid m.entry (leBytes 8 (moveLeaf m.pte m.newFrame).toNat)).1 = .done) ∧
    (∀ st ∈ ([1, 3] : List Nat), let m := aMigration st false
      (leafGone st).migrations[0]? = some m ∧ m.state ≠ 0 ∧ (leafGone st).frameBusy m = false ∧ (leafGone st).leafChanged m = true) :=
  ⟨by decide +kernel, by decide +kernel, ⟨by decide +kernel, by decide +kernel,
    (migrating_leafRead 1 false (aMigration 1 false) rfl).symm ▸ (migrating_sound 1 false).streamLines _ _⟩, by decide +kernel,
    by decide +kernel, by decide +kernel, by decide +kernel⟩

/-- The state in which that page's leaf asks for a first touch, pool 0 has a frame in its ring, and crew 0's ASID is 8. -/
def untouched (acc : List DeviceAccess) : State :=
  withCrew (fun c => { c with asid := 8 }) { mapped with
    lines := mapped.lines.dropLast ++ [aliasLine 0xA00 [entryTo 0 0x16]]
    pools := [(0, 4096), (1, 4), (3, 1)], supAsid := 4095, deviceAcc := acc }

/-- A lane's step waits while its pool's ring does. -/
theorem wit_mapfWaits :
    let s := untouched [.pool 0];
      (s.issuer?.map fun c => (s.mapLanes c [] [(0, 0)]).1) = some false := by
  decide +kernel

/-- The last semaphore, stack counter, port counter and table entries; a report asked for while one is being made and
while none is. -/
theorem wit_managementRegistersWork :
    (let s := { State.reset with sems := (List.replicate 31 0) ++ [3] };
      1 ≤ 3 ∧ 31 < s.sems.length ∧ s.sems.getD 31 1 = 3 ∧ s.sems.getD 30 1 = 0 ∧ s.sems.getD 31 1 ≠ 1) ∧
    (7 < 8 ∧ 50 < 51 ∧ 5 < 6 ∧ 1 < 2 ∧ 255 < 256 ∧ 4095 < 4096 ∧ 1023 < 1024 ∧ (0x1000001 : Double).getLsbD 24 = true ∧
      bitsOf (0x1000001 : Double) 0 24 ≠ 0 ∧ (1 : Double).getLsbD 24 = false) ∧
    (State.reset.attCtl.getD 0 0 ≠ 1 ∧ ({ State.reset with attCtl := [1, 0, 1, 7] } : State).attCtl.getD 0 0 = 1 ∧
      ({ State.reset with attCtl := [1, 0, 1, 7] } : State).attCtl.getD 2 0 = 1 ∧
      ({ State.reset with attCtl := [1, 0, 0, 7] } : State).attCtl.getD 2 0 ≠ 1) ∧
    ((0x138 : Nat) % 8 = 0 ∧ 0x140 ≤ 0xFF8 ∧ 0xFF8 < 0x1000 ∧ 63 < 64 ∧ 31 < 32 ∧ 28 < 29 ∧ 23 < 24 ∧ 15 < 16 ∧ 2 ^ 21 - 1 < 2 ^ 21 ∧
      (State.reset.migrations[7]?).isSome = true) ∧
    ((8 : Double).getLsbD 3 = true ∧ bitsOf (0x1000 : Double) 12 2 = 1 ∧ bitsOf (0x2000 : Double) 12 2 = 2 ∧
      bitsOf (0 : Double) 12 2 = 0) :=
  ⟨by decide +kernel, by decide +kernel, by decide +kernel, by decide +kernel, by decide +kernel⟩

/-- A message to device 1, in a state. -/
def aMessage (st : MsgState) : Message := ⟨6, .relay (some 0) 0 0, none, 0, 1, 0, 0, 128, [], 0, 0, 0, st, 0⟩

/-- The state with that message, and port 0 up on the route to its target. -/
def sending (st : MsgState) (clock : Double) : State := { ground .nop with
  messages := [aMessage st], routes := [(1, 1)], ports := ⟨true, 4, false, 0⟩ :: State.reset.ports.tail, clock := clock }

/-- A message ready to go; one whose answer comes; a response overdue at its bound and one cycle earlier; a query likewise. -/
theorem wit_messagesAreSentAndRepaired :
    (let s := sending .ready 0;
      (s.messages.find? fun x => x.id == 6 && x.state == .ready) = some (aMessage .ready) ∧ s.mayInject (aMessage .ready) = true ∧
      (aMessage .ready).job = 0 ∧
      (s.routePorts 1)[natBits (aMessage .ready).pa 7 33 % (s.routePorts 1).length]? = some 0 ∧ s.outstandingTo 1 < 4096) ∧
    ((sending .outstanding 0).message? 6 .outstanding = some (aMessage .outstanding)) ∧
    (let s := sending .outstanding (BitVec.ofNat 64 (1024 * bitsOf State.reset.fabricCtl 16 16));
      s.message? 6 .outstanding = some (aMessage .outstanding) ∧
      (aMessage .outstanding).since + 1024 * bitsOf s.fabricCtl 16 16 ≤ s.clock.toNat) ∧
    (let s := sending .query (BitVec.ofNat 64 (1024 * bitsOf State.reset.fabricCtl 32 16));
      s.message? 6 .query = some (aMessage .query) ∧
      (aMessage .query).since + 1024 * bitsOf s.fabricCtl 32 16 ≤ s.clock.toNat) ∧
    (∀ x ∈ ([] : List Tag), x.source = 1 → x.tag = 6 → x.performed = false) :=
  ⟨by decide +kernel, by decide +kernel, by decide +kernel, by decide +kernel, by decide +kernel⟩

/-- Window 31 admits a peer's reads and writes of 64 KiB at ASID 8's address 0. -/
def windowed : State := { mapped with windows := [(124, 0), (125, BitVec.ofNat 64 (8 + 2 ^ 12 + 2 ^ 16 + 2 ^ srcFabric)), (126, 0x10000)] }

/-- The last 4 bytes that window admits. -/
def lastOffset : Nat := 31 * 2 ^ 35 + 0xFFFC

/-- What serving a request of device 1 with tag 6 gives. -/
def servedAs (s : State) (kind va : Nat) (payload : List Double) : Nat :=
  match s.serve 1 6 kind 8 va payload 0 (targetDie 0 (some (8, va))) with
  | .done .. => 0
  | .fault code .. => 10 + code
  | .far .. => 2
  | .pushed _ => 3
  | .held _ => 4

/-- A write of the line that a home holds, at an address that may be written, is performed, whatever its check (assumption 13). -/
theorem pokeSeg_done {s u : State} {me asid va : Nat} {bs : List Byte} {ph : Phys} (hf : s.frozen asid va = false)
    (ho : s.holdsWrite asid (va / 128) me = false) (hw : (s.line? asid (va / 128)).isSome = true)
    (ht : s.translate asid va .write = (.ok ph, u)) : (s.pokeSeg me asid va bs).1 = .done := by
  obtain ⟨l, hl⟩ := Option.isSome_iff_exists.mp hw
  obtain ⟨x, hx⟩ : ∃ x, s.writeHome? asid (va / 128) (va % 128) bs = some x := ⟨_, by simp only [State.writeHome?, hl, Option.some_or]; rfl⟩
  have hc : (s.hitCode asid va .write).1 = 0 := by simp only [State.hitCode, ht]; split <;> [rfl; (split <;> rfl)]
  simp only [State.pokeSeg, hf, ho, Bool.false_eq_true, if_false, lineBytes, hx]
  split
  · rfl
  · rename_i h1 h2; rw [h2] at hc; exact absurd hc h1

/-- A write within one line whose segment is performed is performed. -/
theorem devPoke_done {s : State} {me asid va : Nat} {bs : List Byte} (hb : bs ≠ []) (hl : va % 128 + bs.length ≤ 128)
    (h : (s.pokeSeg me asid va bs).1 = .done) : (s.devPoke me asid va bs).1 = .done := by
  have hk : min bs.length (128 - va % 128) = bs.length := by omega
  have hp : s.poke me asid va bs = (.done, (s.pokeSeg me asid va bs).2) := by
    have hs : s.pokeSeg me asid va bs = (.done, (s.pokeSeg me asid va bs).2) := by rw [← h]
    simp only [State.poke, State.pokeLines, List.isEmpty_iff, hb, if_false, lineBytes, hk, List.take_length]
    rw [hs]
    simp
  simp [State.devPoke, hp]

/-- The home of that page's first line holds it, with a count of 1. -/
def counted : State :=
  { windowed with lines := ⟨8, 0, bytesOfDoubles (1 :: List.replicate 15 0), true, none, none, 0, 0⟩ :: mapped.lines }

/-- Bytes of that line. -/
def countedBytes (n : Nat) : List (Option Byte) := ((bytesOfDoubles (1 :: List.replicate 15 0)).map some).take n

theorem counted_peek : ∀ n ∈ [8, 128], (counted.ownedSpan 8 0 n = false ∧ (counted.devPeek 8 0 n).1 = .bytes (countedBytes n)) ∧
    ((match (counted.devPeek 8 0 n).2.translate 8 0 .write with | (.ok _, _) => true | _ => false) = true ∧
      (counted.devPeek 8 0 n).2.frozen 8 0 = false ∧ (counted.devPeek 8 0 n).2.holdsWrite 8 0 deviceOwner = false ∧
      ((counted.devPeek 8 0 n).2.line? 8 0).isSome = true) := by
  decide +kernel

/-- A write at the line's start after a read of it is performed. -/
theorem counted_poke (n : Nat) (hn : n ∈ [8, 128]) (bs : List Byte) (hb : bs ≠ []) (hl : bs.length ≤ 128) :
    ((counted.devPeek 8 0 n).2.devPoke deviceOwner 8 0 bs).1 = .done := by
  obtain ⟨-, ht, hf, ho, hw⟩ := counted_peek n hn
  refine devPoke_done hb (by omega) ?_
  obtain ⟨ph, u, hu⟩ : ∃ ph u, (counted.devPeek 8 0 n).2.translate 8 0 .write = (.ok ph, u) := by
    split at ht
    · rename_i h; exact ⟨_, _, h⟩
    · cases ht
  exact pokeSeg_done hf ho hw hu

/-- A JDEC that counts it down pushes its record. -/
theorem counted_pushes : ∃ v, counted.serve 1 6 11 8 0 [0, 0, 0] 0 (targetDie 0 (some (8, 0))) = .pushed v := by
  obtain ⟨⟨ho, hb⟩, -⟩ := counted_peek 128 (by decide)
  have hp : counted.devPeek 8 0 128 = (.bytes (countedBytes 128), (counted.devPeek 8 0 128).2) := by rw [← hb]
  have hf : ∀ u : State, atomicFold .jdec false [(0, 0)] (leValue (((countedBytes 128).map u.orFill).take 4)) = ([1], 0) := fun u => by
    have : ((countedBytes 128).map u.orFill).take 4 = [1, 0, 0, 0] := rfl
    rw [this]; decide
  obtain ⟨v, hv⟩ : ∃ v, (counted.devPeek 8 0 128).2.devPoke deviceOwner 8 0 (leBytes 4 0) = (.done, v) :=
    ⟨_, by rw [← counted_poke 128 (by decide) (leBytes 4 0) (by decide) (by decide)]⟩
  generalize (counted.devPeek 8 0 128).2 = u at hp hv
  have hm : messageLanes [0, 0, 0] = ([(0, 0)], false) := by decide
  simp only [State.serve, messageAtomic, State.serveRead, Nat.reduceLT, if_true, ho, Bool.false_eq_true, if_false, hp, hm, hf,
    State.serveWrite, hv]
  exact ⟨_, rfl⟩

/-- A discarded request; an offset one past a window; a job with no entry; a read served at a window's last byte, one that
faults, one whose line is owned, one whose page lies in another device; a JDEC that pushes; an active message for a handler
that is not enabled; a read of a line and an addition to a double. -/
theorem wit_peerRequestsAreServed :
    (({ windowed with tags := [⟨1, 6, false⟩] } : State).discarded 1 6 = true) ∧
    (windowed.discarded 1 6 = false ∧ windowed.inbound srcFabric (lastOffset + 1) 4 (messageWrites 0) = none) ∧
    (windowed.discarded 1 6 = false ∧ (9 : Nat) ≠ 0 ∧
      windowed.jobEntry? (targetDie 0 (windowed.inbound srcFabric lastOffset 4 (messageWrites 0))) 9 = none) ∧
    (windowed.inbound srcFabric lastOffset 4 (messageWrites 0) = some (8, 0xFFFC) ∧ servedAs windowed 0 0xFFFC [] = 0) ∧
    (servedAs { windowed with rootTable := [] } 0 0xFFFC [] = 11) ∧
    (servedAs { windowed with owned := [⟨8, 511, 5⟩] } 0 0xFFFC [] = 4) ∧
    (servedAs { windowed with lines := mapped.lines.dropLast ++ [aliasLine 0xA00 [entryTo (2 ^ 51) 7]] } 0 0xFFFC [] = 2) ∧
    (counted.discarded 1 6 = false ∧ counted.inbound srcFabric (31 * 2 ^ 35) 4 (messageWrites 11) = some (8, 0) ∧
      ∃ v, counted.serve 1 6 11 8 0 [0, 0, 0] 0 (targetDie 0 (some (8, 0))) = .pushed v) ∧
    (windowed.discarded 1 6 = false ∧
      windowed.deviceAcc.contains (.message (bitsOf (dbl [0xFC00] 0) 10 6) 0 1 6 0 [0xFC00]) = false ∧
      (match windowed.receive 0 1 6 0 [0xFC00] with
        | .status n _ => n == amNoQueue
        | _ => false) = true) ∧
    (windowed.ownedSpan 8 0xFF80 128 = false ∧ (match windowed.devPeek 8 0xFF80 128 with | (.bytes _, _) => true | _ => false) = true) ∧
    (counted.ownedSpan 8 0 8 = false ∧ (counted.devPeek 8 0 8).1 = .bytes (countedBytes 8) ∧
      ((counted.devPeek 8 0 8).2.devPoke deviceOwner 8 0 (leBytes 8 (1 + 7))).1 = .done) :=
  ⟨by decide +kernel, by decide +kernel, by decide +kernel, by decide +kernel, by decide +kernel, by decide +kernel, by decide +kernel,
    ⟨by decide +kernel, by decide +kernel, counted_pushes⟩, by decide +kernel, by decide +kernel,
    (counted_peek 8 (by decide)).1.1, (counted_peek 8 (by decide)).1.2, counted_poke 8 (by decide) _ (by decide) (by decide)⟩

/-- Job 5's entry 255 on die 0, at a node whose parent is device 2 and whose children are devices 3 and 4; or at the root. -/
def treeState (root : Bool) : State := { State.reset with
  jobs := [(2040, BitVec.ofNat 64 (5 + 2 ^ 24 + (if root then 2 ^ 25 else 0) + 2 ^ 37 + 2 ^ 40)), (2041, 3 + 4 * 1024)] }

/-- A wave in pass 1 that waits for its children. -/
def aWave (ended : Option Nat) : Wave := ⟨5, 8, 1, [3, 4], [0, 0, 0, 0], none, ended⟩

/-- A root one PERIOD after its last wave, and one cycle earlier; a node and a root; a child's sums; the last sums of a quiet
wave and of another; a decision. -/
theorem wit_wavesProve :
    (let s := { treeState true with waves := [aWave (some 0)], clock := 11 };
      (s.waves.find? (·.job == 5)) = some (aWave (some 0)) ∧ s.isRoot 5 = true ∧ 0 + s.wavePeriod 5 ≤ s.clock.toNat ∧
      ¬ (0 + s.wavePeriod 5 ≤ 10)) ∧
    (((treeState false).treeDie 5).isSome = true ∧ (treeState false).isRoot 5 = false ∧ ((treeState true).treeDie 5).isSome = true ∧
      (treeState true).isRoot 5 = true) ∧
    (let s := { treeState false with waves := [aWave none] };
      (s.waves.find? fun x => x.job == 5 && x.w == 8 && x.pass == 1 && x.left.contains 4) = some (aWave none)) ∧
    (∀ a ∈ [[6, 6, 0, 0], [6, 5, 0, 0]],
      let x : Wave := ⟨5, 8, 2, [4], [1, 1, 0, 0], some a, none⟩;
      let s := { treeState true with waves := [x] };
      (s.waves.find? fun x => x.job == 5 && x.w == 8 && x.pass == 2 && x.left.contains 4) = some x ∧ s.isRoot 5 = true ∧
      addSums x.sums [5, 5, 0, 0] = [6, 6, 0, 0]) ∧
    (let sl := { noSlice with wait := .quiet 5 7 0 0 };
      sl.wait = .quiet 5 7 0 0 ∧ 7 < 8 ∧ sl.wake = none) :=
  ⟨by decide +kernel, by decide +kernel, by decide +kernel, by decide +kernel, by decide +kernel⟩

theorem wit_portsAndHostsWork :
    (({ State.reset with accelSet := true } : State).accelSet = true) ∧
    (let s : State := { State.reset with ports := List.replicate 47 (⟨false, 0, false, 0⟩ : Link) ++ [⟨true, 4, false, 4⟩] };
      s.ports[47]? = some ⟨true, 4, false, 4⟩ ∧ max 1 (bitsOf s.fabricCtl 48 4) ≤ 4 ∧ ¬ (max 1 (bitsOf s.fabricCtl 48 4) ≤ 3) ∧
      (∀ m ∈ s.messages, m.port = 47 → m.state ≠ .outstanding)) ∧
    (49 < 50 ∧ 1 < 2 ∧ State.reset.linkUp.getD 1 false = true ∧ ({ State.reset with device := .ready } : State).device = .ready ∧
      State.reset.device ≠ .ready ∧ State.reset.hostWriting 1 = false ∧ State.reset.ports.length ≤ 48) :=
  ⟨by decide +kernel, by decide +kernel, by decide +kernel⟩

theorem wit_deviceComesUp :
    State.reset.device = .reset ∧ ({ State.reset with device := .boot } : State).device = .boot ∧
      ({ State.reset with device := .training } : State).isLost 7 = false ∧ 7 < 8 ∧ State.reset.device ≠ .fatal ∧ 5 < 6 := by
  decide +kernel

/-- The last stack; 104 and 105 °C on the last sensor; the last line of a stack, a parity line that differs; a first row, a
widened one, a streamed one. -/
theorem wit_stackEventsWork :
    (7 < 8 ∧ State.reset.isLost 7 = false ∧ State.reset.gathers = [] ∧ State.reset.ueReached 7 = false ∧
      ({ State.reset with ueTimes := List.replicate 8 (List.replicate 16 0) } : State).ueReached 7 = true) ∧
    (let heat (n : Nat) : Nat := State.heat { State.reset with
        temps := listModify State.reset.temps (135 / 17) fun ts => ts.set (135 % 17) n } (135 / 17);
      heat 104 = 104 ∧ heat 105 = 105 ∧ State.reset.device ≠ .fatal) ∧
    (let line := 2 ^ 29 - 1;
      let s := State.reset;
      line < 2 ^ 29 ∧ s.lostCount = 0 ∧ bitsOf s.memCtl 44 8 ≠ 0 ∧ s.stripeLocked line = false ∧ s.damage = [] ∧
      s.poisonPas = [] ∧ s.undelivPas = [] ∧ (∀ k, k < 8 → (s.stackCounters.getD k []).length = 8) ∧ 0 ≠ parityStack line ∧
      7 = parityStack line) ∧
    (let s : State := { State.reset with hbm := [(stackAddr 7 (2 ^ 29 - 1), 1)] };
      s.rawLine 7 (2 ^ 29 - 1) ≠ s.reconstruct 7 (2 ^ 29 - 1)) ∧
    (1023 < 1024 ∧ 65535 < 65536 ∧ 0 < 255 ∧ 255 < 256 ∧ (∀ r ∈ State.reset.openRows, r.row ≠ 65535) ∧
      State.reset.streamTo 7 1023 65535 = true ∧ State.reset.openRows.Nodup) ∧
    (let r : OpenRow := ⟨7, 1023, 65535, 1, false⟩;
      let s := { State.reset with openRows := [r] };
      r ∈ s.openRows ∧ r.mask ||| 255 ≠ r.mask) ∧
    (let s := { State.reset with openRows := [⟨7, 1023, 65535, 1, true⟩] };
      ∃ r ∈ s.openRows, r.stack = 7 ∧ r.bank = 1023 ∧ r.stream = true ∧ r.row / 2048 = 31) :=
  ⟨by decide +kernel, by decide +kernel, by decide +kernel, by decide +kernel, by decide +kernel, by decide +kernel, by decide +kernel⟩

end Sys2Proof.Tests
end

