-- ==== Sys2Proof/Tests/Frames.lean ====
section
/-! SUPPORT. The hypotheses of the statements about frames, checks, traps, operands, control flow, parity, encoding and the
step are met together: a state for each clause. -/

namespace Sys2Proof.Tests
set_option Elab.async false
open Sys2Proof Sys2Proof.Machine Sys2Proof.Claim

/-- A word executes in its ground state, and goes on. -/
def completes (i : Instr) (s : State) : Bool := match exec i s with | .next _ => true | _ => false

theorem completes_next {i : Instr} {s : State} (h : completes i s = true) : ∃ t, exec i s = .next t := by
  unfold completes at h
  split at h
  · exact ⟨_, ‹_›⟩
  · cases h

/-- Results for a vector register, a pair, a g register of the lowest lane, and a lane's own fields 120. -/
def framedWords : List Instr := [.iadd 1 2 3 0, .iadd 2 4 6 4, .and 111 2 3, .and 124 2 3, .and 127 2 3, .and 120 2 3]

theorem wit_resultsGo : ∀ i ∈ framedWords, Meets (ground i) i (fun c args s' =>
      ((resultOf c s' args i).map fun x => (c.port? (x.1 c.first)).isNone) = some true ∧ c.lanes.length = 16 ∧
        c.gang.g.length = 4 ∧ c.gang.gs.length = 4) ∧ ∃ t, exec i (ground i) = .next t := by
  have h : (framedWords.all fun i => tries (ground i) i (fun c args s' =>
      decide (((resultOf c s' args i).map fun x => (c.port? (x.1 c.first)).isNone) = some true ∧ c.lanes.length = 16 ∧
        c.gang.g.length = 4 ∧ c.gang.gs.length = 4)) && completes i (ground i)) = true := by decide +kernel
  intro i hi
  have := List.all_eq_true.1 h i hi
  simp only [Bool.and_eq_true] at this
  exact ⟨meets this.1, completes_next this.2⟩

/-- Every word of `accessWords` goes on with its access, with active lanes and with none. -/
theorem wit_accessesChangeNothing :
    (∀ i ∈ accessWords, ∃ t, exec i (withPair 2 0 (ground i)) = .next t) ∧
    ∀ i ∈ accessWords, Meets (withSlices (fun sl => { sl with mask := 0 }) (ground i)) i (fun c args _ =>
      c.lanes = [] ∧ (accessOf args i).isSome = true) ∧
      ∃ t, exec i (withSlices (fun sl => { sl with mask := 0 }) (ground i)) = .next t := by
  have h : (accessWords.all fun i => completes i (withPair 2 0 (ground i))) = true := by decide +kernel
  have h' : (accessWords.all fun i => tries (withSlices (fun sl => { sl with mask := 0 }) (ground i)) i (fun c args s' =>
      decide (c.lanes = [] ∧ (accessOf args i).isSome = true)) &&
      completes i (withSlices (fun sl => { sl with mask := 0 }) (ground i))) = true := by decide +kernel
  refine ⟨fun i hi => completes_next (List.all_eq_true.1 h i hi), fun i hi => ?_⟩
  have := List.all_eq_true.1 h' i hi
  simp only [Bool.and_eq_true] at this
  exact ⟨meets this.1, completes_next this.2⟩

theorem wit_wordsLeaveMemoryAlone : (Instr.stq 4 2 0).isWord = true ∧ (∀ d a, Instr.stq 4 2 0 ≠ .mapf d a) ∧
    ∃ t, exec (.stq 4 2 0) (withPair 2 0 (ground (.stq 4 2 0))) = .next t :=
  ⟨rfl, fun _ _ h => Instr.noConfusion h, completes_next (by decide +kernel)⟩

/-- The last 4 bytes of a line at its home, and byte 0 of lane-private memory, the core's, the cluster's and the die's. -/
theorem wit_storesWriteTheirBytes :
    (let f := flight .store 124 .sent;
      Sent f ∧ (fly f).placeOf f (partAt 124 .sent) = some (.global 124) ∧ (fly f).frozen 4095 124 = false ∧
      (fly f).ownedByOther 4095 0 none = false ∧ ((fly f).line? 4095 0).map (fun l => l.data.length) = some 128 ∧
      124 % 128 + 4 ≤ 128 ∧ (fly f).hitCode 4095 124 .write = (0, fly f) ∧ (aCrew.member? 0).isSome = true) ∧
    (∀ p ∈ ([(0xFE00000000000000, .priv 0 0), (0xFE20000000000000, .core 0 0), (0xFE40000000000000, .clu 0),
        (0xFE60000000000000, .chip 0 0), (0xFE6000000BFFFFFC, .chip 0 201326588), (0xFE70000000000000, .chip 1 0)] : List (Nat × Place)),
      Sent (flight .store p.1 .sent) ∧
      (fly (flight .store p.1 .sent)).placeOf (flight .store p.1 .sent) (partAt p.1 .sent) = some p.2 ∧ p.2.isGlobal = false ∧
      (match p.2 with | .chip _ o => decide (o + 4 ≤ 16 * wayBytes) | _ => true) = true ∧
      (aCrew.gangs.all fun g => 0 < g.lanes.length) = true ∧ (fly (flight .store p.1 .sent)).chip.length = 2) :=
  ⟨by decide +kernel, by decide +kernel⟩

/-- A trap's clause of 03 R73, computed: the thread, and the checks of its word that come before it. -/
def checkAt (s : State) (i : Instr) : Option (Except Stop Unit) := s.issuer?.map fun c => c.check i (needs i)

/-- A reserved operation, a form the thread may not run, a missing feature, a supervisor's word, a register past the
allotment, an unbound queue, a format a word does not take, a register still awaited, a TMMA whose control word names the
slot-sparse layout with SPB clear, with SPB set (its B operand then names an odd register), and while that word is awaited:
each stops its word, and each word passes the checks before. -/
theorem wit_checksComeInOrder :
    ((Instr.win 4).isWord = true ∧ (Instr.win 4).wellFormed = false ∧ (needs (.tclr 0 0 0)).kind.admits false = false ∧
      (needs (.mts 2 4)).bad = true ∧ (needs (.bar 1 0)).noHandler = true) ∧
    ((checkAt (withCrew (fun c => { c with feat := 0xFFFFFFFE }) (ground (.frcp 1 2 0 0))) (.frcp 1 2 0 0)) =
      some (.error (.of .illegal)) ∧ (Instr.frcp 1 2 0 0).wellFormed = true ∧ (needs (.frcp 1 2 0 0)).feat = [0]) ∧
    ((checkAt (withCrew (fun c => { c with supervisor := false }) (ground .tlbiAll)) .tlbiAll) = some (.error (.of .priv)) ∧
      (checkAt (withSlices (fun sl => { sl with tstate := 0 }) (ground .rply)) .rply) = some (.error (.of .priv))) ∧
    ((checkAt (withSlices (fun sl => { sl with wb := 504 }) (ground (.and 1 2 8))) (.and 1 2 8)) = some (.error (.of .regBound)) ∧
      (checkAt (withSlices (fun sl => { sl with wb := 504 }) (ground (.and 1 2 7))) (.and 1 2 7)) = some (.ok ())) ∧
    ((checkAt (withGangs (fun g => { g with qbind := List.replicate 8 none }) (ground (.and 1 2 112))) (.and 1 2 112)) =
      some (.error (.of .queue))) ∧
    ((checkAt (fmtd 0x0A (ground (.coal 1 2 3 1))) (.coal 1 2 3 1)) = some (.error (.of .format))) ∧
    (let s := withSlices (fun sl => { sl with pend := [⟨.v 2, 7, 0⟩] }) (ground (.and 1 2 3));
      checkAt s (.and 1 2 3) = some (.ok ()) ∧ (s.issuer?.map fun c => c.scoreOk (needs (.and 1 2 3))) = some false) ∧
    (let i := Instr.tmma 8 6 5 0;
      let s := withCrew (fun c => { c with feat := 0xFFFFFFDF }) (withS 8 (3 * 2 ^ 18) (easel i));
      checkAt s i = some (.error (.of .illegal)) ∧ (needs i).layout = some 8 ∧
      checkAt (withCrew (fun c => { c with feat := 0x1FF }) s) i = some (.error (.of .regBound)) ∧
      checkAt (withSlices (fun sl => { sl with pend := [⟨.s 8, 7, 0⟩] }) s) i = some (.error .wait)) :=
  ⟨by decide +kernel, by decide +kernel, by decide +kernel, by decide +kernel, by decide +kernel, by decide +kernel, by decide +kernel, by decide +kernel⟩

/-- Two gangs in the same physical slices, the second of them in handler state. -/
def twinHandled : State := withCrew (fun c => { c with gangs := c.gangs.mapIdx fun m g =>
  if m = 1 then { g with slices := g.slices.map fun sl => { sl with tstate := 1 } } else g }) (twin (ground .nop))

/-- A party in handler state; one whose physical slices another crew's party has in handler state; one that enters. -/
theorem wit_trapsEnterTheHandler :
    (((handled (ground .nop)).issuer?.map (·.inHandler)) = some true) ∧
    (let s := twinHandled;
      (s.issuer?.map fun c => (c.inHandler, s.handlerBusy c)) = some (false, true)) ∧
    (((ground .nop).issuer?.map fun c => (c.inHandler, (ground .nop).handlerBusy c)) = some (false, false)) :=
  ⟨by decide +kernel, by decide +kernel, by decide +kernel⟩

/-- A TRAP in handler state, in a crew that lives. -/
theorem wit_trapsInHandlerStateAbandonTheCrew :
    let s := handled (ground (.trap 5));
      (s.issuer?.map fun c => (c.inHandler, c.crew.abandoned)) = some (true, false) ∧ checkAt s (.trap 5) = some (.ok ()) := by
  decide +kernel

theorem wit_eretUndoesATrap :
    ((ground .nop).issuer?.map fun c => (c.inHandler, (ground .nop).handlerBusy c,
      (((ground .nop).takeTrap c .trap [] 5).crew? c.crew.id).bind (·.member? c.member) |>.isSome)) = some (false, false, true) := by
  decide +kernel

/-- The first and last field of each kind in a gang whose window reaches its last register, on the easel, and in handler
state; a queue with one word too few, and with just enough; a push. -/
theorem wit_fieldsReadAndQueuesPop :
    (((handled (ground .nop)).issuer?.map fun c => (c.gang.isSeq, (c.gang.slice 0).inHandler)) = some (false, true) ∧
      ((handled (easel .nop)).issuer?.map fun c => (c.gang.isSeq, (c.gang.slice 0).inHandler)) = some (true, true) ∧
      ((easel .nop).issuer?.map fun c => (c.gang.isSeq, (c.gang.slice 0).inHandler)) = some (true, false) ∧
      ({ noSlice with x0 := 100, x1 := 0 } : Slice).x0.toNat + (107 - 104) < 104) ∧
    (let sl : Slice := { noSlice with wb := 408, x0 := 100, x1 := 0 };
      sl.inHandler = false ∧ sl.wb.toNat + 103 < 512 ∧ sl.wb.toNat + (sl.x0.toNat + (107 - 104)) < 512 ∧
      sl.wb.toNat + (sl.x1.toNat + (111 - 108)) < 512) ∧
    (let s := (ground .nop).mapCluster 0 fun cl => { cl with ports := cl.ports.map fun p => { p with words := List.replicate 15 9 } };
      (s.issuer?.map fun c => (c.port? (.src 112), c.lanes.length, decide (0 < (s.cluster c.crew.cluster).ports.length),
        decide ((s.port c.crew.cluster 0).words.length < (Use.src 112).span * c.lanes.length))) = some (some 0, 16, true, true)) ∧
    (let s := (ground .nop).mapCluster 0 fun cl => { cl with ports := cl.ports.map fun p => { p with words := List.replicate 16 9 } };
      (s.issuer?.map fun c => (c.port? (.src 119), c.lanes.length, decide (0 < (s.cluster c.crew.cluster).ports.length),
        decide ((Use.src 119).span * c.lanes.length ≤ (s.port c.crew.cluster 0).words.length))) = some (some 0, 16, true, true)) ∧
    (((ground .nop).issuer?.map fun c => (c.port? (.dst64 112), (List.range 16).length == c.lanes.length,
      (ground .nop).pushPending c 0, ((ground .nop).pushLater c 0 [9]).pushPending c 0)) = some (some 0, true, false, true)) :=
  ⟨by decide +kernel, by decide +kernel, by decide +kernel, by decide +kernel, by decide +kernel⟩

/-- A slice outside its loop's LAST, one at it with a count left and with none, a body run n times, a move out, a divergent
branch and its join point, a divergent branch at its loop's LAST. -/
theorem wit_loopsEndAndPathsRejoin :
    (let r : LoopRec := ⟨4, 16, 0, [], false⟩;
      let sl : Slice := { noSlice with pc := 16, loops := [r], lc := [2, 0, 0] };
      sl.loops = [r] ∧ r.last = sl.pc ∧ sl.lc.getD r.k 0 - 1 ≠ 0 ∧ r.k < sl.lc.length ∧ sl.lc.getD r.k 0 = BitVec.ofNat 32 2 ∧
      (0 < 1 ∧ 1 < 2) ∧ 2 ≤ 2) ∧
    (let r : LoopRec := ⟨4, 16, 0, [], false⟩;
      let sl : Slice := { noSlice with pc := 16, loops := [r], lc := [1, 0, 0] };
      sl.loops = r :: [] ∧ r.last = sl.pc ∧ sl.lc.getD r.k 0 - 1 = 0) ∧
    (let sl : Slice := { noSlice with pc := 16, loops := [⟨4, 20, 0, [], false⟩] };
      ∀ r ∈ sl.loops.head?, r.last ≠ sl.pc) ∧
    (let sl : Slice := { noSlice with pc := 16, mask := 15 };
      (3 : BitVec 4) ≠ 0 ∧ (3 : BitVec 4) ≠ sl.mask ∧ 3 &&& sl.mask = 3 ∧
      ({ sl with stack := [sl.entry false 64 sl.mask] } : Slice).stack = ({ sl with stack := [sl.entry false 64 sl.mask] } : Slice).entry false 64 sl.mask :: []) ∧
    (let r : LoopRec := ⟨4, 16, 0, [], false⟩;
      let sl : Slice := { noSlice with pc := 16, mask := 15, loops := [r], lc := [2, 0, 0] };
      r.last = sl.pc ∧ sl.lc.getD r.k 0 - 1 ≠ 0 ∧ (3 : BitVec 4) ≠ 0 ∧ (3 : BitVec 4) ≠ sl.mask ∧ 3 &&& sl.mask = 3) :=
  ⟨by decide +kernel, by decide +kernel, by decide +kernel, by decide +kernel, by decide +kernel⟩

/-- The lone crew with a phase of barrier 3 at a count, every slice of its gang arrived, or none. -/
def atBarrier (count : Nat) (arrived : Bool) : Crew :=
  { aCrew with
    barriers := aCrew.barriers.set 3 ⟨some count, [], if arrived then [(0, 0), (0, 1), (0, 2), (0, 3)] else []⟩
    gangs := aCrew.gangs.map fun g => { g with slices := g.slices.map fun sl => { sl with wait := .bar 3 } } }

/-- The count reached, a count that cannot be reached, and one that still can: a slice waits in each. -/
theorem wit_barrierPhasesEnd :
    ∀ p ∈ [((1 : Nat), true), (3, true), (1, false)], let c := atBarrier p.1 p.2
      3 < c.barriers.length ∧ (c.barriers.getD 3 Barrier.empty).count = some p.1 ∧
      ((c.member? 0).map fun g => (g.slices[0]?).map fun sl => (sl.finished, sl.inHandler, sl.wait)) =
        some (some (false, false, .bar 3)) := by
  decide +kernel

/-- The last line of HBM after reset. -/
theorem wit_stripesKeepTheirParity :
    let line := 7 * (2 ^ 29 - 1) + 6;
      let stripe := line / 7;
      zeros.length = 128 ∧ (∀ k, k < 8 → tabGet State.reset.damage (stackLine k stripe) 0 = 0) ∧ State.reset.lostCount = 0 ∧ stripe < 2 ^ 29 ∧
      State.reset.reconstruct (parityStack stripe) stripe = State.reset.rawLine (parityStack stripe) stripe := by
  decide +kernel

theorem wit_integerWordsCompute :
    ((withSlices (fun sl => { sl with mask := if sl.party = 0 then 8 else 0 }) (apart (ground .nop))).issuer?.map fun c =>
      (c.lanes.length, c.sls.length)) = some (3, 3) ∧ ((easel .nop).issuer?.map (·.lanes)) = some [0] := by
  decide +kernel

/-- A word fetched in the ground state; one that does not decode; one candidate; a step of a device agent; a device not
READY; FATAL. -/
theorem wit_aStepRuns :
    (let s := ground (.and 1 2 3);
      ((({ s with cur := ⟨0, 0, 0⟩ } : State).issuer?).map fun c =>
        (({ s with cur := ⟨0, 0, 0⟩ } : State).withheld c, c.waitingTrap, match ({ s with cur := ⟨0, 0, 0⟩ } : State).fetchFor c with
          | (.word w, _) => some w
          | _ => none)) = some (false, none, some (encodeWord (.and 1 2 3))) ∧ decodeWord (encodeWord (.and 1 2 3)) = .ok (.and 1 2 3)) ∧
    ((match decodeWord 0xFFFFFFFF with
        | .error _ => true
        | .ok _ => false) = true) ∧
    (let s := ground .nop;
      s.agenda = [.issue 0 0 0] ∧ s.device = .ready ∧ (({ s with agenda := [] } : State).candidates 0 0 0).length = 1) ∧
    (let s := { ground .nop with agenda := [.event (.homeRequest 0 0)] };
      s.device = .ready ∧ (Instr.homeRequest 0 0).isWord = false) ∧
    (({ ground .nop with device := .recovery } : State).device ≠ .ready ∧
      ({ ground .nop with device := .fatal, agenda := [.event (.homeRequest 0 0)] } : State).device = .fatal) :=
  ⟨by decide +kernel, by decide +kernel, by decide +kernel, by decide +kernel, by decide +kernel⟩

theorem wit_decodeOfEncode :
    (Instr.acas 6 2 5 3 0 0 0).isWord = true ∧ (Instr.acas 6 2 5 3 0 0 0).wellFormed = true ∧
      decodeWord 0xBC1815C0 = .ok (.acas 6 2 5 3 0 0 0) := by
  decide +kernel

/-- A state that meets the firmware rule, and a step from it: the device boots. -/
theorem wit_firmwareRule : FirmwareRule State.reset ∧ ∃ t, step (ground .nop) = .next t ∧ FirmwareRule (ground .nop) := by
  refine ⟨by unfold FirmwareRule; decide +kernel, ?_⟩
  have h : (match step (ground .nop) with | .next _ => true | _ => false) = true := by decide +kernel
  split at h
  · exact ⟨_, ‹_›, by unfold FirmwareRule; decide +kernel⟩
  · cases h

end Sys2Proof.Tests
end

