-- ==== Sys2Proof/Tests/Slice0.lean ====
section
/-! SUPPORT. Tests of the decoder on words that the spec writes out, of the well-formedness checks on terms that each
refuses, and of single steps on small states. -/

namespace Sys2Proof.Tests
open Sys2Proof Sys2Proof.Machine
set_option Elab.async false

/-! The words and their readings are the examples that the entries of files 15 to 18 work out bit by bit. -/

def wordsAtomicsMessages : List (Word × Instr) :=
  [(0xBC1815C0, .acas 6 2 5 3 0 0 0), (0xE7E04590, .jdec 120 8 5 2 0 1 0), (0xAC004540, .prom 8 5 1),
   (0xE4004000, .spawn 8), (0xF0100100, .amsg 4 16 0)]

theorem test_decode_atomics_messages : ∀ p ∈ wordsAtomicsMessages, decodeWord p.1 = .ok p.2 := by decide +kernel

def wordsInteger : List (Word × Instr) :=
  [(0x4A0C20FF, .andi 3 4 0xFF), (0x20102060, .iadd 4 4 6 0), (0x20102061, .iadd 4 4 6 1),
   (0x480C1FFF, .iaddi 3 3 0x7FF), (0x420C205A, .icmp 3 4 5 1 2), (0x4603E792, .lea 0 124 121 0 2),
   (0x5414FE00, .lui 5 0xFE00), (0x300C2050, .or 3 4 5), (0x4C0C2100, .ori 3 4 0x100), (0x320C2050, .xor 3 4 5),
   (0x4E0C27FF, .xori 3 4 0x7FF), (0x3A0C2000, .popc 3 4), (0x501C2001, .shli 7 4 1), (0x360C2050, .shr 3 4 5),
   (0x380C2050, .sra 3 4 5), (0x44102860, .sel 4 5 6 0)]

theorem test_decode_integer : ∀ p ∈ wordsInteger, decodeWord p.1 = .ok p.2 := by decide +kernel

def wordsControl : List (Word × Instr) :=
  [(0x0C00F000, .ret 30), (0x14000123, .trap 0x123), (0x10140400, .loop 5 1), (0x1E000000, .eret),
   (0x1E000001, .eretAbandon)]

theorem test_decode_control : ∀ p ∈ wordsControl, decodeWord p.1 = .ok p.2 := by decide +kernel

def wordsSync : List (Word × Instr) :=
  [(0xC40000C2, .bar 12 2), (0xC60000C2, .bara 12 2), (0xAA000580, .fence 5 2), (0xAA0005C0, .fence 5 3),
   (0xC0241340, .mon 9 2 3 1 0 0), (0xC22FC000, .mwait 11 120), (0xA4003005, .waitp 6 5), (0xC800002A, .qbind 5 2),
   (0xCA140003, .qstat 5 3), (0xEC1BC070, .quiet 6 120 7 0), (0xEE084001, .qadjConsumed 2 8)]

theorem test_decode_sync : ∀ p ∈ wordsSync, decodeWord p.1 = .ok p.2 := by decide +kernel

def wordsMemory : List (Word × Instr) :=
  [(0x9E004002, .cbt 8 2), (0xA2004000, .cflush 8), (0x90281043, .ld 10 2 4 3), (0x94201020, .ldq 8 2 2 0),
   (0xA61C1540, .lda 7 2 5 1 0 0), (0x9C301061, .ldx 12 2 6 1), (0x96281020, .st 10 2 2),
   (0xA8144580, .stl 5 8 5 1 0), (0xA03010D0, .mcrd 12 2 13)]

theorem test_decode_memory : ∀ p ∈ wordsMemory, decodeWord p.1 = .ok p.2 := by decide +kernel

def wordsElements : List (Word × Instr) :=
  [(0x84102860, .coal 4 5 6 0), (0x7A502052, .dot8 20 4 5 2), (0x7E2048A1, .pack 8 9 10 0 1),
   (0x80201042, .unpkCb 8 2 4), (0x80183804, .unpk 6 7 0 1 0), (0x82102800, .tsta 4 5 0 0)]

theorem test_decode_elements : ∀ p ∈ wordsElements, decodeWord p.1 = .ok p.2 := by decide +kernel

def wordsFloating : List (Word × Instr) :=
  [(0x56102861, .fadd 4 5 6 1), (0x620C2052, .fcmp 3 4 5 0 2), (0x5C2048A0, .ffma 8 9 10 0),
   (0x6E183802, .fsqrt 6 7 0 2), (0x6A183810, .frcp 6 7 1 0), (0x64241821, .cvt 9 3 1 0 1),
   (0x66410002, .qnt 16 32 2), (0x66A00400, .qntHealth 40 0)]

theorem test_decode_floating : ∀ p ∈ wordsFloating, decodeWord p.1 = .ok p.2 := by decide +kernel

def wordsLanes : List (Word × Instr) :=
  [(0x8C285808, .rdx 10 11 8), (0x8E305810, .scan 12 11 1 0), (0x88102863, .shfl 4 5 6 3), (0x8A102802, .vote 4 5 2)]

theorem test_decode_lanes : ∀ p ∈ wordsLanes, decodeWord p.1 = .ok p.2 := by decide +kernel

def wordsSpecial : List (Word × Instr) :=
  [(0x1A00C281, .fmt 0xC281), (0x18001A04, .setx 3 1 4), (0x16000010, .win 16), (0xF2100013, .mfs 4 0x13),
   (0xF4002801, .mts 5 1)]

theorem test_decode_special : ∀ p ∈ wordsSpecial, decodeWord p.1 = .ok p.2 := by decide +kernel

def wordsMatrix : List (Word × Instr) :=
  [(0xD6185721, .dmma 6 10 114 1), (0xD4185142, .tmma 6 10 20 2), (0xD8203000, .tbnd 8 6 0),
   (0xDE000025, .tclr 0 1 5), (0xDE000043, .tclr 1 0 3), (0xDC50C091, .tdrn 20 24 4 1 1), (0xE0180140, .tstg 6 20),
   (0xE2206000, .ttbl 8 12)]

theorem test_decode_matrix : ∀ p ∈ wordsMatrix, decodeWord p.1 = .ok p.2 := by decide +kernel

def wordsTransfer : List (Word × Instr) :=
  [(0xEA5040A1, .grpl 20 8 10 1), (0xCC2080A2, .xcp 8 16 5 0 2), (0xCE248010, .xcpr 9 16 0 1 0),
   (0xD00880C0, .xqap 2 16 6 0), (0xD20C2000, .xwait 3 4), (0xD20C0001, .xwaitAll 3), (0xE8504001, .tsub 20 8 1)]

theorem test_decode_transfer : ∀ p ∈ wordsTransfer, decodeWord p.1 = .ok p.2 := by decide +kernel

def wordsSupervisor : List (Word × Instr) :=
  [(0xF8080000, .mapf 2 0), (0xFC000014, .spcfg 0 1 4), (0xF6002000, .tlbiPage 4), (0xF6000002, .tlbiAll)]

theorem test_decode_supervisor : ∀ p ∈ wordsSupervisor, decodeWord p.1 = .ok p.2 := by decide +kernel

/-! Terms that are no instruction, one for each way a check can fail (03 R53, R64, R65, R69, R72 and the entries). -/

theorem test_illFormed_atomics : ∀ i ∈ ([
    .aadd 6 2 7 3 0 0 0, .amin 6 2 5 0 1 0 0, .amax 6 2 5 1 0 1 1, .aand 112 2 5 1 0 0 0, .aor 6 119 5 1 0 0 0,
   .axor 6 2 7 0 0 0 0, .axch 6 2 5 0 1 0 0, .acas 6 2 7 0 0 0 0, .afadd 6 114 5 1 0 0 0, .jdec 5 8 5 2 0 1 0,
   .jdec 112 8 5 2 0 0 0, .prom 8 5 0, .prom 8 7 1, .amsg 112 16 0] : List Instr), i.wellFormed = false := by
  decide +kernel

theorem test_illFormed_control : ∀ i ∈ ([
    .bar 0 12, .bara 0 12, .braZ 120 5, .braZ 112 5, .brc 119 5, .call 120 5, .call 113 5, .loop 112 5, .ret 112] : List Instr), i.wellFormed = false := by
  decide +kernel

theorem test_illFormed_sync : ∀ i ∈ ([
    .fence 7 1, .mon 112 2 3 1 0 0, .mon 9 2 7 1 0 0, .mwait 112 1, .mwait 1 112, .waitp 6 6, .quiet 112 1 2 0,
   .quiet 1 112 2 0, .quiet 1 2 112 0, .qadjInjected 112 1, .qadjConsumed 1 112, .qadjClearLost 112 1,
   .qadjQueryToLost 1 112] : List Instr), i.wellFormed = false := by
  decide +kernel

theorem test_illFormed_values : ∀ i ∈ ([
    .dot8 1 2 3 3, .dot4 1 2 3 3, .fcmp 1 2 3 0 7, .fmt 0x00C, .fmt 0x0C0, .fmt 0x3000, .iadd 1 2 3 3, .iadd 1 2 3 5,
   .isub 1 2 3 8, .imul 1 2 3 2, .imulh 1 2 3 4, .imad 1 2 3 2, .imin 1 2 3 2, .imax 1 2 3 2, .lea 2 4 6 0 5,
   .rdx 1 2 6, .rdx 1 2 12, .scan 1 2 0 7, .shfl 1 112 3 0, .vote 1 2 5] : List Instr), i.wellFormed = false := by
  decide +kernel

theorem test_illFormed_memory : ∀ i ∈ ([
    .lda 7 2 7 1 0 0, .stl 5 8 7 1 0, .mcrd 112 2 3, .mcrd 1 112 3, .mcrd 1 2 112] : List Instr), i.wellFormed = false := by
  decide +kernel

theorem test_illFormed_special : ∀ i ∈ ([
    .mfs 112 0, .mfs 1 0x17, .mts 112 0, .mts 1 0x17, .win 4, .win 512, .qnt 112 32 0, .qnt 16 112 0,
   .qntFix 124 32 0, .qntHealth 112 0, .qntHealth 121 0] : List Instr), i.wellFormed = false := by
  decide +kernel

theorem test_illFormed_engines : ∀ i ∈ ([
    .tcfg 0 0 0 0 8, .tclr 0 0 8, .tclr 1 1 5, .grpl 112 1 2 0, .grpl 1 112 2 0, .grpl 1 2 112 0, .xcp 112 1 5 0 0,
   .xcp 1 112 5 0 0, .xcp 1 2 5 1 0, .xcpr 112 1 0 0 0, .xcpr 1 2 5 1 0, .xqap 112 1 6 0, .xqap 1 2 6 1,
   .xwait 112 1, .xwait 1 112, .xwaitAll 112] : List Instr), i.wellFormed = false := by
  decide +kernel

theorem test_illFormed_supervisor : ∀ i ∈ ([
    .mapf 112 0, .mapf 2 112, .spcfg 0 1 9] : List Instr), i.wellFormed = false := by
  decide +kernel

/-! Single steps, against the results that the spec works out in its own examples. -/

/-- Register v[k] of a lane of the first gang after the next step, when the machine goes on. -/
def vAfter (k lane : Nat) (s : State) : Option Nat :=
  match step s with
  | .next t => (t.crews.head?.bind fun c => c.gangs.head?).bind fun g => g.lanes[lane]?.map fun ln => (tabGet ln.v k 0).toNat
  | .fault _ => none
  | .refused _ => none

/-- The words of a lone gang with two source registers, under an FMT. -/
def run (i : Instr) (v2 v3 : Nat) (fmt : Word := 0) : State :=
  withSlices (fun sl => { sl with fmt := fmt }) (withV 3 (fun _ => v3) (withV 2 (fun _ => v2) (ground i)))

/-- 15 R344. -/
theorem test_bfx_signed : vAfter 1 0 (run (.bfx 1 2 3 1) 0xDEADBEEF (8 + 12 * 32)) = some 0xFFFFFDBE := by decide +kernel

/-- 15 R344: d is read as well. -/
theorem test_bfi : vAfter 2 7 (run (.bfi 2 4 3) 0xFFFFFFFF (4 + 4 * 32) |> withV 4 fun _ => 5) = some 0xFFFFFF5F := by
  decide +kernel

/-- 15 R354. -/
theorem test_clz_zero : vAfter 1 0 (run (.clz 1 2 0) 0 0) = some 32 := by decide +kernel

/-- 16 R379. -/
theorem test_iadd_wraps : vAfter 1 0 (run (.iadd 1 2 3 0) 0x7FFFFFF0 0x20) = some 0x80000010 := by decide +kernel

/-- 16 R379: the least number is never produced. -/
theorem test_iadd_saturates : vAfter 1 0 (run (.iadd 1 2 3 1) 0x80000001 0xFFFFFFFF) = some 0x80000001 := by decide +kernel

/-- 16 R379. -/
theorem test_imulh_signed : vAfter 1 0 (run (.imulh 1 2 3 0) 0x80000000 2) = some 0xFFFFFFFF := by decide +kernel

/-- 16 R379. -/
theorem test_imulh_unsigned : vAfter 1 0 (run (.imulh 1 2 3 1) 0x80000000 2) = some 1 := by decide +kernel

/-- 16 R380: the immediate is signed. -/
theorem test_iaddi_negative : vAfter 1 0 (run (.iaddi 1 2 0x7FF) 0 0) = some 0xFFFFFFFF := by decide +kernel

/-- 16 R381: an absent operand makes every condition false. -/
theorem test_icmp_absent : vAfter 1 0 (run (.icmp 1 2 3 1 2) 0x80000000 5 0x4000) = some 0 := by decide +kernel

/-- 16 R381: without the modifier the code is the least number. -/
theorem test_icmp_least : vAfter 1 0 (run (.icmp 1 2 3 0 2) 0x80000000 5 0x4000) = some 1 := by decide +kernel

/-- 16 R388: LANE scaled by four and added to a pair. -/
theorem test_lea_lane : vAfter 0 5 (run (.lea 0 2 121 0 2) 0 0x100) = some 0x14 := by decide +kernel

/-- 16 R391. -/
theorem test_lui : vAfter 5 0 (run (.lui 5 0xFE00) 0 0) = some 0x3F800000 := by decide +kernel

/-- 17 R425: a count of 32 or more leaves no bit. -/
theorem test_shl_long : vAfter 1 0 (run (.shl 1 2 3) 0xFFFFFFFF 40) = some 0 := by decide +kernel

/-- 18 R428. -/
theorem test_sra_long : vAfter 1 0 (run (.sra 1 2 3) 0x80000010 40) = some 0xFFFFFFFF := by decide +kernel

/-- 16 R367: halfway cases round away from zero. -/
theorem test_fadd_halfway : vAfter 1 0 (run (.fadd 1 2 3 0) 0x3F800000 0x33800000) = some 0x3F800001 := by decide +kernel

/-- 16 R369: an absent element stays absent while ABSENT is 1. -/
theorem test_fadd_absent : vAfter 1 0 (run (.fadd 1 2 3 1) 0x3F804000 0xFFFF3F80 0x4000) = some 0xFFFF4040 := by decide +kernel

/-- 16 R369: and is a NaN while it is 0. -/
theorem test_fadd_nan : vAfter 1 0 (run (.fadd 1 2 3 1) 0x3F804000 0xFFFF3F80) = some 0x7FC04040 := by decide +kernel

/-- 17 R405. -/
theorem test_pack_hi : vAfter 1 0 (run (.pack 1 2 3 0 1) 0x44332211 0x88776655 0x81) = some 0x88774433 := by decide +kernel

/-- 18 R451. -/
theorem test_unpk_signed : vAfter 1 0 (run (.unpk 1 2 0 1 0) 0x4433F211 0 0x81) = some 0xFFF20011 := by decide +kernel

/-- 17 R399. -/
theorem test_mkab : vAfter 1 0 (run (.mkab 1 2 3 0 0) 0x40403F80 2 0x60) = some 0xFFFF3F80 := by decide +kernel

/-- 18 R444. -/
theorem test_tsta : vAfter 1 0 (run (.tsta 1 2 0 0) 0xFFFF3F80 0 0x4060) = some 2 := by decide +kernel

/-- 18 R452: code 10 of the stream crosses the words of the pair. -/
theorem test_unpkCb : vAfter 1 0 (withGangs (fun g => { g with palette := 0xFFFF40C040A04080404040003F800000 })
    (withV 4 (fun _ => 30) (run (.unpkCb 1 2 4) 0x40000000 0xF 0x406A))) = some 0xFFFF40A0 := by decide +kernel

/-- 18 R453: in the ballot bit i is lane i. -/
theorem test_vote_ballot : vAfter 4 0 (withV 2 (fun l => if l = 3 then 1 else 0) (run (.vote 4 2 2) 0 0)) = some 8 := by
  decide +kernel

/-- 17 R424: every lane reads the lane whose number differs in the given bits. -/
theorem test_shfl_xor : vAfter 1 5 (withV 2 (fun l => l) (run (.shfl 1 2 3 3) 0 1)) = some 4 := by decide +kernel

/-- 03 R50: field 120 reads as zero. -/
theorem test_zero_reads : vAfter 1 0 (run (.iaddi 1 120 5) 0 0) = some 5 := by decide +kernel

/-- 14 R327 takes SHA-256 as published: the digest of "abc" in FIPS 180-4. -/
theorem test_sha256 : leValue ((sha256 [0x61, 0x62, 0x63]).reverse) =
    0xba7816bf8f01cfea414140de5dae2223b00361a396177a9cb410ff61f20015ad := by decide +kernel

end Sys2Proof.Tests
end

section
/-! Reset and bring-up (14 R323 to R325; 01 R16): what each step of the device's states does, and that O40 holds. -/

namespace Sys2Proof.Machine
open Sys2Proof

variable (s : State)

/-! ### Heat after a reset (12 R298, R299) -/

/-- What is off begins exactly at its threshold. -/
theorem hysteresis_off (limit celsius : Nat) : hysteresis false limit celsius = decide (limit ≤ celsius) := by
  by_cases h : limit ≤ celsius <;> simp [hysteresis, h]

theorem mapIdx_replicate_eq_tabulate {α β : Type} (n : Nat) (a : α) (f : Nat → α → β) :
    (List.replicate n a).mapIdx f = tabulate n fun k => f k a := by
  apply List.ext_getElem
  · simp [tabulate]
  · intro k _ _
    simp [tabulate]

/-- What is off in every stack is on, after the readings act, exactly where they reach its threshold. -/
theorem mapIdx_hysteresis_off (n limit : Nat) (heat : Nat → Nat) :
    ((List.replicate n false).mapIdx fun k b => hysteresis b limit (heat k)) = tabulate n fun k => decide (limit ≤ heat k) := by
  simp only [mapIdx_replicate_eq_tabulate, hysteresis_off]

/-- At the reset values of the thresholds, 85 °C and 95 °C, and with nothing yet begun, the readings alone decide. -/
theorem State.reheat_of_reset_values (hth : s.thermal = State.reset.thermal)
    (hfast : s.fastRefresh = State.reset.fastRefresh) (hslow : s.throttled = State.reset.throttled) :
    s.reheat = { s with
      fastRefresh := tabulate 8 fun k => decide (85 ≤ s.heat k), throttled := tabulate 8 fun k => decide (95 ≤ s.heat k) } := by
  have h85 : bitsOf s.thermal 0 8 = 85 := by rw [hth]; decide
  have h95 : bitsOf s.thermal 8 8 = 95 := by rw [hth]; decide
  have hoff : State.reset.fastRefresh = List.replicate 8 false ∧ State.reset.throttled = List.replicate 8 false := ⟨rfl, rfl⟩
  rw [State.reheat, h85, h95, hfast, hslow, hoff.1, hoff.2, mapIdx_hysteresis_off, mapIdx_hysteresis_off]

/-! ### The two resets (14 R323) -/

theorem exec_powerOnReset : exec .powerOnReset s = .next s.resetRegisters := rfl

/-- RESET keeps the bytes and marks of HBM, the staging area, the readings and the host links, and the readings say at
once which stacks refresh faster and which are throttled. -/
theorem exec_reset : exec .reset s = .next { s.resetRegisters with
    hbm := s.hbm, poisonPas := s.poisonPas, undelivPas := s.undelivPas, damage := s.damage
    staging := s.staging, staged := s.staged, temps := s.temps, linkUp := s.linkUp
    fastRefresh := tabulate 8 fun k => decide (85 ≤ s.heat k), throttled := tabulate 8 fun k => decide (95 ≤ s.heat k) } :=
  congrArg Host.Outcome.next (State.reheat_of_reset_values _ rfl rfl rfl)

/-! ### From RESET to READY (14 R323, R325) -/

variable {s}

theorem exec_resetDone (h : s.device = .reset) : exec .resetDone s = .next { s with device := .boot, clock := 0 } :=
  congrArg Host.Outcome.next (if_pos h)

theorem exec_bootVerify (h : s.device = .boot) : exec .bootVerify s =
    .next (if s.imageOk 0 && s.imageOk 1 then
      { s with
        device := .training, fwVersion := s.headerField 0 1 3
        fwHash := sha256 (s.imageBody 0), ucodeHash := sha256 (s.imageBody 1) }
      else { s with device := .recovery }) :=
  congrArg Host.Outcome.next (if_neg (not_not_intro h))

/-- No image that the boot ROM accepts is older than ROLLBACK_MIN. -/
theorem State.rollbackMin_le_of_imageOk {k : Nat} (h : s.imageOk k = true) : s.rollbackMin ≤ s.headerField k 1 3 :=
  of_decide_eq_true (Bool.and_eq_true_iff.mp h).2

/-- Training is left to READY, with the stacks that failed declared lost. -/
theorem exec_trainingDone (h : s.device = .training) (failed : Nat) : exec (.trainingDone failed) s =
    .next (((List.range 8).filter failed.testBit).foldl (fun s k => s.loseStack k 1) { s with device := .ready }) :=
  congrArg Host.Outcome.next (if_neg (not_not_intro h))

theorem filter_testBit_zero : (List.range 8).filter (Nat.testBit 0) = [] := by decide

theorem filter_testBit_two_pow : ∀ n < 8, (List.range 8).filter (2 ^ n).testBit = [n] := by decide

/-! ### FATAL (01 R16; 14 R324) -/

theorem State.enterFatal_of_ne (h : s.device ≠ .fatal) (cause : Nat) :
    s.enterFatal cause = { s with device := .fatal, fatalCause := cause } := if_neg h

/-- The first cause of FATAL stands. -/
theorem State.enterFatal_of_fatal (h : s.device = .fatal) (cause : Nat) : s.enterFatal cause = s := if_pos h

theorem exec_bridgeRetryFail {segment : Nat} (h : segment < 6) : exec (.bridgeRetryFail segment) s = .next (s.enterFatal 1) :=
  congrArg Host.Outcome.next (if_pos h)

theorem exec_internalParityError : exec .internalParityError s = .next (s.enterFatal 3) := rfl

end Sys2Proof.Machine
end

section
open Sys2Proof Sys2Proof.Machine

/-- Settles O40, step by step: the resets, the three steps from RESET to READY, the two that enter FATAL. -/
theorem deviceComesUp : Obligations.DeviceComesUp := by
  refine ⟨fun s => ⟨exec_powerOnReset s, exec_reset s⟩, fun s => exec_resetDone, fun s hboot => ⟨exec_bootVerify hboot, ?_⟩,
    fun s htr => ?_, fun s n htr hn _ => ?_, fun s hne => ⟨fun segment hseg => ?_, ?_⟩, fun s hfatal => ?_⟩
  · cases hok : s.imageOk 0 with
    | false => exact .inl rfl
    | true => exact .inr (State.rollbackMin_le_of_imageOk hok)
  · rw [exec_trainingDone htr, filter_testBit_zero, List.foldl_nil]
  · rw [exec_trainingDone htr, filter_testBit_two_pow n hn, List.foldl_cons, List.foldl_nil]
  · rw [exec_bridgeRetryFail hseg, State.enterFatal_of_ne hne]
  · rw [exec_internalParityError, State.enterFatal_of_ne hne]
  · rw [exec_internalParityError, State.enterFatal_of_fatal hfatal]

end

section
/-! The issuing thread (02 R21, R25): its crew, its member, its party's slices and its active lanes. -/

namespace Sys2Proof.Machine
open Sys2Proof

variable {s : State} {c : Ctx}

theorem State.crew?_id {id : Nat} {k : Crew} (h : s.crew? id = some k) : k.id = id := by
  simpa using List.find?_some h

/-- The thread that `cur` names: its crew, its member and its party. -/
theorem State.issuer?_eq_some (h : s.issuer? = some c) :
    s.crew? c.crew.id = some c.crew ∧ c.crew.member? c.member = some c.gang ∧ c.sls = c.gang.partySlices c.party ∧
      c.lanes = c.gang.activeLanes c.sls := by
  simp only [State.issuer?, Option.bind_eq_bind, Option.bind_eq_some_iff] at h
  obtain ⟨k, hk, g, hg, h⟩ := h
  split at h
  · cases h
  · cases h
    exact ⟨by rw [State.crew?_id hk]; exact hk, hg, rfl, rfl⟩

theorem Gang.mem_partySlices {g : Gang} {p i : Nat} :
    i ∈ g.partySlices p ↔ i < g.slices.length ∧ (g.slice i).finished = false ∧ (g.slice i).party = p := by
  simp [Gang.partySlices]

theorem Gang.nodup_partySlices (g : Gang) (p : Nat) : (g.partySlices p).Nodup := List.nodup_range.filter _

/-- A lane is active in some slices when it belongs to one of them, whose mask has its bit. -/
theorem Gang.mem_activeLanes {g : Gang} {is : List Nat} {l : Nat} :
    l ∈ g.activeLanes is ↔ l / 4 ∈ is ∧ (g.slice (l / 4)).mask.getLsbD (l % 4) = true := by
  simp only [Gang.activeLanes, List.mem_flatMap, List.mem_map, List.mem_filter, List.mem_range]
  constructor
  · rintro ⟨i, hi, k, ⟨hk, hm⟩, rfl⟩
    rw [show (4 * i + k) / 4 = i by omega, show (4 * i + k) % 4 = k by omega]
    exact ⟨hi, hm⟩
  · rintro ⟨hi, hm⟩
    exact ⟨l / 4, hi, l % 4, ⟨Nat.mod_lt _ (by decide), hm⟩, Nat.div_add_mod l 4⟩

theorem Gang.nodup_activeLanes (g : Gang) {is : List Nat} (h : is.Nodup) : (g.activeLanes is).Nodup := by
  refine List.nodup_flatMap.2 ⟨fun i _ => ?_, h.imp fun hne => ?_⟩
  · exact (List.nodup_range.filter _).map fun a b hab => by omega
  · intro l hl hl'
    simp only [List.mem_map, List.mem_filter, List.mem_range] at hl hl'
    obtain ⟨k, ⟨hk, _⟩, rfl⟩ := hl
    obtain ⟨k', ⟨hk', _⟩, heq⟩ := hl'
    omega

/-- The slice of an active lane is one of the party's, and has an active lane. -/
theorem Ctx.slice_of_mem_lanes (h : s.issuer? = some c) {l : Nat} (hl : l ∈ c.lanes) :
    l / 4 ∈ c.sls ∧ (c.gang.slice (l / 4)).mask ≠ 0 := by
  obtain ⟨-, -, -, hlanes⟩ := State.issuer?_eq_some h
  obtain ⟨hi, hm⟩ := Gang.mem_activeLanes.1 (hlanes ▸ hl)
  exact ⟨hi, fun h0 => by simp [h0] at hm⟩

theorem Ctx.nodup_lanes (h : s.issuer? = some c) : c.lanes.Nodup := by
  obtain ⟨-, -, hsls, hlanes⟩ := State.issuer?_eq_some h
  rw [hlanes]
  exact Gang.nodup_activeLanes _ (hsls ▸ Gang.nodup_partySlices _ _)

/-! ### Writing a result -/

@[simp] theorem State.writeField_issued (s : State) (c : Ctx) (use : Slice → Use) (vals : List Nat) :
    (s.writeField c use vals).issued = s.issued := by
  unfold State.writeField
  split
  · dsimp only
    split <;> rfl
  · rfl

end Sys2Proof.Machine
end

section
/-! Instruction words under the hypotheses of their statements (03 R73): a word that issues does what its body says, and the
words that write a result at once have one body. -/

namespace Sys2Proof.Claim
open Sys2Proof Sys2Proof.Machine

/-! ### The checks (03 R73) -/

/-- A word that is admitted passes the checks of 03 R73. -/
theorem check_of_admits {c : Ctx} {i : Instr} (h : Admits c i) : c.check i (needs i) = .ok () := by
  obtain ⟨hwf, hbad, hkind, hhandler, hlegal, hfeat, hknown, hdeclared, hpriv, hbound, hfmt⟩ := h
  refine (check_ok_iff c i (needs i)).2 ⟨?_, List.all_eq_true.2 hfeat, ?_, ?_, ?_, ?_, ?_, List.all_eq_true.2 hfmt⟩
  · simp only [hwf, hbad, hkind, Bool.not_false, Bool.and_self, Bool.true_and, Bool.and_eq_true, Bool.not_eq_true',
      Bool.and_eq_false_iff, List.all_eq_true, Ctx.allUses, List.mem_flatMap]
    refine ⟨?_, fun u ⟨k, hk, hu⟩ => hlegal k hk u hu⟩
    cases hn : (needs i).noHandler with
    | false => exact .inl rfl
    | true => exact .inr (hhandler hn)
  · exact (Option.all_eq_true _ _).2 fun t ht => by simpa using hknown t ht
  · exact (Option.all_eq_true _ _).2 fun t ht => by simpa using hdeclared t ht
  · rcases hpriv with hin | ⟨hout, hsup⟩
    · simp [hin]
    · cases hp : (needs i).priv <;> simp_all
  · exact List.all_eq_true.2 fun k hk => List.all_eq_true.2 fun u hu => (hbound k hk u hu).1
  · simp only [Ctx.allUses, List.all_eq_true, List.mem_flatMap, Bool.or_eq_true, Bool.not_eq_true']
    rintro u ⟨k, hk, hu⟩
    cases hq : u.isQueue with
    | false => exact .inl rfl
    | true => exact .inr ((hbound k hk u hu).2 hq)

section
variable {s s' t : State} {c : Ctx} {i : Instr} {args : List (List Nat)}
  {body : Ctx → List (List Nat) → State → Except Stop State}

/-- A word that issues does what its body says of its operands. -/
theorem Issues.runOp_eq (h : Issues s c i args s') :
    runOp i (needs i) body s = s.outcome c (opcodeOf i) (body c args s') :=
  runOp_body body h.live (check_of_admits h.admitted) h.ready h.fetched h.room

/-- A word that issues completes where its body does. -/
theorem Issues.runOp_ok (h : Issues s c i args s') (hbody : body c args s' = .ok t) :
    runOp i (needs i) body s = .next t := by
  rw [h.runOp_eq, hbody, State.outcome_ok]

/-- A word that issues and is not ready changes nothing. -/
theorem Issues.runOp_wait (h : Issues s c i args s') (hbody : body c args s' = .error .wait) :
    runOp i (needs i) body s = .next s := by
  rw [h.runOp_eq, hbody, State.outcome_wait]

end

section
variable {α : Type} {b : Bool}

/-- A check that its condition meets lets the rest run. -/
theorem need_bind (h : b = true) (k : Cause) (f : Unit → Except Stop α) : (need b k >>= f) = f () := by
  subst h; rfl

/-- Readiness that holds lets the rest run. -/
theorem ready_bind (h : b = true) (f : Unit → Except Stop α) : (ready b >>= f) = f () := by
  subst h; rfl

/-- What is not ready waits. -/
theorem ready_bind_wait (h : b = false) (f : Unit → Except Stop α) : (ready b >>= f) = .error .wait := by
  subst h; rfl

end

/-! ### Words that write a result at once -/

/-- What a word that writes a result at once does with its operands; QSTAT of a queue without a port takes QUEUE (17 R414). -/
def resultBody (i : Instr) (c : Ctx) (args : List (List Nat)) (s : State) : Except Stop State :=
  match resultOf c s args i with
  | some (dst, vals) => .ok ((s.writeField c dst vals).retireNext c)
  | none => .error (.of .queue)

theorem resultBody_of_resultOf {i : Instr} {c : Ctx} {args : List (List Nat)} {s : State} {dst : Slice → Use}
    {vals : List Nat} (h : resultOf c s args i = some (dst, vals)) :
    resultBody i c args s = .ok ((s.writeField c dst vals).retireNext c) := by
  simp only [resultBody, h]

/-- IADD and ISUB have two forms, which name operands of different width. -/
theorem addSub_eq_runOp {i : Instr} {d a b : BitVec 7} {f : BitVec 4} {g : Int → Int → Int} (s : State)
    (hneeds : needs i = addNeeds d a b f)
    (hres : ∀ c s args, resultOf c s args i =
      if f.toNat = 4 then some (fun _ => .dst64 d, c.perLane args (f2 fun x y => (g x y % 2 ^ 64).toNat))
      else some (fun _ => .dst d,
        c.perLane args (f2 fun x y => narrowSum f.toNat (g (signedOf 32 x) (signedOf 32 y)) (g x y)))) :
    addSub i d a b f.toNat g s = runOp i (needs i) (resultBody i) s := by
  rw [hneeds]
  unfold resultBody
  simp only [hres]
  by_cases hf : f.toNat = 4
  · simp only [addSub, addNeeds, if_pos hf]
    rfl
  · simp only [addSub, addNeeds, if_neg hf]
    rfl

theorem resultOf_qstat (c : Ctx) (s : State) (args : List (List Nat)) (d : BitVec 7) (n : BitVec 3) :
    resultOf c s args (.qstat d n) = (if c.gang.isSeq then some n.toNat else c.gang.qbind.getD n.toNat none).map fun p =>
      (fun _ => .dst d, c.lanes.map fun _ => (s.port c.crew.cluster p).status) := rfl

theorem exec_qstat (d : BitVec 7) (n : BitVec 3) (s : State) :
    exec (.qstat d n) s = runOp (.qstat d n) (needs (.qstat d n)) (resultBody (.qstat d n)) s := by
  change execQstat d n s = runOp _ { uses := fun _ => [.dst d] } _ s
  unfold execQstat
  congr 1
  funext c args s
  simp only [resultBody, resultOf_qstat]
  cases (if c.gang.isSeq then some n.toNat else c.gang.qbind.getD n.toNat none) <;> rfl

/-- Every word that writes a result at once runs as `resultBody` says. -/
theorem exec_of_resultOf {c : Ctx} {s' : State} {args : List (List Nat)} {i : Instr} {r : (Slice → Use) × List Nat}
    (h : resultOf c s' args i = some r) (s : State) : exec i s = runOp i (needs i) (resultBody i) s := by
  cases i with
  | and | andi | or | ori | xor | xori | shl | shr | shli | shri | sra | bfx | bfi | clz | popc | imul | imulh | imad
  | imin | imax | iaddi | icmp | lea | lui | sel | coal | mkab | tsta | pack | unpk | unpkCb | dot8 | dot4 | fadd | fsub
  | fmul | fmin | fmax | ffma | fcmp | shfl | vote | rdx | scan | mfs => rfl
  | iadd d a b f => exact addSub_eq_runOp s rfl fun _ _ _ => rfl
  | isub d a b f => exact addSub_eq_runOp s rfl fun _ _ _ => rfl
  | qstat d n => exact exec_qstat d n s
  | _ => cases h

end Sys2Proof.Claim
end

section
open Sys2Proof Sys2Proof.Machine Sys2Proof.Claim

/-- Settles O1: each word is `runOp` of its result, and a word that issues does what its body says. -/
theorem registerResultsComplete : Obligations.RegisterResultsComplete :=
  fun s _ _ _ _ _ _ h hres => (exec_of_resultOf hres s).trans (h.runOp_ok (resultBody_of_resultOf hres))

end

section
/-! Words that steer their party or set a mode (02 R22 to R28; 16 R390; 17 R398): each moves the party's slices once its
checks pass. -/

namespace Sys2Proof.Claim
open Sys2Proof Sys2Proof.Machine

variable {s s' : State} {c : Ctx} {args : List (List Nat)}

/-! ### Branches -/

theorem exec_brc {r : BitVec 7} {o : BitVec 18} (h : Issues s c (.brc r o) args s')
    (hroom : (c.sls.all fun i => !(c.gang.slice i).mixed (c.trueMask (args.getD 0 []) i) ||
      (c.gang.slice i).stack.length < 32) = true) :
    exec (.brc r o) s = .next (moved s' c fun i sl =>
      sl.brc (c.trueMask (args.getD 0 []) i) (c.base + 4 * o.signExtend 64)) := by
  change execBrc r o s = _
  exact h.runOp_ok (need_bind hroom _ _)

/-- RET goes where its targets are addresses of instructions in the global aperture (17 R420). -/
theorem exec_ret {a : BitVec 7} (h : Issues s c (.ret a) args s')
    (hok : ((c.sls.filterMap (c.retTarget (args.getD 0 []))).all fun t => natBits t 56 8 == 0 && t % 4 == 0) = true) :
    exec (.ret a) s = .next (moved s' c (retMove c (args.getD 0 []))) := by
  simp only [List.all_eq_true, Bool.and_eq_true, beq_iff_eq] at hok
  have hglobal : ((c.sls.filterMap (c.retTarget (args.getD 0 []))).any fun t => natBits t 56 8 ≠ 0) = false :=
    List.any_eq_false.2 fun t ht => by simp [(hok t ht).1]
  have halign : ((c.sls.filterMap (c.retTarget (args.getD 0 []))).any fun t => t % 4 ≠ 0) = false :=
    List.any_eq_false.2 fun t ht => by simp [(hok t ht).2]
  change execRet a s = _
  refine h.runOp_ok ?_
  simp only [hglobal, halign]
  rfl

/-! ### The reconvergence stack -/

theorem exec_rcp {o : BitVec 18} (h : Issues s c (.rcp o) args s')
    (hroom : (c.sls.all fun i => (c.gang.slice i).stack.length < 32) = true) :
    exec (.rcp o) s = .next (moved s' c fun _ => rcpMove (c.base + 4 * o.signExtend 64)) := by
  change execRcp o s = _
  exact h.runOp_ok (need_bind hroom _ _)

theorem joinOk_iff (base : Double) (es : List StackEntry) :
    joinOk base es = true ↔ (!es.isEmpty) = true ∧ (match es with
      | e :: _ => e.isPath || e.pc == base
      | [] => true) = true := by
  cases es <;> simp [joinOk]

theorem exec_join (h : Issues s c .join args s')
    (hok : (c.sls.all fun i => joinOk c.base (c.gang.slice i).stack) = true) :
    exec .join s = .next (moved s' c fun _ sl => sl.join) := by
  simp only [List.all_eq_true, joinOk_iff] at hok
  change execJoin s = _
  refine h.runOp_ok ((need_bind (List.all_eq_true.2 fun i hi => (hok i hi).1) _ _).trans ?_)
  exact need_bind (List.all_eq_true.2 fun i hi => (hok i hi).2) _ _

/-! ### Loops and modes -/

theorem loopFits_iff (last : Double) (rs : List LoopRec) : loopFits last rs = true ↔ (match rs with
      | r :: _ => decide (last.toNat ≤ r.last.toNat)
      | [] => true) = true := by
  cases rs <;> rfl

/-- LOOP begins, in each slice whose count is not 0, a body that lies inside the innermost one, at a depth below three
(16 R389). -/
theorem exec_loop {r : BitVec 7} {n : BitVec 8} (h : Issues s c (.loop r n) args s')
    (hok : (c.sls.all fun i => (c.firstOf (args.getD 0 []) i).getD 0 == 0 || ((c.gang.slice i).loops.length < 3 &&
      loopFits (c.base + 4 * BitVec.ofNat 64 (n.toNat + 1)) (c.gang.slice i).loops)) = true) :
    exec (.loop r n) s = .next (moved s' c fun i sl => sl.loop ((c.firstOf (args.getD 0 []) i).getD 0) n.toNat) := by
  have hstart : ∀ i ∈ c.sls.filter fun i => (c.firstOf (args.getD 0 []) i).getD 0 ≠ 0, (c.gang.slice i).loops.length < 3 ∧
      loopFits (c.base + 4 * BitVec.ofNat 64 (n.toNat + 1)) (c.gang.slice i).loops = true := by
    intro i hi
    have := List.all_eq_true.1 hok i (List.mem_filter.1 hi).1
    simp_all
  simp only [loopFits_iff] at hstart
  change execLoop r n s = _
  refine h.runOp_ok ((need_bind (List.all_eq_true.2 fun i hi => (hstart i hi).2) _ _).trans ?_)
  exact need_bind (List.all_eq_true.2 fun i hi => decide_eq_true (hstart i hi).1) _ _

theorem exec_setx {a : BitVec 7} {w : BitVec 1} {o : BitVec 9} (h : Issues s c (.setx a w o) args s')
    (hok : ((firstArg c args 0).all fun v => v + o.toNat ≤ 511) = true) :
    exec (.setx a w o) s = .next (moved s' c fun _ => setxMove w ((firstArg c args 0).map (· + o.toNat))) := by
  change execSetx a w o s = _
  refine h.runOp_ok ?_
  change (match firstArg c args 0 with | none => _ | some v => _) = _
  cases hv : firstArg c args 0 with
  | none => rfl
  | some v =>
    rw [hv] at hok
    exact need_bind hok _ _

/-! ### MTS (17 R398) -/

/-- What MTS writes beside its slices: the TADDR of each active lane of a gang, or the crew's ASID register. -/
def mtsShared (s : State) (c : Ctx) (n : Nat) (vals : List Nat) : State :=
  let s := if n = 0x10 && !c.gang.isSeq then
      s.mapIssuer c fun g => (c.lanes.zip vals).foldl (fun g (l, v) => g.mapLane l fun ln => { ln with taddr := BitVec.ofNat 64 v }) g
    else s
  match c.firstVal vals with
  | some v => if n = 0x16 then s.mapCrew c.crew.id fun k => { k with hasid := BitVec.ofNat 32 v } else s
  | none => s

theorem exec_mts {a : BitVec 7} {n : BitVec 5} (h : Issues s c (.mts a n) args s')
    (hok : (c.sls.all fun i => (c.mtsValue n.toNat (args.getD 0 []) i).all fun v => specialOk n.toNat (c.gang.slice i) v) = true) :
    exec (.mts a n) s = .next (moved (mtsShared s' c n.toNat (args.getD 0 [])) c fun i =>
      mtsMove n.toNat (c.mtsValue n.toNat (args.getD 0 []) i)) := by
  have hmatch : (c.sls.all fun i => match c.mtsValue n.toNat (args.getD 0 []) i with
      | some v => specialOk n.toNat (c.gang.slice i) v
      | none => true) = true := by
    simp only [List.all_eq_true] at hok ⊢
    intro i hi
    have := hok i hi
    cases hv : c.mtsValue n.toNat (args.getD 0 []) i with
    | none => rfl
    | some v => rwa [hv] at this
  change execMts a n s = _
  exact h.runOp_ok (need_bind hmatch _ _)

theorem mtsShared_of_slice_register {n : Nat} (hlane : n ≠ 0x10 ∨ c.gang.isSeq = true) (hasid : n ≠ 0x16) (vals : List Nat) :
    mtsShared s c n vals = s := by
  have hl : (n = 0x10 && !c.gang.isSeq) = false := by
    rcases hlane with hn | hseq
    · simp [hn]
    · simp [hseq]
  unfold mtsShared
  simp only [hl, hasid, if_false, Bool.false_eq_true]
  split <;> rfl

theorem mtsShared_taddr (hgang : c.gang.isSeq = false) (vals : List Nat) :
    mtsShared s c 0x10 vals = s.mapIssuer c fun g => (c.lanes.zip vals).foldl
      (fun g (l, v) => g.mapLane l fun ln => { ln with taddr := BitVec.ofNat 64 v }) g := by
  unfold mtsShared
  simp only [hgang]
  split <;> rfl

theorem mtsShared_asid {vals : List Nat} {v : Nat} (hv : c.firstVal vals = some v) :
    mtsShared s c 0x16 vals = s.mapCrew c.crew.id fun k => { k with hasid := BitVec.ofNat 32 v } := by
  unfold mtsShared
  simp only [hv]
  rfl

/-- An MTS to TADDR or ASID writes nothing that a slice holds. -/
theorem mtsMove_of_shared {n : Nat} (hn : n = 0x10 ∨ n = 0x16) (v : Option Nat) (sl : Slice) : mtsMove n v sl = sl.advance := by
  rcases hn with rfl | rfl <;> cases v <;> rfl

theorem moved_mtsMove_of_shared {n : Nat} (hn : n = 0x10 ∨ n = 0x16) (s : State) (c : Ctx) (vs : Nat → Option Nat) :
    moved s c (fun i => mtsMove n (vs i)) = s.retireNext c := by
  have hmove : (fun i => mtsMove n (vs i)) = fun _ => Slice.advance :=
    funext fun i => funext fun sl => mtsMove_of_shared hn (vs i) sl
  rw [hmove]
  rfl

/-! ### All of them -/

/-- A word that only steers its party or sets a mode moves the party's slices. -/
theorem exec_of_moveOf {i : Instr} {f : Nat → Slice → Slice} (h : Issues s c i args s')
    (hm : moveOf c args i = some (true, f)) : exec i s = .next (moved s' c f) := by
  cases i with
  | nop =>
    cases hm
    change execNop s = _
    exact h.runOp_ok rfl
  | bra o =>
    cases hm
    change execBra o s = _
    exact h.runOp_ok rfl
  | braZ r o =>
    cases hm
    change execBraZ r o s = _
    exact h.runOp_ok rfl
  | fmt i =>
    cases hm
    change execFmt i s = _
    exact h.runOp_ok rfl
  | win i =>
    cases hm
    change execWin i s = _
    exact h.runOp_ok rfl
  | brc r o =>
    obtain ⟨hok, rfl⟩ := Prod.mk.inj (Option.some.inj hm)
    exact exec_brc h hok
  | ret a =>
    obtain ⟨hok, rfl⟩ := Prod.mk.inj (Option.some.inj hm)
    exact exec_ret h hok
  | rcp o =>
    obtain ⟨hok, rfl⟩ := Prod.mk.inj (Option.some.inj hm)
    exact exec_rcp h hok
  | join =>
    obtain ⟨hok, rfl⟩ := Prod.mk.inj (Option.some.inj hm)
    exact exec_join h hok
  | loop r n =>
    obtain ⟨hok, rfl⟩ := Prod.mk.inj (Option.some.inj hm)
    exact exec_loop h hok
  | setx a w o =>
    obtain ⟨hok, rfl⟩ := Prod.mk.inj (Option.some.inj hm)
    exact exec_setx h hok
  | mts a n =>
    obtain ⟨hok, rfl⟩ := Prod.mk.inj (Option.some.inj hm)
    simp only [Bool.and_eq_true, Bool.or_eq_true, decide_eq_true_eq] at hok
    obtain ⟨⟨hlane, hasid⟩, hvals⟩ := hok
    rw [exec_mts h hvals, mtsShared_of_slice_register hlane hasid]
  | _ => cases hm

end Sys2Proof.Claim
end

section
open Sys2Proof Sys2Proof.Machine Sys2Proof.Claim

/-- Settles O2: each word moves its slices once its own checks pass. -/
theorem movesComplete : Obligations.MovesComplete :=
  fun _ _ _ _ _ _ h hm => exec_of_moveOf h hm

end

section
/-! CALL, EXIT, REGANG, YLD and MTS to TADDR and ASID (15 R348; 16 R366; 17 R398, R419; 18 R459). -/

namespace Sys2Proof.Claim
open Sys2Proof Sys2Proof.Machine

variable {s s' : State} {c : Ctx} {args : List (List Nat)}

theorem exec_call {r : BitVec 7} {o : BitVec 18} (h : Issues s c (.call r o) args s') :
    exec (.call r o) s =
      .next (moved (s'.writeField c (fun _ => .dst64 r) (c.lanes.map fun _ => (c.base + 4).toNat)) c
        fun _ sl => sl.jump (c.base + 4 * o.signExtend 64)) := by
  change execCall r o s = _
  exact h.runOp_ok rfl

/-- EXIT on the easel waits for the crew's matrix instructions (16 R366). -/
theorem exec_exit (h : Issues s c .exit args s') (hidle : c.gang.isSeq = true → s'.engineBusy c.crew.id = false) :
    exec .exit s = .next ((moved s' c fun _ sl => sl.exit).settle c) := by
  have hready : (!(c.gang.isSeq && s'.engineBusy c.crew.id)) = true := by
    cases hseq : c.gang.isSeq with
    | false => rfl
    | true => simp [hidle hseq]
  change execExit s = _
  exact h.runOp_ok (ready_bind hready _)

theorem exec_regang (h : Issues s c .regang args s') : exec .regang s =
    .next (if c.gang.liveSlices.all c.sls.contains then s'.retireNext c
      else (moved s' c fun _ sl => { sl with wait := .regang }).settle c) := by
  change execRegang s = _
  refine h.runOp_ok ?_
  cases c.gang.liveSlices.all c.sls.contains <;> rfl

theorem exec_yld (h : Issues s c .yld args s') : exec .yld s =
    .next (if c.gang.isSeq || !s'.sharesGroup c then s'.retireNext c
      else (s'.retireNext c).mapIssuer c fun g => g.mapSlices c.sls fun sl => { sl with wait := .yld (s'.clock.toNat + 32) }) := by
  change execYld s = _
  exact h.runOp_ok rfl

/-- MTS to TADDR writes the lanes of a gang, and no slice (17 R398). -/
theorem exec_mts_taddr {a : BitVec 7} (h : Issues s c (.mts a 0x10) args s') (hgang : c.gang.isSeq = false) :
    exec (.mts a 0x10) s = .next ((s'.mapIssuer c fun g => (c.lanes.zip (args.getD 0 [])).foldl
      (fun g (l, v) => g.mapLane l fun ln => { ln with taddr := BitVec.ofNat 64 v }) g).retireNext c) := by
  have hany : ∀ i ∈ c.sls, ((c.mtsValue (0x10 : BitVec 5).toNat (args.getD 0 []) i).all fun v =>
      specialOk (0x10 : BitVec 5).toNat (c.gang.slice i) v) = true := fun _ _ => (Option.all_eq_true _ _).2 fun _ _ => rfl
  rw [exec_mts h (List.all_eq_true.2 hany)]
  change Host.Outcome.next (moved (mtsShared s' c 0x10 _) c fun i => mtsMove 0x10 _) = _
  rw [mtsShared_taddr hgang, moved_mtsMove_of_shared (.inl rfl)]

/-- MTS to ASID writes the crew's register, and no slice (17 R398). -/
theorem exec_mts_asid {a : BitVec 7} {v : Nat} (h : Issues s c (.mts a 0x16) args s') (hv : firstArg c args 0 = some v)
    (hlt : v < 4096) : exec (.mts a 0x16) s =
      .next ((s'.mapCrew c.crew.id fun k => { k with hasid := BitVec.ofNat 32 v }).retireNext c) := by
  have hfits : ∀ i ∈ c.sls, ((firstArg c args 0).all fun v => specialOk 0x16 (c.gang.slice i) v) = true := by
    intro i _
    rw [hv]
    exact decide_eq_true hlt
  rw [exec_mts h (List.all_eq_true.2 hfits)]
  change Host.Outcome.next (moved (mtsShared s' c 0x16 _) c fun i => mtsMove 0x16 _) = _
  rw [mtsShared_asid hv, moved_mtsMove_of_shared (.inr rfl)]

end Sys2Proof.Claim
end

section
open Sys2Proof Sys2Proof.Machine Sys2Proof.Claim

/-- Settles O6, word by word. -/
theorem callExitRegangYieldComplete : Obligations.CallExitRegangYieldComplete := by
  intro s s' c args
  refine ⟨fun r o h => exec_call h, exec_exit, fun h hall => ?_, fun h hsome => ?_, fun h halone => ?_, fun h hgang hshares => ?_,
    fun a h hgang => exec_mts_taddr h hgang, fun a v h hv hlt => exec_mts_asid h hv hlt⟩
  · rw [exec_regang h, if_pos hall]
  · rw [exec_regang h, if_neg (Bool.not_eq_true _ ▸ hsome)]
  · rw [exec_yld h, if_pos]
    rcases halone with hseq | hnone
    · simp [hseq]
    · simp [hnone]
  · rw [exec_yld h, if_neg]
    simp [hgang, hshares]

end

section
/-! BAR, BARA, MWAIT and QUIET (02 R32, R33; 08 R206; 13 R316; 15 R342; 17 R402, R415). -/

namespace Sys2Proof.Claim
open Sys2Proof Sys2Proof.Machine

variable {s s' : State} {c : Ctx} {args : List (List Nat)}

/-! ### Barriers (15 R342) -/

/-- BAR and BARA record the arrival of the party's slices, once the count fits and the party's earlier accesses have been
performed. -/
theorem barrierOp_ok {i : Instr} {k : BitVec 5} {n : BitVec 4} (f : Slice → Slice) (h : Issues s c i args s')
    (hneeds : needs i = { noHandler := true }) (hcount : c.barCountOk n.toNat k.toNat = true)
    (hdone : c.allPerformed s' (fun _ => true) = true) :
    barrierOp i k n f s = .next (((moved s' c fun _ => f).mapCrew c.crew.id fun w =>
      { w with barriers := listModify w.barriers n.toNat fun b => b.record k.toNat c.member c.sls }).settle c) := by
  unfold barrierOp
  rw [← hneeds]
  refine h.runOp_ok ((need_bind hcount _ _).trans (ready_bind hdone _))

theorem exec_bar {k : BitVec 5} {n : BitVec 4} (h : Issues s c (.bar k n) args s')
    (hcount : c.barCountOk n.toNat k.toNat = true) (hdone : c.allPerformed s' (fun _ => true) = true) :
    exec (.bar k n) s = .next (((moved s' c fun _ sl => { sl with wait := .bar n.toNat }).mapCrew c.crew.id fun w =>
      { w with barriers := listModify w.barriers n.toNat fun b => b.record k.toNat c.member c.sls }).settle c) :=
  barrierOp_ok _ h rfl hcount hdone

theorem exec_bara {k : BitVec 5} {n : BitVec 4} (h : Issues s c (.bara k n) args s')
    (hcount : c.barCountOk n.toNat k.toNat = true) (hdone : c.allPerformed s' (fun _ => true) = true) :
    exec (.bara k n) s = .next (((moved s' c fun _ sl => sl.advance).mapCrew c.crew.id fun w =>
      { w with barriers := listModify w.barriers n.toNat fun b => b.record k.toNat c.member c.sls }).settle c) :=
  barrierOp_ok _ h rfl hcount hdone

/-! ### MWAIT (17 R402) -/

/-- The slices of a party in which a lane is active. -/
def activeSlices (c : Ctx) : List Nat := c.sls.filter fun i => (c.gang.slice i).mask != 0

theorem mem_activeSlices {i : Nat} : i ∈ activeSlices c ↔ i ∈ c.sls ∧ (c.gang.slice i).mask ≠ 0 := by
  simp [activeSlices]

/-- The code an MWAIT has for a slice; none where no lane is active. -/
def mwaitCodeOf (c : Ctx) (s : State) (i : Nat) : Option Nat :=
  if (activeSlices c).contains i then c.mwaitCode s i else none

theorem mwaitCodeOf_of_active {i : Nat} (hi : i ∈ c.sls) (hm : (c.gang.slice i).mask ≠ 0) :
    mwaitCodeOf c s i = c.mwaitCode s i :=
  if_pos (List.contains_iff_mem.2 (mem_activeSlices.2 ⟨hi, hm⟩))

theorem mwaitCodeOf_of_idle {i : Nat} (hm : (c.gang.slice i).mask = 0) : mwaitCodeOf c s i = none :=
  if_neg fun h => (mem_activeSlices.1 (List.contains_iff_mem.1 h)).2 hm

/-- A slice with an active lane begins to wait, or goes on waiting. -/
def mwaitStart (c : Ctx) (s : State) (vals : List Nat) (i : Nat) (sl : Slice) : Slice :=
  if (activeSlices c).contains i then sl.beginMwait s.clock.toNat (1024 * (c.firstOf vals i).getD 0) else sl

/-- MWAIT returns once every slice with an active lane has a code; until then they wait. -/
theorem exec_mwait {d a : BitVec 7} (h : Issues s c (.mwait d a) args s') :
    exec (.mwait d a) s = .next (if (activeSlices c).all fun i => (mwaitCodeOf c s' i).isSome then
      moved (s'.writeField c (fun _ => .dst d) (c.lanes.map fun l => (mwaitCodeOf c s' (l / 4)).getD 0)) c
        fun i sl => sl.afterMwait (mwaitCodeOf c s' i)
    else s'.mapIssuer c fun g => { g with slices := g.slices.mapIdx (mwaitStart c s' (args.getD 0 [])) }) := by
  change execMwait d a s = _
  refine h.runOp_ok ?_
  change (if (activeSlices c).all fun i => (mwaitCodeOf c s' i).isSome then _ else _) = _
  split <;> rfl

/-- What each slice of the party does decides where a word moves them. -/
theorem moved_congr (s : State) {f g : Nat → Slice → Slice} (hfg : ∀ i ∈ c.sls, f i = g i) : moved s c f = moved s c g := by
  unfold moved
  congr 1
  funext k
  congr 2
  refine congrArg (List.mapIdx · k.slices) ?_
  funext i sl
  split
  · rw [hfg i (List.contains_iff_mem.1 ‹_›)]
  · rfl

theorem exec_mwait_returns {d a : BitVec 7} (h : Issues s c (.mwait d a) args s')
    (hall : ∀ i ∈ c.sls, (c.gang.slice i).mask ≠ 0 → (c.mwaitCode s' i).isSome = true) :
    exec (.mwait d a) s =
      .next (moved (s'.writeField c (fun _ => .dst d) (c.lanes.map fun l => (c.mwaitCode s' (l / 4)).getD 0)) c
        fun i sl => sl.afterMwait (if (c.gang.slice i).mask ≠ 0 then c.mwaitCode s' i else none)) := by
  have hcodes : ((activeSlices c).all fun i => (mwaitCodeOf c s' i).isSome) = true :=
    List.all_eq_true.2 fun i hi => by
      obtain ⟨hsl, hm⟩ := mem_activeSlices.1 hi
      rw [mwaitCodeOf_of_active hsl hm]
      exact hall i hsl hm
  have hvals : (c.lanes.map fun l => (mwaitCodeOf c s' (l / 4)).getD 0) =
      c.lanes.map fun l => (c.mwaitCode s' (l / 4)).getD 0 :=
    List.map_congr_left fun l hl => by
      obtain ⟨hsl, hm⟩ := Ctx.slice_of_mem_lanes h.live hl
      rw [mwaitCodeOf_of_active hsl hm]
  rw [exec_mwait h, if_pos hcodes, hvals]
  refine congrArg Host.Outcome.next (moved_congr _ fun i hi => ?_)
  by_cases hm : (c.gang.slice i).mask = 0
  · rw [mwaitCodeOf_of_idle hm, if_neg (not_not_intro hm)]
  · rw [mwaitCodeOf_of_active hi hm, if_pos hm]

theorem exec_mwait_waits {d a : BitVec 7} (h : Issues s c (.mwait d a) args s')
    (hsome : ∃ i ∈ c.sls, (c.gang.slice i).mask ≠ 0 ∧ c.mwaitCode s' i = none) :
    exec (.mwait d a) s = .next (s'.mapIssuer c fun g => { g with
      slices := g.slices.mapIdx fun i sl =>
        if i ∈ c.sls ∧ (c.gang.slice i).mask ≠ 0 then
          sl.beginMwait s'.clock.toNat (1024 * (c.firstOf (args.getD 0 []) i).getD 0)
        else sl }) := by
  obtain ⟨i, hi, hm, hnone⟩ := hsome
  have hcodes : ¬((activeSlices c).all fun i => (mwaitCodeOf c s' i).isSome) = true := fun hall => by
    have := List.all_eq_true.1 hall i (mem_activeSlices.2 ⟨hi, hm⟩)
    simp [mwaitCodeOf_of_active hi hm, hnone] at this
  have hstart : mwaitStart c s' (args.getD 0 []) = fun i sl =>
      if i ∈ c.sls ∧ (c.gang.slice i).mask ≠ 0 then
        sl.beginMwait s'.clock.toNat (1024 * (c.firstOf (args.getD 0 []) i).getD 0) else sl := by
    funext i sl
    exact if_congr (List.contains_iff_mem.trans mem_activeSlices) rfl rfl
  rw [exec_mwait h, if_neg hcodes, hstart]

/-! ### QUIET (13 R316, 17 R415) -/

variable {d a b : BitVec 7} {l : BitVec 4}

theorem exec_quiet_woken {job w since n v : Nat} (h : Issues s c (.quiet d a b l) args s')
    (hwait : c.first.wait = .quiet job w since n) (hwake : c.first.wake = some v) :
    exec (.quiet d a b l) s = .next (s'.endQuiet c (.quiet d a b l) d l.toNat v) := by
  change execQuiet d a b l s = _
  refine h.runOp_ok ?_
  simp only [hwait, hwake]

theorem exec_quiet_timeout {job w since n : Nat} (h : Issues s c (.quiet d a b l) args s')
    (hwait : c.first.wait = .quiet job w since n) (hwake : c.first.wake = none)
    (hover : n ≠ 0 ∧ since + n ≤ s'.clock.toNat) :
    exec (.quiet d a b l) s = .next (s'.endQuiet c (.quiet d a b l) d l.toNat 2) := by
  change execQuiet d a b l s = _
  refine h.runOp_ok ?_
  simp [hwait, hwake, hover]

theorem exec_quiet_waiting {job w since n : Nat} (h : Issues s c (.quiet d a b l) args s')
    (hwait : c.first.wait = .quiet job w since n) (hwake : c.first.wake = none)
    (hopen : n = 0 ∨ s'.clock.toNat < since + n) : exec (.quiet d a b l) s = .next s := by
  have hnot : ¬((n ≠ 0 && since + n ≤ s'.clock.toNat) = true) := by
    simp only [Bool.and_eq_true, decide_eq_true_eq]
    omega
  change execQuiet d a b l s = _
  refine h.runOp_wait ?_
  simp only [hwait, hwake, if_neg hnot]

/-- A QUIET that has not begun to wait. -/
theorem exec_quiet_begin (h : Issues s c (.quiet d a b l) args s') (hwait : c.first.wait = .none) :
    let job := if a = 120 ∨ c.lanes = [] then c.crew.job else natBits ((firstArg c args 0).getD 0) 0 24
    (s'.uncounted c = true → exec (.quiet d a b l) s = .next s) ∧
    (s'.uncounted c = false → s'.jobEntry? c.die job = none →
      exec (.quiet d a b l) s = .next (s'.endQuiet c (.quiet d a b l) d l.toNat 3)) ∧
    (∀ e, s'.uncounted c = false → s'.jobEntry? c.die job = some e →
      exec (.quiet d a b l) s = .next (s'.mapIssuer c fun g => g.mapSlices c.sls fun sl =>
        { sl with
          wait := .quiet job (bitsOf (s'.jobDouble c.die e 5) 0 32) s'.clock.toNat (1024 * (firstArg c args 1).getD 0)
          wake := none })) := by
  intro job
  have hjob : (if a == 120 || c.lanes.isEmpty then c.crew.job else natBits ((c.firstVal (args.getD 0 [])).getD 0) 0 24) = job :=
    if_congr (by simp [List.isEmpty_iff]) rfl rfl
  change (_ → execQuiet d a b l s = _) ∧ (_ → _ → execQuiet d a b l s = _) ∧ ∀ e, _ → _ → execQuiet d a b l s = _
  refine ⟨fun hun => h.runOp_wait ?_, fun hcounted hnone => h.runOp_ok ?_, fun e hcounted hsome => h.runOp_ok ?_⟩
  · simp only [hwait]
    exact ready_bind_wait (by rw [hun]; rfl) _
  · simp only [hwait]
    refine (ready_bind (by rw [hcounted]; rfl) _).trans ?_
    simp only [hjob, hnone]
  · simp only [hwait]
    refine (ready_bind (by rw [hcounted]; rfl) _).trans ?_
    simp only [hjob, hsome]
    rfl

end Sys2Proof.Claim
end

section
open Sys2Proof Sys2Proof.Machine Sys2Proof.Claim

/-- Settles O12, word by word. -/
theorem barriersAndWaitsComplete : Obligations.BarriersAndWaitsComplete := by
  intro s s' c args
  refine ⟨fun k n h => exec_bar h, fun k n h => exec_bara h, fun d a h hall => ⟨_, exec_mwait_returns h hall,
      congrArg (· + 1) (State.writeField_issued _ _ _ _), rfl⟩,
    fun d a b l job w since n v h => exec_quiet_woken h, fun d a h hsome => exec_mwait_waits h hsome,
    fun d a b l job w since n h hwait hwake => ⟨fun hn hover => exec_quiet_timeout h hwait hwake ⟨hn, hover⟩,
      exec_quiet_waiting h hwait hwake⟩, fun d a b l h hwait => exec_quiet_begin h hwait⟩

end

section
/-! Loop records and divergence (02 R23; 16 R390): where a slice goes at the LAST of its innermost loop, which records a move
leaves, and what BRC and JOIN save and restore. -/

namespace Sys2Proof.Machine
open Sys2Proof

variable (sl : Slice)

/-! ### The end of a body (16 R390) -/

theorem endLoops_of_ne {x : Double} {rs : List LoopRec} {lc : List Word} (h : ∀ r ∈ rs.head?, r.last ≠ x) :
    endLoops x rs lc = (x + 4, rs, lc) := by
  cases rs with
  | nil => rfl
  | cons r rs => exact if_pos (h r rfl)

/-- With turns left the slice goes back to START. -/
theorem endLoops_again {r : LoopRec} {rs : List LoopRec} {lc : List Word} (hn : lc.getD r.k 0 - 1 ≠ 0) :
    endLoops r.last (r :: rs) lc = (r.start, r :: rs, lc.set r.k (lc.getD r.k 0 - 1)) :=
  (if_neg (not_not_intro rfl)).trans (if_pos hn)

/-- After the last turn the record ends, and the loops around it may end at the same instruction. -/
theorem endLoops_last {r : LoopRec} {rs : List LoopRec} {lc : List Word} (hn : lc.getD r.k 0 - 1 = 0) :
    endLoops r.last (r :: rs) lc = endLoops r.last rs (lc.set r.k 0) := by
  rw [← hn]
  exact (if_neg (not_not_intro rfl)).trans (if_neg (not_not_intro hn))

theorem Slice.advance_of_ne (h : ∀ r ∈ sl.loops.head?, r.last ≠ sl.pc) : sl.advance = { sl with pc := sl.pc + 4 } := by
  simp only [Slice.advance, endLoops_of_ne h]

theorem Slice.advance_again {r : LoopRec} {rs : List LoopRec} (hl : sl.loops = r :: rs) (hpc : r.last = sl.pc)
    (hn : sl.lc.getD r.k 0 - 1 ≠ 0) :
    sl.advance = { sl with pc := r.start, lc := sl.lc.set r.k (sl.lc.getD r.k 0 - 1) } := by
  simp only [Slice.advance, hl, ← hpc, endLoops_again hn]

theorem Slice.advance_last {r : LoopRec} {rs : List LoopRec} (hl : sl.loops = r :: rs) (hpc : r.last = sl.pc)
    (hn : sl.lc.getD r.k 0 - 1 = 0) :
    sl.advance = ({ sl with loops := rs, lc := sl.lc.set r.k 0 } : Slice).advance := by
  simp only [Slice.advance, hl, ← hpc, endLoops_last hn]

/-! ### A body runs its count -/

/-- One more run of the body of a loop, from LAST. -/
def Slice.again (r : LoopRec) (x : Slice) : Slice := ({ x with pc := r.last } : Slice).advance

/-- A slice inside a lone loop with `n` turns to go. -/
def Slice.Turns (r : LoopRec) (n : Nat) (x : Slice) : Prop :=
  x.loops = [r] ∧ r.k < x.lc.length ∧ x.lc.getD r.k 0 = BitVec.ofNat 32 n

variable {sl} {r : LoopRec}

theorem ofNat_succ_sub_one (n : Nat) : BitVec.ofNat 32 (n + 1) - 1 = BitVec.ofNat 32 n := by
  rw [BitVec.ofNat_add]; exact BitVec.add_sub_cancel _ _

theorem ofNat_ne_zero {n : Nat} (h0 : n ≠ 0) (hn : n < 2 ^ 32) : BitVec.ofNat 32 n ≠ 0 := fun h => by
  have := congrArg BitVec.toNat h
  rw [BitVec.toNat_ofNat, Nat.mod_eq_of_lt hn] at this
  exact h0 this

theorem getD_set_self {α : Type} {l : List α} {k : Nat} (h : k < l.length) (x d : α) : (l.set k x).getD k d = x := by
  simp [List.getD_eq_getElem?_getD, h]

theorem Slice.again_turns {n : Nat} (h : sl.Turns r (n + 1)) (h0 : n ≠ 0) (hn : n < 2 ^ 32) :
    (sl.again r).pc = r.start ∧ (sl.again r).Turns r n := by
  obtain ⟨hl, hk, hc⟩ := h
  have hcount : sl.lc.getD r.k 0 - 1 = BitVec.ofNat 32 n := by rw [hc, ofNat_succ_sub_one]
  have hne : sl.lc.getD r.k 0 - 1 ≠ 0 := hcount ▸ ofNat_ne_zero h0 hn
  have := Slice.advance_again { sl with pc := r.last } hl rfl hne
  rw [Slice.again, this]
  exact ⟨rfl, hl, by simpa using hk, (getD_set_self hk _ _).trans hcount⟩

theorem Slice.again_ends (h : sl.Turns r 1) :
    (sl.again r).pc = r.last + 4 ∧ (sl.again r).loops = [] ∧ (sl.again r).lc.getD r.k 0 = 0 := by
  obtain ⟨hl, hk, hc⟩ := h
  have hlast : sl.lc.getD r.k 0 - 1 = 0 := by rw [hc]; rfl
  rw [Slice.again, Slice.advance_last { sl with pc := r.last } hl rfl hlast, Slice.advance_of_ne _ (by simp)]
  exact ⟨rfl, rfl, getD_set_self hk _ _⟩

/-- After each of its first `n - 1` turns the slice is at START with one turn fewer to go. -/
theorem Slice.iterate_again_turns {n j : Nat} (h : sl.Turns r n) (hn : n < 2 ^ 32) (hj : j < n) :
    (0 < j → ((Slice.again r)^[j] sl).pc = r.start) ∧ ((Slice.again r)^[j] sl).Turns r (n - j) := by
  induction j with
  | zero => exact ⟨fun h0 => absurd h0 (Nat.lt_irrefl 0), h⟩
  | succ j ih =>
    obtain ⟨-, hturns⟩ := ih (Nat.lt_of_succ_lt hj)
    rw [show n - j = n - (j + 1) + 1 by omega] at hturns
    obtain ⟨hpc, hnext⟩ := Slice.again_turns hturns (by omega) (by omega)
    rw [Function.iterate_succ_apply']
    exact ⟨fun _ => hpc, hnext⟩

/-- A body whose count is `n` runs `n` times. -/
theorem Slice.iterate_again_ends {n : Nat} (h : sl.Turns r n) (h0 : 0 < n) (hn : n < 2 ^ 32) :
    ((Slice.again r)^[n] sl).pc = r.last + 4 ∧ ((Slice.again r)^[n] sl).loops = [] ∧
      ((Slice.again r)^[n] sl).lc.getD r.k 0 = 0 := by
  obtain ⟨m, rfl⟩ := Nat.exists_eq_succ_of_ne_zero h0.ne'
  obtain ⟨-, hturns⟩ := Slice.iterate_again_turns h hn (Nat.lt_succ_self m)
  rw [Nat.succ_sub (le_refl m), Nat.sub_self] at hturns
  rw [Function.iterate_succ_apply']
  exact Slice.again_ends hturns

/-! ### Leaving loops (16 R390) -/

section
variable {a : Double} {r : LoopRec} {rs : List LoopRec} {lc : List Word}

theorem leaveLoops_kept (hlen : (leaveLoops a rs lc).1.length = rs.length) (hr : r.holds a = true) :
    leaveLoops a (r :: rs) lc = (r :: (leaveLoops a rs lc).1, (leaveLoops a rs lc).2) := by
  simp [leaveLoops, hlen, hr]

theorem leaveLoops_popped (h : (leaveLoops a rs lc).1.length ≠ rs.length ∨ r.holds a = false) :
    leaveLoops a (r :: rs) lc = ((leaveLoops a rs lc).1, (leaveLoops a rs lc).2.set r.k 0) := by
  rcases h with hlen | hr
  · simp [leaveLoops, hlen]
  · simp [leaveLoops, hr]

end

theorem getD_set_zero (l : List Word) (j k : Nat) : (l.set k 0).getD j 0 = if j = k then 0 else l.getD j 0 := by
  by_cases h : j = k
  · subst h
    by_cases hl : j < l.length
    · simp [List.getD_eq_getElem?_getD, hl]
    · simp [List.getD_eq_getElem?_getD, hl]
  · simp [List.getD_eq_getElem?_getD, h, Ne.symm h]

/-- A move pops the outermost record whose body does not hold its target with every record inside it, and zeroes their
counters. -/
theorem leaveLoops_spec (a : Double) (rs : List LoopRec) (lc : List Word) :
    ∃ n, n ≤ rs.length ∧ (leaveLoops a rs lc).1 = rs.drop n ∧ (∀ r ∈ rs.drop n, r.holds a = true) ∧
      (∀ r, 0 < n → rs[n - 1]? = some r → r.holds a = false) ∧
      (∀ r ∈ rs.take n, (leaveLoops a rs lc).2.getD r.k 0 = 0) ∧
      ∀ k, (∀ r ∈ rs.take n, r.k ≠ k) → (leaveLoops a rs lc).2.getD k 0 = lc.getD k 0 := by
  induction rs with
  | nil => exact ⟨0, le_refl 0, rfl, by simp, by simp, by simp, fun _ _ => rfl⟩
  | cons r rs ih =>
    obtain ⟨n, hle, hdrop, hhold, hfirst, hzero, hsame⟩ := ih
    by_cases hkeep : n = 0 ∧ r.holds a = true
    · obtain ⟨rfl, hr⟩ := hkeep
      rw [leaveLoops_kept (by rw [hdrop, List.drop_zero]) hr]
      refine ⟨0, Nat.zero_le _, by rw [hdrop]; rfl, ?_, by simp, by simp, fun k _ => hsame k (by simp)⟩
      simpa [hr] using hhold
    · have hpop : (leaveLoops a rs lc).1.length ≠ rs.length ∨ r.holds a = false := by
        rw [hdrop, List.length_drop]
        by_cases hr : r.holds a = true
        · exact .inl (by have : n ≠ 0 := fun h0 => hkeep ⟨h0, hr⟩; omega)
        · exact .inr (Bool.eq_false_iff.2 hr)
      rw [leaveLoops_popped hpop]
      refine ⟨n + 1, Nat.succ_le_succ hle, hdrop, hhold, ?_, ?_, ?_⟩
      · intro r' _ hr'
        cases n with
        | zero =>
          cases Option.some.inj hr'
          exact Bool.eq_false_iff.2 fun hr => hkeep ⟨rfl, hr⟩
        | succ m => exact hfirst r' (Nat.succ_pos m) hr'
      · intro r' hr'
        rw [getD_set_zero]
        rcases List.mem_cons.1 hr' with rfl | hin
        · exact if_pos rfl
        · split
          · rfl
          · exact hzero r' hin
      · intro k hk
        rw [getD_set_zero, if_neg fun h => hk r List.mem_cons_self h.symm]
        exact hsame k fun r' hr' => hk r' (List.mem_cons_of_mem r hr')

theorem Slice.jump_spec (sl : Slice) (a : Double) : ∃ n, (sl.jump a).pc = a ∧ (sl.jump a).loops = sl.loops.drop n ∧
    (∀ r ∈ sl.loops.drop n, r.holds a = true) ∧ (∀ r, 0 < n → sl.loops[n - 1]? = some r → r.holds a = false) ∧
    (∀ r ∈ sl.loops.take n, (sl.jump a).lc.getD r.k 0 = 0) ∧
    ∀ k, (∀ r ∈ sl.loops.take n, r.k ≠ k) → (sl.jump a).lc.getD k 0 = sl.lc.getD k 0 := by
  obtain ⟨n, -, h⟩ := leaveLoops_spec a sl.loops sl.lc
  exact ⟨n, rfl, h⟩

/-! ### Divergence (02 R23) -/

/-- A BRC that divides the slice runs the lanes that take it, and keeps the others as a path. -/
theorem Slice.brc_of_mixed {sl : Slice} {m : BitVec 4} (h : sl.mixed m = true) (target : Double) :
    sl.brc m target = ({ sl with
      stack := sl.entry true sl.advance.pc (sl.mask &&& ~~~m) :: sl.stack, mask := m } : Slice).jump target :=
  if_pos h

/-- JOIN at a path goes to it with its mask and saved state. -/
theorem Slice.join_of_path {sl : Slice} {e : StackEntry} {rest : List StackEntry} (hs : sl.stack = e :: rest)
    (he : e.isPath = true) : sl.join = (sl.restore e rest).jump e.pc := by
  simp [Slice.join, hs, he]

/-- JOIN at a join point goes on with the mask and saved state of its entry. -/
theorem Slice.join_of_point {sl : Slice} {e : StackEntry} {rest : List StackEntry} (hs : sl.stack = e :: rest)
    (he : e.isPath = false) : sl.join = (sl.restore e rest).advance := by
  simp [Slice.join, hs, he]

/-- A slice runs with a mask, over a stack, with the FMT, WB, IDX0 and IDX1 of another. -/
def Slice.RunsAs (x : Slice) (mask : BitVec 4) (stack : List StackEntry) (sl : Slice) : Prop :=
  x.mask = mask ∧ x.stack = stack ∧ x.fmt = sl.fmt ∧ x.wb = sl.wb ∧ x.x0 = sl.x0 ∧ x.x1 = sl.x1

theorem Slice.brc_diverges {sl : Slice} {m : BitVec 4} (h : sl.mixed m = true) (target : Double) :
    (sl.brc m target).mask = m ∧ (sl.brc m target).pc = target ∧
      (sl.brc m target).stack = sl.entry true sl.advance.pc (sl.mask &&& ~~~m) :: sl.stack := by
  rw [Slice.brc_of_mixed h]
  exact ⟨rfl, rfl, rfl⟩

/-- The other path of a divergence runs the lanes that did not take the BRC, with the state the BRC saved. -/
theorem Slice.join_brc {sl : Slice} {m : BitVec 4} (h : sl.mixed m = true) (target : Double) :
    (sl.brc m target).join.pc = sl.advance.pc ∧ (sl.brc m target).join.RunsAs (sl.mask &&& ~~~m) sl.stack sl := by
  obtain ⟨-, -, hstack⟩ := Slice.brc_diverges h target
  rw [Slice.join_of_path hstack rfl]
  exact ⟨rfl, rfl, rfl, rfl, rfl, rfl, rfl⟩

/-- At the join point that a slice has recorded, JOIN brings back the mask and the state it recorded. -/
theorem Slice.join_entry {x sl : Slice} {join : Double} {mask : BitVec 4} {rest : List StackEntry}
    (h : x.stack = sl.entry false join mask :: rest) : x.join.RunsAs mask rest sl := by
  rw [Slice.join_of_point h rfl]
  exact ⟨rfl, rfl, rfl, rfl, rfl, rfl⟩

end Sys2Proof.Machine
end

section
open Sys2Proof Sys2Proof.Machine

/-- Settles O51: the end of a body, the count of its runs, leaving it, and a divergence with its two JOINs. -/
theorem loopsEndAndPathsRejoin : Obligations.LoopsEndAndPathsRejoin := by
  refine ⟨fun sl hne => ?_, fun sl r rs hl hpc => ⟨fun hn => ?_, Slice.advance_last sl hl hpc⟩,
    fun sl r n j hl hpc hk h0 hn hc hj => ?_, Slice.jump_spec, fun sl m target join hm0 hm hsub => ?_⟩
  · rw [Slice.advance_of_ne sl hne]
    exact ⟨rfl, rfl, rfl⟩
  · rw [Slice.advance_again sl hl hpc hn]
    exact ⟨rfl, hl, rfl⟩
  · have hturns : sl.Turns r n := ⟨hl, hk, hc⟩
    refine ⟨fun hj0 hjn => ?_, fun hjn => hjn ▸ Slice.iterate_again_ends hturns h0 hn⟩
    obtain ⟨hpc, -, -, hcount⟩ := Slice.iterate_again_turns hturns hn hjn
    exact ⟨hpc hj0, hcount⟩
  · have hmixed : sl.mixed m = true := by simpa [Slice.mixed] using ⟨hm0, hm⟩
    obtain ⟨hmask, hpc, hstack⟩ := Slice.brc_diverges hmixed target
    obtain ⟨hpc', hmask', hstack', hmodes⟩ := Slice.join_brc hmixed target
    obtain ⟨hfmt, hwb, hx0, hx1⟩ := hmodes
    exact ⟨hmask, hpc, congrArg List.length hstack, hmask', hpc', hstack', hfmt, hwb, hx0, hx1,
      fun rest hrest => Slice.join_entry (hstack'.trans hrest)⟩

end

section
/-! CREW_START and CREW_DONE (02 R45; 10 R241, R244): what ending flights leaves alone, and a crew that starts for the first
time. -/

namespace Sys2Proof.Machine
open Sys2Proof

variable {s t u : State}

/-- An update of a crew that keeps its number finds it again. -/
theorem State.crew?_mapCrew_self {id : Nat} {c : Crew} {f : Crew → Crew} (h : s.crew? id = some c)
    (hf : ∀ d, d.id = id → (f d).id = id) : (s.mapCrew id f).crew? id = some (f c) := by
  have hsame : ((·.id == id) ∘ fun d : Crew => if d.id == id then f d else d) = (·.id == id) := by
    funext d
    by_cases hd : d.id = id
    · simp [hd, hf d hd]
    · simp [hd]
  rw [State.crew?] at h
  rw [State.crew?, State.mapCrew, modifyWhere, List.find?_map, hsame, h]
  simp [State.crew?_id (s := s) h]

/-! ### Ending flights (03 R66, 07 R173) -/

/-- From one state to another only flights, port queues, and members of crews have changed. -/
def State.MembersOnly (s t : State) : Prop :=
  t = { s with crews := t.crews, clusters := t.clusters, flights := t.flights } ∧
  ∀ id c, s.crew? id = some c → ∃ d, t.crew? id = some d ∧ d = { c with gangs := d.gangs, seq := d.seq }

theorem State.MembersOnly.refl (s : State) : s.MembersOnly s := ⟨rfl, fun _ c h => ⟨c, h, rfl⟩⟩

theorem State.MembersOnly.trans (h : s.MembersOnly t) (h' : t.MembersOnly u) : s.MembersOnly u := by
  obtain ⟨hst, hcrew⟩ := h
  obtain ⟨htu, hcrew'⟩ := h'
  refine ⟨by rw [htu, hst], fun id c hc => ?_⟩
  obtain ⟨d, hd, hcd⟩ := hcrew id c hc
  obtain ⟨e, he, hde⟩ := hcrew' id d hd
  exact ⟨e, he, by rw [hde, hcd]⟩

theorem State.MembersOnly.of_flights (s : State) (fs : List Flight) : s.MembersOnly { s with flights := fs } :=
  ⟨rfl, fun _ c h => ⟨c, h, rfl⟩⟩

theorem State.MembersOnly.of_mapPort (s : State) (k p : Nat) (f : Port → Port) : s.MembersOnly (s.mapPort k p f) :=
  ⟨rfl, fun _ c h => ⟨c, h, rfl⟩⟩

theorem State.MembersOnly.of_mapGang (s : State) (id m : Nat) (f : Gang → Gang) : s.MembersOnly (s.mapGang id m f) := by
  refine ⟨rfl, fun n c hc => ?_⟩
  rw [State.mapGang, State.crew?_mapCrew _ _ _ _ fun k => Crew.mapMember_id k m f, hc]
  split
  · refine ⟨_, rfl, ?_⟩
    unfold Crew.mapMember
    split <;> rfl
  · exact ⟨c, rfl, rfl⟩

/-- A flight pushes its words to the port it is bound for. -/
def State.pushResult (s : State) (f : Flight) : State :=
  match f.port, s.crew? f.crew with
  | some p, some c => s.mapPort c.cluster p fun q =>
    { q with words := q.words ++ f.pushed, pushes := q.pushes - f.pushed.length }
  | _, _ => s

/-- One complete flight ends: it leaves the list, pushes its words, and its path counts it as returned. -/
def State.endFlight (s : State) (f : Flight) : State :=
  (State.pushResult { s with flights := s.flights.filter (·.id != f.id) } f).mapGang f.crew f.member fun g =>
    let g := if f.port.isSome then g.dropPend f.id else g
    match f.path with
    | some p => g.pathReturn p f.id
    | none => g

/-- A flight of the list is passed over, or ends. -/
theorem State.endFlights_cons (s : State) (f : Flight) (fs : List Flight) (held : List (Nat × Nat × Nat)) :
    (∃ held', s.endFlights (f :: fs) held = s.endFlights fs held') ∨
      s.endFlights (f :: fs) held = (s.endFlight f).endFlights fs held :=
  (ite_eq_or_eq _ _ _).imp (fun h => ⟨_, h⟩) id

theorem State.pushResult_membersOnly (s : State) (f : Flight) : s.MembersOnly (s.pushResult f) := by
  unfold State.pushResult
  split
  · exact .of_mapPort _ _ _ _
  · exact .refl _

theorem State.endFlight_membersOnly (s : State) (f : Flight) : s.MembersOnly (s.endFlight f) :=
  (State.MembersOnly.of_flights s _).trans ((State.pushResult_membersOnly _ f).trans (.of_mapGang _ _ _ _))

theorem State.endFlights_membersOnly (fs : List Flight) (s : State) (held : List (Nat × Nat × Nat)) :
    s.MembersOnly (s.endFlights fs held) := by
  induction fs generalizing s held with
  | nil => exact .refl s
  | cons f fs ih =>
    rcases State.endFlights_cons s f fs held with ⟨held', h⟩ | h
    · rw [h]
      exact ih s held'
    · rw [h]
      exact (State.endFlight_membersOnly s f).trans (ih _ held)

theorem State.settleFlights_membersOnly (s : State) : s.MembersOnly s.settleFlights :=
  (State.endFlights_membersOnly s.flights s []).trans (.of_flights _ _)

/-- Where no flight is complete, none ends. -/
theorem State.endFlights_of_open (s : State) (fs : List Flight) (held : List (Nat × Nat × Nat))
    (h : ∀ f ∈ fs, f.complete = false) : s.endFlights fs held = s := by
  induction fs generalizing held with
  | nil => rfl
  | cons f fs ih =>
    obtain ⟨hf, hfs⟩ := List.forall_mem_cons.1 h
    unfold State.endFlights
    simp only [hf, Bool.not_false, Bool.true_or, if_true]
    exact ih _ hfs

theorem State.settleFlights_of_open (s : State) (h : ∀ f ∈ s.flights, f.complete = false ∧ f.kind ≠ .fence) :
    s.settleFlights = s := by
  have hkeep : s.flights.filter (fun e => e.kind != .fence || s.fenceOpen e) = s.flights :=
    List.filter_eq_self.2 fun f hf => by simp [(h f hf).2]
  unfold State.settleFlights
  rw [State.endFlights_of_open s s.flights [] fun f hf => (h f hf).1]
  simp only [hkeep]

/-! ### A crew that starts (10 R241) -/

/-- A crew put in the active bank: its start is counted, and its parties count from now unless they had begun. -/
def Crew.enterBank (order issued : Nat) (k : Crew) : Crew :=
  { (if k.begun then k else k.mapAllSlices fun sl => { sl with stamp := issued }) with
    state := .running, started := order, victimOf := none, begun := true }

theorem Crew.enterBank_cluster (order issued : Nat) (k : Crew) : (k.enterBank order issued).cluster = k.cluster := by
  change (if k.begun then k else k.mapAllSlices _).cluster = k.cluster
  split <;> rfl

theorem Crew.enterBank_id (order issued : Nat) (k : Crew) : (k.enterBank order issued).id = k.id := by
  change (if k.begun then k else k.mapAllSlices _).id = k.id
  split <;> rfl

/-- A crew with nothing to restore, as it stands before flights that waited for it end. -/
def State.startFresh (s : State) (c : Crew) : State :=
  State.mapCrew { (s.mapCrew c.id fun k => { k with log := [] }).mapCrew c.id fun d =>
      { c with frame := d.frame, log := d.log, late := [] } with serial := s.serial + 1 } c.id
    (Crew.enterBank s.serial s.issued)

section
variable {c : Crew}

theorem State.activate_of_no_seq (s : State) (hseq : c.seq = none) : s.activate c =
    (State.mapCrew { s with serial := s.serial + 1 } c.id (Crew.enterBank s.serial s.issued)).settleFlights := by
  have hno : ¬c.seq.isSome = true := by simp [hseq]
  unfold State.activate
  simp only [if_neg hno]
  rfl

theorem State.applyLog_nil (s : State) (hlog : c.log = []) : s.applyLog c = s := by
  simp [State.applyLog, hlog]

/-- A crew with no sequencer, no fault log and no save frame has nothing to restore. -/
theorem State.resume_of_fresh (hseq : c.seq = none) (hlog : c.log = []) (hframe : c.frame = none) :
    s.resume c = (s.startFresh c).settleFlights := by
  have hread : s.readFrame c = (some c, s) := by simp [State.readFrame, hframe]
  have hdrop : s.dropFrame c = (true, s.mapCrew c.id fun k => { k with log := [] }) := by simp [State.dropFrame, hframe]
  simp only [State.resume, hread, hdrop, State.applyLog_nil _ hlog, State.activate_of_no_seq _ hseq]
  rfl

theorem State.crew?_startFresh (h : s.crew? c.id = some c) : (s.startFresh c).crew? c.id =
    some (Crew.enterBank s.serial s.issued { c with log := [], late := [] }) := by
  have h1 : (s.mapCrew c.id fun k => { k with log := [] }).crew? c.id = some { c with log := [] } :=
    State.crew?_mapCrew_self h fun _ hd => hd
  have h2 := State.crew?_mapCrew_self (f := fun d => { c with frame := d.frame, log := d.log, late := [] }) h1 fun _ _ => rfl
  exact State.crew?_mapCrew_self (s := { State.mapCrew _ _ _ with serial := s.serial + 1 }) h2
    fun d hd => (Crew.enterBank_id _ _ d).trans hd

theorem exec_crewStart (h : s.crew? c.id = some c) (hstate : c.state = .loading) (hfree : s.bankFree c = true) :
    exec (.crewStart c.id) s = .next (s.resume c) := by
  change execCrewStart c.id s = _
  simp [execCrewStart, h, hstate, hfree]

/-- A crew that starts for the first time runs in its cluster, and no record and no byte of HBM changes. -/
theorem State.resume_fresh_spec (h : s.crew? c.id = some c) (hseq : c.seq = none) (hlog : c.log = [])
    (hframe : c.frame = none) : ∃ d, (s.resume c).crew? c.id = some d ∧ d.state = .running ∧ d.started = s.serial ∧
      d.cluster = c.cluster ∧ (s.resume c).records = s.records ∧ (s.resume c).hbm = s.hbm ∧
      ((∀ f ∈ s.flights, f.complete = false ∧ f.kind ≠ .fence) → (s.resume c).flights = s.flights) := by
  rw [State.resume_of_fresh hseq hlog hframe]
  obtain ⟨hrest, hcrews⟩ := State.settleFlights_membersOnly (s.startFresh c)
  obtain ⟨d, hd, hdc⟩ := hcrews c.id _ (State.crew?_startFresh h)
  refine ⟨d, hd, congrArg Crew.state hdc, congrArg Crew.started hdc,
    (congrArg Crew.cluster hdc).trans (Crew.enterBank_cluster s.serial s.issued _), (congrArg State.records hrest).trans rfl,
    (congrArg State.hbm hrest).trans rfl, fun hopen => ?_⟩
  exact (congrArg State.flights (State.settleFlights_of_open (s.startFresh c) hopen)).trans rfl

/-! ### A crew that ends (10 R244) -/

theorem exec_crewDone (h : s.crew? c.id = some c) (hstate : c.state = .running) (hfin : c.finished = true)
    (hquiet : s.crewQuiet c = true) (hcounted : s.crewCounted c = true) : exec (.crewDone c.id) s =
      .next ((s.mapCrew c.id fun k => { k with state := .done }).finishCrew { c with state := .done }) := by
  have hactive : c.active = true := by simp [Crew.active, hstate]
  change execCrewDone c.id s = _
  simp [execCrewDone, h, hstate, hfin, hquiet, hcounted, hactive]

/-- A crew is not done while a member runs or anything of it is in flight. -/
theorem exec_crewDone_waits (h : s.crew? c.id = some c) (hbusy : c.finished = false ∨ s.crewQuiet c = false) :
    exec (.crewDone c.id) s = .next s := by
  change execCrewDone c.id s = _
  rcases hbusy with hfin | hquiet
  · simp [execCrewDone, h, hfin]
  · simp [execCrewDone, h, hquiet]

end

end Sys2Proof.Machine
end

section
open Sys2Proof Sys2Proof.Machine

/-- Settles O27: what starts a crew, what a first start leaves alone, and what ends one. -/
theorem crewsStartAndEnd : Obligations.CrewsStartAndEnd :=
  ⟨fun _ _ => exec_crewStart,
    fun s _ h hstate hfree hseq hlog hframe =>
      have ⟨d, hd, hspec⟩ := State.resume_fresh_spec h hseq hlog hframe
      ⟨s.resume _, d, exec_crewStart h hstate hfree, hd, hspec⟩,
    fun _ _ => exec_crewDone, fun _ _ => exec_crewDone_waits⟩

end

section
/-! Parting (02 R25) and barrier phases (02 R32 to R34): a parting changes only the party and the stamp of slices; a phase
ends by its count, by BARDEAD, or not yet. -/

namespace Sys2Proof.Machine
open Sys2Proof

/-! ### Parting (02 R25) -/

/-- Parting a party gives its slices party numbers and stamps, and leaves all else of them as it was. -/
theorem Gang.part_slice? {g : Gang} {i : Nat} {sl : Slice} (p stamp : Nat) (h : g.slices[i]? = some sl) :
    ∃ q n, (g.part p stamp).slices[i]? = some { sl with party := q, stamp := n } ∧
      (i ∉ g.partySlices p → q = sl.party ∧ n = sl.stamp) := by
  simp only [Gang.part, Gang.mapSlices, List.getElem?_mapIdx, h, Option.map_some]
  split
  · split
    · exact ⟨sl.party, sl.stamp, rfl, fun _ => ⟨rfl, rfl⟩⟩
    · exact ⟨_, _, rfl, fun hi => absurd (List.contains_iff_mem.1 ‹_›) hi⟩
  · exact ⟨sl.party, sl.stamp, rfl, fun _ => ⟨rfl, rfl⟩⟩

/-- Parting every party changes only the parties and stamps of slices. -/
theorem Gang.foldl_part_slice? (ps : List Nat) (stamp : Nat) {g : Gang} {i : Nat} {sl : Slice} (h : g.slices[i]? = some sl) :
    ∃ q n, (ps.foldl (fun g p => g.part p stamp) g).slices[i]? = some { sl with party := q, stamp := n } := by
  induction ps generalizing g sl with
  | nil => exact ⟨sl.party, sl.stamp, h⟩
  | cons p ps ih =>
    obtain ⟨q, n, hpart, -⟩ := Gang.part_slice? p stamp h
    obtain ⟨q', n', hrest⟩ := ih hpart
    exact ⟨q', n', hrest⟩

theorem Gang.partAll_slice? (stamp : Nat) {g : Gang} {i : Nat} {sl : Slice} (h : g.slices[i]? = some sl) :
    ∃ q n, (g.partAll stamp).slices[i]? = some { sl with party := q, stamp := n } :=
  Gang.foldl_part_slice? _ stamp h

/-! ### Members -/

theorem Crew.member?_mapAllSlices (c : Crew) (f : Slice → Slice) (m : Nat) :
    (c.mapAllSlices f).member? m = (c.member? m).map fun g => { g with slices := g.slices.map f } := by
  unfold Crew.member? Crew.mapAllSlices
  by_cases h : m = 16 <;> simp [h]

theorem Crew.member?_mapGangs (c : Crew) (f : Gang → Gang) (bs : List Barrier) (m : Nat) :
    Crew.member? { c with barriers := bs, gangs := c.gangs.map f } m =
      (c.member? m).map fun g => if m = 16 then g else f g := by
  unfold Crew.member?
  by_cases h : m = 16 <;> simp [h]

theorem Crew.member?_barriers (c : Crew) (bs : List Barrier) (m : Nat) :
    Crew.member? { c with barriers := bs } m = c.member? m := rfl

/-! ### Arrivals (02 R33) -/

/-- A member has arrived when it had, or when all of its live slices have executed their BAR or BARA. -/
theorem Crew.mem_settleArrivals (c : Crew) (b : Barrier) {m : Nat} {g : Gang} (hm : c.member? m = some g) :
    m ∈ (c.settleArrivals b).arrived ↔
      m ∈ b.arrived ∨ (m ∈ c.members ∧ g.finished = false ∧ ∀ i ∈ g.liveSlices, (m, i) ∈ b.slices) := by
  simp only [Crew.settleArrivals, List.mem_append, List.mem_filter, hm, Bool.and_eq_true, Bool.not_eq_true',
    List.contains_eq_mem, decide_eq_false_iff_not, List.all_eq_true, decide_eq_true_eq]
  by_cases h : m ∈ b.arrived <;> simp [h]

/-! ### A phase ends, or does not (02 R32, R34) -/

/-- The phase of a barrier with the arrivals it now has. -/
def Crew.phase (c : Crew) (n : Nat) : Barrier := c.settleArrivals (c.barriers.getD n Barrier.empty)

/-- The members that may still arrive in a phase. -/
def Crew.mayArrive (c : Crew) (n : Nat) : List Nat :=
  c.members.filter fun m => match c.member? m with
    | some g => !g.finished && !(c.phase n).arrived.contains m
    | none => false

section
variable {c : Crew} {finish : Bool} {stamp n k : Nat} (hcount : (c.barriers.getD n Barrier.empty).count = some k)
include hcount

theorem Crew.settleBarrier_eq : c.settleBarrier finish stamp n =
    if k ≤ (c.phase n).arrived.length then
      { c.mapAllSlices (Slice.releaseBar n) with
        barriers := c.barriers.set n Barrier.empty
        gangs := (c.mapAllSlices (Slice.releaseBar n)).gangs.map (Gang.partAll stamp) }
    else if finish && (c.phase n).arrived.length + (c.mayArrive n).length < k then
      { c.mapAllSlices (Slice.killBar n) with barriers := c.barriers.set n Barrier.empty }
    else { c with barriers := c.barriers.set n (c.phase n) } := by
  simp only [Crew.settleBarrier, hcount]
  rfl

/-- A phase whose count is reached releases those who wait. -/
theorem Crew.settleBarrier_of_complete (h : k ≤ (c.phase n).arrived.length) :
    c.settleBarrier finish stamp n = { c.mapAllSlices (Slice.releaseBar n) with
      barriers := c.barriers.set n Barrier.empty
      gangs := (c.mapAllSlices (Slice.releaseBar n)).gangs.map (Gang.partAll stamp) } := by
  rw [Crew.settleBarrier_eq hcount, if_pos h]

/-- A phase that can no longer complete kills the wait of those who wait. -/
theorem Crew.settleBarrier_of_dead (h : (c.phase n).arrived.length < k)
    (hdead : finish = true ∧ (c.phase n).arrived.length + (c.mayArrive n).length < k) :
    c.settleBarrier finish stamp n =
      { c.mapAllSlices (Slice.killBar n) with barriers := c.barriers.set n Barrier.empty } := by
  rw [Crew.settleBarrier_eq hcount, if_neg (Nat.not_le.2 h), if_pos]
  exact Bool.and_eq_true_iff.2 ⟨hdead.1, decide_eq_true hdead.2⟩

/-- A phase that may still complete goes on. -/
theorem Crew.settleBarrier_of_open (h : (c.phase n).arrived.length < k)
    (hopen : ¬(finish = true ∧ (c.phase n).arrived.length + (c.mayArrive n).length < k)) :
    c.settleBarrier finish stamp n = { c with barriers := c.barriers.set n (c.phase n) } := by
  rw [Crew.settleBarrier_eq hcount, if_neg (Nat.not_le.2 h), if_neg]
  exact fun hdead => hopen ((Bool.and_eq_true_iff.1 hdead).imp_right of_decide_eq_true)

/-- What becomes of a slice of a member when a barrier settles: the phase completes, dies, or goes on. -/
theorem Crew.settleBarrier_slice {m i : Nat} {g : Gang} {sl : Slice} (hm : c.member? m = some g) (hs : g.slices[i]? = some sl) :
    ∃ h x, (c.settleBarrier finish stamp n).member? m = some h ∧ h.slices[i]? = some x ∧
      ((k ≤ (c.phase n).arrived.length ∧ ∃ q p, x = { sl.releaseBar n with party := q, stamp := p }) ∨
        ((c.phase n).arrived.length < k ∧ (finish = true ∧ (c.phase n).arrived.length + (c.mayArrive n).length < k) ∧
          x = sl.killBar n) ∨
        ((c.phase n).arrived.length < k ∧ ¬(finish = true ∧ (c.phase n).arrived.length + (c.mayArrive n).length < k) ∧
          x = sl)) := by
  have hmap (f : Slice → Slice) : ({ g with slices := g.slices.map f } : Gang).slices[i]? = some (f sl) := by
    simp [hs]
  by_cases hfull : k ≤ (c.phase n).arrived.length
  · rw [Crew.settleBarrier_of_complete hcount hfull, Crew.member?_mapGangs, Crew.member?_mapAllSlices, hm]
    obtain ⟨q, p, hpart⟩ := Gang.partAll_slice? stamp (hmap (Slice.releaseBar n))
    by_cases h16 : m = 16
    · exact ⟨_, _, congrArg some (if_pos h16), hmap (Slice.releaseBar n), .inl ⟨hfull, (sl.releaseBar n).party, _, rfl⟩⟩
    · exact ⟨_, _, congrArg some (if_neg h16), hpart, .inl ⟨hfull, q, p, rfl⟩⟩
  · have hshort := Nat.not_le.1 hfull
    by_cases hdead : finish = true ∧ (c.phase n).arrived.length + (c.mayArrive n).length < k
    · rw [Crew.settleBarrier_of_dead hcount hshort hdead, Crew.member?_barriers, Crew.member?_mapAllSlices, hm]
      exact ⟨_, _, rfl, hmap _, .inr (.inl ⟨hshort, hdead, rfl⟩)⟩
    · rw [Crew.settleBarrier_of_open hcount hshort hdead, Crew.member?_barriers, hm]
      exact ⟨_, _, rfl, hs, .inr (.inr ⟨hshort, hdead, rfl⟩)⟩

/-- Once a phase has ended, the barrier is empty again. -/
theorem Crew.settleBarrier_empty (hn : n < c.barriers.length) (hends : k ≤ (c.phase n).arrived.length ∨
      (finish = true ∧ (c.phase n).arrived.length + (c.mayArrive n).length < k)) :
    (c.settleBarrier finish stamp n).barriers.getD n Barrier.empty = Barrier.empty := by
  have hset : (c.barriers.set n Barrier.empty).getD n Barrier.empty = Barrier.empty := getD_set_self hn _ _
  by_cases hfull : k ≤ (c.phase n).arrived.length
  · rw [Crew.settleBarrier_of_complete hcount hfull]
    exact hset
  · rw [Crew.settleBarrier_of_dead hcount (Nat.not_le.1 hfull) (hends.resolve_left hfull)]
    exact hset

end

/-! ### Slices at a barrier -/

section
variable {sl : Slice} {n : Nat}

theorem Slice.barWait_of_running (h : sl.inHandler = false) : sl.barWait = sl.wait := by
  simp [Slice.barWait, h]

/-- A slice that waits at the barrier resumes after its BAR. -/
theorem Slice.releaseBar_of_waiting (hfin : sl.finished = false) (hrun : sl.inHandler = false) (hwait : sl.wait = .bar n) :
    sl.releaseBar n = ({ sl with wait := .none } : Slice).advance := by
  simp [Slice.releaseBar, hfin, hrun, Slice.barWait_of_running hrun, hwait]

/-- A slice that waits at a dead barrier takes BARDEAD at its BAR. -/
theorem Slice.killBar_of_waiting (hfin : sl.finished = false) (hrun : sl.inHandler = false) (hwait : sl.wait = .bar n) :
    sl.killBar n = { sl with wait := .trap .barDead } := by
  simp [Slice.killBar, hfin, hrun, Slice.barWait_of_running hrun, hwait]

theorem Slice.releaseBar_of_elsewhere (h : sl.barWait ≠ .bar n) : sl.releaseBar n = sl :=
  if_pos (by simp [h])

theorem Slice.killBar_of_elsewhere (h : sl.barWait ≠ .bar n) : sl.killBar n = sl :=
  if_pos (by simp [h])

end

end Sys2Proof.Machine
end

section
open Sys2Proof Sys2Proof.Machine

/-- Settles O52: who has arrived, what becomes of a slice that waits at the barrier, and of one that does not. -/
theorem barrierPhasesEnd : Obligations.BarrierPhasesEnd := by
  intro c finish stamp n k hn hcount b left d
  refine ⟨fun m g hm => Crew.mem_settleArrivals c _ hm, fun m i g sl hm hs hfin hrun hwait => ?_,
    fun m i g sl hm hs helse => ?_⟩
  · obtain ⟨h, x, hmem, hslice, hx⟩ := Crew.settleBarrier_slice (finish := finish) (stamp := stamp) hcount hm hs
    refine ⟨h, x, hmem, hslice, ?_⟩
    rcases hx with ⟨hfull, q, p, rfl⟩ | ⟨hshort, hdead, rfl⟩ | ⟨hshort, hopen, rfl⟩
    · rw [Slice.releaseBar_of_waiting hfin hrun hwait]
      exact ⟨fun _ => ⟨rfl, rfl, Crew.settleBarrier_empty hcount hn (.inl hfull)⟩, fun hk => absurd hfull (Nat.not_le.2 hk),
        fun hk => absurd hfull (Nat.not_le.2 hk)⟩
    · rw [Slice.killBar_of_waiting hfin hrun hwait]
      refine ⟨fun hk => absurd hk (Nat.not_le.2 hshort),
        fun _ _ _ => ⟨rfl, rfl, Crew.settleBarrier_empty hcount hn (.inr hdead)⟩, fun _ hlive => ?_⟩
      rcases hlive with hgoes | hmany
      · exact absurd (hdead.1.symm.trans hgoes) (by decide)
      · exact absurd hdead.2 (Nat.not_lt.2 hmany)
    · exact ⟨fun hk => absurd hk (Nat.not_le.2 hshort), fun _ hf hfew => absurd ⟨hf, hfew⟩ hopen, fun _ _ => rfl⟩
  · obtain ⟨h, x, hmem, hslice, hx⟩ := Crew.settleBarrier_slice (finish := finish) (stamp := stamp) hcount hm hs
    refine ⟨h, x, hmem, hslice, ?_⟩
    rw [Slice.releaseBar_of_elsewhere helse, Slice.killBar_of_elsewhere helse] at hx
    rcases hx with ⟨-, q, p, rfl⟩ | ⟨-, -, rfl⟩ | ⟨-, -, rfl⟩ <;> exact ⟨rfl, rfl, rfl⟩

end

section
/-! What a word that issues leaves alone (02 R22; 03 R53): reading its operands changes port queues only, and what it does
to its own gang changes no other member, no other crew and no memory. -/

namespace Sys2Proof.Claim
open Sys2Proof Sys2Proof.Machine

variable {s s' t u : State} {c : Ctx}

/-! ### Reading operands (03 R53) -/

/-- From one state to another only port queues have changed. -/
def PortsOnly (s t : State) : Prop :=
  t = { s with clusters := t.clusters } ∧ ∀ k, t.cluster k = { s.cluster k with ports := (t.cluster k).ports }

theorem PortsOnly.refl (s : State) : PortsOnly s s := ⟨rfl, fun _ => rfl⟩

theorem PortsOnly.trans (h : PortsOnly s t) (h' : PortsOnly t u) : PortsOnly s u := by
  obtain ⟨hst, hk⟩ := h
  obtain ⟨htu, hk'⟩ := h'
  exact ⟨by rw [htu, hst], fun k => by rw [hk' k, hk k]⟩

theorem PortsOnly.of_mapPort (s : State) (k p : Nat) (f : Port → Port) : PortsOnly s (s.mapPort k p f) := by
  refine ⟨rfl, fun n => ?_⟩
  by_cases h : n = k
  · subst h
    rw [State.mapPort_eq, State.cluster_mapCluster_self]
  · rw [State.mapPort_eq, State.cluster_mapCluster_other _ _ _ _ h]

theorem exceptBind_eq_ok {α β : Type} {x : Except Stop α} {f : α → Except Stop β} {b : β} (h : (x >>= f) = .ok b) :
    ∃ a, x = .ok a ∧ f a = .ok b := by
  cases x with
  | error e => cases h
  | ok a => exact ⟨a, rfl, h⟩

theorem fetchLanes_portsOnly {use : Slice → Use} {ls vs : List Nat} (h : c.fetchLanes use ls s = .ok (vs, s')) :
    PortsOnly s s' := by
  induction ls generalizing s vs with
  | nil =>
    cases h
    exact .refl _
  | cons l ls ih =>
    simp only [Ctx.fetchLanes] at h
    split at h
    · obtain ⟨⟨ws, t⟩, hrest, h⟩ := exceptBind_eq_ok h
      cases h
      exact ih hrest
    · split at h
      · cases h
      · obtain ⟨⟨ws, t⟩, hrest, h⟩ := exceptBind_eq_ok h
        cases h
        exact (PortsOnly.of_mapPort _ _ _ _).trans (ih hrest)

/-- Reading operands changes port queues only. -/
theorem fetch_portsOnly {uses : Slice → List Use} {ks : List Nat} {args : List (List Nat)}
    (h : c.fetch uses ks s = .ok (args, s')) : PortsOnly s s' := by
  induction ks generalizing s args with
  | nil =>
    cases h
    exact .refl _
  | cons k ks ih =>
    simp only [Ctx.fetch] at h
    obtain ⟨⟨v, t⟩, hlanes, h⟩ := exceptBind_eq_ok h
    obtain ⟨⟨vs, u⟩, hrest, h⟩ := exceptBind_eq_ok h
    cases h
    exact (fetchLanes_portsOnly hlanes).trans (ih hrest)

/-! ### An update of the issuing gang (02 R22) -/

/-- Two updates of the issuing gang are one. -/
theorem mapIssuer_mapIssuer (s : State) (c : Ctx) (F G : Gang → Gang) :
    (s.mapIssuer c F).mapIssuer c G = s.mapIssuer c fun g => G (F g) := by
  have hmember (k : Crew) : (k.mapMember c.member F).mapMember c.member G = k.mapMember c.member fun g => G (F g) := by
    unfold Crew.mapMember
    split
    · simp [Function.comp_def]
    · simp [listModify, List.modify_modify_eq, Function.comp_def]
  have hcrews : modifyWhere (·.id == c.crew.id) (·.mapMember c.member G)
      (modifyWhere (·.id == c.crew.id) (·.mapMember c.member F) s.crews) =
        modifyWhere (·.id == c.crew.id) (·.mapMember c.member fun g => G (F g)) s.crews := by
    simp only [modifyWhere, List.map_map]
    refine List.map_congr_left fun k _ => ?_
    by_cases hk : k.id = c.crew.id <;> simp [hk, hmember]
  simp only [State.mapIssuer_eq, State.mapCrew, hcrews]

theorem crew?_of_crews_eq {w : State} (hw : w.crews = s.crews) (id : Nat) : w.crew? id = s.crew? id := by
  rw [State.crew?, hw]
  rfl

section
variable {w : State} (h : s.issuer? = some c) (hw : w.crews = s.crews) (F : Gang → Gang)
include h

theorem regOf_issuer (l : Nat) (r : RegName) : regOf s c.crew.id c.member l r = c.gang.readReg l r := by
  obtain ⟨hcrew, hmember, -, -⟩ := State.issuer?_eq_some h
  simp only [regOf, hcrew, Option.bind_some, hmember]

include hw

theorem crew?_mapIssuer : (w.mapIssuer c F).crew? c.crew.id = some (c.crew.mapMember c.member F) := by
  obtain ⟨hcrew, -, -, -⟩ := State.issuer?_eq_some h
  rw [State.mapIssuer_eq, State.crew?_mapCrew _ _ _ _ fun k => Crew.mapMember_id k _ _, if_pos rfl,
    crew?_of_crews_eq hw, hcrew]
  rfl

omit h in
theorem crew?_mapIssuer_other {id : Nat} (hid : id ≠ c.crew.id) : (w.mapIssuer c F).crew? id = s.crew? id := by
  rw [State.mapIssuer_eq, State.crew?_mapCrew _ _ _ _ fun k => Crew.mapMember_id k _ _, if_neg hid, crew?_of_crews_eq hw]

/-- The issuing gang after its update. -/
theorem member?_mapIssuer : ((w.mapIssuer c F).crew? c.crew.id).bind (·.member? c.member) = some (F c.gang) := by
  obtain ⟨-, hmember, -, -⟩ := State.issuer?_eq_some h
  rw [crew?_mapIssuer h hw, Option.bind_some, Crew.member?_mapMember, if_pos rfl, hmember]
  rfl

theorem regOf_mapIssuer (l : Nat) (r : RegName) :
    regOf (w.mapIssuer c F) c.crew.id c.member l r = (F c.gang).readReg l r := by
  simp only [regOf, member?_mapIssuer h hw]

theorem sameCrew_mapIssuer : SameCrew s (w.mapIssuer c F) c := by
  obtain ⟨hcrew, -, -, -⟩ := State.issuer?_eq_some h
  refine ⟨hcrew, _, crew?_mapIssuer h hw F, ?_⟩
  unfold Crew.mapMember
  split <;> rfl

/-- Every other crew, every other member, and the crew's ASID register are as they were. -/
theorem sameOthers_mapIssuer : SameOthers s (w.mapIssuer c F) c.crew.id c.member := by
  obtain ⟨hcrew, -, -, -⟩ := State.issuer?_eq_some h
  refine ⟨?_, fun id hid => crew?_mapIssuer_other hw F hid, fun n hn => ?_⟩
  · rw [crew?_mapIssuer h hw, hcrew]
    unfold Crew.mapMember
    split <;> rfl
  · rw [crew?_mapIssuer h hw, hcrew, Option.bind_some, Option.bind_some, Crew.member?_mapMember, if_neg hn]

end

theorem mapMember_coreMem (k : Crew) (m : Nat) (F : Gang → Gang) : (k.mapMember m F).coreMem = k.coreMem := by
  unfold Crew.mapMember
  split <;> rfl

theorem mapMember_cluMem (k : Crew) (m : Nat) (F : Gang → Gang) : (k.mapMember m F).cluMem = k.cluMem := by
  unfold Crew.mapMember
  split <;> rfl

/-- Local memory stays as it was when an update of the issuing gang leaves the memory of its lanes alone. -/
theorem readLocal_mapIssuer (h : s.issuer? = some c) {w : State} (hw : w.crews = s.crews) (hchip : w.chip = s.chip)
    (hfree : w.chipFree = s.chipFree) {F : Gang → Gang} (hpriv : ∀ l, ((F c.gang).lane l).priv = (c.gang.lane l).priv)
    (crew m n : Nat) (p : Place) : (w.mapIssuer c F).readLocal crew m p n = s.readLocal crew m p n := by
  obtain ⟨hcrew, hmember, -, -⟩ := State.issuer?_eq_some h
  obtain ⟨-, hother, hmembers⟩ := sameOthers_mapIssuer h hw F
  cases p with
  | chip d off =>
    simp only [State.readLocal, State.chipByte, State.mapIssuer_eq, State.mapCrew_chip, State.mapCrew_chipFree, hchip, hfree]
  | global va => rfl
  | priv lane off =>
    by_cases hid : crew = c.crew.id
    · subst hid
      by_cases hm : m = c.member
      · subst hm
        simp only [State.readLocal, member?_mapIssuer h hw, hcrew, Option.bind_some, hmember, hpriv]
      · simp only [State.readLocal, hmembers m hm]
    · simp only [State.readLocal, hother crew hid]
  | core k off =>
    by_cases hid : crew = c.crew.id
    · subst hid
      simp only [State.readLocal, crew?_mapIssuer h hw, hcrew, mapMember_coreMem]
    · simp only [State.readLocal, hother crew hid]
  | clu off =>
    by_cases hid : crew = c.crew.id
    · subst hid
      simp only [State.readLocal, crew?_mapIssuer h hw, hcrew, mapMember_cluMem]
    · simp only [State.readLocal, hother crew hid]

/-- An update of the issuing gang that leaves the memory of its lanes alone changes no byte of memory, beside new flights, port
queues and counts. -/
theorem sameMemory_mapIssuer (h : s.issuer? = some c) {w : State}
    (hw : w = { s with clusters := w.clusters, issued := w.issued, serial := w.serial, flights := w.flights })
    {F : Gang → Gang} (hpriv : ∀ l, ((F c.gang).lane l).priv = (c.gang.lane l).priv) :
    SameMemory s (w.mapIssuer c F) := by
  refine ⟨fun a => ?_, fun asid line => ?_, fun a => ?_, fun crew m p => ?_⟩
  · rw [hw]
    rfl
  · rw [hw]
    rfl
  · rw [hw]
    rfl
  · exact readLocal_mapIssuer h (by rw [hw]) (by rw [hw]) (by rw [hw]) hpriv crew m 1 p

end Sys2Proof.Claim
end

section
/-! The issuing gang when a word has issued (02 R22, R25; 03 R66): its slices have moved on, and nothing else of it. -/

namespace Sys2Proof.Claim
open Sys2Proof Sys2Proof.Machine

variable {s : State} {c : Ctx}

theorem slice_of_getElem? {g : Gang} {i : Nat} {sl : Slice} (h : g.slices[i]? = some sl) : g.slice i = sl := by
  simp [Gang.slice, List.getD_eq_getElem?_getD, h]

theorem slice_of_none {g : Gang} {i : Nat} (h : g.slices[i]? = none) : g.slice i = noSlice := by
  simp [Gang.slice, List.getD_eq_getElem?_getD, h]

/-- The issuing gang after a word that goes on to the next instruction. -/
def issueNext (c : Ctx) (stamp : Nat) (g : Gang) : Gang :=
  (g.mapSlices c.sls fun sl => (sl.countIssue stamp).advance).part c.party stamp

theorem retireNext_eq (s : State) (c : Ctx) :
    s.retireNext c = State.mapIssuer { s with issued := s.issued + 1 } c (issueNext c (s.issued + 1)) := rfl

/-- Issue changes slices and party numbers only. -/
theorem issueNext_eq (c : Ctx) (stamp : Nat) (g : Gang) : issueNext c stamp g =
    { g with slices := (issueNext c stamp g).slices, nextParty := (issueNext c stamp g).nextParty } := rfl

/-- Going on moves no slice to another party, and finishes none. -/
theorem partySlices_mapSlices (g : Gang) (is : List Nat) (f : Slice → Slice) (p : Nat)
    (hf : ∀ sl, (f sl).finished = sl.finished ∧ (f sl).party = sl.party) :
    (g.mapSlices is f).partySlices p = g.partySlices p := by
  have hslice (i : Nat) : ((g.mapSlices is f).slice i).finished = (g.slice i).finished ∧
      ((g.mapSlices is f).slice i).party = (g.slice i).party := by
    cases hi : g.slices[i]? with
    | none => rw [slice_of_none hi, slice_of_none (by simp [Gang.mapSlices, hi])]; exact ⟨rfl, rfl⟩
    | some sl =>
      rw [slice_of_getElem? hi, slice_of_getElem? (g := g.mapSlices is f)
        (sl := if is.contains i then f sl else sl) (by simp [Gang.mapSlices, hi])]
      split
      · exact hf sl
      · exact ⟨rfl, rfl⟩
  simp only [Gang.partySlices, Gang.mapSlices, List.length_mapIdx] at hslice ⊢
  refine List.filter_congr fun i _ => ?_
  rw [(hslice i).1, (hslice i).2]

/-- Where a slice of the gang stands after issue: it has moved on, if it issued. -/
theorem issueNext_slice (stamp : Nat) (g : Gang) (hsls : c.sls = g.partySlices c.party) (k : Nat) :
    ∃ q n, (issueNext c stamp g).slice k =
        { (if c.sls.contains k then ((g.slice k).countIssue stamp).advance else g.slice k) with party := q, stamp := n } ∧
      (c.sls.contains k = false → (issueNext c stamp g).slice k = g.slice k) := by
  cases hk : g.slices[k]? with
  | none =>
    have hout : c.sls.contains k = false := by
      rw [hsls, Bool.eq_false_iff]
      intro hin
      obtain ⟨hlt, -⟩ := Gang.mem_partySlices.1 (List.contains_iff_mem.1 hin)
      exact absurd hlt (Nat.not_lt.2 (List.getElem?_eq_none_iff.1 hk))
    have hslice : (issueNext c stamp g).slice k = g.slice k := by
      rw [slice_of_none hk]
      exact slice_of_none (by simp [issueNext, Gang.part, Gang.mapSlices, hk])
    rw [hslice, hout]
    exact ⟨(g.slice k).party, (g.slice k).stamp, rfl, fun _ => rfl⟩
  | some sl =>
    have hmoved : (g.mapSlices c.sls fun sl => (sl.countIssue stamp).advance).slices[k]? =
        some (if c.sls.contains k then (sl.countIssue stamp).advance else sl) := by
      simp [Gang.mapSlices, hk]
    obtain ⟨q, n, hpart, hout⟩ := Gang.part_slice? c.party stamp hmoved
    rw [partySlices_mapSlices g c.sls (fun sl => (sl.countIssue stamp).advance) c.party fun _ => ⟨rfl, rfl⟩,
      ← hsls] at hout
    rw [show (issueNext c stamp g).slice k = _ from slice_of_getElem? hpart, slice_of_getElem? hk]
    refine ⟨q, n, rfl, fun hc => ?_⟩
    obtain ⟨rfl, rfl⟩ := hout fun hin => absurd (List.contains_iff_mem.2 hin) (Bool.eq_false_iff.1 hc)
    rw [hc]
    rfl

/-- A slice after issue, beside the one before (02 R22). -/
theorem issueNext_movedOn (stamp : Nat) (g : Gang) (hsls : c.sls = g.partySlices c.party) (k : Nat) :
    SameSpecials (g.slice k) ((issueNext c stamp g).slice k) ∧
      MovedOn (c.sls.contains k) (g.slice k) ((issueNext c stamp g).slice k) := by
  obtain ⟨q, n, hslice, hout⟩ := issueNext_slice stamp g hsls k
  cases hc : c.sls.contains k with
  | false =>
    rw [hout hc]
    exact ⟨⟨rfl, rfl, rfl, rfl, rfl, rfl, rfl, rfl, rfl, rfl⟩, rfl, fun _ => rfl, fun h => absurd h (by decide)⟩
  | true =>
    rw [hc, if_pos rfl] at hslice
    rw [hslice]
    exact ⟨⟨rfl, rfl, rfl, rfl, rfl, rfl, rfl, rfl, rfl, rfl⟩, rfl, fun h => absurd h (by decide), fun _ => rfl⟩

end Sys2Proof.Claim
end

section
/-! Words that access memory (16 R385): each is one body, and at issue it puts its parts in flight and changes no register. -/

namespace Sys2Proof.Claim
open Sys2Proof Sys2Proof.Machine

variable {s s' : State} {c : Ctx} {i : Instr} {args : List (List Nat)} {a : Access}

/-! ### The body of an access word -/

/-- The access of a word, as its body makes it. -/
def Access.issue (a : Access) (c : Ctx) (s : State) (i : Instr) : Except Stop State :=
  c.access s i a.what a.align (if a.globalOnly then Place.isGlobal else anyPlace) (fun _ => a.path) a.addrs a.datas

/-- What an access word does with its operands. -/
def accessBody (i : Instr) (c : Ctx) (args : List (List Nat)) (s : State) : Except Stop State :=
  match accessOf args i with
  | some a => a.issue c s i
  | none => .error .wait

/-- Every access word runs as `accessBody` says. -/
theorem exec_of_accessOf (h : accessOf args i = some a) (s : State) :
    exec i s = runOp i (needs i) (accessBody i) s := by
  cases i with
  | ld | ldw | ldq | lda | mon | st | stw | stq | stl | aadd | amin | amax | aand | aor | axor | axch | acas | afadd
  | jdec | prom | spawn => rfl
  | _ => cases h

/-- The parts of an access word are sent when it issues. -/
theorem accessOf_start (h : accessOf args i = some a) : a.what.start = .sent := by
  cases i with
  | ld | ldw | ldq | lda | mon | st | stw | stq | stl | aadd | amin | amax | aand | aor | axor | axch | acas | afadd
  | jdec | prom | spawn =>
    cases h
    rfl
  | _ => cases h

/-- Addresses that may be named, and are aligned, pass their checks (16 R385). -/
theorem Access.checkAddrs_ok (h : a.reaches c s) :
    c.checkAddrs s a.addrs a.what.size a.align (if a.globalOnly then Place.isGlobal else anyPlace) = .ok () := by
  obtain ⟨hplace, halign⟩ := h
  unfold Ctx.checkAddrs
  rw [if_neg, if_neg]
  · simpa using halign
  · simp only [List.any_eq_true, not_exists, not_and]
    rintro ⟨l, x⟩ hx hnone
    obtain ⟨q, hq, hglobal⟩ := hplace _ hx
    simp only [hq, Option.filter_some] at hnone
    cases hg : a.globalOnly with
    | false => simp [hg, anyPlace] at hnone
    | true => simp [hg, hglobal hg] at hnone

theorem Access.accessReady_ok (h : a.hasRoom c s) : c.accessReady s a.path a.addrs = .ok () := by
  have hready : (c.lanes.isEmpty || (c.pathRoom a.path && (!anyGlobal a.addrs || s.parkRoom c))) = true := by
    by_cases hl : c.lanes = []
    · simp [hl]
    · obtain ⟨hpath, hpark⟩ := h hl
      cases hg : anyGlobal a.addrs with
      | false => simp [Ctx.pathRoom, hpath]
      | true => simp [Ctx.pathRoom, hpath, hpark hg]
  unfold Ctx.accessReady
  rw [hready]
  rfl

/-- An access whose addresses pass, and that has room, goes in flight. -/
theorem Access.issue_ok (hreach : a.reaches c s) (hroom : a.hasRoom c s) :
    a.issue c s i = .ok (s.issueFlight c i { a.what with path := some a.path } a.addrs a.datas []) := by
  unfold Access.issue Ctx.access
  rw [checkAddrs_ok hreach, accessReady_ok hroom]
  rfl

theorem exec_access (h : Issues s c i args s') (ha : accessOf args i = some a) (hreach : a.reaches c s')
    (hroom : a.hasRoom c s') :
    exec i s = .next (s'.issueFlight c i { a.what with path := some a.path } a.addrs a.datas []) := by
  rw [exec_of_accessOf ha]
  refine h.runOp_ok ?_
  simp only [accessBody, ha]
  exact Access.issue_ok hreach hroom

/-! ### Issue of an instruction in flight (03 R57, R66) -/

/-- From one gang to another only slices, paths and party numbers have changed, and no slice's special registers. -/
def SpecialsKept (g g' : Gang) : Prop :=
  g' = { g with slices := g'.slices, paths := g'.paths, nextParty := g'.nextParty } ∧
  ∀ k, SameSpecials (g.slice k) (g'.slice k)

theorem SpecialsKept.trans {g g' g'' : Gang} (h : SpecialsKept g g') (h' : SpecialsKept g' g'') : SpecialsKept g g'' := by
  obtain ⟨hg, hs⟩ := h
  obtain ⟨hg', hs'⟩ := h'
  refine ⟨by rw [hg', hg], fun k => ?_⟩
  have hk := hs k
  have hk' := hs' k
  simp only [SameSpecials] at hk hk' ⊢
  simp only [hk', hk, and_self]

theorem SpecialsKept.readReg {g g' : Gang} (h : SpecialsKept g g') (l : Nat) (r : RegName) :
    g'.readReg l r = g.readReg l r := by
  obtain ⟨hg, -⟩ := h
  rw [hg]
  cases r <;> rfl

theorem issueNext_specialsKept (stamp : Nat) (g : Gang) (hsls : c.sls = g.partySlices c.party) :
    SpecialsKept g (issueNext c stamp g) :=
  ⟨issueNext_eq c stamp g, fun k => (issueNext_movedOn stamp g hsls k).1⟩

/-- The issuing gang with an instruction put in flight: its scoreboard bits, and its place on its path. -/
def launchGang (c : Ctx) (o : Launching) (fl : Nat) (ps : List Part) (g : Gang) : Gang :=
  { g with
    slices := g.slices.mapIdx fun k sl =>
      if c.sls.contains k then { sl with pend := sl.pend ++ pendOf fl o.la (o.dst.bind fun u => c.port? (u c.first)) ps k } else sl
    paths := match o.path with
      | some p => listModify g.paths p (· ++ [⟨fl, false⟩])
      | none => g.paths }

theorem launchGang_specialsKept (o : Launching) (fl : Nat) (ps : List Part) (g : Gang) :
    SpecialsKept g (launchGang c o fl ps g) := by
  refine ⟨rfl, fun k => ?_⟩
  cases hk : g.slices[k]? with
  | none =>
    rw [slice_of_none hk, slice_of_none (by simp [launchGang, hk])]
    exact ⟨rfl, rfl, rfl, rfl, rfl, rfl, rfl, rfl, rfl, rfl⟩
  | some sl =>
    have hlaunched := slice_of_getElem? (g := launchGang c o fl ps g) (i := k)
      (sl := if c.sls.contains k then
        { sl with pend := sl.pend ++ pendOf fl o.la (o.dst.bind fun u => c.port? (u c.first)) ps k } else sl)
      (by simp [launchGang, hk])
    rw [hlaunched, slice_of_getElem? hk]
    split <;> exact ⟨rfl, rfl, rfl, rfl, rfl, rfl, rfl, rfl, rfl, rfl⟩

/-- What starting an instruction changes: a flight with its parts, the port it will push to, and the issuing gang. -/
theorem startFlight_eq (s : State) (c : Ctx) (i : Instr) (o : Launching) (ps : List Part) :
    ∃ w : State, s.startFlight c i o ps = w.mapIssuer c (launchGang c o s.serial ps) ∧
      w = { s with clusters := w.clusters, serial := w.serial, flights := w.flights } ∧
      ∃ f, w.flights = s.flights ++ [f] ∧ f.id = s.serial ∧ f.kind = o.kind ∧ f.slices = c.sls ∧ f.parts = ps := by
  unfold State.startFlight
  refine ⟨_, rfl, ?_, ?_⟩
  · split <;> rfl
  · split <;> exact ⟨_, rfl, rfl, rfl, rfl, rfl⟩

/-- What issuing an access changes: the issuing gang's slices and paths, port queues, counts, and one flight with a part
for each active lane, if there is one. -/
theorem issueFlight_eq (s : State) (c : Ctx) (i : Instr) (o : Launching) (addrs datas results : List Nat)
    (hsls : c.sls = c.gang.partySlices c.party) :
    ∃ (w : State) (F : Gang → Gang), s.issueFlight c i o addrs datas results = w.mapIssuer c F ∧
      w = { s with clusters := w.clusters, issued := w.issued, serial := w.serial, flights := w.flights } ∧
      SpecialsKept c.gang (F c.gang) ∧ (c.lanes = [] → w.flights = s.flights) ∧
      (c.lanes ≠ [] → ∃ f, w.flights = s.flights ++ [f] ∧ f.id = s.serial ∧ f.kind = o.kind ∧ f.slices = c.sls ∧
        f.parts = c.parts o addrs datas results) := by
  have hnext := issueNext_specialsKept (s.issued + 1) c.gang hsls
  unfold State.issueFlight
  by_cases hl : c.lanes = []
  · rw [if_pos (List.isEmpty_iff.2 hl)]
    exact ⟨_, _, retireNext_eq s c, rfl, hnext, fun _ => rfl, fun h => absurd hl h⟩
  · rw [if_neg (List.isEmpty_iff.not.2 hl)]
    obtain ⟨w, hstart, hw, f, hflights, hf⟩ := startFlight_eq (s.retireNext c) c i o (c.parts o addrs datas results)
    have hmerge : w = State.mapIssuer
        { s with clusters := w.clusters, issued := w.issued, serial := w.serial, flights := w.flights } c
        (issueNext c (s.issued + 1)) := by
      rw [hw, retireNext_eq]
      rfl
    rw [hstart, hmerge, mapIssuer_mapIssuer]
    refine ⟨_, _, rfl, rfl, hnext.trans (launchGang_specialsKept _ _ _ _), fun h => absurd h hl, fun _ => ⟨f, hflights, hf⟩⟩

/-- The part of an active lane (16 R385). -/
theorem parts_getElem? {o : Launching} {addrs datas results : List Nat} {k : Nat} {p : Part}
    (h : (c.parts o addrs datas results)[k]? = some p) :
    p.lane = c.lanes.getD k 0 ∧ p.size = o.size ∧ p.state = o.start ∧
      p.addr = BitVec.ofNat 64 (addrs.getD k 0) ∧ p.data = BitVec.ofNat 128 (datas.getD k 0) := by
  simp only [Ctx.parts, List.getElem?_mapIdx, Option.map_eq_some_iff] at h
  obtain ⟨l, hl, rfl⟩ := h
  exact ⟨by simp [hl], rfl, rfl, by simp, by simp⟩

theorem length_parts (c : Ctx) (o : Launching) (addrs datas results : List Nat) :
    (c.parts o addrs datas results).length = c.lanes.length := by
  simp [Ctx.parts]

end Sys2Proof.Claim
end

section
open Sys2Proof Sys2Proof.Machine Sys2Proof.Claim

/-- Settles O43: an access puts one flight on its way by an update of the issuing gang's slices and paths alone. -/
theorem accessesChangeNothingAtIssue : Obligations.AccessesChangeNothingAtIssue := by
  intro s s' t c i args a h ha hreach hroom hexec
  obtain ⟨-, -, hsls, -⟩ := State.issuer?_eq_some h.live
  obtain ⟨hports, -⟩ := fetch_portsOnly h.fetched
  rw [exec_access h ha hreach hroom] at hexec
  cases hexec
  obtain ⟨w, F, heq, hw', hkept, hnone, hsome⟩ :=
    issueFlight_eq s' c i { a.what with path := some a.path } a.addrs a.datas [] hsls
  have hw : w = { s with clusters := w.clusters, issued := w.issued, serial := w.serial, flights := w.flights } := by
    rw [hw', hports]
  have hcrews : w.crews = s.crews := by rw [hw]
  have hflights : s'.flights = s.flights := by rw [hports]
  have hserial : s'.serial = s.serial := by rw [hports]
  rw [heq]
  obtain ⟨hgang, hspecials⟩ := hkept
  have hlane : (F c.gang).lanes = c.gang.lanes := by rw [hgang]
  refine ⟨?_, sameMemory_mapIssuer h.live hw ?_, sameOthers_mapIssuer h.live hcrews F, fun l r => ?_,
    ⟨F c.gang, member?_mapIssuer h.live hcrews F, ?_, hspecials, fun l => by rw [Gang.lane, hlane]; rfl⟩, fun hl => ?_,
    fun hl => ?_⟩
  · rw [State.mapIssuer_eq, hw]
    rfl
  · intro l
    rw [Gang.lane, hlane]
    rfl
  · rw [regOf_mapIssuer h.live hcrews, regOf_issuer h.live]
    exact SpecialsKept.readReg ⟨hgang, hspecials⟩ l r
  · rw [hgang]
    exact ⟨rfl, rfl, rfl, rfl, rfl, rfl, rfl, rfl, rfl, rfl, rfl, rfl, rfl⟩
  · exact (hnone hl).trans hflights
  · obtain ⟨f, hf, hid, hkind, hslices, hparts⟩ := hsome hl
    refine ⟨f, hf.trans (by rw [hflights]), hid.trans hserial, hkind, hslices, by rw [hparts, length_parts], fun k p hp => ?_⟩
    rw [hparts] at hp
    obtain ⟨hl, hsize, hstate, haddr, hdata⟩ := parts_getElem? hp
    exact ⟨hl, hsize, hstate.trans (accessOf_start ha), haddr, hdata⟩

end

section
/-! Register writes (03 R50, R51, R54): what a register reads after a write to it and to another, of one register, of the
registers of a field, and of the destination field of every active lane. -/

namespace Sys2Proof.Machine
open Sys2Proof

variable {g g' g'' : Gang} {l m : Nat} {r r' : RegName} {rs : List RegName} {v : Nat}

/-! ### One register -/

/-- Registers of which every lane has its own (03 R50, R59). -/
def RegName.perLane : RegName → Bool
  | .v _ | .s _ | .h _ => true
  | _ => false

/-- Bits of a register of a gang, or of the easel (03 R50, R59). -/
def Gang.regBits (g : Gang) : Nat := if g.isSeq then 64 else 32

/-- A lane of the gang has the register. -/
def Gang.Has (g : Gang) (l : Nat) : RegName → Prop
  | .v _ => g.isSeq = false ∧ l < g.lanes.length
  | .s _ => g.isSeq = true ∧ l < g.lanes.length
  | .h _ => l < g.lanes.length
  | .g i => i < if g.isSeq then g.gs.length else g.g.length
  | _ => False

@[simp] theorem Gang.isSeq_mapLane (g : Gang) (l : Nat) (f : Lane → Lane) : (g.mapLane l f).isSeq = g.isSeq := rfl

@[simp] theorem tabGet_insert_self {α : Type} (t : Table α) (k : Nat) (u d : α) : tabGet (tabInsert t k u) k d = u := by
  simp [tabGet, tabFind_insert_self]

theorem tabGet_insert_other {α : Type} (t : Table α) (u d : α) {k n : Nat} (h : n ≠ k) :
    tabGet (tabInsert t k u) n d = tabGet t n d := by
  simp [tabGet, tabFind_insert_other t k n u h]

/-- A register reads what was written to it, cut to its bits; a g register does so in every lane. -/
theorem Gang.readReg_writeReg_self (h : g.Has l r) (hm : r.perLane = true → m = l) :
    (g.writeReg l r v).readReg m r = v % 2 ^ g.regBits := by
  cases r with
  | v i =>
    obtain ⟨hseq, hl⟩ := h
    obtain rfl := hm rfl
    simp [writeReg, readReg, lane_mapLane_self _ _ _ hl, regBits, hseq]
  | s i =>
    obtain ⟨hseq, hl⟩ := h
    obtain rfl := hm rfl
    simp [writeReg, readReg, lane_mapLane_self _ _ _ hl, regBits, hseq]
  | h i =>
    obtain rfl := hm rfl
    cases hseq : g.isSeq <;> simp [writeReg, readReg, lane_mapLane_self _ _ _ h, regBits, hseq]
  | g i =>
    cases hseq : g.isSeq <;> simp_all [Has, writeReg, readReg, regBits]
  | palette | port => exact h.elim

/-- The lane after an update of one: updated if it is that lane, and there. -/
theorem Gang.lane_mapLane_cases (g : Gang) (l m : Nat) (f : Lane → Lane) :
    (g.mapLane l f).lane m = g.lane m ∨ m = l ∧ (g.mapLane l f).lane m = f (g.lane m) := by
  by_cases hm : m = l
  · subst hm
    by_cases hl : m < g.lanes.length
    · exact .inr ⟨rfl, g.lane_mapLane_self m f hl⟩
    · exact .inl (by simp [lane, mapLane, listModify, hl])
  · exact .inl (g.lane_mapLane_other l m f hm)

theorem Gang.readReg_congr (hseq : g'.isSeq = g.isSeq) (hg : g'.g = g.g) (hgs : g'.gs = g.gs)
    (hpalette : g'.palette = g.palette) (hlane : g'.lane m = g.lane m) (r : RegName) :
    g'.readReg m r = g.readReg m r := by
  cases r <;> simp only [readReg, hseq, hg, hgs, hpalette, hlane]

/-- A write to a register leaves every other, and that of every other lane. -/
theorem Gang.readReg_writeReg_other (h : r' ≠ r ∨ (m ≠ l ∧ r.perLane = true)) :
    (g.writeReg l r v).readReg m r' = g.readReg m r' := by
  have hne (hm : m = l) : r' ≠ r := h.resolve_right fun hl => hl.1 hm
  have hlanes (f : Lane → Lane)
      (hf : r' ≠ r → (g.mapLane l f).lane m = f (g.lane m) → (g.mapLane l f).readReg m r' = g.readReg m r') :
      (g.mapLane l f).readReg m r' = g.readReg m r' := by
    obtain hsame | ⟨hm, hlane⟩ := g.lane_mapLane_cases l m f
    · exact readReg_congr (g := g) (g' := g.mapLane l f) rfl rfl rfl rfl hsame r'
    · exact hf (hne hm) hlane
  cases r with
  | v i =>
    refine hlanes _ fun hr hlane => ?_
    cases r' with
    | v j => simp only [readReg, hlane, tabGet_put_other _ _ _ _ _ _ fun h : j = i => hr (by rw [h])]
    | s | h => simp only [readReg, hlane, isSeq_mapLane]
    | g | palette | port => rfl
  | s i =>
    refine hlanes _ fun hr hlane => ?_
    cases r' with
    | s j => simp only [readReg, hlane, tabGet_put_other _ _ _ _ _ _ fun h : j = i => hr (by rw [h])]
    | v | h => simp only [readReg, hlane, isSeq_mapLane]
    | g | palette | port => rfl
  | h i =>
    refine hlanes _ fun hr hlane => ?_
    cases r' with
    | h j =>
      have hj : j ≠ i := fun h => hr (by rw [h])
      simp only [readReg, hlane, isSeq_mapLane]
      split <;> simp only [tabGet_insert_other _ _ _ hj]
    | v | s =>
      simp only [readReg, hlane]
      split <;> rfl
    | g | palette | port => rfl
  | g i =>
    have hr : r' ≠ .g i := h.resolve_right fun hl => absurd hl.2 Bool.false_ne_true
    cases r' with
    | g j =>
      have hj : i ≠ j := fun h => hr (by rw [h])
      simp only [writeReg]
      split <;> simp [readReg, hj]
    | v | s | h | palette | port =>
      simp only [writeReg]
      split <;> rfl
  | palette =>
    have hr : r' ≠ .palette := h.resolve_right fun hl => absurd hl.2 (by decide)
    cases r' with
    | palette => exact absurd rfl hr
    | v | s | h | g | port => rfl
  | port => rfl

/-! ### What register writes leave alone -/

/-- From one gang to another only v, s, h and g registers have changed, the h registers those of the gang's kind of thread. -/
def Gang.RegsOnly (g g' : Gang) : Prop :=
  g' = { g with lanes := g'.lanes, g := g'.g, gs := g'.gs } ∧
  g'.lanes.length = g.lanes.length ∧ g'.g.length = g.g.length ∧ g'.gs.length = g.gs.length ∧
  ∀ m, (g'.lane m).taddr = (g.lane m).taddr ∧ (g'.lane m).priv = (g.lane m).priv ∧
    (if g.isSeq then (g'.lane m).h = (g.lane m).h else (g'.lane m).hs = (g.lane m).hs)

theorem Gang.RegsOnly.refl (g : Gang) : g.RegsOnly g := by
  refine ⟨rfl, rfl, rfl, rfl, fun m => ⟨rfl, rfl, ?_⟩⟩
  split <;> rfl

theorem Gang.RegsOnly.isSeq (h : g.RegsOnly g') : g'.isSeq = g.isSeq := by
  rw [h.1]

theorem Gang.RegsOnly.slice (h : g.RegsOnly g') (k : Nat) : g'.slice k = g.slice k := by
  rw [h.1]
  rfl

theorem Gang.RegsOnly.length_lanes (h : g.RegsOnly g') : g'.lanes.length = g.lanes.length := h.2.1

/-- Each lane's address register, its own memory, and its h registers of the other kind of thread. -/
theorem Gang.RegsOnly.lane (h : g.RegsOnly g') (m : Nat) :
    (g'.lane m).taddr = (g.lane m).taddr ∧ (g'.lane m).priv = (g.lane m).priv ∧
      (if g.isSeq then (g'.lane m).h = (g.lane m).h else (g'.lane m).hs = (g.lane m).hs) := h.2.2.2.2 m

theorem Gang.RegsOnly.regBits (h : g.RegsOnly g') : g'.regBits = g.regBits := by
  rw [Gang.regBits, h.isSeq]
  rfl

theorem Gang.RegsOnly.trans (h : g.RegsOnly g') (h' : g'.RegsOnly g'') : g.RegsOnly g'' := by
  have hseq := h.isSeq
  obtain ⟨hg, hlanes, hlen, hlens, hlane⟩ := h
  obtain ⟨hg', hlanes', hlen', hlens', hlane'⟩ := h'
  refine ⟨by rw [hg', hg], hlanes'.trans hlanes, hlen'.trans hlen, hlens'.trans hlens, fun m => ?_⟩
  obtain ⟨htaddr, hpriv, hh⟩ := hlane m
  obtain ⟨htaddr', hpriv', hh'⟩ := hlane' m
  rw [hseq] at hh'
  refine ⟨htaddr'.trans htaddr, hpriv'.trans hpriv, ?_⟩
  by_cases hs : g.isSeq = true
  · rw [if_pos hs] at hh hh' ⊢
    exact hh'.trans hh
  · rw [if_neg hs] at hh hh' ⊢
    exact hh'.trans hh

/-- The registers that a field names are the same in a gang whose registers alone have changed. -/
theorem Gang.RegsOnly.regsOf (h : g.RegsOnly g') (i : Nat) (u : Use) : g'.regsOf i u = g.regsOf i u := by
  have hslice := h.slice i
  have hallot : g'.allot = g.allot := by rw [h.1]
  simp only [Gang.regsOf, hslice, h.isSeq, hallot]

theorem Gang.RegsOnly.has (h : g.RegsOnly g') (hr : g.Has l r) : g'.Has l r := by
  have hseq := h.isSeq
  obtain ⟨-, hlanes, hlen, hlens, -⟩ := h
  cases r <;> simp_all [Gang.Has]

theorem Gang.regsOnly_mapLane (l : Nat) {f : Lane → Lane}
    (hf : ∀ ln, (f ln).taddr = ln.taddr ∧ (f ln).priv = ln.priv ∧ if g.isSeq then (f ln).h = ln.h else (f ln).hs = ln.hs) :
    g.RegsOnly (g.mapLane l f) := by
  refine ⟨rfl, by simp [mapLane, listModify], rfl, rfl, fun m => ?_⟩
  obtain hsame | ⟨-, hlane⟩ := g.lane_mapLane_cases l m f
  · rw [hsame]
    exact (RegsOnly.refl g).lane m
  · rw [hlane]
    exact hf _

/-- A register write changes registers only; the palette is not one of them. -/
theorem Gang.regsOnly_writeReg (l v : Nat) (hr : r ≠ .palette) : g.RegsOnly (g.writeReg l r v) := by
  cases r with
  | v i | s i =>
    refine regsOnly_mapLane l fun ln => ⟨rfl, rfl, ?_⟩
    split <;> rfl
  | h i =>
    refine regsOnly_mapLane l fun ln => ?_
    split <;> exact ⟨rfl, rfl, rfl⟩
  | g i =>
    simp only [writeReg]
    split
    · exact ⟨rfl, rfl, rfl, List.length_set, (RegsOnly.refl g).lane⟩
    · exact ⟨rfl, rfl, List.length_set, rfl, (RegsOnly.refl g).lane⟩
  | palette => exact absurd rfl hr
  | port => exact .refl g

/-! ### The registers of a field -/

/-- A value written to the registers of a field changes registers only. -/
theorem Gang.regsOnly_writeRegs (l v : Nat) (hrs : .palette ∉ rs) : g.RegsOnly (g.writeRegs l rs v) := by
  induction rs generalizing g v with
  | nil => exact .refl g
  | cons r rs ih =>
    obtain ⟨hr, hrs⟩ := not_or.1 (List.mem_cons.not.1 hrs)
    exact (regsOnly_writeReg l v (Ne.symm hr)).trans (ih _ hrs)

/-- A value written to the registers of a field leaves every other register, and those of every other lane. -/
theorem Gang.readReg_writeRegs_other (h : r' ∉ rs ∨ (m ≠ l ∧ ∀ r ∈ rs, r.perLane = true)) :
    (g.writeRegs l rs v).readReg m r' = g.readReg m r' := by
  induction rs generalizing g v with
  | nil => rfl
  | cons r rs ih =>
    rw [writeRegs, ih, readReg_writeReg_other]
    · exact h.imp (fun hr => (not_or.1 (List.mem_cons.not.1 hr)).1) fun hl => ⟨hl.1, hl.2 r List.mem_cons_self⟩
    · exact h.imp (fun hr => (not_or.1 (List.mem_cons.not.1 hr)).2) fun hl => ⟨hl.1, fun q hq => hl.2 q (List.mem_cons_of_mem _ hq)⟩

/-- The registers of a field hold the value written to them, lowest word first (03 R50, R54). -/
theorem Gang.readReg_writeRegs_self {k : Nat} (hnodup : rs.Nodup) (hhas : ∀ r ∈ rs, g.Has l r) (hpalette : .palette ∉ rs)
    (hk : rs[k]? = some r) (hm : r.perLane = true → m = l) :
    (g.writeRegs l rs v).readReg m r = v / 2 ^ (g.regBits * k) % 2 ^ g.regBits := by
  induction rs generalizing g v k with
  | nil => simp at hk
  | cons q rs ih =>
    obtain ⟨hq, hnodup⟩ := List.nodup_cons.1 hnodup
    obtain ⟨hne, hpalette⟩ := not_or.1 (List.mem_cons.not.1 hpalette)
    rw [List.forall_mem_cons] at hhas
    obtain ⟨hhasq, hhas⟩ := hhas
    have honly := regsOnly_writeReg (g := g) l v (Ne.symm hne)
    rw [writeRegs]
    cases k with
    | zero =>
      obtain rfl : q = r := by simpa using hk
      rw [readReg_writeRegs_other (.inl hq), readReg_writeReg_self hhasq hm]
      simp
    | succ k =>
      rw [ih hnodup (fun r hr => honly.has (hhas r hr)) hpalette (by simpa using hk), honly.regBits]
      change v / 2 ^ g.regBits / 2 ^ (g.regBits * k) % _ = _
      rw [Nat.div_div_eq_div_mul, ← Nat.pow_add, Nat.mul_succ, Nat.add_comm]

/-- The registers that a field names (03 R50, R59): window and easel registers to field 111, g registers from 124. -/
theorem Gang.regsOf_cases (g : Gang) (i : Nat) (u : Use) :
    g.regsOf i u = [] ∨
      (u.f ≤ 111 ∧ ∃ mk a n, g.regsOf i u = namesFrom mk a n ∧
        (mk = .h ∨ (mk = .v ∧ g.isSeq = false) ∨ (mk = .s ∧ g.isSeq = true))) ∨
      (124 ≤ u.f ∧ g.regsOf i u = namesFrom .g (u.f - 124) (if g.isSeq then u.eregs else u.span)) := by
  unfold regsOf resolve
  split
  · exact .inl rfl
  split
  · rename_i hlow
    cases hseq : g.isSeq with
    | true =>
      simp only [resolveEasel, if_true]
      split <;> split
      · exact .inr (.inl ⟨hlow, .h, _, _, rfl, .inl rfl⟩)
      · exact .inl rfl
      · exact .inr (.inl ⟨hlow, .s, _, _, rfl, .inr (.inr ⟨rfl, trivial⟩)⟩)
      · exact .inl rfl
    | false =>
      simp only [resolveVector, Bool.false_eq_true, if_false]
      split <;> split
      · exact .inr (.inl ⟨hlow, .h, _, _, rfl, .inl rfl⟩)
      · exact .inl rfl
      · exact .inr (.inl ⟨hlow, .v, _, _, rfl, .inr (.inl ⟨rfl, trivial⟩)⟩)
      · exact .inl rfl
  split
  · rename_i hhigh
    exact .inr (.inr ⟨hhigh, rfl⟩)
  · exact .inl rfl

theorem mem_namesFrom {mk : Nat → RegName} {a n : Nat} : r ∈ namesFrom mk a n ↔ ∃ k < n, r = mk (a + k) := by
  simp [namesFrom, eq_comm]

theorem nodup_namesFrom {mk : Nat → RegName} (hmk : Function.Injective mk) (a n : Nat) : (namesFrom mk a n).Nodup :=
  List.nodup_range.map fun _ _ h => Nat.add_left_cancel (hmk h)

/-- A field names no register twice. -/
theorem Gang.nodup_regsOf (g : Gang) (i : Nat) (u : Use) : (g.regsOf i u).Nodup := by
  obtain h | ⟨-, mk, a, n, h, rfl | ⟨rfl, -⟩ | ⟨rfl, -⟩⟩ | ⟨-, h⟩ := g.regsOf_cases i u
  · rw [h]
    exact List.nodup_nil
  all_goals
    rw [h]
    exact nodup_namesFrom (fun _ _ h => by cases h; rfl) _ _

theorem Gang.palette_not_mem_regsOf (g : Gang) (i : Nat) (u : Use) : .palette ∉ g.regsOf i u := by
  obtain h | ⟨-, mk, a, n, h, rfl | ⟨rfl, -⟩ | ⟨rfl, -⟩⟩ | ⟨-, h⟩ := g.regsOf_cases i u <;>
    simp [h, mem_namesFrom]

/-- Fields to 123 name registers of which each lane has its own. -/
theorem Gang.perLane_of_mem_regsOf {i : Nat} {u : Use} (hf : u.f < 124) (hr : r ∈ g.regsOf i u) : r.perLane = true := by
  obtain h | ⟨-, mk, a, n, h, hmk⟩ | ⟨hhigh, -⟩ := g.regsOf_cases i u
  · simp [h] at hr
  · obtain ⟨k, -, rfl⟩ := mem_namesFrom.1 (h ▸ hr)
    obtain rfl | ⟨rfl, -⟩ | ⟨rfl, -⟩ := hmk <;> rfl
  · exact absurd hf (Nat.not_lt.2 hhigh)

/-- A lane of the gang has the registers that fields to 123 name. -/
theorem Gang.has_of_mem_regsOf {i : Nat} {u : Use} (hf : u.f < 124) (hl : l < g.lanes.length) (hr : r ∈ g.regsOf i u) :
    g.Has l r := by
  obtain h | ⟨-, mk, a, n, h, hmk⟩ | ⟨hhigh, -⟩ := g.regsOf_cases i u
  · simp [h] at hr
  · obtain ⟨k, -, rfl⟩ := mem_namesFrom.1 (h ▸ hr)
    obtain rfl | ⟨rfl, hseq⟩ | ⟨rfl, hseq⟩ := hmk
    · exact hl
    · exact ⟨hseq, hl⟩
    · exact ⟨hseq, hl⟩
  · exact absurd hf (Nat.not_lt.2 hhigh)

/-- Fields from 124 name g registers. -/
theorem Gang.g_of_mem_regsOf {i : Nat} {u : Use} (hf : 124 ≤ u.f) (hr : r ∈ g.regsOf i u) :
    ∃ k < if g.isSeq then u.eregs else u.span, r = .g (u.f - 124 + k) := by
  obtain h | ⟨hlow, -⟩ | ⟨-, h⟩ := g.regsOf_cases i u
  · simp [h] at hr
  · omega
  · exact mem_namesFrom.1 (h ▸ hr)

/-! ### The destination field of every active lane -/

/-- The registers that a use names in the slice of a lane. -/
def Gang.regsAt (g : Gang) (use : Slice → Use) (l : Nat) : List RegName := g.regsOf (l / 4) (use (g.slice (l / 4)))

section
variable {use : Slice → Use} {lvs : List (Nat × Nat)}

theorem Gang.RegsOnly.regsAt (h : g.RegsOnly g') (use : Slice → Use) (l : Nat) : g'.regsAt use l = g.regsAt use l := by
  rw [Gang.regsAt, h.slice, h.regsOf]
  rfl

theorem Gang.writeLanes_cons (g : Gang) (use : Slice → Use) (l v : Nat) (lvs : List (Nat × Nat)) :
    g.writeLanes use ((l, v) :: lvs) =
      if 124 ≤ (use (g.slice (l / 4))).f then g.writeRegs l (g.regsAt use l) v
      else (g.writeRegs l (g.regsAt use l) v).writeLanes use lvs := rfl

/-- A lane's result written to its destination registers changes registers only. -/
theorem Gang.regsOnly_writeRegsAt (g : Gang) (use : Slice → Use) (l v : Nat) :
    g.RegsOnly (g.writeRegs l (g.regsAt use l) v) := regsOnly_writeRegs l v (g.palette_not_mem_regsOf _ _)

/-- Results written to a destination field change registers only. -/
theorem Gang.regsOnly_writeLanes (g : Gang) (use : Slice → Use) (lvs : List (Nat × Nat)) :
    g.RegsOnly (g.writeLanes use lvs) := by
  induction lvs generalizing g with
  | nil => exact .refl g
  | cons e lvs ih =>
    obtain ⟨l, v⟩ := e
    have hone := g.regsOnly_writeRegsAt use l v
    rw [writeLanes_cons]
    split
    · exact hone
    · exact hone.trans (ih _)

/-- Results written to a destination field leave every register of a lane that is not among those its own result goes to;
a g register is left when the field names none, or no lane has a result. -/
theorem Gang.readReg_writeLanes_other (hr : ∀ v, (m, v) ∈ lvs → r ∉ g.regsAt use m)
    (hg : (∃ n, r = .g n) → (∀ sl, (use sl).f < 124) ∨ lvs = []) :
    (g.writeLanes use lvs).readReg m r = g.readReg m r := by
  induction lvs generalizing g with
  | nil => rfl
  | cons e lvs ih =>
    obtain ⟨l, v⟩ := e
    have hlow (h : ∃ n, r = .g n) : ∀ sl, (use sl).f < 124 := (hg h).resolve_right (by simp)
    have hone : (g.writeRegs l (g.regsAt use l) v).readReg m r = g.readReg m r := by
      refine readReg_writeRegs_other ?_
      by_cases hm : m = l
      · subst hm
        exact .inl (hr v List.mem_cons_self)
      by_cases hf : (use (g.slice (l / 4))).f < 124
      · exact .inr ⟨hm, fun q hq => perLane_of_mem_regsOf hf hq⟩
      · refine .inl fun hmem => hf ?_
        obtain ⟨k, -, rfl⟩ := g_of_mem_regsOf (Nat.not_lt.1 hf) hmem
        exact hlow ⟨_, rfl⟩ _
    rw [writeLanes_cons]
    split
    · exact hone
    · refine (ih (fun v hv => ?_) fun h => .inl (hlow h)).trans hone
      rw [(g.regsOnly_writeRegsAt use l _).regsAt]
      exact hr v (List.mem_cons_of_mem _ hv)

/-- A lane's destination registers hold its result, lowest word first (03 R50, R54). -/
theorem Gang.readReg_writeLanes_self {k : Nat} (hf : ∀ sl, (use sl).f < 124) (hnodup : (lvs.map Prod.fst).Nodup)
    (hmem : (l, v) ∈ lvs) (hl : l < g.lanes.length) (hk : (g.regsAt use l)[k]? = some r) :
    (g.writeLanes use lvs).readReg l r = v / 2 ^ (g.regBits * k) % 2 ^ g.regBits := by
  induction lvs generalizing g with
  | nil => simp at hmem
  | cons e lvs ih =>
    obtain ⟨m, w⟩ := e
    rw [List.map_cons, List.nodup_cons] at hnodup
    obtain ⟨hm, hnodup⟩ := hnodup
    have honly := g.regsOnly_writeRegsAt use m w
    rw [writeLanes_cons, if_neg (Nat.not_le.2 (hf _))]
    obtain heq | hrest := List.mem_cons.1 hmem
    · obtain ⟨rfl, rfl⟩ := Prod.mk.inj heq
      rw [readReg_writeLanes_other (fun w hw => absurd (List.mem_map_of_mem hw) hm) fun _ => .inl hf]
      exact readReg_writeRegs_self (g.nodup_regsOf _ _) (fun r hr => has_of_mem_regsOf (hf _) hl hr)
        (g.palette_not_mem_regsOf _ _) hk fun _ => rfl
    · rw [ih hnodup hrest (honly.length_lanes.symm ▸ hl) ((honly.regsAt use l).symm ▸ hk), honly.regBits]

end

end Sys2Proof.Machine
end

section
/-! The destination of a word that writes its result at once (03 R50, R51). -/

namespace Sys2Proof.Claim
open Sys2Proof Sys2Proof.Machine

variable {s s' : State} {c : Ctx} {i : Instr} {args : List (List Nat)} {dst : Slice → Use} {vals : List Nat}

/-! ### The field of a destination -/

/-- A destination names field `d` in every slice, one register of the easel, and as many of a gang as an operand of the word. -/
def Names (i : Instr) (d : BitVec 7) (dst : Slice → Use) : Prop :=
  ∀ sl, (dst sl).f = d.toNat ∧ (dst sl).eregs = 1 ∧ ∃ u ∈ (needs i).uses sl, u.f = d.toNat ∧ u.span = (dst sl).span

theorem field_of_dst {d : BitVec 7} {u : Use} (h : u = .dst d ∨ u = .dst64 d) : u.f = d.toNat ∧ u.eregs = 1 := by
  obtain rfl | rfl := h <;> exact ⟨rfl, rfl⟩

theorem ite_dst (b : Prop) [Decidable b] (d : BitVec 7) :
    (if b then Use.dst64 d else .dst d) = .dst d ∨ (if b then Use.dst64 d else .dst d) = .dst64 d :=
  (ite_eq_or_eq b _ _).symm

/-- A destination that is itself the last operand. -/
theorem names_of_getLast? {d : BitVec 7} (hlast : ∀ sl, ((needs i).uses sl).getLast? = some (dst sl))
    (hdst : ∀ sl, dst sl = .dst d ∨ dst sl = .dst64 d) : Names i d dst := by
  intro sl
  obtain ⟨hf, heregs⟩ := field_of_dst (hdst sl)
  exact ⟨hf, heregs, dst sl, List.mem_of_getLast? (hlast sl), hf, rfl⟩

/-- IADD and ISUB name a pair in one of their forms. -/
theorem names_of_add {d a b : BitVec 7} {f : BitVec 4} {xs ys : List Nat} (hneeds : needs i = addNeeds d a b f)
    (h : (if f.toNat = 4 then some (fun _ => .dst64 d, xs) else some (fun _ => .dst d, ys)) = some (dst, vals)) :
    Names i d dst := by
  by_cases hf : f.toNat = 4
  · rw [if_pos hf] at h
    cases h
    exact names_of_getLast? (fun _ => by rw [hneeds, addNeeds, if_pos hf]; rfl) fun _ => .inr rfl
  · rw [if_neg hf] at h
    cases h
    exact names_of_getLast? (fun _ => by rw [hneeds, addNeeds, if_neg hf]; rfl) fun _ => .inl rfl

/-- Every word that writes a result at once has one destination field, which is an operand of it. -/
theorem names_of_resultOf (h : resultOf c s args i = some (dst, vals)) : ∃ d, Names i d dst := by
  cases i with
  | and d | andi d | or d | ori d | xor d | xori d | shl d | shr d | shli d | shri d | sra d | bfx d | clz d | popc d
  | imul d | imulh d | imin d | imax d | iaddi d | icmp d | lui d | tsta d | pack d | unpk d | unpkCb d | fcmp d
  | shfl d | rdx d | scan d =>
    cases h
    exact ⟨d, names_of_getLast? (fun _ => rfl) fun _ => .inl rfl⟩
  | lea d =>
    cases h
    exact ⟨d, names_of_getLast? (fun _ => rfl) fun _ => .inr rfl⟩
  | bfi d | imad d | dot8 d | dot4 d | sel d =>
    cases h
    exact ⟨d, fun sl => ⟨rfl, rfl, _, List.mem_of_getLast? rfl, rfl, rfl⟩⟩
  | coal d | mkab d | fadd d | fsub d | fmul d | fmin d | fmax d | vote d | mfs d =>
    cases h
    exact ⟨d, names_of_getLast? (fun _ => rfl) fun _ => ite_dst _ d⟩
  | ffma d a b p =>
    cases h
    obtain ⟨hf, heregs⟩ := field_of_dst (ite_dst (precFmt p = 9) d)
    have hmod : (if precFmt p = 9 then Use.mod64 d else .mod d).f = d.toNat ∧
        (if precFmt p = 9 then Use.mod64 d else .mod d).span = (elemDst (precFmt p) d).span := by
      unfold elemDst
      split <;> exact ⟨rfl, rfl⟩
    exact ⟨d, fun _ => ⟨hf, heregs, _, List.mem_of_getLast? rfl, hmod⟩⟩
  | iadd d a b f | isub d a b f => exact ⟨d, names_of_add rfl h⟩
  | qstat d n =>
    rw [resultOf_qstat, Option.map_eq_some_iff] at h
    obtain ⟨p, -, h⟩ := h
    cases h
    exact ⟨d, names_of_getLast? (fun _ => rfl) fun _ => .inl rfl⟩
  | _ => cases h

/-- A destination through 124 to 127 lies in g0 to g3 (03 R51; 06 R153). -/
theorem gIndex_lt {u : Use} {isSeq : Bool} {k : Nat} (hlegal : u.legal isSeq = true) (hhigh : 124 ≤ u.f) (hf : u.f < 128)
    (hk : k < if isSeq then 1 else u.span) : u.f - 124 + k < 4 := by
  cases isSeq with
  | true =>
    rw [if_pos rfl] at hk
    omega
  | false =>
    simp only [Use.legal, Bool.false_eq_true, if_false, ge_iff_le, hhigh, if_true, Bool.and_eq_true] at hlegal hk
    obtain ⟨-, hspan⟩ := hlegal
    split at hspan
    · omega
    split at hspan
    · rw [beq_iff_eq] at hspan
      omega
    · simp only [Bool.and_eq_true, beq_iff_eq] at hspan
      omega

/-- The g registers of a destination are ones that the gang has (03 R51). -/
theorem has_of_g_destination {d : BitVec 7} {l : Nat} {r : RegName} (hadmits : Admits c i) (hd : Names i d dst)
    (hl : l / 4 ∈ c.sls) (hhigh : 124 ≤ d.toNat) (hg : c.gang.g.length = 4) (hgs : c.gang.gs.length = 4)
    (hr : r ∈ c.gang.regsAt dst l) : c.gang.Has l r ∧ r.perLane = false := by
  obtain ⟨-, -, -, -, hlegal, -⟩ := hadmits
  obtain ⟨hf, heregs, u, hu, huf, hspan⟩ := hd (c.gang.slice (l / 4))
  obtain ⟨k, hk, rfl⟩ := Gang.g_of_mem_regsOf (hf ▸ hhigh) hr
  rw [heregs, ← hspan] at hk
  have hlt := gIndex_lt (hlegal _ hl u hu) (huf ▸ hhigh) (huf ▸ d.isLt) hk
  rw [huf, ← hf] at hlt
  refine ⟨?_, rfl⟩
  simp only [Gang.Has, hg, hgs, ite_self]
  exact hlt

/-! ### The state after a result -/

/-- Where a result goes to registers, the word is one update of the issuing gang: its registers, then its slices. -/
theorem writeField_retireNext (s : State) (hport : c.port? (dst c.first) = none) :
    (s.writeField c dst vals).retireNext c = State.mapIssuer { s with issued := s.issued + 1 } c fun g =>
      issueNext c (s.issued + 1) (g.writeLanes dst (c.lanes.zip vals)) := by
  rw [retireNext_eq, State.writeField_issued, State.writeField, hport]
  exact mapIssuer_mapIssuer { s with issued := s.issued + 1 } c _ _

theorem partySlices_writeLanes (g : Gang) (use : Slice → Use) (lvs : List (Nat × Nat)) (p : Nat) :
    (g.writeLanes use lvs).partySlices p = g.partySlices p := by
  simp only [Gang.partySlices, Gang.slice, Gang.writeLanes_slices]

theorem nodup_map_fst_zip {xs ys : List Nat} (h : xs.Nodup) : ((xs.zip ys).map Prod.fst).Nodup := by
  rw [List.zip_eq_zip_take_min, List.map_fst_zip (by simp)]
  exact h.sublist (List.take_sublist _ _)

end Sys2Proof.Claim
end

section
open Sys2Proof Sys2Proof.Machine Sys2Proof.Claim

/-- Settles O42: the word is one update of the issuing gang, which writes the destination registers and moves the slices on. -/
theorem resultsGoToTheirDestinations : Obligations.ResultsGoToTheirDestinations := by
  intro s s' t c i args dst vals h hres hport hexec regs width
  obtain ⟨-, -, hsls, hlanes⟩ := State.issuer?_eq_some h.live
  obtain ⟨d, hd⟩ := names_of_resultOf hres
  obtain ⟨hthreads, hclusters⟩ := fetch_portsOnly h.fetched
  have hfield (sl : Slice) : (dst sl).f = d.toNat := (hd sl).1
  rw [exec_of_resultOf hres, h.runOp_ok (resultBody_of_resultOf hres), writeField_retireNext _ hport] at hexec
  cases hexec
  have hcrews : ({ s' with issued := s'.issued + 1 } : State).crews = s.crews := by rw [hthreads]
  have honly := c.gang.regsOnly_writeLanes dst (c.lanes.zip vals)
  obtain ⟨hgang, -, -, -, hlane⟩ := honly
  have hslices := c.gang.writeLanes_slices dst (c.lanes.zip vals)
  have hWsls := (partySlices_writeLanes c.gang dst (c.lanes.zip vals) c.party).symm ▸ hsls
  have hread (l : Nat) (r : RegName) := (issueNext_specialsKept (s'.issued + 1) _ hWsls).readReg l r
  refine ⟨⟨?_, hclusters⟩, rfl, sameMemory_mapIssuer h.live ?_ fun l => (hlane l).2.1, sameOthers_mapIssuer h.live hcrews _,
    sameCrew_mapIssuer h.live hcrews _, fun l v k r hlow hlv hl hk => ?_, fun l m v k r rest hhigh hzip hk hg hgs => ?_,
    fun l r hr hg => ?_, _, member?_mapIssuer h.live hcrews _, ?_, ?_, fun k => ?_, hlane⟩
  · rw [State.mapIssuer_eq, hthreads]
    rfl
  · rw [hthreads]
  · rw [regOf_mapIssuer h.live hcrews, hread]
    have hf (sl : Slice) : (dst sl).f < 124 := by
      rw [hfield] at hlow ⊢
      omega
    exact Gang.readReg_writeLanes_self hf (nodup_map_fst_zip (Ctx.nodup_lanes h.live)) hlv hl hk
  · rw [regOf_mapIssuer h.live hcrews, hread, hzip, Gang.writeLanes_cons, if_pos (by rw [hfield] at hhigh ⊢; exact hhigh)]
    rw [hfield] at hhigh
    have hmem : l ∈ c.lanes := (List.of_mem_zip (hzip ▸ List.mem_cons_self)).1
    obtain ⟨hin, -⟩ := Ctx.slice_of_mem_lanes h.live hmem
    have hhas {q : RegName} (hq : q ∈ c.gang.regsAt dst l) := has_of_g_destination h.admitted hd hin hhigh hg hgs hq
    exact Gang.readReg_writeRegs_self (Gang.nodup_regsOf _ _ _) (fun q hq => (hhas hq).1) (Gang.palette_not_mem_regsOf _ _ _)
      hk fun hlane => absurd hlane (by rw [(hhas (List.mem_of_getElem? hk)).2]; exact Bool.false_ne_true)
  · rw [regOf_mapIssuer h.live hcrews, hread, regOf_issuer h.live]
    refine Gang.readReg_writeLanes_other hr fun hn => (hg hn).imp (fun hlow sl => ?_) fun hnone => by rw [hnone, List.zip_nil_left]
    rw [hfield] at hlow ⊢
    exact hlow
  · rw [issueNext_eq, hgang]
    exact ⟨rfl, rfl, rfl, rfl, rfl, rfl, rfl, rfl, rfl, rfl, rfl, rfl, rfl⟩
  · rw [issueNext_eq, hgang]
  · have hmoved := issueNext_movedOn (s'.issued + 1) _ hWsls k
    rw [show (c.gang.writeLanes dst (c.lanes.zip vals)).slice k = c.gang.slice k by rw [Gang.slice, hslices]; rfl] at hmoved
    exact hmoved

end

section
/-! The words of 03 R62 to R72: a packed word is a given word exactly when the opcode, the fields and the fixed bits of that
word are what was packed; from this, that decoding gives back what was encoded, and that no bit of a word is overlooked. -/

namespace Sys2Proof.Laws
open Sys2Proof

/-! ### Fields as numbers -/

theorem packWord_eq_iff (base : Nat) (fs : List (Nat × Nat)) (w : Word) :
    packWord base fs = w ↔ (base + (fs.map fun f => f.1 * 2 ^ f.2).sum) % 2 ^ 32 = w.toNat := by
  rw [← packWord_toNat, BitVec.toNat_inj]

theorem fld_eq_iff (w : Word) (lo n : Nat) (x : BitVec n) : fld w lo n = x ↔ w.toNat / 2 ^ lo % 2 ^ n = x.toNat := by
  rw [← fld_toNat, BitVec.toNat_inj]

/-- What a field reads, a part of it reads in its place. -/
theorem fld_of_fld_eq {w : Word} {lo n : Nat} {c : BitVec n} (h : fld w lo n = c) (j : Nat) {m : Nat}
    (hm : j + m ≤ n) : fld w (lo + j) m = c.extractLsb' j m := by
  subst h
  ext k hk
  have hin : j + k < n := by omega
  simp [fld, hin, Nat.add_assoc]

/-! ### The formats of the words (03 R62, R70)

One lemma for each layout of fields, named by the letters of the opcode table or, where one row alone has the layout, by that
row.  The fixed bits of a layout stand among the fields. -/

section
variable {base : Nat} {word : Word}

theorem packWord_dabf_iff {d a b : BitVec 7} {f : BitVec 4} (hb : base < 2 ^ 32) (hz : base % 2 ^ 25 = 0) :
    packWord base [(d.toNat, 18), (a.toNat, 11), (b.toNat, 4), (f.toNat, 0)] = word ↔
      (fld word 25 7).toNat = base / 2 ^ 25 ∧ fld word 18 7 = d ∧ fld word 11 7 = a ∧ fld word 4 7 = b ∧
      fld word 0 4 = f := by
  simp [packWord_eq_iff, fld_eq_iff, fld_toNat]
  omega

theorem packWord_dab_iff {d a b : BitVec 7} (hb : base < 2 ^ 32) (hz' : base / 2 ^ 4 % 2 ^ 21 = 0) :
    packWord base [(d.toNat, 18), (a.toNat, 11), (b.toNat, 4)] = word ↔
      (fld word 25 7).toNat = base / 2 ^ 25 ∧ fld word 18 7 = d ∧ fld word 11 7 = a ∧ fld word 4 7 = b ∧
      fld word 0 4 = BitVec.ofNat 4 base := by
  simp [packWord_eq_iff, fld_eq_iff, fld_toNat]
  omega

theorem packWord_tasrpzl_iff {t a : BitVec 7} {s : BitVec 3} {r : BitVec 2} {p z : BitVec 1} {l : BitVec 4}
    (hb : base < 2 ^ 32) (hz : base % 2 ^ 25 = 0) :
    packWord base [(t.toNat, 18), (a.toNat, 11), (s.toNat, 8), (r.toNat, 6), (p.toNat, 5), (z.toNat, 4),
      (l.toNat, 0)] = word ↔
      (fld word 25 7).toNat = base / 2 ^ 25 ∧ fld word 18 7 = t ∧ fld word 11 7 = a ∧ fld word 8 3 = s ∧
      fld word 6 2 = r ∧ fld word 5 1 = p ∧ fld word 4 1 = z ∧ fld word 0 4 = l := by
  simp [packWord_eq_iff, fld_eq_iff, fld_toNat]
  omega

theorem packWord_fixed_iff (hb : base < 2 ^ 32) :
    packWord base [] = word ↔
      (fld word 25 7).toNat = base / 2 ^ 25 ∧ fld word 0 25 = BitVec.ofNat 25 base := by
  simp [packWord_eq_iff, fld_eq_iff, fld_toNat]
  omega

theorem packWord_da_iff {d a : BitVec 7} (hb : base < 2 ^ 32) (hz' : base / 2 ^ 11 % 2 ^ 14 = 0) :
    packWord base [(d.toNat, 18), (a.toNat, 11)] = word ↔
      (fld word 25 7).toNat = base / 2 ^ 25 ∧ fld word 18 7 = d ∧ fld word 11 7 = a ∧
      fld word 0 11 = BitVec.ofNat 11 base := by
  simp [packWord_eq_iff, fld_eq_iff, fld_toNat]
  omega

theorem packWord_dabp_iff {d a b : BitVec 7} {p : BitVec 2} (hb : base < 2 ^ 32) (hz : base % 2 ^ 25 = 0) :
    packWord base [(d.toNat, 18), (a.toNat, 11), (b.toNat, 4), (p.toNat, 0)] = word ↔
      (fld word 25 7).toNat = base / 2 ^ 25 ∧ fld word 18 7 = d ∧ fld word 11 7 = a ∧ fld word 4 7 = b ∧
      fld word 0 2 = p ∧ fld word 2 2 = 0#2 := by
  simp [packWord_eq_iff, fld_eq_iff, fld_toNat]
  omega

theorem packWord_dakl_iff {d a : BitVec 7} {k : BitVec 1} {l : BitVec 4}
    (hb : base < 2 ^ 32) (hz : base % 2 ^ 25 = 0) :
    packWord base [(d.toNat, 18), (a.toNat, 11), (k.toNat, 4), (l.toNat, 0)] = word ↔
      (fld word 25 7).toNat = base / 2 ^ 25 ∧ fld word 18 7 = d ∧ fld word 11 7 = a ∧ fld word 4 1 = k ∧
      fld word 0 4 = l ∧ fld word 5 6 = 0#6 := by
  simp [packWord_eq_iff, fld_eq_iff, fld_toNat]
  omega

theorem packWord_dal_iff {d a : BitVec 7} {l : BitVec 4}
    (hb : base < 2 ^ 32) (hz' : base / 2 ^ 11 % 2 ^ 14 = 0) (hz : base % 2 ^ 4 = 0) :
    packWord base [(d.toNat, 18), (a.toNat, 11), (l.toNat, 0)] = word ↔
      (fld word 25 7).toNat = base / 2 ^ 25 ∧ fld word 18 7 = d ∧ fld word 11 7 = a ∧ fld word 0 4 = l ∧
      fld word 4 7 = BitVec.ofNat 7 (base / 2 ^ 4) := by
  simp [packWord_eq_iff, fld_eq_iff, fld_toNat]
  omega

theorem packWord_a_iff {a : BitVec 7} (hb : base < 2 ^ 32) (hz' : base / 2 ^ 11 % 2 ^ 14 = 0) :
    packWord base [(a.toNat, 11)] = word ↔
      (fld word 25 7).toNat = base / 2 ^ 25 ∧ fld word 11 7 = a ∧ fld word 18 7 = 0#7 ∧
      fld word 0 11 = BitVec.ofNat 11 base := by
  simp [packWord_eq_iff, fld_eq_iff, fld_toNat]
  omega

theorem packWord_o_iff {o : BitVec 18} (hb : base < 2 ^ 32) (hz : base % 2 ^ 18 = 0) :
    packWord base [(o.toNat, 0)] = word ↔
      (fld word 25 7).toNat = base / 2 ^ 25 ∧ fld word 0 18 = o ∧ fld word 18 7 = BitVec.ofNat 7 (base / 2 ^ 18) := by
  simp [packWord_eq_iff, fld_eq_iff, fld_toNat]
  omega

theorem packWord_co_iff {c : BitVec 7} {o : BitVec 18} (hb : base < 2 ^ 32) (hz : base % 2 ^ 25 = 0) :
    packWord base [(c.toNat, 18), (o.toNat, 0)] = word ↔
      (fld word 25 7).toNat = base / 2 ^ 25 ∧ fld word 18 7 = c ∧ fld word 0 18 = o := by
  simp [packWord_eq_iff, fld_eq_iff, fld_toNat]
  omega

theorem packWord_dai_iff {d a : BitVec 7} {i : BitVec 11} (hb : base < 2 ^ 32) (hz : base % 2 ^ 25 = 0) :
    packWord base [(d.toNat, 18), (a.toNat, 11), (i.toNat, 0)] = word ↔
      (fld word 25 7).toNat = base / 2 ^ 25 ∧ fld word 18 7 = d ∧ fld word 11 7 = a ∧ fld word 0 11 = i := by
  simp [packWord_eq_iff, fld_eq_iff, fld_toNat]
  omega

theorem packWord_dabs_iff {d a b : BitVec 7} {s : BitVec 1} (hb : base < 2 ^ 32) (hz : base % 2 ^ 25 = 0) :
    packWord base [(d.toNat, 18), (a.toNat, 11), (b.toNat, 4), (s.toNat, 0)] = word ↔
      (fld word 25 7).toNat = base / 2 ^ 25 ∧ fld word 18 7 = d ∧ fld word 11 7 = a ∧ fld word 4 7 = b ∧
      fld word 0 1 = s ∧ fld word 1 3 = 0#3 := by
  simp [packWord_eq_iff, fld_eq_iff, fld_toNat]
  omega

theorem packWord_dabxc_iff {d a b : BitVec 7} {x : BitVec 1} {c : BitVec 3}
    (hb : base < 2 ^ 32) (hz : base % 2 ^ 25 = 0) :
    packWord base [(d.toNat, 18), (a.toNat, 11), (b.toNat, 4), (x.toNat, 3), (c.toNat, 0)] = word ↔
      (fld word 25 7).toNat = base / 2 ^ 25 ∧ fld word 18 7 = d ∧ fld word 11 7 = a ∧ fld word 4 7 = b ∧
      fld word 3 1 = x ∧ fld word 0 3 = c := by
  simp [packWord_eq_iff, fld_eq_iff, fld_toNat]
  omega

theorem packWord_daxkl_iff {d a : BitVec 7} {x : BitVec 6} {k : BitVec 1} {l : BitVec 4}
    (hb : base < 2 ^ 32) (hz : base % 2 ^ 25 = 0) :
    packWord base [(d.toNat, 18), (a.toNat, 11), (x.toNat, 5), (k.toNat, 4), (l.toNat, 0)] = word ↔
      (fld word 25 7).toNat = base / 2 ^ 25 ∧ fld word 18 7 = d ∧ fld word 11 7 = a ∧ fld word 5 6 = x ∧
      fld word 4 1 = k ∧ fld word 0 4 = l := by
  simp [packWord_eq_iff, fld_eq_iff, fld_toNat]
  omega

theorem packWord_das_iff {d a : BitVec 7} {s : BitVec 5} (hb : base < 2 ^ 32) (hz : base % 2 ^ 25 = 0) :
    packWord base [(d.toNat, 18), (a.toNat, 11), (s.toNat, 0)] = word ↔
      (fld word 25 7).toNat = base / 2 ^ 25 ∧ fld word 18 7 = d ∧ fld word 11 7 = a ∧ fld word 0 5 = s ∧
      fld word 5 6 = 0#6 := by
  simp [packWord_eq_iff, fld_eq_iff, fld_toNat]
  omega

theorem packWord_dabkh_iff {d a b : BitVec 7} {k h : BitVec 1} (hb : base < 2 ^ 32) (hz : base % 2 ^ 25 = 0) :
    packWord base [(d.toNat, 18), (a.toNat, 11), (b.toNat, 4), (k.toNat, 1), (h.toNat, 0)] = word ↔
      (fld word 25 7).toNat = base / 2 ^ 25 ∧ fld word 18 7 = d ∧ fld word 11 7 = a ∧ fld word 4 7 = b ∧
      fld word 1 1 = k ∧ fld word 0 1 = h ∧ fld word 2 2 = 0#2 := by
  simp [packWord_eq_iff, fld_eq_iff, fld_toNat]
  omega

theorem packWord_tasrwl_iff {t a : BitVec 7} {s : BitVec 3} {r w : BitVec 1} {l : BitVec 4}
    (hb : base < 2 ^ 32) (hz : base % 2 ^ 25 = 0) :
    packWord base [(t.toNat, 18), (a.toNat, 11), (s.toNat, 8), (r.toNat, 6), (w.toNat, 5), (l.toNat, 0)] = word ↔
      (fld word 25 7).toNat = base / 2 ^ 25 ∧ fld word 18 7 = t ∧ fld word 11 7 = a ∧ fld word 8 3 = s ∧
      fld word 6 1 = r ∧ fld word 5 1 = w ∧ fld word 0 4 = l ∧ fld word 7 1 = 0#1 ∧ fld word 4 1 = 0#1 := by
  simp [packWord_eq_iff, fld_eq_iff, fld_toNat]
  omega

theorem packWord_cn_iff {c : BitVec 5} {n : BitVec 4} (hb : base < 2 ^ 32) (hz : base % 2 ^ 25 = 0) :
    packWord base [(c.toNat, 4), (n.toNat, 0)] = word ↔
      (fld word 25 7).toNat = base / 2 ^ 25 ∧ fld word 4 5 = c ∧ fld word 0 4 = n ∧ fld word 9 16 = 0#16 := by
  simp [packWord_eq_iff, fld_eq_iff, fld_toNat]
  omega

theorem packWord_loop_iff {c : BitVec 7} {n : BitVec 8} (hb : base < 2 ^ 32) (hz : base % 2 ^ 25 = 0) :
    packWord base [(c.toNat, 18), (n.toNat, 10)] = word ↔
      (fld word 25 7).toNat = base / 2 ^ 25 ∧ fld word 18 7 = c ∧ fld word 10 8 = n ∧ fld word 0 10 = 0#10 := by
  simp [packWord_eq_iff, fld_eq_iff, fld_toNat]
  omega

theorem packWord_setx_iff {a : BitVec 7} {w : BitVec 1} {o : BitVec 9} (hb : base < 2 ^ 32) (hz : base % 2 ^ 25 = 0) :
    packWord base [(a.toNat, 11), (w.toNat, 9), (o.toNat, 0)] = word ↔
      (fld word 25 7).toNat = base / 2 ^ 25 ∧ fld word 11 7 = a ∧ fld word 9 1 = w ∧ fld word 0 9 = o ∧
      fld word 18 7 = 0#7 ∧ fld word 10 1 = 0#1 := by
  simp [packWord_eq_iff, fld_eq_iff, fld_toNat]
  omega

theorem packWord_fmt_iff {i : BitVec 16} (hb : base < 2 ^ 32) (hz : base % 2 ^ 25 = 0) :
    packWord base [(i.toNat, 0)] = word ↔
      (fld word 25 7).toNat = base / 2 ^ 25 ∧ fld word 0 16 = i ∧ fld word 16 9 = 0#9 := by
  simp [packWord_eq_iff, fld_eq_iff, fld_toNat]
  omega

theorem packWord_clz_iff {d a : BitVec 7} {z : BitVec 1} (hb : base < 2 ^ 32) (hz : base % 2 ^ 25 = 0) :
    packWord base [(d.toNat, 18), (a.toNat, 11), (z.toNat, 0)] = word ↔
      (fld word 25 7).toNat = base / 2 ^ 25 ∧ fld word 18 7 = d ∧ fld word 11 7 = a ∧ fld word 0 1 = z ∧
      fld word 1 10 = 0#10 := by
  simp [packWord_eq_iff, fld_eq_iff, fld_toNat]
  omega

theorem packWord_cvt_iff {d a : BitVec 7} {z v : BitVec 1} {l : BitVec 4}
    (hb : base < 2 ^ 32) (hz : base % 2 ^ 25 = 0) :
    packWord base [(d.toNat, 18), (a.toNat, 11), (z.toNat, 5), (v.toNat, 4), (l.toNat, 0)] = word ↔
      (fld word 25 7).toNat = base / 2 ^ 25 ∧ fld word 18 7 = d ∧ fld word 11 7 = a ∧ fld word 5 1 = z ∧
      fld word 4 1 = v ∧ fld word 0 4 = l ∧ fld word 6 5 = 0#5 := by
  simp [packWord_eq_iff, fld_eq_iff, fld_toNat]
  omega

theorem packWord_qntHealth_iff {d : BitVec 7} {l : BitVec 4} (hb : base < 2 ^ 32) (hz : base % 2 ^ 25 = 1024) :
    packWord base [(d.toNat, 18), (l.toNat, 0)] = word ↔
      (fld word 25 7).toNat = base / 2 ^ 25 ∧ fld word 18 7 = d ∧ fld word 0 4 = l ∧ fld word 4 14 = 64#14 := by
  simp [packWord_eq_iff, fld_eq_iff, fld_toNat]
  omega

theorem packWord_unpk_iff {d a : BitVec 7} {b s m : BitVec 1} (hb : base < 2 ^ 32) (hz : base % 2 ^ 25 = 0) :
    packWord base [(d.toNat, 18), (a.toNat, 11), (b.toNat, 3), (s.toNat, 2), (m.toNat, 0)] = word ↔
      (fld word 25 7).toNat = base / 2 ^ 25 ∧ fld word 18 7 = d ∧ fld word 11 7 = a ∧ fld word 3 1 = b ∧
      fld word 2 1 = s ∧ fld word 0 1 = m ∧ fld word 4 7 = 0#7 ∧ fld word 1 1 = 0#1 := by
  simp [packWord_eq_iff, fld_eq_iff, fld_toNat]
  omega

theorem packWord_tsta_iff {d a : BitVec 7} {v x : BitVec 1} (hb : base < 2 ^ 32) (hz : base % 2 ^ 25 = 0) :
    packWord base [(d.toNat, 18), (a.toNat, 11), (v.toNat, 1), (x.toNat, 0)] = word ↔
      (fld word 25 7).toNat = base / 2 ^ 25 ∧ fld word 18 7 = d ∧ fld word 11 7 = a ∧ fld word 1 1 = v ∧
      fld word 0 1 = x ∧ fld word 2 9 = 0#9 := by
  simp [packWord_eq_iff, fld_eq_iff, fld_toNat]
  omega

theorem packWord_cbt_iff {a : BitVec 7} {l : BitVec 4} (hb : base < 2 ^ 32) (hz : base % 2 ^ 25 = 0) :
    packWord base [(a.toNat, 11), (l.toNat, 0)] = word ↔
      (fld word 25 7).toNat = base / 2 ^ 25 ∧ fld word 11 7 = a ∧ fld word 0 4 = l ∧ fld word 18 7 = 0#7 ∧
      fld word 4 7 = 0#7 := by
  simp [packWord_eq_iff, fld_eq_iff, fld_toNat]
  omega

theorem packWord_cbtReg_iff {b : BitVec 7} {l : BitVec 4} (hb : base < 2 ^ 32) (hz : base % 2 ^ 25 = 262144) :
    packWord base [(b.toNat, 4), (l.toNat, 0)] = word ↔
      (fld word 25 7).toNat = base / 2 ^ 25 ∧ fld word 4 7 = b ∧ fld word 0 4 = l ∧ fld word 11 14 = 128#14 := by
  simp [packWord_eq_iff, fld_eq_iff, fld_toNat]
  omega

theorem packWord_waitp_iff {a : BitVec 7} {p : BitVec 3} (hb : base < 2 ^ 32) (hz : base % 2 ^ 25 = 0) :
    packWord base [(a.toNat, 11), (p.toNat, 0)] = word ↔
      (fld word 25 7).toNat = base / 2 ^ 25 ∧ fld word 11 7 = a ∧ fld word 0 3 = p ∧ fld word 18 7 = 0#7 ∧
      fld word 3 8 = 0#8 := by
  simp [packWord_eq_iff, fld_eq_iff, fld_toNat]
  omega

theorem packWord_stl_iff {t a : BitVec 7} {s : BitVec 3} {r w : BitVec 1}
    (hb : base < 2 ^ 32) (hz : base % 2 ^ 25 = 0) :
    packWord base [(t.toNat, 18), (a.toNat, 11), (s.toNat, 8), (r.toNat, 7), (w.toNat, 5)] = word ↔
      (fld word 25 7).toNat = base / 2 ^ 25 ∧ fld word 18 7 = t ∧ fld word 11 7 = a ∧ fld word 8 3 = s ∧
      fld word 7 1 = r ∧ fld word 5 1 = w ∧ fld word 6 1 = 0#1 ∧ fld word 0 5 = 0#5 := by
  simp [packWord_eq_iff, fld_eq_iff, fld_toNat]
  omega

theorem packWord_fence_iff {s : BitVec 3} {r : BitVec 2} (hb : base < 2 ^ 32) (hz : base % 2 ^ 25 = 0) :
    packWord base [(s.toNat, 8), (r.toNat, 6)] = word ↔
      (fld word 25 7).toNat = base / 2 ^ 25 ∧ fld word 8 3 = s ∧ fld word 6 2 = r ∧ fld word 11 14 = 0#14 ∧
      fld word 0 6 = 0#6 := by
  simp [packWord_eq_iff, fld_eq_iff, fld_toNat]
  omega

theorem packWord_prom_iff {a : BitVec 7} {s : BitVec 3} {r : BitVec 2} (hb : base < 2 ^ 32) (hz : base % 2 ^ 25 = 0) :
    packWord base [(a.toNat, 11), (s.toNat, 8), (r.toNat, 6)] = word ↔
      (fld word 25 7).toNat = base / 2 ^ 25 ∧ fld word 11 7 = a ∧ fld word 8 3 = s ∧ fld word 6 2 = r ∧
      fld word 18 7 = 0#7 ∧ fld word 0 6 = 0#6 := by
  simp [packWord_eq_iff, fld_eq_iff, fld_toNat]
  omega

theorem packWord_qbindUn_iff {q : BitVec 3} (hb : base < 2 ^ 32) (hz : base % 2 ^ 25 = 64) :
    packWord base [(q.toNat, 0)] = word ↔
      (fld word 25 7).toNat = base / 2 ^ 25 ∧ fld word 0 3 = q ∧ fld word 3 22 = 8#22 := by
  simp [packWord_eq_iff, fld_eq_iff, fld_toNat]
  omega

theorem packWord_qbind_iff {p q : BitVec 3} (hb : base < 2 ^ 32) (hz : base % 2 ^ 25 = 0) :
    packWord base [(p.toNat, 3), (q.toNat, 0)] = word ↔
      (fld word 25 7).toNat = base / 2 ^ 25 ∧ fld word 3 3 = p ∧ fld word 0 3 = q ∧ fld word 6 19 = 0#19 := by
  simp [packWord_eq_iff, fld_eq_iff, fld_toNat]
  omega

theorem packWord_qstat_iff {d : BitVec 7} {n : BitVec 3} (hb : base < 2 ^ 32) (hz : base % 2 ^ 25 = 0) :
    packWord base [(d.toNat, 18), (n.toNat, 0)] = word ↔
      (fld word 25 7).toNat = base / 2 ^ 25 ∧ fld word 18 7 = d ∧ fld word 0 3 = n ∧ fld word 3 15 = 0#15 := by
  simp [packWord_eq_iff, fld_eq_iff, fld_toNat]
  omega

theorem packWord_xqap_iff {d a : BitVec 7} {x : BitVec 6} {k : BitVec 1}
    (hb : base < 2 ^ 32) (hz : base % 2 ^ 25 = 0) :
    packWord base [(d.toNat, 18), (a.toNat, 11), (x.toNat, 5), (k.toNat, 4)] = word ↔
      (fld word 25 7).toNat = base / 2 ^ 25 ∧ fld word 18 7 = d ∧ fld word 11 7 = a ∧ fld word 5 6 = x ∧
      fld word 4 1 = k ∧ fld word 0 4 = 0#4 := by
  simp [packWord_eq_iff, fld_eq_iff, fld_toNat]
  omega

theorem packWord_xwaitAll_iff {d : BitVec 7} (hb : base < 2 ^ 32) (hz : base % 2 ^ 25 = 1) :
    packWord base [(d.toNat, 18)] = word ↔
      (fld word 25 7).toNat = base / 2 ^ 25 ∧ fld word 18 7 = d ∧ fld word 0 18 = 1#18 := by
  simp [packWord_eq_iff, fld_eq_iff, fld_toNat]
  omega

theorem packWord_tcfg_iff {w : BitVec 1} {e g : BitVec 2} {x : BitVec 1} {n : BitVec 5}
    (hb : base < 2 ^ 32) (hz : base % 2 ^ 25 = 0) :
    packWord base [(w.toNat, 10), (e.toNat, 8), (g.toNat, 6), (x.toNat, 5), (n.toNat, 0)] = word ↔
      (fld word 25 7).toNat = base / 2 ^ 25 ∧ fld word 10 1 = w ∧ fld word 8 2 = e ∧ fld word 6 2 = g ∧ fld word 5 1 = x ∧
      fld word 0 5 = n ∧ fld word 11 14 = 0#14 := by
  simp [packWord_eq_iff, fld_eq_iff, fld_toNat]
  omega

theorem packWord_tclr_iff {c x : BitVec 1} {n : BitVec 5} (hb : base < 2 ^ 32) (hz : base % 2 ^ 25 = 0) :
    packWord base [(c.toNat, 6), (x.toNat, 5), (n.toNat, 0)] = word ↔
      (fld word 25 7).toNat = base / 2 ^ 25 ∧ fld word 6 1 = c ∧ fld word 5 1 = x ∧ fld word 0 5 = n ∧
      fld word 7 18 = 0#18 := by
  simp [packWord_eq_iff, fld_eq_iff, fld_toNat]
  omega

theorem packWord_tstg_iff {t b : BitVec 7} (hb : base < 2 ^ 32) (hz : base % 2 ^ 25 = 0) :
    packWord base [(t.toNat, 18), (b.toNat, 4)] = word ↔
      (fld word 25 7).toNat = base / 2 ^ 25 ∧ fld word 18 7 = t ∧ fld word 4 7 = b ∧ fld word 11 7 = 0#7 ∧
      fld word 0 4 = 0#4 := by
  simp [packWord_eq_iff, fld_eq_iff, fld_toNat]
  omega

theorem packWord_amsg_iff {t b : BitVec 7} {l : BitVec 4} (hb : base < 2 ^ 32) (hz : base % 2 ^ 25 = 0) :
    packWord base [(t.toNat, 18), (b.toNat, 4), (l.toNat, 0)] = word ↔
      (fld word 25 7).toNat = base / 2 ^ 25 ∧ fld word 18 7 = t ∧ fld word 4 7 = b ∧ fld word 0 4 = l ∧
      fld word 11 7 = 0#7 := by
  simp [packWord_eq_iff, fld_eq_iff, fld_toNat]
  omega

theorem packWord_mfs_iff {d : BitVec 7} {n : BitVec 5} (hb : base < 2 ^ 32) (hz : base % 2 ^ 25 = 0) :
    packWord base [(d.toNat, 18), (n.toNat, 0)] = word ↔
      (fld word 25 7).toNat = base / 2 ^ 25 ∧ fld word 18 7 = d ∧ fld word 0 5 = n ∧ fld word 5 13 = 0#13 := by
  simp [packWord_eq_iff, fld_eq_iff, fld_toNat]
  omega

theorem packWord_mts_iff {a : BitVec 7} {n : BitVec 5} (hb : base < 2 ^ 32) (hz : base % 2 ^ 25 = 0) :
    packWord base [(a.toNat, 11), (n.toNat, 0)] = word ↔
      (fld word 25 7).toNat = base / 2 ^ 25 ∧ fld word 11 7 = a ∧ fld word 0 5 = n ∧ fld word 18 7 = 0#7 ∧
      fld word 5 6 = 0#6 := by
  simp [packWord_eq_iff, fld_eq_iff, fld_toNat]
  omega

theorem packWord_spcfg_iff {o z : BitVec 1} {w : BitVec 4} (hb : base < 2 ^ 32) (hz : base % 2 ^ 25 = 0) :
    packWord base [(o.toNat, 5), (z.toNat, 4), (w.toNat, 0)] = word ↔
      (fld word 25 7).toNat = base / 2 ^ 25 ∧ fld word 5 1 = o ∧ fld word 4 1 = z ∧ fld word 0 4 = w ∧
      fld word 6 19 = 0#19 := by
  simp [packWord_eq_iff, fld_eq_iff, fld_toNat]
  omega


end

/-! ### Decoding what was encoded -/

/-- A word matches the pattern of the well-formed instruction it encodes; where several patterns share an opcode, its fixed
bits tell them apart. -/
theorem decodePattern_of_encodeWord (w : Word) (i : Instr) (hword : i.isWord = true) (hwf : i.wellFormed = true)
    (h : encodeWord i = w) : decodePattern w = .ok i := by
  cases i with
  | iadd | isub | imul | imulh | imad | imin | imax | dqt | ld | ldw | ldq | ldx | tmma | dmma | grpl | quiet =>
    obtain ⟨hop, rfl, rfl, rfl, rfl⟩ := (packWord_dabf_iff (by decide) (by decide)).1 h
    rw [decodePattern, hop]
    rfl
  | and | or | xor | shl | shr | sra | bfi | st | stw | stq | mcrd =>
    obtain ⟨hop, rfl, rfl, rfl, hx⟩ := (packWord_dab_iff (by decide) (by decide)).1 h
    rw [decodePattern, hop]
    exact if_pos (beq_iff_eq.2 hx)
  | aadd | amin | amax | aand | aor | axor | axch | acas | afadd | jdec =>
    obtain ⟨hop, rfl, rfl, rfl, rfl, rfl, rfl, rfl⟩ := (packWord_tasrpzl_iff (by decide) (by decide)).1 h
    rw [decodePattern, hop]
    rfl
  | nop | join | regang | exit | yld | eret | rply | tlbiAll =>
    obtain ⟨hop, hx⟩ := (packWord_fixed_iff (by decide)).1 h
    rw [decodePattern, hop]
    exact if_pos (beq_iff_eq.2 hx)
  | popc | mwait | ttbl | mapf =>
    obtain ⟨hop, rfl, rfl, hx⟩ := (packWord_da_iff (by decide) (by decide)).1 h
    rw [decodePattern, hop]
    exact if_pos (beq_iff_eq.2 hx)
  | fadd | fsub | fmul | ffma | fmin | fmax | dot8 | dot4 | shfl =>
    obtain ⟨hop, rfl, rfl, rfl, rfl, hx⟩ := (packWord_dabp_iff (by decide) (by decide)).1 h
    rw [decodePattern, hop]
    exact if_pos (beq_iff_eq.2 hx)
  | frcp | frsq | fsqrt | fexp2 | flog2 | fsin | fcos | ftanh | scan =>
    obtain ⟨hop, rfl, rfl, rfl, rfl, hx⟩ := (packWord_dakl_iff (by decide) (by decide)).1 h
    rw [decodePattern, hop]
    exact if_pos (beq_iff_eq.2 hx)
  | vote | rdx | tbnd | tsub =>
    obtain ⟨hop, rfl, rfl, rfl, hx⟩ := (packWord_dal_iff (by decide) (by decide) (by decide)).1 h
    rw [decodePattern, hop]
    exact if_pos (beq_iff_eq.2 hx)
  | ret | cflush | spawn =>
    obtain ⟨hop, rfl, hx, hy⟩ := (packWord_a_iff (by decide) (by decide)).1 h
    rw [decodePattern, hop]
    exact if_pos (by simp [hx, hy])
  | bra | rcp | trap | win =>
    obtain ⟨hop, rfl, hx⟩ := (packWord_o_iff (by decide) (by decide)).1 h
    rw [decodePattern, hop]
    exact if_pos (beq_iff_eq.2 hx)
  | brc | call | lui =>
    obtain ⟨hop, rfl, rfl⟩ := (packWord_co_iff (by decide) (by decide)).1 h
    rw [decodePattern, hop]
    rfl
  | iaddi | andi | ori | xori =>
    obtain ⟨hop, rfl, rfl, rfl⟩ := (packWord_dai_iff (by decide) (by decide)).1 h
    rw [decodePattern, hop]
    rfl
  | bfx | sel | coal =>
    obtain ⟨hop, rfl, rfl, rfl, rfl, hx⟩ := (packWord_dabs_iff (by decide) (by decide)).1 h
    rw [decodePattern, hop]
    exact if_pos (beq_iff_eq.2 hx)
  | icmp | lea | fcmp =>
    obtain ⟨hop, rfl, rfl, rfl, rfl, rfl⟩ := (packWord_dabxc_iff (by decide) (by decide)).1 h
    rw [decodePattern, hop]
    rfl
  | xcp | xcpr | tdrn =>
    obtain ⟨hop, rfl, rfl, rfl, rfl, rfl⟩ := (packWord_daxkl_iff (by decide) (by decide)).1 h
    rw [decodePattern, hop]
    rfl
  | shli | shri =>
    obtain ⟨hop, rfl, rfl, rfl, hx⟩ := (packWord_das_iff (by decide) (by decide)).1 h
    rw [decodePattern, hop]
    exact if_pos (beq_iff_eq.2 hx)
  | pack | mkab =>
    obtain ⟨hop, rfl, rfl, rfl, rfl, rfl, hx⟩ := (packWord_dabkh_iff (by decide) (by decide)).1 h
    rw [decodePattern, hop]
    exact if_pos (beq_iff_eq.2 hx)
  | lda | mon =>
    obtain ⟨hop, rfl, rfl, rfl, rfl, rfl, rfl, hx, hy⟩ := (packWord_tasrwl_iff (by decide) (by decide)).1 h
    rw [decodePattern, hop]
    exact if_pos (by simp [hx, hy])
  | bar | bara =>
    obtain ⟨hop, rfl, rfl, hx⟩ := (packWord_cn_iff (by decide) (by decide)).1 h
    rw [decodePattern, hop]
    exact if_pos (beq_iff_eq.2 hx)
  | loop =>
    obtain ⟨hop, rfl, rfl, hx⟩ := (packWord_loop_iff (by decide) (by decide)).1 h
    rw [decodePattern, hop]
    exact if_pos (beq_iff_eq.2 hx)
  | setx =>
    obtain ⟨hop, rfl, rfl, rfl, hx, hy⟩ := (packWord_setx_iff (by decide) (by decide)).1 h
    rw [decodePattern, hop]
    exact if_pos (by simp [hx, hy])
  | fmt =>
    obtain ⟨hop, rfl, hx⟩ := (packWord_fmt_iff (by decide) (by decide)).1 h
    rw [decodePattern, hop]
    exact if_pos (beq_iff_eq.2 hx)
  | clz =>
    obtain ⟨hop, rfl, rfl, rfl, hx⟩ := (packWord_clz_iff (by decide) (by decide)).1 h
    rw [decodePattern, hop]
    exact if_pos (beq_iff_eq.2 hx)
  | cvt =>
    obtain ⟨hop, rfl, rfl, rfl, rfl, rfl, hx⟩ := (packWord_cvt_iff (by decide) (by decide)).1 h
    rw [decodePattern, hop]
    exact if_pos (beq_iff_eq.2 hx)
  | tsta =>
    obtain ⟨hop, rfl, rfl, rfl, rfl, hx⟩ := (packWord_tsta_iff (by decide) (by decide)).1 h
    rw [decodePattern, hop]
    exact if_pos (beq_iff_eq.2 hx)
  | waitp =>
    obtain ⟨hop, rfl, rfl, hx, hy⟩ := (packWord_waitp_iff (by decide) (by decide)).1 h
    rw [decodePattern, hop]
    exact if_pos (by simp [hx, hy])
  | stl =>
    obtain ⟨hop, rfl, rfl, rfl, rfl, rfl, hx, hy⟩ := (packWord_stl_iff (by decide) (by decide)).1 h
    rw [decodePattern, hop]
    exact if_pos (by simp [hx, hy])
  | fence =>
    obtain ⟨hop, rfl, rfl, hx, hy⟩ := (packWord_fence_iff (by decide) (by decide)).1 h
    rw [decodePattern, hop]
    exact if_pos (by simp [hx, hy])
  | prom =>
    obtain ⟨hop, rfl, rfl, rfl, hx, hy⟩ := (packWord_prom_iff (by decide) (by decide)).1 h
    rw [decodePattern, hop]
    exact if_pos (by simp [hx, hy])
  | qstat =>
    obtain ⟨hop, rfl, rfl, hx⟩ := (packWord_qstat_iff (by decide) (by decide)).1 h
    rw [decodePattern, hop]
    exact if_pos (beq_iff_eq.2 hx)
  | xqap =>
    obtain ⟨hop, rfl, rfl, rfl, rfl, hx⟩ := (packWord_xqap_iff (by decide) (by decide)).1 h
    rw [decodePattern, hop]
    exact if_pos (beq_iff_eq.2 hx)
  | tcfg =>
    obtain ⟨hop, rfl, rfl, rfl, rfl, rfl, hx⟩ := (packWord_tcfg_iff (by decide) (by decide)).1 h
    rw [decodePattern, hop]
    exact if_pos (beq_iff_eq.2 hx)
  | tclr =>
    obtain ⟨hop, rfl, rfl, rfl, hx⟩ := (packWord_tclr_iff (by decide) (by decide)).1 h
    rw [decodePattern, hop]
    exact if_pos (beq_iff_eq.2 hx)
  | tstg =>
    obtain ⟨hop, rfl, rfl, hx, hy⟩ := (packWord_tstg_iff (by decide) (by decide)).1 h
    rw [decodePattern, hop]
    exact if_pos (by simp [hx, hy])
  | amsg =>
    obtain ⟨hop, rfl, rfl, rfl, hx⟩ := (packWord_amsg_iff (by decide) (by decide)).1 h
    rw [decodePattern, hop]
    exact if_pos (beq_iff_eq.2 hx)
  | mfs =>
    obtain ⟨hop, rfl, rfl, hx⟩ := (packWord_mfs_iff (by decide) (by decide)).1 h
    rw [decodePattern, hop]
    exact if_pos (beq_iff_eq.2 hx)
  | mts =>
    obtain ⟨hop, rfl, rfl, hx, hy⟩ := (packWord_mts_iff (by decide) (by decide)).1 h
    rw [decodePattern, hop]
    exact if_pos (by simp [hx, hy])
  | spcfg =>
    obtain ⟨hop, rfl, rfl, rfl, hx⟩ := (packWord_spcfg_iff (by decide) (by decide)).1 h
    rw [decodePattern, hop]
    exact if_pos (beq_iff_eq.2 hx)
  | braZ c =>
    obtain ⟨hop, rfl, rfl⟩ := (packWord_co_iff (by decide) (by decide)).1 h
    obtain ⟨-, hc⟩ := Bool.and_eq_true_iff.1 hwf
    rw [decodePattern, hop]
    exact if_neg (by simpa using hc)
  | eretAbandon =>
    obtain ⟨hop, hx⟩ := (packWord_fixed_iff (by decide)).1 h
    rw [decodePattern, hop]
    show ite _ _ (ite _ _ _) = _
    simp [hx]
  | qntHealth =>
    obtain ⟨hop, rfl, rfl, hx⟩ := (packWord_qntHealth_iff (by decide) (by decide)).1 h
    rw [decodePattern, hop]
    exact if_pos (beq_iff_eq.2 hx)
  | qnt | qntFix =>
    obtain ⟨hop, rfl, rfl, rfl, hx⟩ := (packWord_dal_iff (by decide) (by decide) (by decide)).1 h
    have hhealth : fld w 4 14 ≠ 64#14 := fun h64 => by simp [fld_of_fld_eq h64 0] at hx
    rw [decodePattern, hop]
    show ite _ _ (ite _ _ (ite _ _ _)) = _
    simp [hx, hhealth]
  | unpk =>
    obtain ⟨hop, rfl, rfl, rfl, rfl, rfl, hx, hy⟩ := (packWord_unpk_iff (by decide) (by decide)).1 h
    rw [decodePattern, hop]
    exact if_pos (by simp [hx, hy])
  | unpkCb =>
    obtain ⟨hop, rfl, rfl, rfl, hx⟩ := (packWord_dab_iff (by decide) (by decide)).1 h
    have hcb : fld w 1 1 = 1 := fld_of_fld_eq hx 1 (by decide)
    rw [decodePattern, hop]
    show ite _ _ (ite _ _ _) = _
    simp [hx, hcb]
  | cbt =>
    obtain ⟨hop, rfl, rfl, hx, hy⟩ := (packWord_cbt_iff (by decide) (by decide)).1 h
    rw [decodePattern, hop]
    exact if_pos (by simp [hx, hy])
  | cbtReg =>
    obtain ⟨hop, rfl, rfl, hx⟩ := (packWord_cbtReg_iff (by decide) (by decide)).1 h
    have hreg : fld w 18 7 = 1 := fld_of_fld_eq hx 7 (by decide)
    rw [decodePattern, hop]
    show ite _ _ (ite _ _ _) = _
    simp [hx, hreg]
  | qbindUn =>
    obtain ⟨hop, rfl, hx⟩ := (packWord_qbindUn_iff (by decide) (by decide)).1 h
    rw [decodePattern, hop]
    exact if_pos (beq_iff_eq.2 hx)
  | qbind =>
    obtain ⟨hop, rfl, rfl, hx⟩ := (packWord_qbind_iff (by decide) (by decide)).1 h
    have hun : fld w 3 22 ≠ 8#22 := fun h8 => by simp [fld_of_fld_eq h8 3] at hx
    rw [decodePattern, hop]
    show ite _ _ (ite _ _ _) = _
    simp [hx, hun]
  | xwaitAll =>
    obtain ⟨hop, rfl, hx⟩ := (packWord_xwaitAll_iff (by decide) (by decide)).1 h
    rw [decodePattern, hop]
    exact if_pos (beq_iff_eq.2 hx)
  | xwait =>
    obtain ⟨hop, rfl, rfl, hx⟩ := (packWord_da_iff (by decide) (by decide)).1 h
    have hall : fld w 0 18 ≠ 1#18 := fun h1 => by simp [fld_of_fld_eq h1 0] at hx
    rw [decodePattern, hop]
    show ite _ _ (ite _ _ _) = _
    simp [hx, hall]
  | qadjInjected | qadjConsumed | qadjClearLost | qadjQueryToLost =>
    obtain ⟨hop, rfl, rfl, hx⟩ := (packWord_da_iff (by decide) (by decide)).1 h
    rw [decodePattern, hop]
    show ite _ _ (ite _ _ (ite _ _ (ite _ _ _))) = _
    simp [hx]
  | tlbiPage | tlbiAsid =>
    obtain ⟨hop, rfl, hx, hy⟩ := (packWord_a_iff (by decide) (by decide)).1 h
    have hall : fld w 0 25 ≠ 2#25 := fun h2 => by simp [fld_of_fld_eq h2 0] at hy
    rw [decodePattern, hop]
    show ite _ _ (ite _ _ (ite _ _ _)) = _
    simp [hx, hy, hall]
  | _ => cases hword

/-! ### Encoding what was decoded -/

/-- The pattern a word matches names all of its bits: each arm of the decoder asks for the fixed bits that the encoder
writes. -/
theorem encodeWord_of_decodePattern {w : Word} {i : Instr} (h : decodePattern w = .ok i) :
    i.isWord = true ∧ encodeWord i = w := by
  unfold decodePattern at h
  split at h
  all_goals
    rename_i hop
    repeat' split at h
  all_goals cases h
  all_goals
    refine ⟨rfl, ?_⟩
    rw [encodeWord]
    simp_all [packWord_dabf_iff, packWord_dab_iff, packWord_tasrpzl_iff, packWord_fixed_iff, packWord_da_iff,
      packWord_dabp_iff, packWord_dakl_iff, packWord_dal_iff, packWord_a_iff, packWord_o_iff, packWord_co_iff,
      packWord_dai_iff, packWord_dabs_iff, packWord_dabxc_iff, packWord_daxkl_iff, packWord_das_iff,
      packWord_dabkh_iff, packWord_tasrwl_iff, packWord_cn_iff, packWord_loop_iff, packWord_setx_iff,
      packWord_fmt_iff, packWord_clz_iff, packWord_cvt_iff, packWord_qntHealth_iff, packWord_unpk_iff,
      packWord_tsta_iff, packWord_cbt_iff, packWord_cbtReg_iff, packWord_waitp_iff, packWord_stl_iff,
      packWord_fence_iff, packWord_prom_iff, packWord_qbindUn_iff, packWord_qbind_iff, packWord_qstat_iff,
      packWord_xqap_iff, packWord_xwaitAll_iff, packWord_tcfg_iff, packWord_tclr_iff, packWord_tstg_iff,
      packWord_amsg_iff, packWord_mfs_iff, packWord_mts_iff, packWord_spcfg_iff]

/-- A word decodes to an instruction exactly when it matches its pattern and the instruction is well formed. -/
theorem decodeWord_eq_ok_iff {w : Word} {i : Instr} :
    decodeWord w = .ok i ↔ decodePattern w = .ok i ∧ i.wellFormed = true := by
  rw [decodeWord]
  cases decodePattern w with
  | error r => simp [bind, Except.bind]
  | ok j =>
    by_cases hj : j.wellFormed = true
    · simp only [bind, Except.bind, hj, if_true, Except.ok.injEq]
      exact ⟨fun h => ⟨h, h ▸ hj⟩, And.left⟩
    · simp only [bind, Except.bind, hj, Except.ok.injEq]
      exact ⟨fun h => (nomatch h), fun ⟨h, hi⟩ => absurd (h ▸ hi) hj⟩

end Sys2Proof.Laws
end

section
open Sys2Proof Sys2Proof.Laws

/-- Settles O57: the word's fields are the instruction's operands, and no other pattern of its opcode fits. -/
theorem decodeOfEncode : Obligations.DecodeOfEncode :=
  fun i hword hwf => decodeWord_eq_ok_iff.2 ⟨decodePattern_of_encodeWord _ i hword hwf rfl, hwf⟩

/-- Settles O58: the pattern a word matches accounts for every bit of it. -/
theorem encodeOfDecode : Obligations.EncodeOfDecode := by
  intro w i h
  obtain ⟨hp, hwf⟩ := decodeWord_eq_ok_iff.1 h
  obtain ⟨hword, henc⟩ := encodeWord_of_decodePattern hp
  exact ⟨hword, hwf, henc⟩

/-- Settles O56: the decoder evaluates to the instruction on each of these words. -/
theorem specWordsDecode : Obligations.SpecWordsDecode :=
  ⟨rfl, rfl, rfl, rfl, rfl, rfl, rfl⟩

end

section
open Sys2Proof Sys2Proof.Machine Sys2Proof.Claim

/-- Settles O3: each word is its access, issued once its addresses pass and there is room. -/
theorem accessesComplete : Obligations.AccessesComplete :=
  fun _ _ _ _ _ _ h ha hreach hroom => exec_access h ha hreach hroom

end

section
/-! The order of the checks of a word (03 R73): every instruction word is `runOp` of what it needs, so it ends at the first
check it fails, and waits for its registers once it has passed them. -/

namespace Sys2Proof.Claim
open Sys2Proof Sys2Proof.Machine

/-! ### Every word runs in the frame of 03 R73 -/

/-- Every word but TRAP is `runOp` of what it needs. -/
theorem exec_eq_runOp {i : Instr} (hword : i.isWord = true) (htrap : ∀ k, i ≠ .trap k) (c : Ctx) (s : State) :
    ∃ body, exec i s = runOp i (needs i) body s := by
  cases i with
  | and | andi | or | ori | xor | xori | shl | shr | shli | shri | sra | bfx | bfi | clz | popc | imul | imulh |
  imad | imin | imax | iaddi | icmp | lea | lui | sel | coal | mkab | tsta | pack | unpk | unpkCb | dot8 | dot4 |
  fadd | fsub | fmul | fmin | fmax | ffma | fcmp | shfl | vote | rdx | scan | mfs =>
    exact ⟨_, exec_of_resultOf (c := c) (s' := s) (args := []) rfl s⟩
  | ld | ldw | ldq | lda | mon | st | stw | stq | stl | aadd | amin | amax | aand | aor | axor | axch | acas | afadd
  | jdec | prom | spawn =>
    exact ⟨_, exec_of_accessOf (args := []) rfl s⟩
  | amsg | bra | braZ | brc | call | cbt | cbtReg | cflush | dmma | eret | eretAbandon | exit | fence | fmt | grpl |
  join | ldx | loop | mapf | mcrd | mts | mwait | nop | qntHealth | quiet | rcp | regang | ret | rply | setx |
  spcfg | tbnd | tcfg | tclr | tdrn | tlbiAll | tmma | tstg | tsub | ttbl | waitp | win | xcp | xcpr | xqap |
  xwait | xwaitAll | yld =>
    simp only [exec, execAmsg, execBra, execBraZ, execBrc, execCall, execCbt, execCbtReg, execCflush, execDmma, execEret,
      execEretAbandon, execExit, execFence, execFmt, execGrpl, execJoin, execLdx, execLoop, execMapf, execMcrd,
      execMts, execMwait, execNop, execQntHealth, execQuiet, execRcp, execRegang, execRet, execRply, execSetx,
      execSpcfg, execTbnd, execTcfg, execTclr, execTdrn, execTlbiAll, execTmma, execTstg, execTsub, execTtbl,
      execWaitp, execWin, execXcp, execXcpr, execXqap, execXwait, execXwaitAll, execYld]
    exact ⟨_, rfl⟩
  | bar | bara =>
    simp only [exec, execBar, execBara, barrierOp]
    exact ⟨_, rfl⟩
  | cvt | dqt | frcp | frsq | fsqrt | fexp2 | flog2 | fsin | fcos | ftanh =>
    simp only [exec, execCvt, execDqt, execFrcp, execFrsq, execFsqrt, execFexp2, execFlog2, execFsin, execFcos, execFtanh,
      sfqOp, queueOp]
    exact ⟨_, rfl⟩
  | qadjInjected | qadjConsumed | qadjClearLost | qadjQueryToLost =>
    simp only [exec, execQadjInjected, execQadjConsumed, execQadjClearLost, execQadjQueryToLost, qadj]
    exact ⟨_, rfl⟩
  | qbind | qbindUn =>
    simp only [exec, execQbind, execQbindUn, bindQueue]
    exact ⟨_, rfl⟩
  | qnt | qntFix =>
    simp only [exec, execQnt, execQntFix, qntOp]
    exact ⟨_, rfl⟩
  | tlbiPage | tlbiAsid =>
    simp only [exec, execTlbiPage, execTlbiAsid, tlbi]
    exact ⟨_, rfl⟩
  | iadd | isub => exact ⟨_, addSub_eq_runOp s rfl fun _ _ _ => rfl⟩
  | qstat => exact ⟨_, exec_qstat _ _ s⟩
  | trap k => exact absurd rfl (htrap k)
  | _ => cases hword

section
variable {s : State} {c : Ctx} {i : Instr}

/-- A word that fails a check ends there. -/
theorem exec_of_check_error {e : Stop} (hword : i.isWord = true) (hlive : s.issuer? = some c)
    (hcheck : c.check i (needs i) = .error e) : exec i s = s.outcome c (opcodeOf i) (.error e) := by
  by_cases htrap : ∃ k, i = .trap k
  · obtain ⟨k, rfl⟩ := htrap
    change execTrap k s = _
    have hcheck' : c.check (.trap k) {} = .error e := hcheck
    simp only [execTrap, hlive, hcheck']
  · obtain ⟨body, hbody⟩ := exec_eq_runOp hword (fun k hk => htrap ⟨k, hk⟩) c s
    rw [hbody, runOp_check body hlive hcheck]

/-- A word that has passed its checks and waits for a register changes nothing (03 R66). -/
theorem exec_of_not_ready (hword : i.isWord = true) (hlive : s.issuer? = some c)
    (hcheck : c.check i (needs i) = .ok ()) (hready : ¬Ready c i) : exec i s = .next s := by
  have htrap (k : BitVec 18) : i ≠ .trap k := by
    rintro rfl
    exact hready (List.all_eq_true.2 fun _ _ => List.all_eq_true.2 fun _ _ => by simp [needs])
  obtain ⟨body, hbody⟩ := exec_eq_runOp hword htrap c s
  rw [hbody, runOp_score body hlive hcheck (Bool.eq_false_iff.2 hready)]

end

/-! ### The checks, one by one -/

section
variable (c : Ctx) (i : Instr) (o : OpSpec)

/-- The word itself may stand in this thread (03 R71, R72). -/
def wordOk : Bool :=
  i.wellFormed && !o.bad && o.kind.admits c.gang.isSeq && !(o.noHandler && c.inHandler) &&
    (c.allUses o).all (·.legal c.gang.isSeq)

/-- The thread may run a supervisor's word (03 R71; 16 R365). -/
def privOk : Bool := c.inHandler || (!o.handlerOnly && (!o.priv || c.crew.supervisor))

/-- Every operand resolves (03 R52, R59). -/
def boundsOk : Bool :=
  c.sls.all fun k => (o.uses (c.gang.slice k)).all fun u => (resolve c.gang.isSeq c.gang.allot (c.gang.slice k) u).isSome

/-- Every queue register is bound (03 R53). -/
def queuesOk : Bool := (c.allUses o).all fun u => !u.isQueue || (c.port? u).isSome

/-- Every slice's FMT is accepted (04 R95). -/
def formatsOk : Bool := c.sls.all fun k => o.fmtOk (c.gang.slice k)

theorem check_eq : c.check i o = (do
    need (wordOk c i o) .illegal
    need (o.feat.all c.crew.feat.getLsbD) .illegal
    ready (c.layoutKnown o)
    need (c.layoutOk o) .illegal
    need (privOk c o) .priv
    need (boundsOk c o) .regBound
    need (queuesOk c o) .queue
    need (formatsOk c o) .format) := rfl

theorem mem_allUses {u : Use} : u ∈ c.allUses o ↔ ∃ k ∈ c.sls, u ∈ o.uses (c.gang.slice k) := List.mem_flatMap

theorem wordOk_iff : wordOk c i o = true ↔ i.wellFormed = true ∧ o.bad = false ∧ o.kind.admits c.gang.isSeq = true ∧
    (o.noHandler = true → c.inHandler = false) ∧
    ∀ k ∈ c.sls, ∀ u ∈ o.uses (c.gang.slice k), u.legal c.gang.isSeq = true := by
  have hhandler : (!(o.noHandler && c.inHandler)) = true ↔ (o.noHandler = true → c.inHandler = false) := by
    cases o.noHandler <;> simp
  have huses : (c.allUses o).all (·.legal c.gang.isSeq) = true ↔
      ∀ k ∈ c.sls, ∀ u ∈ o.uses (c.gang.slice k), u.legal c.gang.isSeq = true := by
    simp only [List.all_eq_true, mem_allUses]
    exact ⟨fun h k hk u hu => h u ⟨k, hk, hu⟩, fun h u ⟨k, hk, hu⟩ => h k hk u hu⟩
  simp only [wordOk, Bool.and_eq_true, hhandler, huses, Bool.not_eq_true', and_assoc]

theorem layoutKnown_iff : c.layoutKnown o = true ↔ LayoutKnown c o := by
  simp [Ctx.layoutKnown, LayoutKnown, Option.all_eq_true]

theorem layoutOk_iff : c.layoutOk o = true ↔ LayoutDeclared c o := by
  simp [Ctx.layoutOk, LayoutDeclared, Option.all_eq_true]

theorem privOk_iff : privOk c o = true ↔
    c.inHandler = true ∨ (o.handlerOnly = false ∧ (o.priv = true → c.crew.supervisor = true)) := by
  simp only [privOk, Bool.or_eq_true, Bool.and_eq_true, Bool.not_eq_true']
  cases o.priv <;> simp

theorem boundsOk_iff : boundsOk c o = true ↔ ∀ k ∈ c.sls, ∀ u ∈ o.uses (c.gang.slice k),
    (resolve c.gang.isSeq c.gang.allot (c.gang.slice k) u).isSome = true := by
  simp only [boundsOk, List.all_eq_true]

theorem queuesOk_iff : queuesOk c o = true ↔
    ∀ k ∈ c.sls, ∀ u ∈ o.uses (c.gang.slice k), u.isQueue = true → (c.port? u).isSome = true := by
  simp only [queuesOk, List.all_eq_true, mem_allUses, Bool.or_eq_true, Bool.not_eq_true']
  constructor
  · intro h k hk u hu hq
    exact (h u ⟨k, hk, hu⟩).resolve_left (by simp [hq])
  · rintro h u ⟨k, hk, hu⟩
    cases hq : u.isQueue with
    | false => exact .inl rfl
    | true => exact .inr (h k hk u hu hq)

theorem formatsOk_iff : formatsOk c o = true ↔ ∀ k ∈ c.sls, o.fmtOk (c.gang.slice k) = true := List.all_eq_true

end

end Sys2Proof.Claim
end

section
open Sys2Proof Sys2Proof.Machine Sys2Proof.Claim

/-- Settles O46: every word is `runOp` of what it needs, and each clause is the first check of `Ctx.check` that fails. -/
theorem checksComeInOrder : Obligations.ChecksComeInOrder := by
  intro s c i hword hlive
  have htraps {k : Cause} (hcheck : c.check i (needs i) = .error (.of k)) :
      exec i s = .next (s.takeTrap c k [] (opcodeOf i)) := exec_of_check_error hword hlive hcheck
  simp only [← wordOk_iff, ← privOk_iff, ← boundsOk_iff, ← queuesOk_iff, ← formatsOk_iff, ← layoutKnown_iff, ← layoutOk_iff,
    ← List.all_eq_true (p := c.crew.feat.getLsbD), Bool.not_eq_true]
  refine ⟨fun hw => htraps (by rw [check_eq, hw]; rfl), fun hw ⟨b, hb, hno⟩ => ?_,
    fun hw hf hl => exec_of_check_error hword hlive (e := .wait) (by rw [check_eq, hw, hf, hl]; rfl),
    fun hl => ⟨fun hw hfeature => ?_,
    fun hw ⟨hf, hd⟩ hp => htraps (by rw [check_eq, hw, hf, hl, hd, hp]; rfl),
    fun hw ⟨hf, hd⟩ hp hb => htraps (by rw [check_eq, hw, hf, hl, hd, hp, hb]; rfl),
    fun hw ⟨hf, hd⟩ hp hb hq => htraps (by rw [check_eq, hw, hf, hl, hd, hp, hb, hq]; rfl),
    fun hw ⟨hf, hd⟩ hp hb hq hfmt => htraps (by rw [check_eq, hw, hf, hl, hd, hp, hb, hq, hfmt]; rfl),
    fun hw ⟨hf, hd⟩ hp hb hq hfmt hready =>
      exec_of_not_ready hword hlive (by rw [check_eq, hw, hf, hl, hd, hp, hb, hq, hfmt]; rfl) hready⟩⟩
  · have hf : (needs i).feat.all c.crew.feat.getLsbD = false :=
      List.all_eq_false.2 ⟨b, hb, by simp [hno]⟩
    exact htraps (by rw [check_eq, hw, hf]; rfl)
  · cases hf : (needs i).feat.all c.crew.feat.getLsbD with
    | false => exact htraps (by rw [check_eq, hw, hf]; rfl)
    | true =>
      have hd : c.layoutOk (needs i) = false := Bool.eq_false_iff.2 fun hd => hfeature ⟨hf, hd⟩
      exact htraps (by rw [check_eq, hw, hf, hl, hd]; rfl)

end

section
/-! The steps that bring results back (03 R67): a word that arrives, and what ending flights leaves of a gang. -/

namespace Sys2Proof.Machine
open Sys2Proof

/-! ### Ending flights keeps lanes and palettes (03 R66, 07 R173) -/

/-- From one state to another every member of a crew has kept its lanes and its palette. -/
def State.LanesKept (s t : State) : Prop :=
  ∀ id m g', (t.crew? id).bind (·.member? m) = some g' →
    ∃ g, (s.crew? id).bind (·.member? m) = some g ∧ g'.palette = g.palette ∧ g'.lanes = g.lanes

theorem State.LanesKept.of_crews_eq {s t : State} (h : t.crews = s.crews) : s.LanesKept t := by
  intro id m g' hg
  rw [State.crew?, h] at hg
  exact ⟨g', hg, rfl, rfl⟩

theorem State.LanesKept.trans {s t u : State} (h : s.LanesKept t) (h' : t.LanesKept u) : s.LanesKept u := by
  intro id m g'' hg
  obtain ⟨g', hg', hpal', hlanes'⟩ := h' id m g'' hg
  obtain ⟨g, hg, hpal, hlanes⟩ := h id m g' hg'
  exact ⟨g, hg, hpal'.trans hpal, hlanes'.trans hlanes⟩

/-- A member of a crew after an update of one member of one crew. -/
theorem State.member?_mapGang (s : State) (id m n k : Nat) (f : Gang → Gang) :
    ((s.mapGang id m f).crew? n).bind (·.member? k) =
      if n = id ∧ k = m then ((s.crew? n).bind (·.member? k)).map f else (s.crew? n).bind (·.member? k) := by
  rw [State.mapGang, State.crew?_mapCrew _ _ _ _ fun c => Crew.mapMember_id c m f]
  by_cases hn : n = id
  · cases s.crew? n with
    | none => simp
    | some c => simp [hn, Crew.member?_mapMember]
  · simp [hn]

theorem State.LanesKept.of_mapGang (s : State) (id m : Nat) {f : Gang → Gang}
    (hf : ∀ g, (f g).palette = g.palette ∧ (f g).lanes = g.lanes) : s.LanesKept (s.mapGang id m f) := by
  intro n k g' hg
  rw [State.member?_mapGang] at hg
  split at hg
  · obtain ⟨g, hold, rfl⟩ := Option.map_eq_some_iff.1 hg
    exact ⟨g, hold, hf g⟩
  · exact ⟨g', hg, rfl, rfl⟩

theorem State.pushResult_crews (s : State) (f : Flight) : (s.pushResult f).crews = s.crews := by
  unfold State.pushResult
  split <;> rfl

theorem State.endFlight_lanesKept (s : State) (f : Flight) : s.LanesKept (s.endFlight f) := by
  refine (State.LanesKept.of_crews_eq (State.pushResult_crews { s with flights := s.flights.filter (·.id != f.id) } f)).trans
    (.of_mapGang _ _ _ fun g => ?_)
  cases f.path <;> cases f.port.isSome <;> exact ⟨rfl, rfl⟩

theorem State.endFlights_lanesKept (fs : List Flight) (s : State) (held : List (Nat × Nat × Nat)) :
    s.LanesKept (s.endFlights fs held) := by
  induction fs generalizing s held with
  | nil => exact .of_crews_eq rfl
  | cons f fs ih =>
    rcases State.endFlights_cons s f fs held with ⟨held', h⟩ | h
    · rw [h]
      exact ih s held'
    · rw [h]
      exact (State.endFlight_lanesKept s f).trans (ih _ held)

theorem State.settleFlights_lanesKept (s : State) : s.LanesKept s.settleFlights :=
  (State.endFlights_lanesKept s.flights s []).trans (.of_crews_eq rfl)

/-! ### A word arrives (03 R67) -/

section
variable {s : State} {fl part word : Nat} {f : Flight} {p : Part} {c : Crew} {kinds : AccKind → Bool}
  (hf : s.flight? fl = some f) (hp : f.parts[part]? = some p) (hc : s.crew? f.crew = some c)
  (hperf : p.state = .performed) (hwait : f.wait = 0) (hbank : c.inBank = true)
  (hdst : p.dst = [] ∨ ∃ d ∈ p.dst, d.1 = word)
include hf

include hp hc hperf hwait hbank hdst in
/-- A performed part of a crew in a bank receives the word named. -/
theorem State.arrival_eq (hkind : kinds f.kind = true) : s.arrival kinds fl part word = s.arrive f part word p := by
  have hword : (p.dst.isEmpty || p.dst.any fun d => d.1 == word) = true := by
    rcases hdst with h | ⟨d, hd, rfl⟩
    · simp [h]
    · exact Bool.or_eq_true_iff.2 (.inr (List.any_eq_true.2 ⟨d, hd, beq_self_eq_true _⟩))
  unfold State.arrival
  simp only [hf, hp, hc]
  rw [if_pos (by simp [hkind, hperf, hwait, hbank, hword])]

theorem State.queueArrival_eq {ops : List Nat} (hop : f.opcode ∈ ops) :
    s.queueArrival ops fl part word = s.arrival (· == .result) fl part word := by
  unfold State.queueArrival
  simp only [hf]
  exact if_pos (List.contains_iff_mem.2 hop)

end

/-! ### Opcodes of the words with queued results (16 R372, 15 R358, 09 R221) -/

theorem mem_sfqOps {n : Nat} (hlo : 0x35 ≤ n) (hhi : n ≤ 0x3C) : n ∈ sfqOps := by
  simp only [sfqOps, List.mem_cons, List.not_mem_nil, or_false]
  omega

theorem mem_cvqOps {n : Nat} (h : n = 0x32 ∨ n = 0x33 ∨ n = 0x34) : n ∈ cvqOps := by
  simpa [cvqOps] using h

theorem opcodeOf_eq {i : Instr} (hword : i.isWord = true) (h : Laws.Opcode.Statement i) :
    opcodeOf i = Laws.tableOpcode i := by
  have hlt := (encodeWord i).isLt
  rw [← h hword, Laws.fld_toNat, opcodeOf]
  omega

theorem opcodeOf_xcp (d a : BitVec 7) (x : BitVec 6) (k : BitVec 1) (l : BitVec 4) :
    opcodeOf (.xcp d a x k l) = opcodeOf (.xcp 0 0 0 0 0) := by
  rw [opcodeOf_eq rfl (Laws.Opcode.xcp d a x k l), opcodeOf_eq rfl (Laws.Opcode.xcp 0 0 0 0 0)]
  rfl

theorem opcodeOf_tbnd (t a : BitVec 7) (l : BitVec 4) : opcodeOf (.tbnd t a l) = opcodeOf (.tbnd 0 0 0) := by
  rw [opcodeOf_eq rfl (Laws.Opcode.tbnd t a l), opcodeOf_eq rfl (Laws.Opcode.tbnd 0 0 0)]
  rfl

/-! ### The palette (15 R351) -/

/-- The gang with the palette that has arrived. -/
def paletteGang (p : Part) (f : Flight) (g : Gang) : Gang :=
  ({ g with palette := BitVec.ofNat 128 (p.result.toNat % 2 ^ (8 * p.size)) } : Gang).clearPend
    { f with parts := [{ p with state := .returned }] }

/-- The state with the palette in its gang, before flights end. -/
def State.paletteArrived (s : State) (fl : Nat) (p : Part) (f : Flight) : State :=
  (s.mapFlight fl fun _ => { f with parts := [{ p with state := .returned }] }).mapGang f.crew f.member (paletteGang p f)

theorem execPaletteArrival_eq {s : State} {fl : Nat} {f : Flight} {p : Part} {c : Crew} (hf : s.flight? fl = some f)
    (hp : f.parts = [p]) (hc : s.crew? f.crew = some c) (hkind : f.kind = .palette) (hperf : p.state = .performed)
    (hbank : c.inBank = true) : execPaletteArrival fl s = .next (s.paletteArrived fl p f).settleFlights := by
  unfold execPaletteArrival
  simp only [hf, hp, hc]
  rw [if_pos (by simp [hkind, hperf, hbank])]
  rfl

/-- Once the palette has arrived its gang holds it, and its lanes are as they were. -/
theorem State.paletteArrived_member {s : State} {fl : Nat} {f : Flight} {p : Part} {g g' : Gang}
    (hg : (s.crew? f.crew).bind (·.member? f.member) = some g)
    (hg' : ((s.paletteArrived fl p f).settleFlights.crew? f.crew).bind (·.member? f.member) = some g') :
    g'.palette = BitVec.ofNat 128 (p.result.toNat % 2 ^ (8 * p.size)) ∧ g'.lanes = g.lanes := by
  obtain ⟨k, hk, hpal, hlanes⟩ := State.settleFlights_lanesKept _ _ _ _ hg'
  rw [State.paletteArrived, State.member?_mapGang, if_pos ⟨rfl, rfl⟩] at hk
  have hsame : ((s.mapFlight fl fun _ => { f with parts := [{ p with state := .returned }] }).crew? f.crew).bind
      (·.member? f.member) = some g := hg
  rw [hsame] at hk
  obtain rfl : paletteGang p f g = k := Option.some.inj hk
  exact ⟨hpal, hlanes⟩

end Sys2Proof.Machine
end

section
open Sys2Proof Sys2Proof.Machine

/-- Settles O16: each step is `State.arrive` for its kinds and opcodes, and ending flights keeps lanes and palettes. -/
theorem resultWordsArrive : Obligations.ResultWordsArrive := by
  intro s fl part word f p c hf hp hc hperf hwait hbank hdst
  have harrives {kinds : AccKind → Bool} (hkind : kinds f.kind = true) :
      s.arrival kinds fl part word = s.arrive f part word p :=
    State.arrival_eq hf hp hc hperf hwait hbank hdst hkind
  have hqueued {ops : List Nat} (hkind : f.kind = .result) (hop : f.opcode ∈ ops) :
      s.queueArrival ops fl part word = s.arrive f part word p := by
    rw [State.queueArrival_eq hf hop, harrives (by rw [hkind]; rfl)]
  refine ⟨fun hkind => ?_, ?_, ?_, fun hkind hlo hhi => ?_, fun hkind hop => ?_, fun hkind hop => ?_, fun hkind hparts => ?_⟩
  · exact congrArg _ (harrives (by rcases hkind with h | h | h | h <;> rw [h] <;> rfl))
  · rintro hkind rfl
    exact congrArg _ (harrives hkind)
  · rintro hkind rfl
    exact congrArg _ (harrives (by rcases hkind with h | h | h <;> rw [h] <;> rfl))
  · exact congrArg _ (hqueued hkind (mem_sfqOps hlo hhi))
  · exact congrArg _ (hqueued hkind (mem_cvqOps hop))
  · refine congrArg _ (hqueued hkind ?_)
    rcases hop with ⟨d, a, x, k, l, hop⟩ | ⟨t, a, l, hop⟩
    · rw [hop, opcodeOf_xcp]
      simp
    · rw [hop, opcodeOf_tbnd]
      simp
  · obtain ⟨hmembers, -⟩ := State.settleFlights_membersOnly (s.paletteArrived fl p f)
    refine ⟨_, execPaletteArrival_eq hf hparts hc hkind hperf hbank, by rw [hmembers]; rfl, by rw [hmembers]; rfl, ?_⟩
    intro d g g' hd hg ht hg'
    exact State.paletteArrived_member (by rw [hd]; exact hg) (by rw [ht]; exact hg')

end

section
/-! What a step is: the turn of a thread whose word is fetched, a unit's issue with one candidate, and what each device state
admits (14 R323, R324). -/

namespace Sys2Proof.Machine
open Sys2Proof

/-! ### A turn (11 R272, R276) -/

section
variable {s u : State} {th : ThreadRef} {c : Ctx} {w : Word}

section
variable (hlive : s.issuer? = some c) (hheld : s.withheld c = false) (htrap : c.waitingTrap = none)
  (hfetch : s.fetchFor c = (.word w, u))
include hlive hheld htrap hfetch

/-- A thread that nothing withholds comes to the instruction it has fetched. -/
theorem State.turn_of_decoded {i : Instr} (h : decodeWord w = .ok i) : s.turn = (.run i, u) := by
  simp only [State.turn, hlive, hheld, htrap, hfetch, h, Bool.false_eq_true, if_false]

/-- A word that does not decode takes ILLEGAL. -/
theorem State.turn_of_undecodable {e : Reject} (h : decodeWord w = .error e) :
    s.turn = (.taken, u.takeTrap c .illegal [] (w.toNat / 2 ^ 25)) := by
  simp only [State.turn, hlive, hheld, htrap, hfetch, h, Bool.false_eq_true, if_false]

end

theorem State.runThread_of_run {i : Instr} (h : ({ s with cur := th } : State).turn = (.run i, u)) :
    s.runThread th = exec i u := by
  simp only [State.runThread, h]

theorem State.runThread_of_taken (h : ({ s with cur := th } : State).turn = (.taken, u)) : s.runThread th = .next u := by
  simp only [State.runThread, h]

end

/-! ### A move (14 R323, R324) -/

theorem step_of_agenda {s : State} {m : Move} {rest : List Move} (h : s.agenda = m :: rest) :
    step s = State.move { s with agenda := rest } m := by
  simp only [step_eq, State.nextMove, h]

section
variable {s : State} {cluster core group : Nat} {e : Instr}

theorem State.move_issue_of_ready (h : s.device = .ready) :
    s.move (.issue cluster core group) = s.issueFirst cluster core group (s.candidates cluster core group) := if_pos h

theorem State.move_issue_of_not_ready (h : s.device ≠ .ready) : s.move (.issue cluster core group) = .next s := if_neg h

theorem State.move_event_of_admits (h : s.device.admits e = true) : s.move (.event e) = exec e s := if_pos h

theorem State.move_event_of_not_admits (h : s.device.admits e = false) : s.move (.event e) = .next s :=
  if_neg (by simp [h])

end

/-- A unit with one candidate: its turn, after which the yields of its unit end if it has issued. -/
theorem State.issueFirst_single {s t : State} {x : Candidate} (cluster core group : Nat)
    (h : s.runThread x.thread = .next t) : s.issueFirst cluster core group [x] =
      .next (if s.issued < t.issued then t.endYields cluster core group x.thread else t) := by
  simp only [State.issueFirst, h]
  split <;> rfl

/-- A READY device admits every step of its agents. -/
theorem DeviceState.admits_ready {e : Instr} (h : e.isWord = false) : DeviceState.ready.admits e = true := by
  simp only [DeviceState.admits, h, Bool.not_false, Bool.true_and]
  split <;> trivial

/-- In FATAL only a reset, and what a host asks of its own link and window, takes place. -/
theorem DeviceState.admits_fatal {e : Instr} (hpower : e ≠ .powerOnReset) (hreset : e ≠ .reset)
    (hrequest : ∀ port kind offset size payload, e ≠ .hostRequest port kind offset size payload)
    (hlink : ∀ port, e ≠ .hostHotReset port ∧ e ≠ .hostLinkLoss port) : DeviceState.fatal.admits e = false := by
  cases e with
  | powerOnReset => exact absurd rfl hpower
  | reset => exact absurd rfl hreset
  | hostRequest port kind offset size payload => exact absurd rfl (hrequest port kind offset size payload)
  | hostHotReset port => exact absurd rfl (hlink port).1
  | hostLinkLoss port => exact absurd rfl (hlink port).2
  | _ => rfl

end Sys2Proof.Machine
end

section
open Sys2Proof Sys2Proof.Machine

/-- Settles O55: a turn comes to the decoded word, and a move runs what its device state admits. -/
theorem aStepRunsTheDecodedInstruction : Obligations.AStepRunsTheDecodedInstruction := by
  refine ⟨fun s u th c w hlive hheld htrap hfetch => ?_, fun s t rest cluster core group x hagenda hready hone hrun => ?_,
    fun s rest e hagenda hready hagent => ?_, fun s rest cluster core group hagenda hother => ?_,
    fun s rest e hagenda hfatal hpower hreset hrequest hlink => ?_⟩
  · exact ⟨fun i hi => State.runThread_of_run (State.turn_of_decoded hlive hheld htrap hfetch hi),
      fun e he => State.runThread_of_taken (State.turn_of_undecodable hlive hheld htrap hfetch he)⟩
  · rw [step_of_agenda hagenda, State.move_issue_of_ready (by exact hready), hone]
    exact State.issueFirst_single cluster core group hrun
  · have hadmits : s.device.admits e = true := by rw [hready]; exact DeviceState.admits_ready hagent
    rw [step_of_agenda hagenda, State.move_event_of_admits (by exact hadmits)]
  · rw [step_of_agenda hagenda, State.move_issue_of_not_ready (by exact hother)]
  · have hadmits : s.device.admits e = false := by rw [hfatal]; exact DeviceState.admits_fatal hpower hreset hrequest hlink
    rw [step_of_agenda hagenda, State.move_event_of_not_admits (by exact hadmits)]

end

section
/-! What a field reads, lane by lane (03 R50, R59; 11 R273), and port queues under pops and pushes (03 R53). -/

namespace Sys2Proof.Machine
open Sys2Proof

/-! ### The registers a 32-bit or a 64-bit field names (03 R52, R59) -/

theorem fieldIndex_low {f : Nat} (h : f ≤ 103) (x0 x1 : Nat) : fieldIndex f x0 x1 = f := if_pos h

theorem fieldIndex_x0 {f : Nat} (hlo : 104 ≤ f) (hhi : f ≤ 107) (x0 x1 : Nat) : fieldIndex f x0 x1 = x0 + (f - 104) := by
  rw [fieldIndex, if_neg (by omega), if_pos hhi]

theorem fieldIndex_x1 {f : Nat} (h : 108 ≤ f) (x0 x1 : Nat) : fieldIndex f x0 x1 = x1 + (f - 108) := by
  rw [fieldIndex, if_neg (by omega), if_neg (by omega)]

theorem namesFrom_one (mk : Nat → RegName) (i : Nat) : namesFrom mk i 1 = [mk i] := rfl

/-- Outside handler state, and from field 8 up, no field is one of the handler's. -/
theorem handlerField_eq_false {sl : Slice} {f : Nat} (h : sl.inHandler = false ∨ 8 ≤ f) :
    (sl.inHandler && decide (f ≤ 7)) = false := by
  rcases h with h | h
  · rw [h, Bool.false_and]
  · rw [decide_eq_false (by omega), Bool.and_false]

section
variable {g : Gang} {i : Nat}

theorem Gang.regsOf_handler {f : BitVec 7} (hseq : g.isSeq = false) (hh : (g.slice i).inHandler = true) (hf : f.toNat ≤ 7) :
    g.regsOf i (.src f) = [.h f.toNat] := by
  have hlow : f.toNat ≤ 111 := by omega
  have hend : f.toNat + 1 ≤ 8 := by omega
  simp [Gang.regsOf, resolve, resolveVector, Use.src, hseq, hlow, hh, hf, hend, Nat.mod_one, namesFrom_one]

theorem Gang.regsOf_window {u : Use} {n : Nat} (hseq : g.isSeq = false) (hh : (g.slice i).inHandler = false ∨ 8 ≤ u.f)
    (hf : u.f ≤ 111) (hspan : u.span = 1) (halign : u.align = 1)
    (hn : fieldIndex u.f (g.slice i).x0.toNat (g.slice i).x1.toNat = n) (hallot : (g.slice i).wb.toNat + n < g.allot) :
    g.regsOf i u = [.v ((g.slice i).wb.toNat + n)] := by
  have hend : (g.slice i).wb.toNat + n + 1 ≤ g.allot := hallot
  simp [Gang.regsOf, resolve, resolveVector, hseq, hf, handlerField_eq_false hh, hn, hend, hspan, halign, Nat.mod_one,
    namesFrom_one]

theorem Gang.regsOf_easelHandler {u : Use} (hseq : g.isSeq = true) (hh : (g.slice i).inHandler = true) (hf : u.f ≤ 7)
    (hone : u.eregs = 1) : g.regsOf i u = [.h u.f] := by
  have hlow : u.f ≤ 111 := by omega
  have hend : u.f + 1 ≤ 8 := by omega
  have hhigh : ¬112 ≤ u.f := by omega
  simp [Gang.regsOf, resolve, resolveEasel, hseq, hlow, hhigh, hh, hf, hend, hone, Nat.mod_one, namesFrom_one]

theorem Gang.regsOf_easel {u : Use} {n : Nat} (hseq : g.isSeq = true) (hh : (g.slice i).inHandler = false ∨ 8 ≤ u.f)
    (hf : u.f ≤ 111) (hone : u.eregs = 1) (hn : fieldIndex u.f (g.slice i).x0.toNat (g.slice i).x1.toNat = n)
    (hbound : n < 104) : g.regsOf i u = [.s n] := by
  have hend : n + 1 ≤ 104 := hbound
  have hhigh : ¬112 ≤ u.f := by omega
  simp [Gang.regsOf, resolve, resolveEasel, hseq, hf, hhigh, handlerField_eq_false hh, hn, hend, hone, Nat.mod_one,
    namesFrom_one]

theorem Gang.regsOf_g {f : BitVec 7} (hf : 124 ≤ f.toNat) : g.regsOf i (.src f) = [.g (f.toNat - 124)] := by
  have hlow : ¬f.toNat ≤ 111 := by omega
  simp [Gang.regsOf, resolve, Use.src, hf, hlow, Nat.mod_one, namesFrom_one]

end

/-! ### What a field reads (03 R50, R59) -/

section
variable {c : Ctx} {g : Gang} {l : Nat} {u : Use}

/-- A field that names one register reads it: all of it in a gang, its low bits on the easel. -/
theorem Ctx.readField_of_reg {r : RegName} (hf : u.f ≤ 111 ∨ 124 ≤ u.f) (hregs : g.regsOf (l / 4) u = [r]) :
    c.readField g l u = if g.isSeq then g.readReg l r % 2 ^ u.bits else g.readReg l r := by
  have hfield : (decide (u.f ≤ 111) || decide (124 ≤ u.f)) = true := by simpa using hf
  simp only [Ctx.readField, hfield, if_true, hregs, Gang.readRegs, Nat.mul_zero, Nat.add_zero]

/-- Fields 112 to 123 name no register: lane, slice and member numbers, and zero. -/
theorem Ctx.readField_of_number (hlo : 112 ≤ u.f) (hhi : u.f ≤ 123) : c.readField g l u =
    if u.f = 121 then (if g.isSeq then 0 else l) else if u.f = 122 then (if g.isSeq then 0 else l / 4)
    else if u.f = 123 then (if g.isSeq then 16 else c.member) else 0 := by
  have hfield : ¬(decide (u.f ≤ 111) || decide (124 ≤ u.f)) = true := by
    simp only [Bool.or_eq_true, decide_eq_true_eq]
    omega
  simp only [Ctx.readField, hfield, Bool.false_eq_true, if_false]

section
variable {n : Nat} {f : BitVec 7}

/-- In a gang a field to 111 reads its place in the window of the slice (03 R52). -/
theorem Ctx.readField_window (hseq : g.isSeq = false) (hh : (g.slice (l / 4)).inHandler = false ∨ 8 ≤ f.toNat)
    (hf : f.toNat ≤ 111) (hn : fieldIndex f.toNat (g.slice (l / 4)).x0.toNat (g.slice (l / 4)).x1.toNat = n)
    (hallot : (g.slice (l / 4)).wb.toNat + n < g.allot) :
    c.readField g l (.src f) = (tabGet (g.lane l).v ((g.slice (l / 4)).wb.toNat + n) 0).toNat := by
  rw [readField_of_reg (.inl hf) (Gang.regsOf_window hseq hh hf rfl rfl hn hallot), hseq]
  rfl

/-- On the easel it reads the low bits of a scalar register (03 R59). -/
theorem Ctx.readField_easel (hseq : g.isSeq = true) (hh : (g.slice (l / 4)).inHandler = false ∨ 8 ≤ u.f)
    (hf : u.f ≤ 111) (hone : u.eregs = 1)
    (hn : fieldIndex u.f (g.slice (l / 4)).x0.toNat (g.slice (l / 4)).x1.toNat = n) (hbound : n < 104) :
    c.readField g l u = (tabGet (g.lane l).s n 0).toNat % 2 ^ u.bits := by
  rw [readField_of_reg (.inl hf) (Gang.regsOf_easel hseq hh hf hone hn hbound), if_pos hseq]
  rfl

/-- The easel's handler reads its own registers (11 R273). -/
theorem Ctx.readField_easelHandler (hseq : g.isSeq = true) (hh : (g.slice (l / 4)).inHandler = true) (hf : u.f ≤ 7)
    (hone : u.eregs = 1) : c.readField g l u = (tabGet (g.lane l).hs u.f 0).toNat % 2 ^ u.bits := by
  rw [readField_of_reg (.inl (by omega)) (Gang.regsOf_easelHandler hseq hh hf hone), if_pos hseq, Gang.readReg, if_pos hseq]

end

end

end Sys2Proof.Machine

namespace Sys2Proof.Claim
open Sys2Proof Sys2Proof.Machine

variable {s t u : State} {c : Ctx} {k p n m : Nat}

/-! ### Port queues (03 R53) -/

theorem port_mapPort_self (hp : p < (s.cluster k).ports.length) (f : Port → Port) :
    (s.mapPort k p f).port k p = f (s.port k p) := by
  simp [State.port, listModify, List.getD_eq_getElem?_getD, hp]

theorem port_mapPort_other {q : Nat} (hne : (n, q) ≠ (k, p)) (f : Port → Port) :
    (s.mapPort k p f).port n q = s.port n q := by
  by_cases hn : n = k
  · subst hn
    have hq : p ≠ q := fun h => hne (by rw [h])
    simp [State.port, listModify, List.getD_eq_getElem?_getD, hq]
  · rw [State.port, State.mapPort_eq, State.cluster_mapCluster_other _ _ _ _ hn, State.port]

theorem length_ports_mapPort (n q : Nat) (f : Port → Port) :
    ((s.mapPort n q f).cluster k).ports.length = (s.cluster k).ports.length := by
  by_cases hk : k = n
  · subst hk
    simp [listModify]
  · rw [State.mapPort_eq, State.cluster_mapCluster_other _ _ _ _ hk]

theorem PortsOnly.crews_eq (h : PortsOnly s t) : t.crews = s.crews := by
  obtain ⟨hst, -⟩ := h
  rw [hst]

theorem PortsOnly.sameMemory (h : PortsOnly s t) : SameMemory s t := by
  obtain ⟨hst, -⟩ := h
  rw [hst]
  exact ⟨fun _ => rfl, fun _ _ => rfl, fun _ => rfl, fun _ _ p => by cases p <;> rfl⟩

/-- From one state to another a port queue has given up its first words, and every other queue has kept its own. -/
def Popped (s t : State) (k p n : Nat) : Prop :=
  PortsOnly s t ∧ (t.port k p).words = (s.port k p).words.drop n ∧
    ∀ m q, (m, q) ≠ (k, p) → (t.port m q).words = (s.port m q).words

theorem Popped.refl (s : State) (k p : Nat) : Popped s s k p 0 := ⟨.refl s, rfl, fun _ _ _ => rfl⟩

theorem Popped.trans (h : Popped s t k p n) (h' : Popped t u k p m) : Popped s u k p (n + m) := by
  obtain ⟨hports, hwords, hother⟩ := h
  obtain ⟨hports', hwords', hother'⟩ := h'
  exact ⟨hports.trans hports', by rw [hwords', hwords, List.drop_drop],
    fun j q hne => (hother' j q hne).trans (hother j q hne)⟩

/-- A queue without its first words. -/
def popPort (s : State) (k p n : Nat) : State := s.mapPort k p fun q => { q with words := q.words.drop n }

theorem popped_popPort (hp : p < (s.cluster k).ports.length) (n : Nat) : Popped s (popPort s k p n) k p n :=
  ⟨.of_mapPort _ _ _ _, by rw [popPort, port_mapPort_self hp], fun _ _ hne => by rw [popPort, port_mapPort_other hne]⟩

/-! ### Pops, lane by lane -/

section
variable {v : Use} (hport : c.port? v = some p)
include hport

/-- A lane that finds too few words waits, and so does its word. -/
theorem fetchLanes_cons_short (l : Nat) (ls : List Nat) (h : (s.port c.crew.cluster p).words.length < v.span) :
    c.fetchLanes (fun _ => v) (l :: ls) s = .error .queued := by
  simp only [Ctx.fetchLanes, hport, h, if_true]

/-- A lane takes the first words of the queue. -/
theorem fetchLanes_cons_pop (l : Nat) (ls : List Nat) (h : v.span ≤ (s.port c.crew.cluster p).words.length) :
    c.fetchLanes (fun _ => v) (l :: ls) s =
      (c.fetchLanes (fun _ => v) ls (popPort s c.crew.cluster p v.span)).map fun r =>
        (joinWords ((s.port c.crew.cluster p).words.take v.span) :: r.1, r.2) := by
  simp only [Ctx.fetchLanes, hport, Nat.not_lt.2 h, if_false, popPort]
  cases c.fetchLanes (fun _ => v) ls _ <;> rfl

/-- With too few words for all its lanes a word waits. -/
theorem fetchLanes_short (ls : List Nat) (hp : p < (s.cluster c.crew.cluster).ports.length)
    (h : (s.port c.crew.cluster p).words.length < v.span * ls.length) :
    c.fetchLanes (fun _ => v) ls s = .error .queued := by
  induction ls generalizing s with
  | nil => simp at h
  | cons l ls ih =>
    rw [List.length_cons, Nat.mul_succ] at h
    rcases Nat.lt_or_ge (s.port c.crew.cluster p).words.length v.span with hshort | hlong
    · exact fetchLanes_cons_short hport l ls hshort
    · obtain ⟨-, hwords, -⟩ := popped_popPort hp v.span
      rw [fetchLanes_cons_pop hport l ls hlong, ih (by rw [popPort, length_ports_mapPort]; exact hp)
        (by rw [hwords, List.length_drop]; omega)]
      rfl

/-- With words enough the lanes take them one after another. -/
theorem fetchLanes_pop (ls : List Nat) (hp : p < (s.cluster c.crew.cluster).ports.length)
    (h : v.span * ls.length ≤ (s.port c.crew.cluster p).words.length) :
    ∃ t, c.fetchLanes (fun _ => v) ls s = .ok (ls.mapIdx (fun k _ =>
        joinWords (((s.port c.crew.cluster p).words.drop (v.span * k)).take v.span)), t) ∧
      Popped s t c.crew.cluster p (v.span * ls.length) := by
  induction ls generalizing s with
  | nil => exact ⟨s, rfl, .refl s _ _⟩
  | cons l ls ih =>
    rw [List.length_cons, Nat.mul_succ] at h
    obtain ⟨-, hwords, -⟩ := popped_popPort hp v.span
    obtain ⟨t, hfetch, hrest⟩ := ih (s := popPort s c.crew.cluster p v.span)
      (by rw [popPort, length_ports_mapPort]; exact hp) (by rw [hwords, List.length_drop]; omega)
    refine ⟨t, ?_, by rw [List.length_cons, Nat.mul_succ, Nat.add_comm]; exact (popped_popPort hp _).trans hrest⟩
    rw [fetchLanes_cons_pop hport l ls (by omega), hfetch, hwords]
    simp only [Except.map, List.mapIdx_cons, List.drop_drop, Nat.mul_succ, Nat.mul_zero, List.drop_zero, Nat.add_comm]

end

/-! ### Pushes -/

/-- The words of a value for each lane, through one field. -/
theorem flatMap_zip_splitWords {ls vals : List Nat} (h : vals.length = ls.length) (n : Nat) :
    (ls.zip vals).flatMap (fun x => splitWords n x.2) = vals.flatMap (splitWords n) := by
  rw [← List.flatMap_map, List.map_snd_zip (Nat.le_of_eq h)]

section
variable {v : Use} {vals : List Nat} (hport : c.port? v = some p) (hlen : vals.length = c.lanes.length)
include hport hlen

theorem writeField_now (h : s.pushPending c p = false) : s.writeField c (fun _ => v) vals =
    s.mapPort c.crew.cluster p fun q => { q with words := q.words ++ vals.flatMap (splitWords v.span) } := by
  simp only [State.writeField, hport, h, flatMap_zip_splitWords hlen, Bool.false_eq_true, if_false]

theorem writeField_later (h : s.pushPending c p = true) : s.writeField c (fun _ => v) vals =
    s.pushLater c p (vals.flatMap (splitWords v.span)) := by
  simp only [State.writeField, hport, h, flatMap_zip_splitWords hlen, if_true]

end

/-- A part with one word to push carries it. -/
theorem splitWords_one_setWidth (w : Word) : splitWords 1 (w.setWidth 128).toNat = [w] := by
  have hfits : w.toNat % 2 ^ 128 = w.toNat := Nat.mod_eq_of_lt (Nat.lt_trans w.isLt (by decide))
  simp [splitWords, -Nat.reducePow, hfits]

/-- A push that waits is a flight with its words. -/
theorem pushLater_flights (s : State) (c : Ctx) (p : Nat) (ws : List Word) :
    ∃ f, (s.pushLater c p ws).flights = s.flights ++ [f] ∧ f.crew = c.crew.id ∧ f.member = c.member ∧ f.port = some p ∧
      f.pushed = ws := by
  refine ⟨_, rfl, rfl, rfl, rfl, ?_⟩
  simp only [Flight.pushed, List.flatMap_map, splitWords_one_setWidth]
  exact List.flatMap_singleton' ws

theorem pushLater_port (hp : p < (s.cluster c.crew.cluster).ports.length) (ws : List Word) :
    (s.pushLater c p ws).port c.crew.cluster p =
      { s.port c.crew.cluster p with pushes := (s.port c.crew.cluster p).pushes + ws.length } := by
  unfold State.pushLater
  exact port_mapPort_self (by exact hp) _

end Sys2Proof.Claim
end

section
open Sys2Proof Sys2Proof.Machine Sys2Proof.Claim

/-- Settles O50: each field names one register or a number; pops and pushes go by the lanes. -/
theorem fieldsReadAndQueuesPop : Obligations.FieldsReadAndQueuesPop := by
  refine ⟨fun c l f => ?_, fun s c u p hport hp => ⟨fetchLanes_short hport _ hp, fun h => ?_⟩,
    fun s c u p vals hport hp hlen => ⟨?_, fun h => ?_, fun h => ?_⟩⟩
  · have hnumber (hlo : 112 ≤ f.toNat) (hhi : f.toNat ≤ 123) := Ctx.readField_of_number (c := c) (g := c.gang) (l := l)
      (u := .src f) hlo hhi
    have hg (hf : 124 ≤ f.toNat) := Ctx.readField_of_reg (c := c) (u := .src f) (.inr hf)
      (Gang.regsOf_g (g := c.gang) (i := l / 4) hf)
    refine ⟨fun hf => ?_, fun hf => ?_, fun hf => ?_, fun hf => ?_, fun hseq hh hf => ?_, fun hseq hh hf => ?_,
      fun hseq hh => ⟨fun hf => ?_, fun hlo hhi hb => ?_, fun hlo hhi hb => ?_, fun hf => ?_⟩,
      fun hseq hh => ⟨fun hf hb => ?_, fun hlo hhi hb => ?_, fun hlo hhi hb => ?_, fun hf => ?_⟩⟩
    · simpa [Use.src, hf] using hnumber (by omega) (by omega)
    · simpa [Use.src, hf] using hnumber (by omega) (by omega)
    · simpa [Use.src, hf] using hnumber (by omega) (by omega)
    · simpa [Use.src, hf] using hnumber (by omega) (by omega)
    · rw [Ctx.readField_of_reg (.inl (Nat.le_trans hf (by decide))) (Gang.regsOf_handler hseq hh hf), hseq]
      simp [Gang.readReg, hseq]
    · refine ⟨Ctx.readField_easelHandler hseq hh hf rfl, (Ctx.readField_easelHandler hseq hh hf rfl).trans ?_⟩
      exact Nat.mod_eq_of_lt (BitVec.isLt _)
    · have hlow : f.toNat ≤ 111 := by omega
      have hbound : f.toNat < 104 := by omega
      refine ⟨Ctx.readField_easel hseq hh hlow rfl (fieldIndex_low hf _ _) hbound,
        (Ctx.readField_easel hseq hh hlow rfl (fieldIndex_low hf _ _) hbound).trans ?_⟩
      exact Nat.mod_eq_of_lt (BitVec.isLt _)
    · exact Ctx.readField_easel hseq hh (by exact Nat.le_trans hhi (by decide)) rfl (fieldIndex_x0 hlo hhi _ _) hb
    · exact Ctx.readField_easel hseq hh hhi rfl (fieldIndex_x1 hlo _ _) hb
    · rw [hg hf, if_pos hseq, Gang.readReg, if_pos hseq]
      rfl
    · exact Ctx.readField_window hseq hh (by omega) (fieldIndex_low hf _ _) hb
    · exact Ctx.readField_window hseq hh (by omega) (fieldIndex_x0 hlo hhi _ _) hb
    · exact Ctx.readField_window hseq hh hhi (fieldIndex_x1 hlo _ _) hb
    · rw [hg hf, hseq]
      simp [Gang.readReg, hseq]
  · obtain ⟨t, hfetch, hports, hwords, hother⟩ := fetchLanes_pop hport c.lanes hp h
    exact ⟨t, hfetch, hwords, hother, hports.crews_eq, hports.sameMemory⟩
  · cases h : s.pushPending c p with
    | false => rw [writeField_now hport hlen h]; rfl
    | true => rw [writeField_later hport hlen h]; rfl
  · rw [writeField_now hport hlen h, port_mapPort_self hp]
  · rw [writeField_later hport hlen h, pushLater_port hp]
    exact ⟨rfl, rfl, pushLater_flights s c p _⟩

end

section
/-! QNT, QNT.FIX and QNT.HEALTH (17 R413; 04 R100): a word that quantises counts its lanes' blocks in the gang's health
counters and sends their codes; the word that reads the counters clears them. -/

namespace Sys2Proof.Claim
open Sys2Proof Sys2Proof.Machine

variable {s s' : State} {c : Ctx} {args : List (List Nat)} {i : Instr} {d a : BitVec 7} {l : BitVec 4} {fixed : Bool}

/-- Each active lane with its quantised block (04 R98). -/
def quantisedBlocks (c : Ctx) (fixed : Bool) (args : List (List Nat)) : List (Nat × Quantised) :=
  c.lanes.mapIdx fun k ln =>
    (ln, qntVal fixed (c.gang.slice (ln / 4)) ((args.getD 0 []).getD k 0) ((args.getD 1 []).getD k 0))

theorem quantisedBlocks_eq_nil : quantisedBlocks c fixed args = [] ↔ c.lanes = [] := List.mapIdx_eq_nil_iff

/-- The party has moved on, and its gang's health counters have taken the counts of some blocks (04 R100). -/
def countBlocks (s : State) (c : Ctx) (qs : List (Nat × Quantised)) : State :=
  (s.retireNext c).mapIssuer c fun g => { g with health := qs.foldl (fun h q => h.count q.2) g.health }

/-- QNT and QNT.FIX, once the results have room and a lane is active. -/
theorem qntOp_ok (h : Issues s c i args s')
    (hneeds : needs i = { kind := .vector, feat := [1], fmtOk := quantFmts, uses := fun sl => [qntSrc a sl, qntDst d sl] })
    (hlanes : c.lanes ≠ []) (hroom : s'.queueRoom c i = true) :
    qntOp i d a l fixed s = .next ((countBlocks s' c (quantisedBlocks c fixed args)).startFlight c i
      { kind := .result, size := 16, la := l.toNat }
      ((quantisedBlocks c fixed args).flatMap fun q => c.qntParts d fixed q.1 q.2)) := by
  have hactive : ¬(quantisedBlocks c fixed args).isEmpty = true := fun hnone =>
    hlanes (quantisedBlocks_eq_nil.1 (List.isEmpty_iff.1 hnone))
  unfold qntOp
  rw [← hneeds]
  refine h.runOp_ok ((ready_bind hroom _).trans ?_)
  exact congrArg Except.ok (if_neg hactive)

/-- QNT.HEALTH, once the results have room: every lane reads the counters packed, and they are cleared. -/
theorem exec_qntHealth (h : Issues s c (.qntHealth d l) args s') (hroom : s'.queueRoom c (.qntHealth d l) = true) :
    exec (.qntHealth d l) s = .next ((s'.issueFlight c (.qntHealth d l)
      (resultFlight 16 (fun _ => .dst128 d) l.toNat) [] []
      (c.lanes.map fun _ => c.gang.health.sat + 2 ^ 32 * c.gang.health.ufl + 2 ^ 64 * c.gang.health.invalid)).mapIssuer c
        fun g => { g with health := ⟨0, 0, 0⟩ }) := by
  change execQntHealth d l s = _
  exact h.runOp_ok (ready_bind hroom _)

end Sys2Proof.Claim
end

section
open Sys2Proof Sys2Proof.Machine Sys2Proof.Claim

/-- Settles O10: QNT and QNT.FIX are `qntOp` of their words, and QNT.HEALTH reads the counters it clears. -/
theorem quantiseComplete : Obligations.QuantiseComplete :=
  fun _ _ _ _ _ _ => ⟨fun _ h hlanes hroom => qntOp_ok h rfl hlanes hroom,
    fun _ h hlanes hroom => qntOp_ok h rfl hlanes hroom, exec_qntHealth⟩

end

section
/-! The engines' steps (06 R140, R143, R152, R155 to R161; 05 R109; 18 R446, R449): what the start of an instruction and each
of the six completions do, and what an engine holds afterwards. -/

namespace Sys2Proof.Machine
open Sys2Proof

variable {s : State} {engine pos cycles : Nat} {o : EngOp} {c : Crew}

/-! ### An engine after an update -/

@[simp] theorem State.engine_mapEngine_self (s : State) (n : Nat) (f : Engine → Engine) :
    (s.mapEngine n f).engine n = f (s.engine n) := tabGet_insert_self _ _ _ _

@[simp] theorem State.engine_mapCanvas_self (s : State) (n k : Nat) (f : Canvas → Canvas) : (s.mapCanvas n k f).engine n =
    { s.engine n with canvases := listModify (s.engine n).canvases k f } := State.engine_mapEngine_self s n _

@[simp] theorem State.engine_retireOp_self (s : State) (n pos : Nat) :
    (s.retireOp n pos).engine n = { s.engine n with queue := (s.engine n).queue.eraseIdx pos } :=
  State.engine_mapEngine_self s n _

/-! ### The start of an instruction (06 R140) -/

/-- The queue entry of an instruction that has started, with the images it has read (assumption 22). -/
def State.startedOp (s : State) (c : Crew) (o : EngOp) : EngOp :=
  { (s.seenBy fun r => o.id < r.serial).readOperands c o with started := true, since := s.clock.toNat }

/-- Reading operands changes an entry in its two images only. -/
theorem State.readOperands_images (s : State) (c : Crew) (o : EngOp) :
    { s.readOperands c o with aImg := o.aImg, bImg := o.bImg } = o := by
  unfold State.readOperands
  dsimp only
  split <;> rfl

theorem State.startedOp_keeps (s : State) (c : Crew) (o : EngOp) : (s.startedOp c o).kind = o.kind ∧
    (s.startedOp c o).id = o.id ∧ (s.startedOp c o).canvas = o.canvas := by
  have h := (s.seenBy fun r => o.id < r.serial).readOperands_images c o
  exact ⟨(congrArg EngOp.kind h :), (congrArg EngOp.id h :), (congrArg EngOp.canvas h :)⟩

theorem exec_engineInstructionStart (hqueue : (s.engine engine).queue[pos]? = some o) (hcrew : s.crew? o.crew = some c)
    (hnew : o.started = false) (hmay : (s.engine engine).mayStart pos o = true) (hseen : s.issueSeen o = true) :
    exec (.engineInstructionStart engine pos) s = .next (State.mapEngine { s with freeCount := s.freeCount + 1 } engine
      fun e => { e with queue := e.queue.set pos (s.startedOp c o) }) := by
  change execEngineInstructionStart engine pos s = _
  simp [execEngineInstructionStart, hqueue, hcrew, hnew, hmay, hseen, State.startedOp]

/-! ### The completions -/

/-- A started instruction is the running one of its kind. -/
theorem State.runningOp_eq_some {k : EngKind} (hqueue : (s.engine engine).queue[pos]? = some o) (hstarted : o.started = true)
    (hkind : o.kind = k) : s.runningOp engine pos k = some o := by
  simp [State.runningOp, hqueue, hstarted, hkind]

/-- Two work cycles is the least a TMMA takes, and WCB the most (06 R143). -/
theorem exec_tmmaComplete (hrun : s.runningOp engine pos .tmma = some o) (hlo : 2 ≤ cycles) (hhi : cycles ≤ o.wcb) :
    exec (.tmmaComplete engine pos cycles) s =
      .next (s.finishMat engine pos cycles o (o.multiply (s.engine engine).palette)) := by
  change execTmmaComplete engine pos cycles s = _
  simp [execTmmaComplete, hrun, hlo, hhi]

theorem exec_dmmaComplete (hrun : s.runningOp engine pos .dmma = some o) :
    exec (.dmmaComplete engine pos) s = .next (s.finishMat engine pos 21 o o.multiplyDigits) := by
  change execDmmaComplete engine pos s = _
  rw [execDmmaComplete, hrun]

theorem exec_tclrComplete (hrun : s.runningOp engine pos .tclr = some o) :
    exec (.tclrComplete engine pos) s =
      .next ((s.mapCanvas engine o.canvas fun _ => emptyCanvas).retireOp engine pos) := by
  change execTclrComplete engine pos s = _
  rw [execTclrComplete, hrun]

theorem exec_tstgComplete (hrun : s.runningOp engine pos .tstg = some o) :
    exec (.tstgComplete engine pos) s =
      .next ((s.mapEngine engine fun e => e.giveStage pos o.canvas (o.bImg.getD [])).retireOp engine pos) := by
  change execTstgComplete engine pos s = _
  rw [execTstgComplete, hrun]

/-! ### TTBL (18 R449) -/

/-- A table after entries are listed one after the other. -/
def tabInsertAll {α : Type} (t : Table α) (l : List (Nat × α)) : Table α := l.foldl (fun t p => tabInsert t p.1 p.2) t

theorem tabGet_insertAll_of_not_mem {α : Type} {l : List (Nat × α)} {k : Nat} (h : ∀ v, (k, v) ∉ l) (t : Table α) (d : α) :
    tabGet (tabInsertAll t l) k d = tabGet t k d := by
  induction l generalizing t with
  | nil => rfl
  | cons p l ih =>
    have hp : k ≠ p.1 := fun e => h p.2 (by simp [e])
    calc tabGet (tabInsertAll t (p :: l)) k d
        = tabGet (tabInsert t p.1 p.2) k d := ih (fun v hv => h v (List.mem_cons_of_mem _ hv)) _
      _ = tabGet t k d := tabGet_insert_other t _ _ hp

/-- A key listed with one value only reads that value. -/
theorem tabGet_insertAll_of_mem {α : Type} {l : List (Nat × α)} {k : Nat} {v : α} (hmem : (k, v) ∈ l)
    (huniq : ∀ w, (k, w) ∈ l → w = v) (t : Table α) (d : α) : tabGet (tabInsertAll t l) k d = v := by
  induction l generalizing t with
  | nil => cases hmem
  | cons p l ih =>
    by_cases hl : (k, v) ∈ l
    · exact ih hl (fun w hw => huniq w (List.mem_cons_of_mem _ hw)) _
    · obtain rfl : (k, v) = p := (List.mem_cons.1 hmem).resolve_right hl
      have hrest (w : α) (hw : (k, w) ∈ l) : False := hl (huniq w (List.mem_cons_of_mem _ hw) ▸ hw)
      exact (tabGet_insertAll_of_not_mem hrest _ d).trans (tabGet_insert_self t k v d)

/-- Palette m of the image of a TTBL. -/
def EngOp.imagePalette (o : EngOp) (m : Nat) : Nat × Quad :=
  (fmtCbEntry o.fmt, BitVec.ofNat 128 (leValue (((o.aImg.getD []).drop (16 * m)).take 16)))

/-- The palettes a TTBL writes, in order, each with its number. -/
def EngOp.paletteLoads (o : EngOp) : List (Nat × Nat × Quad) :=
  (List.range (ttblCount o.ctl)).map fun m => ((bitsOf o.ctl 0 6 + m) % 64, o.imagePalette m)

/-- Which palette of its image a TTBL would put at number n: n less FIRST, modulo 64. -/
def EngOp.imageIndex (o : EngOp) (n : Nat) : Nat := (n + 64 - bitsOf o.ctl 0 6) % 64

/-- At most 64 palettes in a row, modulo 64, have numbers that all differ. -/
theorem EngOp.mem_paletteLoads {n : Nat} {v : Nat × Quad} : (n, v) ∈ o.paletteLoads ↔
    (n < 64 ∧ o.imageIndex n ≤ bitsOf o.ctl 6 6) ∧ v = o.imagePalette (o.imageIndex n) := by
  have hfirst : bitsOf o.ctl 0 6 < 64 := Nat.mod_lt _ (by decide)
  have hlast : bitsOf o.ctl 6 6 < 64 := Nat.mod_lt _ (by decide)
  have hkey (m : Nat) (hm : m < 64) : (bitsOf o.ctl 0 6 + m) % 64 = n ↔ n < 64 ∧ m = o.imageIndex n := by
    unfold EngOp.imageIndex
    omega
  simp only [EngOp.paletteLoads, ttblCount, List.mem_map, List.mem_range, Prod.mk.injEq]
  constructor
  · rintro ⟨m, hm, hn, rfl⟩
    obtain ⟨hlt, rfl⟩ := (hkey m (by omega)).1 hn
    exact ⟨⟨hlt, Nat.le_of_lt_succ hm⟩, rfl⟩
  · rintro ⟨⟨hn, hm⟩, rfl⟩
    exact ⟨_, Nat.lt_succ_of_le hm, (hkey _ (by omega)).2 ⟨hn, rfl⟩, rfl⟩

/-- The engine with the palettes of a TTBL's image. -/
def Engine.loadPalettes (e : Engine) (o : EngOp) : Engine := { e with palettes := tabInsertAll e.palettes o.paletteLoads }

theorem Engine.palette_loadPalettes (e : Engine) (o : EngOp) (n : Nat) : (e.loadPalettes o).palette n =
    if n < 64 ∧ o.imageIndex n ≤ bitsOf o.ctl 6 6 then o.imagePalette (o.imageIndex n) else e.palette n := by
  split
  case isTrue h =>
    exact tabGet_insertAll_of_mem (EngOp.mem_paletteLoads.2 ⟨h, rfl⟩) (fun _ hw => (EngOp.mem_paletteLoads.1 hw).2) _ _
  case isFalse h => exact tabGet_insertAll_of_not_mem (fun _ hv => h (EngOp.mem_paletteLoads.1 hv).1) _ _

theorem exec_ttblComplete (hrun : s.runningOp engine pos .ttbl = some o) :
    exec (.ttblComplete engine pos) s = .next ((s.mapEngine engine (·.loadPalettes o)).retireOp engine pos) := by
  change execTtblComplete engine pos s = _
  rw [execTtblComplete, hrun]
  rfl

/-! ### Drains (06 R155 to R161) -/

/-- The canvas of a drain is empty afterwards when its control word says CLEAR. -/
def State.clearDrained (s : State) (engine : Nat) (o : EngOp) : State :=
  if drnClear o.ctl then s.mapCanvas engine o.canvas fun _ => emptyCanvas else s

/-- The tag of a drain is free afterwards when its control word says RELEASE. -/
def State.releaseTag (s : State) (c : Crew) (o : EngOp) : State :=
  match drnRelease o.ctl, o.tag with
  | true, some n => s.mapCluster c.cluster fun cl => { cl with tags := tabErase cl.tags n }
  | _, _ => s

/-- A drain ends: its copies, its canvas, its tag, its queue entry, its status word. -/
def State.finishDrain (s : State) (engine pos : Nat) (o : EngOp) (c : Crew) : State :=
  let canvas := (s.engine engine).canvas o.canvas
  let copies := o.drain canvas
  let written : State := { (s.seenBy fun r => o.id < r.serial).writeDrain c o copies with spcfg := s.spcfg }
  (((written.clearDrained engine o).releaseTag c o).retireOp engine pos).deliverWord o.dst (o.drainWord canvas copies)

theorem exec_drainComplete (hrun : s.runningOp engine pos .tdrn = some o) (hcrew : s.crew? o.crew = some c) :
    exec (.drainComplete engine pos) s = .next (s.finishDrain engine pos o c) := by
  change execDrainComplete engine pos s = _
  rw [execDrainComplete, hrun]
  dsimp only
  rw [hcrew]
  rfl

end Sys2Proof.Machine
end

section
open Sys2Proof Sys2Proof.Machine

/-- Settles O24: the start sets one queue entry, and each kind's completion is what its running instruction does. -/
theorem engineStepsComplete : Obligations.EngineStepsComplete := by
  refine ⟨fun s engine pos o c hqueue hcrew hnew hmay hseen => ?_, fun s engine pos cycles o hqueue hstarted =>
    have hrun {k : EngKind} (hkind : o.kind = k) := State.runningOp_eq_some hqueue hstarted hkind
    ⟨fun hkind => exec_tmmaComplete (hrun hkind), fun hkind => exec_dmmaComplete (hrun hkind), fun hkind => ?_,
      fun hkind => exec_tstgComplete (hrun hkind), fun hkind => ?_, fun hkind _ => exec_drainComplete (hrun hkind)⟩⟩
  case refine_1 =>
    obtain ⟨hkind, hid, hcanvas⟩ := s.startedOp_keeps c o
    exact ⟨_, s.startedOp c o, exec_engineInstructionStart hqueue hcrew hnew hmay hseen, State.engine_mapEngine_self _ _ _,
      rfl, hkind, hid, hcanvas, rfl, rfl⟩
  case refine_2 => exact ⟨_, exec_tclrComplete (hrun hkind), by simp⟩
  case refine_3 =>
    refine ⟨_, exec_ttblComplete (hrun hkind), by simp [Engine.loadPalettes], by simp [Engine.loadPalettes], rfl, fun n => ?_⟩
    rw [State.engine_retireOp_self, State.engine_mapEngine_self]
    exact Engine.palette_loadPalettes (s.engine engine) o n

end

section
/-! What the management window reads (14 R328), and what it reads after reset (10 R263; 12 R299; 13 R302, R320; 14 R323). -/

namespace Sys2Proof.Machine
open Sys2Proof

@[simp] theorem State.windowRead_tokenCtl (s : State) : s.windowRead 0x108 = s.tokenCtl := rfl
@[simp] theorem State.windowRead_schedCtl (s : State) : s.windowRead 0x110 = s.schedCtl := rfl
@[simp] theorem State.windowRead_memCtl (s : State) : s.windowRead 0x118 = s.memCtl := rfl
@[simp] theorem State.windowRead_thermal (s : State) : s.windowRead 0x120 = s.thermalDouble := rfl
@[simp] theorem State.windowRead_fabricCtl (s : State) : s.windowRead 0x128 = s.fabricCtl := rfl

/-- A semaphore's double holds its owner in bits 1 and 2 (13 R320). -/
theorem State.windowRead_semaphore (s : State) {k : Nat} (hk : k < 32) :
    s.windowRead (0x200 + 8 * k) = BitVec.ofNat 64 (2 * s.sems.getD k 0) := by
  have htopology : ¬0x200 + 8 * k < 0xD0 := by omega
  have hregister {r : Nat} (hr : r < 0x200) : ¬0x200 + 8 * k = r := by omega
  have hsemaphore : 0x200 + 8 * k < 0x300 := by omega
  simp [State.windowRead, htopology, hregister, hsemaphore]

theorem State.thermalDouble_reset : State.reset.thermalDouble = 0x5F55 := by decide

/-- No semaphore has an owner after reset. -/
theorem State.windowRead_semaphore_reset {k : Nat} (hk : k < 32) : State.reset.windowRead (0x200 + 8 * k) = 0 := by
  have hfree : State.reset.sems.getD k 0 = 0 := List.getD_replicate 0 hk
  rw [State.windowRead_semaphore _ hk, hfree]
  rfl

end Sys2Proof.Machine
end

section
open Sys2Proof Sys2Proof.Machine Sys2Proof.Claim

/-- Settles O60: the state after reset is a fixed one, and the window reads its registers. -/
theorem resetLeavesTheDeviceEmpty : Obligations.ResetLeavesTheDeviceEmpty := by
  have hrule : FirmwareRule State.reset := fun hup => absurd hup (by decide)
  refine ⟨rfl, rfl, rfl, rfl, rfl, rfl, rfl, rfl, hrule, rfl, rfl, ?_, ?_, ?_, ?_, ?_, rfl, fun k hk => ?_⟩
  · exact State.windowRead_tokenCtl _
  · exact State.windowRead_schedCtl _
  · exact State.windowRead_memCtl _
  · exact (State.windowRead_thermal _).trans State.thermalDouble_reset
  · exact State.windowRead_fabricCtl _
  · exact State.windowRead_semaphore_reset hk

end

section
/-! The power tokens (06 R151; 10 R258): a cycle of TOKEN_ARBITRATION is a refill, then grants to the candidates that the level
covers, one after another: the oldest aged request alone, or a round of the easels. -/

namespace Sys2Proof.Machine
open Sys2Proof Sys2Proof.Claim

variable {s : State} {r : TokenReq}

/-! ### Granting a list of requests -/

/-- The tokens that some requests ask for. -/
def unitsOf (won : List TokenReq) : Nat := (won.map (·.units)).sum

/-- The state once each of some requests is granted. -/
def State.grantAll (s : State) (won : List TokenReq) : State :=
  { s with
    tokens := s.tokens - unitsOf won
    tokenReqs := s.tokenReqs.filter (!won.contains ·)
    granted := s.granted ++ won.map (fun r => (r.easel, r.units))
    lastGrant := (won.getLast?.map (·.easel)).getD s.lastGrant }

theorem filter_not_contains_singleton (rs : List TokenReq) (r : TokenReq) :
    rs.filter (fun q => !([r].contains q)) = rs.filter (· != r) :=
  List.filter_congr fun q _ => by simp [bne, beq_eq_decide]

theorem State.grantAll_nil (s : State) : s.grantAll [] = s := by simp [State.grantAll, unitsOf]

theorem State.grant_of_le (h : r.units ≤ s.tokens) : s.grant r = s.grantAll [r] := by
  simp only [State.grant, State.grantAll, if_pos h, filter_not_contains_singleton]
  rfl

theorem State.grant_of_lt (h : s.tokens < r.units) : s.grant r = s := if_neg (Nat.not_le.2 h)

theorem State.grantAll_cons (s : State) (r : TokenReq) (won : List TokenReq) :
    s.grantAll (r :: won) = (s.grantAll [r]).grantAll won := by
  have hlast : ((r :: won).getLast?.map (·.easel)).getD s.lastGrant = (won.getLast?.map (·.easel)).getD r.easel := by
    simp [List.getLast?_cons, Option.getD_map]
  simp only [State.grantAll, hlast]
  simp [unitsOf, Nat.sub_sub, List.filter_filter, Bool.and_comm]

/-- A grant that the level covers moves its tokens from the level to the easel (06 R151). -/
theorem State.tokens_grantAll {won : List TokenReq} (h : unitsOf won ≤ s.tokens) :
    (s.grantAll won).tokens + (((s.grantAll won).granted.drop s.granted.length).map Prod.snd).sum = s.tokens := by
  simp only [State.grantAll, List.drop_left, List.map_map]
  exact Nat.sub_add_cancel h

/-! ### Candidates one after another -/

theorem unitsOf_grantRound_le (rs : List TokenReq) (level : Nat) : unitsOf (grantRound level rs) ≤ level := by
  induction rs generalizing level with
  | nil => exact Nat.zero_le _
  | cons r rs ih =>
    by_cases h : r.units ≤ level
    · have hrest : unitsOf (grantRound (level - r.units) rs) ≤ level - r.units := ih _
      simp only [grantRound, if_pos h, unitsOf, List.map_cons, List.sum_cons] at hrest ⊢
      omega
    · simpa only [grantRound, if_neg h] using ih level

/-- The turn of an easel in a round: its request is granted if the level covers it. -/
def State.considerEasel (s : State) (easel : Nat) : State :=
  match s.requestOf easel with
  | some r => s.grant r
  | none => s

theorem State.easel_of_requestOf {easel : Nat} (h : s.requestOf easel = some r) : r.easel = easel := by
  simpa using List.find?_some h

/-- A grant leaves the requests of other easels. -/
theorem State.requestOf_grantAll_other {easel : Nat} (h : easel ≠ r.easel) :
    (s.grantAll [r]).requestOf easel = s.requestOf easel := by
  have hkept (q : TokenReq) (hq : (q.easel == easel) = true) : (!([r].contains q)) = true := by
    have hne : q ≠ r := fun e => h (e ▸ (beq_iff_eq.1 hq).symm)
    simpa using hne
  unfold State.requestOf State.grantAll
  rw [List.find?_filter]
  congr 1
  funext q
  cases hq : q.easel == easel with
  | true => rw [hkept q hq]; rfl
  | false => simp

/-- Easels that are considered once each are granted what the level covers. -/
theorem State.foldl_considerEasel {es : List Nat} (hnodup : es.Nodup) (s : State) :
    es.foldl State.considerEasel s = s.grantAll (grantRound s.tokens (es.filterMap s.requestOf)) := by
  induction es generalizing s with
  | nil => exact s.grantAll_nil.symm
  | cons e es ih =>
    obtain ⟨hnew, hrest⟩ := List.nodup_cons.1 hnodup
    rw [List.foldl_cons, ih hrest]
    cases hreq : s.requestOf e with
    | none => simp only [State.considerEasel, hreq, List.filterMap_cons]
    | some r =>
      simp only [State.considerEasel, hreq, List.filterMap_cons, grantRound]
      by_cases hunits : r.units ≤ s.tokens
      · have hothers : es.filterMap (s.grantAll [r]).requestOf = es.filterMap s.requestOf :=
          List.filterMap_congr fun k hk =>
            State.requestOf_grantAll_other fun he => hnew (State.easel_of_requestOf hreq ▸ he ▸ hk)
        rw [State.grant_of_le hunits, if_pos hunits, hothers]
        exact (s.grantAll_cons r _).symm
      · rw [State.grant_of_lt (Nat.not_le.1 hunits), if_neg hunits]

/-! ### The candidates of a cycle (10 R258) -/

/-- The easels in the order of a round: from the one after the last granted. -/
def State.roundOrder (s : State) : List Nat := (List.range 24).map fun k => (s.lastGrant + 1 + k) % 24

theorem State.nodup_roundOrder (s : State) : s.roundOrder.Nodup := by
  refine List.Nodup.map_on (fun j hj k hk h => ?_) List.nodup_range
  simp only [List.mem_range] at hj hk
  omega

/-- The older of two requests; the first when they have waited alike (assumption 131). -/
def olderReq (a b : TokenReq) : TokenReq := if b.since < a.since then b else a

/-- The request that stands first among some is one of them, and none has waited longer. -/
theorem foldl_olderReq (rs : List TokenReq) (r : TokenReq) :
    rs.foldl olderReq r ∈ r :: rs ∧ ∀ q ∈ r :: rs, (rs.foldl olderReq r).since ≤ q.since := by
  induction rs generalizing r with
  | nil => simp
  | cons q rs ih =>
    obtain ⟨hmem, hmin⟩ := ih (olderReq r q)
    obtain ⟨hfirst, hrest⟩ := List.forall_mem_cons.1 hmin
    rw [List.foldl_cons, List.forall_mem_cons, List.forall_mem_cons]
    simp only [List.mem_cons] at hmem ⊢
    by_cases h : q.since < r.since
    · simp only [olderReq, if_pos h] at hfirst hmem hrest ⊢
      exact ⟨.inr hmem, by omega, hfirst, hrest⟩
    · simp only [olderReq, if_neg h] at hfirst hmem hrest ⊢
      exact ⟨hmem.imp_right .inr, hfirst, by omega, hrest⟩

/-- The requests that a cycle considers, in order: the oldest aged one, or those of a round. -/
def State.tokenCandidates (s : State) : List TokenReq :=
  match s.tokenReqs.filter s.requestAged with
  | r :: rs => [rs.foldl olderReq r]
  | [] => s.roundOrder.filterMap s.requestOf

theorem State.tokenCandidates_of_aged (h : ∃ r ∈ s.tokenReqs, s.requestAged r = true) :
    ∃ r ∈ s.tokenReqs, s.requestAged r = true ∧ (∀ q ∈ s.tokenReqs, s.requestAged q = true → r.since ≤ q.since) ∧
      s.tokenCandidates = [r] := by
  unfold State.tokenCandidates
  cases haged : s.tokenReqs.filter s.requestAged with
  | nil =>
    obtain ⟨r, hr, hage⟩ := h
    exact absurd hage (List.filter_eq_nil_iff.1 haged r hr)
  | cons r rs =>
    obtain ⟨hmem, hmin⟩ := foldl_olderReq rs r
    rw [← haged] at hmem hmin
    obtain ⟨hreq, hage⟩ := List.mem_filter.1 hmem
    exact ⟨_, hreq, hage, fun q hq hqage => hmin q (List.mem_filter.2 ⟨hq, hqage⟩), rfl⟩

theorem State.tokenCandidates_of_none_aged (h : ∀ r ∈ s.tokenReqs, s.requestAged r = false) :
    s.tokenCandidates = s.roundOrder.filterMap s.requestOf := by
  have hnone : s.tokenReqs.filter s.requestAged = [] := List.filter_eq_nil_iff.2 fun r hr => by simp [h r hr]
  rw [State.tokenCandidates, hnone]

/-- The state after a cycle's refill, which never passes CAP (06 R151). -/
def State.refilled (s : State) : State := s.addTokens (bitsOf s.tokenCtl 24 16)

/-- The requests that a cycle grants. -/
def State.tokensWon (s : State) : List TokenReq := grantRound s.refilled.tokens s.tokenCandidates

theorem exec_tokenArbitration (s : State) : exec .tokenArbitration s = .next (s.refilled.grantAll s.tokensWon) := by
  refine congrArg Host.Outcome.next ?_
  unfold State.tokensWon State.tokenCandidates
  change (match s.tokenReqs.filter s.requestAged with
    | r :: rs => s.refilled.grant (rs.foldl olderReq r)
    | [] => s.roundOrder.foldl State.considerEasel s.refilled) = _
  cases s.tokenReqs.filter s.requestAged with
  | cons r rs =>
    by_cases hunits : (rs.foldl olderReq r).units ≤ s.refilled.tokens
    · simp only [State.grant_of_le hunits, grantRound, if_pos hunits]
    · simp only [State.grant_of_lt (Nat.not_le.1 hunits), grantRound, if_neg hunits, State.grantAll_nil]
  | nil => exact State.foldl_considerEasel s.nodup_roundOrder s.refilled

end Sys2Proof.Machine
end

section
open Sys2Proof Sys2Proof.Machine Sys2Proof.Claim

/-- Settles O25: each cycle grants those of its candidates that the refilled level covers. -/
theorem powerTokensAreGranted : Obligations.PowerTokensAreGranted := by
  refine ⟨fun s => ⟨_, exec_tokenArbitration s, rfl, rfl, State.tokens_grantAll (unitsOf_grantRound_le _ _), fun haged => ?_,
    fun hnone => ?_⟩, fun s easel => rfl⟩
  · obtain ⟨r, hr, hage, holdest, hcand⟩ := State.tokenCandidates_of_aged haged
    refine ⟨r, hr, hage, holdest, fun hcovered => ?_, fun hshort => ?_⟩
    · have hwon : s.tokensWon = [r] := by rw [State.tokensWon, hcand]; exact if_pos hcovered
      rw [hwon]
      exact ⟨rfl, rfl, filter_not_contains_singleton _ _⟩
    · have hwon : s.tokensWon = [] := by rw [State.tokensWon, hcand]; exact if_neg (Nat.not_le.2 hshort)
      rw [hwon, State.grantAll_nil]
      exact ⟨rfl, rfl, rfl⟩
  · rw [State.tokensWon, State.tokenCandidates_of_none_aged hnone, State.roundOrder, List.filterMap_map]
    exact ⟨rfl, rfl, rfl⟩

end

section
/-! The matrix words of the easel (06 R139 to R153; 15 R359, R360; 18 R432 to R449): each, once its checks are met, there is
room in the engine's queue and its images are at hand, does what its entry says. -/

namespace Sys2Proof.Claim
open Sys2Proof Sys2Proof.Machine

variable {s s' u : State} {c : Ctx} {args rest : List (List Nat)} {t a b d : BitVec 7} {l : BitVec 4} {ma mb : MatOp}
  {w : Double} {e k mode : Nat} {img : Option (List Byte)}

/-- The control word of a matrix instruction, once its descriptors have been taken from the operands. -/
abbrev ctlWord (args : List (List Nat)) : Double := BitVec.ofNat 64 ((args.getD 0 []).headD 0)

/-! ### Multiplications (06 R139, R152) -/

/-- A multiplication that has an entry, its images and its tokens issues. -/
theorem tryMat_ok {i : Instr} {la an bn : Nat} {o : EngOp} (hroom : s.engineRoom c e = true)
    (hissue : s.issueMat c i t la e ma mb an bn o = some u) (hissued : u.issued = s.issued + 1) :
    s.tryMat c i t la e ma mb an bn o = .ok u := by
  have hgranted : ¬u.issued = s.issued := by omega
  refine (ready_bind hroom _).trans ?_
  rw [hissue]
  exact congrArg Except.ok (if_neg hgranted)

/-- The entry of a TMMA with its work-cycle bound (06 R142). -/
def tmmaEntry (s : State) (c : Ctx) (w : Double) (e k mode : Nat) : EngOp :=
  let bound := tmmaBound (ctlKc w) (fmtA c.easelFmt) (ctlLayout w) (ctlCont w)
  { newOp s c .tmma e k (ctlTarget w).tag w with wcb := bound, units := bound * unitsPerCycle mode }

theorem exec_tmma (h : Issues s c (.tmma t a b l) args s') (hma : (takeOperand a args).1 = ma)
    (hmb : (if b == 120 then (MatOp.stage, (takeOperand a args).2) else takeOperand b (takeOperand a args).2) = (mb, rest))
    (hw : ctlWord rest = w) (hcheck : c.checkTmma s' w ma mb = .ok (e, k, mode)) (hroom : s'.engineRoom c e = true)
    (hissue : s'.issueMat c (.tmma t a b l) t l.toNat e ma mb (aImageBytes c.easelFmt w) (bImageBytes c.easelFmt w)
      (tmmaEntry s' c w e k mode) = some u)
    (hissued : u.issued = s'.issued + 1) : exec (.tmma t a b l) s = .next u := by
  subst hw
  change execTmma t a b l s = _
  refine h.runOp_ok ?_
  dsimp only
  rw [hma, hmb, hcheck]
  exact tryMat_ok hroom hissue hissued

/-- The entry of a DMMA (15 R359). -/
def dmmaEntry (s : State) (c : Ctx) (w : Double) (e k : Nat) : EngOp :=
  { newOp s c .dmma e k (ctlTarget w).tag w with wcb := dmmaBound, units := dmmaBound * unitsPerCycle modeDgt }

theorem exec_dmma (h : Issues s c (.dmma t a b l) args s') (hma : (takeOperand a args).1 = ma)
    (hmb : takeOperand b (takeOperand a args).2 = (mb, rest)) (hw : ctlWord rest = w) (hctl : dmmaCtlOk w = true)
    (hla : ma.legal = true) (hlb : mb.legal = true)
    (hmode : ∀ p, (s'.cluster c.crew.cluster).place (ctlTarget w) = some p →
      modeFits ((s'.engine (c.engineNo p.1)).modeAhead p.2) modeDgt = true)
    (htarget : (s'.cluster c.crew.cluster).target? (ctlTarget w) = some (e, k))
    (hfa : s'.operandFits c.crew ⟨1, 32, 0, 64⟩ ma = true) (hfb : s'.operandFits c.crew ⟨1, 8, 0, 256⟩ mb = true)
    (hroom : s'.engineRoom c e = true)
    (hissue : s'.issueMat c (.dmma t a b l) t l.toNat e ma mb 2048 2048 (dmmaEntry s' c w e k) = some u)
    (hissued : u.issued = s'.issued + 1) : exec (.dmma t a b l) s = .next u := by
  subst hw
  have hlegal : (dmmaCtlOk (ctlWord rest) && ma.legal && mb.legal) = true := by rw [hctl, hla, hlb]; rfl
  have hfits : (s'.operandFits c.crew ⟨1, 32, 0, 64⟩ ma && s'.operandFits c.crew ⟨1, 8, 0, 256⟩ mb) = true := by
    rw [hfa, hfb]; rfl
  change execDmma t a b l s = _
  refine h.runOp_ok ?_
  dsimp only
  rw [hma, hmb]
  refine (need_bind hlegal _ _).trans ((need_bind ?_ _ _).trans ?_)
  · dsimp only
    split
    next hplace => exact hmode _ hplace
    next => rfl
  · rw [htarget]
    exact (need_bind hfits _ _).trans (tryMat_ok hroom hissue hissued)

/-! ### TBND and TCFG (18 R432 to R434) -/

theorem exec_tbnd (h : Issues s c (.tbnd t a l) args s') (hw : ctlWord args = w) (hctl : tmmaCtlOk w = true)
    (hmode : (tmmaMode c.easelFmt (ctlLayout w)).isSome = true) :
    exec (.tbnd t a l) s = .next (s'.wordFlight c (.tbnd t a l) t l.toNat
      (tmmaBound (ctlKc w) (fmtA c.easelFmt) (ctlLayout w) (ctlCont w))).2 := by
  subst hw
  change execTbnd t a l s = _
  exact h.runOp_ok ((need_bind hctl _ _).trans (need_bind hmode _ _))

theorem exec_tcfg {x y : BitVec 1} {m g : BitVec 2} {n : BitVec 5} (h : Issues s c (.tcfg x m g y n) args s')
    (hn : y = 1 ∨ n.toNat < 8)
    (he : (if y = 1 then (tabFind (s'.cluster c.crew.cluster).tags n.toNat).map Prod.fst else some n.toNat) = some e) :
    exec (.tcfg x m g y n) s = .next ((s'.retireNext c).mapEngine (c.engineNo e) fun q =>
      { q with cfg := g.toNat + 4 * m.toNat + 16 * x.toNat }) := by
  have hcode : (y == 1 || decide (n.toNat < 8)) = true := by simpa using hn
  change execTcfg x m g y n s = _
  refine h.runOp_ok ((need_bind hcode _ _).trans ?_)
  simp only [beq_iff_eq]
  rw [he]
  rfl

/-! ### TCLR (06 R149, R150; 18 R435) -/

/-- The state once a TCLR is in an engine's queue. -/
def clearQueued (s : State) (c : Ctx) (e k : Nat) (tag : Option Nat) : State :=
  State.enqueue { s.retireNext c with serial := s.serial + 1 } c e (newOp s c .tclr e k tag 0)

theorem exec_tclr {q x : BitVec 1} {n : BitVec 5} (h : Issues s c (.tclr q x n) args s')
    (hn : if x = 1 then q = 0 else n.toNat < 8)
    (htarget : (s'.cluster c.crew.cluster).target? ⟨x == 1, n.toNat, q.toNat⟩ = some (e, k))
    (hroom : s'.engineRoom c e = true) :
    exec (.tclr q x n) s = .next (clearQueued s' c e k (if x == 1 then some n.toNat else none)) := by
  have hcode : (if x == 1 then q == 0 else decide (n.toNat < 8)) = true := by
    simpa only [beq_iff_eq, apply_ite (· = true), decide_eq_true_eq] using hn
  change execTclr q x n s = _
  refine h.runOp_ok ((need_bind hcode _ _).trans ?_)
  rw [htarget]
  exact ready_bind hroom _

/-- TCLR of a new tag binds it to the canvas that the tile dealer gives. -/
theorem exec_tclr_new {n : BitVec 5} (h : Issues s c (.tclr 0 1 n) args s')
    (htarget : (s'.cluster c.crew.cluster).target? ⟨true, n.toNat, 0⟩ = none) (hdeal : s'.dealCanvas c = some (e, k))
    (hroom : s'.engineRoom c e = true) :
    exec (.tclr 0 1 n) s = .next (clearQueued (s'.mapCluster c.crew.cluster fun cl =>
      { cl with tags := tabInsert cl.tags n.toNat (e, k) }) c e k (some n.toNat)) := by
  have hnew : (s'.cluster c.crew.cluster).target? ⟨(1 : BitVec 1) == 1, n.toNat, (0 : BitVec 1).toNat⟩ = none := htarget
  change execTclr 0 1 n s = _
  refine h.runOp_ok ((need_bind rfl _ _).trans ?_)
  rw [hnew]
  refine (need_bind rfl _ _).trans ?_
  rw [hdeal]
  exact ready_bind hroom _

/-! ### TDRN (06 R153 to R159; 18 R436, R437) -/

/-- The entry of a TDRN; the next flight is to carry its word. -/
def drainEntry (s : State) (c : Ctx) (e k v : Nat) (x : BitVec 6) (copies : BitVec 1) (ds : List Desc) : EngOp :=
  { newOp s c .tdrn e k (drnTarget (BitVec.ofNat 64 v)).tag (BitVec.ofNat 64 v) with
    ctl2 := BitVec.ofNat 64 (v / 2 ^ 64), xf := x.toNat, k := copies == 1, aDesc := ds[0]?, bDesc := ds[1]?, dst := s.serial }

/-- A drain to a port has room kept there for its words (06 R159). -/
def keepDrainRoom (s : State) (c : Ctx) (w : Double) : State :=
  if drnToPort w then s.mapPort c.crew.cluster (drnPort w) fun q => { q with drains := q.drains + drnWords w } else s

theorem exec_tdrn {x : BitVec 6} {y : BitVec 1} {ds : List Desc} (h : Issues s c (.tdrn d a x y l) args s')
    (hw : ctlWord args = w) (hdescs : c.drnDescs w a (y == 1) = .ok ds)
    (hctl : drnCtlOk w x.toNat (y == 1) a.toNat = true)
    (hlegal : ∀ d ∈ ds, Desc.legal d = true ∧ (x.toNat = 6 → Desc.takesCrumbs d (drnAllot w) = true))
    (hfits : ∀ p ∈ ds.zip [(drnRows w, drnCols w), (drnCols w, drnRows w)],
      s'.drainFits c.crew w x.toNat c.easelFmt p.2.1 p.2.2 p.1 = true)
    (htarget : (s'.cluster c.crew.cluster).target? (drnTarget w) = some (e, k)) (hroom : s'.engineRoom c e = true)
    (hport : drnToPort w = true → drnWords w ≤ (s'.port c.crew.cluster (drnPort w)).room) :
    exec (.tdrn d a x y l) s = .next (State.enqueue
      (keepDrainRoom (s'.wordFlight c (.tdrn d a x y l) d l.toNat 0).2 c w) c e
      (drainEntry s' c e k ((args.getD 0 []).headD 0) x y ds)) := by
  have hdesc : (ds.all fun (d : Desc) => d.legal && (x.toNat != 6 || d.takesCrumbs (drnAllot w))) = true :=
    List.all_eq_true.2 fun d hd => by
      obtain ⟨hok, hcrumbs⟩ := hlegal d hd
      by_cases hx : x.toNat = 6
      · simp [hok, hcrumbs hx]
      · simp [hok, hx]
  have hwords : (!drnToPort w || decide (drnWords w ≤ (s'.port c.crew.cluster (drnPort w)).room)) = true := by
    cases hto : drnToPort w with
    | false => rfl
    | true => simp [hport hto]
  subst hw
  change execTdrn d a x y l s = _
  refine h.runOp_ok ?_
  dsimp only
  rw [hdescs]
  refine (need_bind hctl _ _).trans ((need_bind hdesc _ _).trans ?_)
  rw [htarget]
  exact (need_bind (List.all_eq_true.2 hfits) _ _).trans ((ready_bind hroom _).trans (ready_bind hwords _))

/-! ### TSTG and TTBL (18 R445 to R449) -/

/-- The state once a TSTG is in an engine's queue and its canvas waits for the stage (18 R446); `s` is the state after its
image has been taken. -/
def stageQueued (s : State) (c : Ctx) (w : Double) (e k : Nat) (mb : MatOp) (img : Option (List Byte)) : State :=
  let stage : Stage := ⟨ctlKc w, ctlLayout w, ctlCont w, c.easelFmt, none⟩
  (({ s.retireNext c with serial := s.serial + 1 } : State).mapEngine (c.engineNo e) fun n =>
    { n with stages := n.stages.set k (some stage) }).enqueue c e
      { newOp s c .tstg e k (ctlTarget w).tag w with bDesc := mb.desc?, bImg := img }

theorem exec_tstg (h : Issues s c (.tstg t b) args s') (hmb : takeOperand b args = (mb, rest)) (hw : ctlWord rest = w)
    (hctl : tmmaCtlOk w = true) (hlimit : bImageBytes c.easelFmt w ≤ portLimit) (hb : b ≠ 120) (hlegal : mb.legal = true)
    (hplace : (s'.cluster c.crew.cluster).place (ctlTarget w) = some (e, k)) (hstage : s'.stage c e k = none)
    (htarget : (s'.cluster c.crew.cluster).target? (ctlTarget w) = some (e, k))
    (hfits : s'.operandFits c.crew (bExtent c.easelFmt w) mb = true) (hroom : s'.engineRoom c e = true)
    (himage : s'.takeImage c.crew.cluster mb (bImageBytes c.easelFmt w) = some (img, u)) :
    exec (.tstg t b) s = .next (stageQueued u c w e k mb img) := by
  have hsize : (decide (bImageBytes c.easelFmt w ≤ portLimit) && b != 120) = true := by
    rw [decide_eq_true hlimit, bne_iff_ne.2 hb]; rfl
  have hfree : ((s'.cluster c.crew.cluster).place (ctlTarget w)).all (fun (e, k) => (s'.stage c e k).isNone) = true := by
    rw [hplace]
    exact Option.isNone_iff_eq_none.2 hstage
  subst hw
  change execTstg t b s = _
  refine h.runOp_ok ?_
  dsimp only
  rw [hmb]
  refine (need_bind hctl _ _).trans ((need_bind hsize _ _).trans ((need_bind hfree _ _).trans
    ((need_bind hlegal _ _).trans ?_)))
  rw [htarget]
  refine (need_bind hfits _ _).trans ((ready_bind hroom _).trans ?_)
  rw [himage]
  rfl

theorem exec_ttbl (h : Issues s c (.ttbl t a) args s') (hma : takeOperand a args = (ma, rest)) (hw : ctlWord rest = w)
    (hctl : ttblCtlOk w = true) (hblk : natBits c.easelFmt.toNat 12 2 ≠ 3)
    (hlegal : ∀ d, ma = .desc d → d.legal = true ∧ d.rot = 0)
    (he : (if w.getLsbD 12 then (tabFind (s'.cluster c.crew.cluster).tags (bitsOf w 13 5)).map Prod.fst
      else some (bitsOf w 13 5)) = some e)
    (hfits : s'.operandFits c.crew ⟨1, ttblCount w, 0, 16⟩ ma = true) (hroom : s'.engineRoom c e = true)
    (himage : s'.takeImage c.crew.cluster ma (16 * ttblCount w) = some (img, u)) :
    exec (.ttbl t a) s = .next (State.enqueue { u.retireNext c with serial := u.serial + 1 } c e
      { newOp u c .ttbl e 2 none w with aDesc := ma.desc?, aImg := img }) := by
  have hword : (ttblCtlOk w && natBits c.easelFmt.toNat 12 2 != 3) = true := by simp [hctl, hblk]
  subst hw
  change execTtbl t a s = _
  refine h.runOp_ok ?_
  dsimp only
  rw [hma]
  refine (need_bind hword _ _).trans ((need_bind ?_ _ _).trans ?_)
  · cases ma with
    | desc d => simp [hlegal d rfl]
    | port p => rfl
    | stage => rfl
  · rw [he]
    refine (need_bind hfits _ _).trans ((ready_bind hroom _).trans ?_)
    rw [himage]

end Sys2Proof.Claim
end

section
open Sys2Proof Sys2Proof.Machine Sys2Proof.Claim

/-- Settles O15, word by word. -/
theorem matrixWordsComplete : Obligations.MatrixWordsComplete := by
  intro s s' c args
  refine ⟨fun t a b l ma mb rest e k mode u h hma hmb => exec_tmma h hma hmb rfl,
    fun t a b l ma mb rest e k u h hma hmb => exec_dmma h hma hmb rfl, fun t a l h => exec_tbnd h rfl,
    fun w e g x n m h => exec_tcfg h, fun k x n e cv h => exec_tclr h, fun n e cv h => exec_tclr_new h, ?_,
    fun t b mb rest e k img u h hmb => exec_tstg h hmb rfl, fun t a ma rest e img u h hma => exec_ttbl h hma rfl⟩
  intro d a x k l ds e cv h v w hdescs hctl hlegal hfits htarget hroom hport
  exact ⟨drainEntry s' c e cv v x k ds, rfl, rfl, rfl, rfl, rfl, rfl, rfl, rfl,
    exec_tdrn h rfl hdescs hctl hlegal hfits htarget hroom hport⟩

end

section
/-! Accesses to bad addresses (16 R385; 11 R284): an access word whose addresses fail a check takes its trap before any
access is made. -/

namespace Sys2Proof.Claim
open Sys2Proof Sys2Proof.Machine

variable {s s' : State} {c : Ctx} {i : Instr} {args : List (List Nat)} {a : Access}

/-- The addresses of an access's active lanes, as a trap reports them. -/
def Access.at_ (a : Access) (c : Ctx) : List (Nat × Nat) := c.lanes.zip a.addrs

/-- Every lane's address leads to a place that the access may name. -/
def Access.placed (a : Access) (c : Ctx) (s : State) : Prop :=
  ∀ p ∈ a.at_ c, ∃ q, c.place? s p.1 p.2 a.what.size = some q ∧ (a.globalOnly = true → q.isGlobal = true)

/-- A place is one an access may name when it is global, or the access need not be. -/
theorem Access.isSome_filter_iff (a : Access) (r : Option Place) :
    (r.filter (if a.globalOnly then Place.isGlobal else anyPlace)).isSome = true ↔
      ∃ q, r = some q ∧ (a.globalOnly = true → q.isGlobal = true) := by
  cases r with
  | none => simp
  | some q => cases hg : a.globalOnly <;> simp [anyPlace, Option.filter_some]

theorem Access.issue_eq_checks (a : Access) (c : Ctx) (s : State) (i : Instr) :
    a.issue c s i = (c.checkAddrs s a.addrs a.what.size a.align (if a.globalOnly then Place.isGlobal else anyPlace) >>=
      fun _ => c.accessReady s a.path a.addrs >>=
        fun _ => .ok (s.issueFlight c i { a.what with path := some a.path } a.addrs a.datas [])) := rfl

theorem Access.issue_of_not_placed (h : ¬a.placed c s) : a.issue c s i = .error (.trap .address (a.at_ c)) := by
  rw [Access.issue_eq_checks, Ctx.checkAddrs, if_pos]
  · rfl
  · refine Bool.of_not_eq_false fun hall => h fun p hp => (a.isSome_filter_iff _).1 ?_
    exact Option.isNone_eq_false_iff.1 (Bool.eq_false_of_not_eq_true (List.any_eq_false.1 hall p hp))

theorem Access.issue_of_misaligned (h : a.placed c s) (hx : ∃ x ∈ a.addrs, x % a.align ≠ 0) :
    a.issue c s i = .error (.trap .align (a.at_ c)) := by
  rw [Access.issue_eq_checks, Ctx.checkAddrs, if_neg, if_pos]
  · rfl
  · simpa using hx
  · refine Bool.not_eq_true _ ▸ List.any_eq_false.2 fun p hp => ?_
    exact ne_true_of_eq_false (Option.isNone_eq_false_iff.2 ((a.isSome_filter_iff _).2 (h p hp)))

/-- An access word that its checks stop takes their trap in the state before it. -/
theorem exec_access_trap {k : Cause} {addrs : List (Nat × Nat)} (h : Issues s c i args s') (ha : accessOf args i = some a)
    (hstop : a.issue c s' i = .error (.trap k addrs)) : exec i s = .next (s.takeTrap c k addrs (opcodeOf i)) := by
  rw [exec_of_accessOf ha, h.runOp_eq]
  simp only [accessBody, ha, hstop, State.outcome_trap]

end Sys2Proof.Claim
end

section
open Sys2Proof Sys2Proof.Machine Sys2Proof.Claim

/-- Settles O4: the check of places comes before that of alignment, and both before the access. -/
theorem badAddressesTrap : Obligations.BadAddressesTrap := by
  intro s s' c i args a h ha
  refine ⟨fun ⟨p, hp, hbad⟩ => exec_access_trap h ha (Access.issue_of_not_placed fun hplaced => ?_),
    fun hplaced hx => exec_access_trap h ha (Access.issue_of_misaligned hplaced hx)⟩
  obtain ⟨q, hq, hglobal⟩ := hplaced p hp
  obtain ⟨hneeds, hlocal⟩ := hbad q hq
  exact Bool.false_ne_true (hlocal.symm.trans (hglobal hneeds))

end

section
/-! Fences, waits on a path and replays (16 R374; 18 R454; 17 R421). -/

namespace Sys2Proof.Claim
open Sys2Proof Sys2Proof.Machine

variable {s s' : State} {c : Ctx} {args : List (List Nat)}

/-- A fence whose release half holds (16 R374) issues, and stays in flight while an earlier read is still to be performed. -/
theorem exec_fence {sc : BitVec 3} {r : BitVec 2} (h : Issues s c (.fence sc r) args s')
    (hrelease : 2 ≤ r.toNat → c.allPerformed s' (fun _ => true) = true) :
    exec (.fence sc r) s = .next (if (r.toNat % 2 == 1 && !c.allPerformed s' AccKind.reads) = true then
      (s'.retireNext c).startFlight c (.fence sc r)
        { kind := .fence, strength := ⟨true, sc.toNat, true, decide (2 ≤ r.toNat), false⟩ } []
      else s'.retireNext c) := by
  have hready : (r.toNat < 2 || c.allPerformed s' fun _ => true) = true := by
    by_cases hr : r.toNat < 2
    · simp [hr]
    · simp [hrelease (Nat.le_of_not_lt hr)]
  change execFence sc r s = _
  exact h.runOp_ok (ready_bind hready _)

theorem exec_waitp {a : BitVec 7} {p : BitVec 3} (h : Issues s c (.waitp a p) args s')
    (hshort : c.gang.ifc p.toNat ≤ (firstArg c args 0).getD 0) : exec (.waitp a p) s = .next (s'.retireNext c) := by
  change execWaitp a p s = _
  exact h.runOp_ok (ready_bind (decide_eq_true hshort) _)

theorem exec_rply (h : Issues s c .rply args s') :
    exec .rply s = .next ((s'.retireNext c).replay c.crew.id fun m _ i => m == c.member && c.sls.contains i) := by
  change execRply s = _
  exact h.runOp_ok rfl

end Sys2Proof.Claim
end

section
open Sys2Proof Sys2Proof.Machine Sys2Proof.Claim

/-- Settles O9: whether a fence stays in flight hangs on its acquire half and on the reads still to be performed. -/
theorem fenceWaitReplayComplete : Obligations.FenceWaitReplayComplete := by
  intro s s' c args
  refine ⟨fun sc r h hrelease hdone => ?_, fun sc r h hrelease hacquire hopen => ?_, fun a p h => exec_waitp h, exec_rply⟩
  · rw [exec_fence h hrelease, if_neg]
    rcases hdone with heven | hread
    · simp [heven]
    · simp [hread]
  · rw [exec_fence h hrelease, if_pos]
    simp [hacquire, hopen]

end

section
/-! HOME_REQUEST (07 R168 to R170, R175; 15 R353; 18 R447): what it does with a part in each case. -/

namespace Sys2Proof.Machine
open Sys2Proof

variable {s u : State} {fl part va code : Nat} {f : Flight} {p : Part} {l : Line}

/-- A step about a part that is in flight. -/
theorem State.onPart_eq (hf : s.flight? fl = some f) (hp : f.parts[part]? = some p) (k : Flight → Part → State) :
    s.onPart fl part k = k f p := by
  simp only [State.onPart, hf, hp]

theorem exec_homeRequest_tsub (hf : s.flight? fl = some f) (hp : f.parts[part]? = some p) (hsent : p.state = .sent)
    (hk : f.kind = .tsub) (hmay : s.mayPerform f f.parts = true) :
    exec (.homeRequest fl part) s = .next (s.performTsub f) := by
  change execHomeRequest fl part s = _
  simp [execHomeRequest, State.onPart_eq hf hp, hk, hsent, hmay]

theorem exec_homeRequest_mcrd (hf : s.flight? fl = some f) (hp : f.parts[part]? = some p) (hk : f.kind = .mcrd) :
    exec (.homeRequest fl part) s = .next s := by
  change execHomeRequest fl part s = _
  simp [execHomeRequest, State.onPart_eq hf hp, hk]

/-- A request of any other access. -/
theorem exec_homeRequest (hf : s.flight? fl = some f) (hp : f.parts[part]? = some p) (hmcrd : f.kind ≠ .mcrd)
    (htsub : f.kind ≠ .tsub) : exec (.homeRequest fl part) s = .next (s.homeRequest f part p) := by
  change execHomeRequest fl part s = _
  simp [execHomeRequest, State.onPart_eq hf hp, hmcrd, htsub]

/-- A part that may be performed, of an access that is not held. -/
structure State.Performs (s : State) (f : Flight) (part : Nat) (p : Part) : Prop where
  sent : p.state = .sent
  order : f.laneOrder part = true
  may : s.mayPerform f (f.at_ (f.group part)) = true

theorem State.homeRequest_local (h : s.Performs f part p) {place : Place} (hplace : s.placeOf f p = some place)
    (hlocal : place.isGlobal = false) : s.homeRequest f part p = s.performLocal f (f.group part) place := by
  simp only [State.homeRequest, h.sent, h.order, h.may, hplace]
  cases place with
  | global va => cases hlocal
  | priv | core | clu | chip => simp

/-! A request at a line that is neither frozen nor owned. -/

section
variable (h : s.Performs f part p) (hplace : s.placeOf f p = some (.global va)) (hfrozen : s.frozen f.asid va = false)
  (howned : s.ownedByOther f.asid (va / lineBytes) none = false)
include h hplace hfrozen howned

theorem State.homeRequest_flush (hk : f.kind = .flush) :
    s.homeRequest f part p = s.flushLine f (f.group part) (va / lineBytes) := by
  simp [State.homeRequest, h.sent, h.order, h.may, hplace, hfrozen, howned, hk]

theorem State.homeRequest_hit (hk : f.kind ≠ .flush) (hl : s.cacheHit? f va = some l) :
    s.homeRequest f part p = s.performHome f (f.group part) va l := by
  simp [State.homeRequest, h.sent, h.order, h.may, hplace, hfrozen, howned, hk, hl]

/-- A line the home holds is checked and performed there, or the request is faulted. -/
theorem State.homeRequest_served (hk : f.kind ≠ .flush) (hmiss : s.cacheHit? f va = none)
    (hl : s.served? f.asid (va / lineBytes) = some l) (hcode : s.hitCode f.asid va f.kind.want = (code, u)) :
    s.homeRequest f part p = if code = 0 then (u.expandHeld f.asid (va / lineBytes)).performHome f (f.group part) va l
      else u.mapParts f.id (f.group part) fun p => { p with state := .faulted code } := by
  cases code <;> simp [State.homeRequest, h.sent, h.order, h.may, hplace, hfrozen, howned, hk, hmiss, hl, hcode]

theorem State.homeRequest_miss (hk : f.kind ≠ .flush) (hmiss : s.cacheHit? f va = none)
    (hl : s.served? f.asid (va / lineBytes) = none) :
    s.homeRequest f part p = s.mapParts f.id (f.group part) fun p => { p with state := .miss } := by
  simp [State.homeRequest, h.sent, h.order, h.may, hplace, hfrozen, howned, hk, hmiss, hl]

end

end Sys2Proof.Machine
end

section
open Sys2Proof Sys2Proof.Machine

/-- Settles O17: what kind of access it is, then where its place is, then what the home holds of the line. -/
theorem homeRequestsAreServed : Obligations.HomeRequestsAreServed := by
  intro s fl part f p hf hp hsent
  refine ⟨exec_homeRequest_tsub hf hp hsent, exec_homeRequest_mcrd hf hp, fun htsub hmcrd horder hmay => ?_⟩
  have h : s.Performs f part p := ⟨hsent, horder, hmay⟩
  rw [exec_homeRequest hf hp hmcrd htsub]
  refine ⟨fun place hplace hlocal => by rw [State.homeRequest_local h hplace hlocal], fun va hplace hfrozen howned => ?_⟩
  exact ⟨fun hk => congrArg _ (State.homeRequest_flush h hplace hfrozen howned hk),
    fun hk l hl => congrArg _ (State.homeRequest_hit h hplace hfrozen howned hk hl),
    fun hk hmiss l u code hl hcode => congrArg _ (State.homeRequest_served h hplace hfrozen howned hk hmiss hl hcode),
    fun hk hmiss hl => congrArg _ (State.homeRequest_miss h hplace hfrozen howned hk hmiss hl)⟩

end

section
/-! Lines that leave their homes (07 R184; 08 R198; 11 R479; 12 R294): WRITE_BACK, WRITE_BACK_ACK and OWNERSHIP_RELEASE. -/

namespace Sys2Proof.Machine
open Sys2Proof

variable {s : State} {asid line : Nat} {l : Line}

/-- A line its home holds in dense form is that line. -/
theorem State.line?_spec (h : s.line? asid line = some l) : l.asid = asid ∧ l.line = line ∧ l.form = none := by
  simpa [and_assoc] using List.find?_some h

theorem State.compact?_spec (h : s.compact? asid line = some l) : l.asid = asid ∧ l.line = line ∧ l.form.isSome = true := by
  obtain ⟨⟨f, a⟩, -, rfl⟩ := Option.map_eq_some_iff.1 h
  exact ⟨rfl, rfl, rfl⟩

/-- What a home holds of a line, in either form, is that line. -/
theorem State.held_spec (h : (s.line? asid line).or (s.compact? asid line) = some l) : l.asid = asid ∧ l.line = line := by
  rcases Option.or_eq_some_iff.1 h with h | ⟨-, h⟩
  · exact ⟨(State.line?_spec h).1, (State.line?_spec h).2.1⟩
  · exact ⟨(State.compact?_spec h).1, (State.compact?_spec h).2.1⟩

theorem exec_writeBack (hfrozen : s.frozen asid (line * lineBytes) = false) :
    exec (.writeBack asid line) s = .next (s.evict asid line) := by
  change execWriteBack asid line s = _
  simp [execWriteBack, hfrozen]

/-- A line none of whose write-backs waits to be sent leaves its home's cache. -/
theorem State.evict_held (hl : (s.line? asid line).or (s.compact? asid line) = some l) (howned : s.lineOwned l = false)
    (hsent : ∀ w ∈ s.writeBacks, w.asid = asid → w.line = line → w.sent = true) :
    s.evict asid line = if l.dirty then s.writeBackLine l none else s.unload l none none := by
  have hnone : s.unsent? asid line = none := by
    refine List.find?_eq_none.2 fun w hw => ?_
    simp only [Bool.and_eq_true, beq_iff_eq, Bool.not_eq_true', not_and, and_imp]
    exact fun ha hli hs => absurd (hsent w hw ha hli) (by simp [hs])
  have hany : (s.writeBacks.any fun w => w.asid == asid && w.line == line && !w.sent) = false := by
    refine List.any_eq_false.2 fun w hw => ?_
    simp only [Bool.and_eq_true, beq_iff_eq, Bool.not_eq_true', not_and, and_imp]
    exact fun ha hli hs => absurd (hsent w hw ha hli) (by simp [hs])
  simp only [State.evict, hnone, hany, hl, howned]
  cases l.dirty <;> rfl

/-- The oldest write-back of a line that waits in the buffer goes first (07 R184). -/
theorem State.evict_unsent_dense {w : WriteBack} (hw : s.unsent? asid line = some w) (hform : w.form = none) :
    s.evict asid line = s.makeWriteBack w := by
  simp only [State.evict, hw, hform]

theorem State.evict_unsent_compact {w : WriteBack} {f a : Nat} (hw : s.unsent? asid line = some w)
    (hform : w.form = some (f, a)) : s.evict asid line = s.makeGroup f asid line := by
  simp only [State.evict, hw, hform]

theorem State.unload_dense (hform : l.form = none) (hclean : l.dirty = false) :
    s.unload l none none = { s.dropCopies l.asid l.line with lines := s.lines.erase l } := by
  simp [State.unload, hform, hclean]

theorem State.unload_compact {f a : Nat} (hform : l.form = some (f, a)) :
    s.unload l none none = s.unloadGroup f l.asid l.line none none := by
  simp only [State.unload, hform]

theorem State.writeBackLine_dense (hform : l.form = none) :
    s.writeBackLine l none = (s.bufferLine l none none).2.makeWriteBack (s.bufferLine l none none).1 := by
  simp only [State.writeBackLine, hform]

theorem State.writeBackLine_compact {f a : Nat} (hform : l.form = some (f, a)) :
    s.writeBackLine l none = (s.unloadGroup f l.asid l.line none none).makeGroup f l.asid l.line := by
  simp only [State.writeBackLine, hform]

theorem exec_writeBackAck {wb : Nat} {w : WriteBack}
    (hw : (s.writeBacks.find? fun w => w.id == wb && w.sent && w.acked) = some w) (hflush : w.flush = none) :
    exec (.writeBackAck wb) s = .next { s with writeBacks := s.writeBacks.filter (·.id != wb) } := by
  change execWriteBackAck wb s = _
  simp only [execWriteBackAck, hw, State.flushEnded, hflush]

/-- No engine operation and no command in a slot is still the owner (08 R198). -/
theorem exec_ownershipRelease {owner : Nat} (hengines : ∀ e ∈ s.engines, ∀ o ∈ e.2.queue, o.id ≠ owner)
    (hslots : ∀ k ∈ s.clusters, ∀ i < 16, ∀ sl, k.2.slots[i]? = some sl → sl.state ≠ .free →
      (sl.state = .completing → s.slotQuiet k.1 i = false) → slotOwner k.1 i ≠ owner) :
    exec (.ownershipRelease owner) s = .next { s with owned := s.owned.filter fun o => o.owner != owner } := by
  change execOwnershipRelease owner s = _
  refine congrArg Host.Outcome.next (if_neg fun hbusy => ?_)
  rcases Bool.or_eq_true_iff.1 hbusy with hengine | hslot
  · obtain ⟨e, he, hop⟩ := List.any_eq_true.1 hengine
    obtain ⟨o, ho, hid⟩ := List.any_eq_true.1 hop
    exact hengines e he o ho (beq_iff_eq.1 hid)
  · obtain ⟨k, hk, hany⟩ := List.any_eq_true.1 hslot
    obtain ⟨i, hi, hbusy⟩ := List.any_eq_true.1 hany
    cases hsl : k.2.slots[i]? with
    | none => simp [hsl] at hbusy
    | some sl =>
      simp only [hsl, Bool.and_eq_true, Bool.or_eq_true, bne_iff_ne, Bool.not_eq_true', beq_iff_eq] at hbusy
      obtain ⟨⟨hfree, hquiet⟩, howner⟩ := hbusy
      exact hslots k hk i (List.mem_range.1 hi) sl hsl hfree (fun hc => hquiet.resolve_left (absurd hc)) howner

end Sys2Proof.Machine
end

section
open Sys2Proof Sys2Proof.Machine

/-- Settles O20: an eviction goes by the form in which the home holds the line, and by whether it is dirty. -/
theorem linesLeaveTheirHomes : Obligations.LinesLeaveTheirHomes := by
  refine ⟨fun s asid line l hfrozen hl howned hsent => ?_, fun s asid line w hfrozen hw => ?_,
    fun s wb w => exec_writeBackAck, fun s owner => exec_ownershipRelease⟩
  · rw [exec_writeBack hfrozen, State.evict_held hl howned hsent]
    obtain ⟨rfl, rfl⟩ := State.held_spec hl
    refine ⟨fun hform => ⟨fun hclean => ?_, fun hdirty => ?_⟩,
      fun form allot hform => ⟨fun hclean => ?_, fun hdirty => ?_⟩⟩
    · rw [if_neg (by simp [hclean]), State.unload_dense hform hclean]
    · rw [if_pos hdirty, State.writeBackLine_dense hform]
    · rw [if_neg (by simp [hclean]), State.unload_compact hform]
    · rw [if_pos hdirty, State.writeBackLine_compact hform]
  · rw [exec_writeBack hfrozen]
    exact ⟨fun hform => by rw [State.evict_unsent_dense hw hform],
      fun form allot hform => by rw [State.evict_unsent_compact hw hform]⟩

end

section
/-! MAPF, TLBI, SPCFG, QADJ and QBIND (17 R394, R408, R410, R427; 18 R438, R439). -/

namespace Sys2Proof.Claim
open Sys2Proof Sys2Proof.Machine

variable {s s' u : State} {c : Ctx} {args : List (List Nat)}

/-- MAPF's lanes with their addresses. -/
def mapfAddrs (c : Ctx) (args : List (List Nat)) : List (Nat × Nat) := c.lanes.zip (args.getD 0 [])

/-- MAPF's slices wait, or go on, with the statuses of the lanes done. -/
def mapfRest (u : State) (c : Ctx) (w : Wait) : State :=
  u.mapIssuer c fun g => g.mapSlices c.sls fun sl => { sl with wait := w }

/-- MAPF of addresses with bits 63:56 clear. -/
theorem exec_mapf {d a : BitVec 7} {ok : Bool} {sts : List Nat} (h : Issues s c (.mapf d a) args s')
    (hglobal : ∀ p ∈ mapfAddrs c args, natBits p.2 56 8 = 0)
    (hmap : s'.mapLanes c c.first.wait.mapped ((mapfAddrs c args).drop c.first.wait.mapped.length) = (ok, sts, u)) :
    exec (.mapf d a) s = .next (if ok then ((mapfRest u c .none).writeField c (fun _ => .dst d) sts).retireNext c
      else mapfRest u c (.mapf sts)) := by
  have hany : ¬((mapfAddrs c args).any fun (_, x) => natBits x 56 8 ≠ 0) = true := by
    simpa only [List.any_eq_true, not_exists, not_and, decide_eq_true_eq, not_not] using hglobal
  change execMapf d a s = _
  refine h.runOp_ok ?_
  change (if ((mapfAddrs c args).any fun (_, x) => natBits x 56 8 ≠ 0) = true then _ else _) = _
  rw [if_neg hany]
  change (match s'.mapLanes c c.first.wait.mapped ((mapfAddrs c args).drop c.first.wait.mapped.length) with
    | (true, sts, s) => Except.ok (((mapfRest s c .none).writeField c (fun _ => .dst d) sts).retireNext c)
    | (false, sts, s) => Except.ok (mapfRest s c (.mapf sts))) = _
  rw [hmap]
  cases ok <;> rfl

/-! ### TLBI -/

section
variable {v : Nat}

/-- What a TLBI with a legal pair does: its drop, since it names an ASID other than 4095. -/
theorem tlbi_eq {i : Instr} {a : BitVec 7} {legal : Nat → Bool} {drop : State → Nat → State}
    (h : Issues s c i args s') (hneeds : needs i = { priv := true, uses := fun _ => [.src64 a] })
    (hv : firstArg c args 0 = some v) (hlegal : legal v = true) (hasid : natBits v 0 12 ≠ 4095) :
    tlbi i a legal drop s = .next ((drop s' v).retireNext c) := by
  unfold tlbi
  rw [← hneeds]
  refine h.runOp_ok ?_
  change c.firstVal (args.getD 0 []) = some v at hv
  simp only [hv]
  exact (need_bind hlegal _ _).trans (congrArg Except.ok (by rw [if_neg]; exact hasid))

end

theorem exec_tlbiAll (h : Issues s c .tlbiAll args s') (hlanes : c.lanes ≠ []) :
    exec .tlbiAll s = .next (s'.tlbiAll.retireNext c) := by
  change execTlbiAll s = _
  refine h.runOp_ok ?_
  rw [if_neg (by simpa using hlanes)]

/-! ### SPCFG -/

section
variable {o z : BitVec 1} {w : BitVec 4}

/-- The resize that an SPCFG begins. -/
def spcfgResize (s : State) (c : Ctx) (z : BitVec 1) (w : BitVec 4) : Resize :=
  ⟨w.toNat, z == 1, ⟨c.crew.id, c.member, c.party⟩, s.serial, s.busyCommands⟩

/-- SPCFG with an active lane, of a die that no resize is changing. -/
theorem exec_spcfg (h : Issues s c (.spcfg o z w) args s') (hlanes : c.lanes ≠ [])
    (hfree : s'.spcfg.getD ((c.die + o.toNat) % 2) none = none) :
    exec (.spcfg o z w) s = .next (if w.toNat = s'.chipWays.getD ((c.die + o.toNat) % 2) 0 then s'.retireNext c
      else moved { s' with spcfg := s'.spcfg.set ((c.die + o.toNat) % 2) (some (spcfgResize s' c z w)) } c
        fun _ sl => { sl with wait := .spcfg ((c.die + o.toNat) % 2) }) := by
  have hidle : c.lanes.isEmpty = false := by simpa using hlanes
  change execSpcfg o z w s = _
  refine h.runOp_ok ((ready_bind (by rw [hfree]; exact Bool.or_true _) _).trans ?_)
  by_cases hw : w.toNat = s'.chipWays.getD ((c.die + o.toNat) % 2) 0
  · simp only [hidle, hw, if_true, decide_true, Bool.or_true]
  · simp only [hidle, hw, if_false, decide_false, Bool.or_self, Bool.false_eq_true]
    rfl

end

/-! ### QADJ -/

/-- A QADJ of a job with an entry adjusts the job's counters, and its status is 0. -/
theorem qadj_eq {i : Instr} {d a : BitVec 7} {f : State → Nat → Nat → Int → State} {v : Nat}
    (h : Issues s c i args s') (hneeds : needs i = { priv := true, uses := fun _ => [.src64 a, .dst d] })
    (hv : firstArg c args 0 = some v) (hentry : (s'.jobEntry? c.die (natBits v 0 24)).isSome = true) :
    qadj i d a f s = .next (((f s' c.die (natBits v 0 24) (BitVec.ofNat 32 (natBits v 32 32)).toInt).writeField c
      (fun _ => .dst d) (c.lanes.map fun _ => 0)).retireNext c) := by
  unfold qadj
  rw [← hneeds]
  refine h.runOp_ok ?_
  change c.firstVal (args.getD 0 []) = some v at hv
  simp only [hv, hentry, if_true]

/-! ### QBIND -/

theorem bindQueue_eq {i : Instr} {q : BitVec 3} {p : Option Nat} (h : Issues s c i args s')
    (hneeds : needs i = { kind := .vector }) (hseq : c.crew.seq.isSome = true) :
    bindQueue i q p s = .next ((s'.retireNext c).mapIssuer c fun g => { g with qbind := g.qbind.set q.toNat p }) := by
  unfold bindQueue
  rw [← hneeds]
  exact h.runOp_ok (need_bind hseq _ _)

end Sys2Proof.Claim
end

section
open Sys2Proof Sys2Proof.Machine Sys2Proof.Claim

/-- Settles O13: each word's body, once its checks have passed. -/
theorem supervisorWordsComplete : Obligations.SupervisorWordsComplete := by
  intro s s' c args
  refine ⟨fun d a ok sts u h hglobal hmap => ?_, fun a v h hv hlow hhigh hasid => ?_, fun a v h hv hlow hasid => ?_,
    exec_tlbiAll, fun o z w h hlanes hfree hw => ?_, fun o z w h hlanes hfree hw => ?_, fun d a v h hv hentry => ?_,
    fun d a v h hv hentry => ?_, fun d a v h hv hentry => ?_, fun d a v h hv hentry => ?_, fun p q h hseq => ?_,
    fun q h hseq => ?_⟩
  · intro rest
    have hexec := exec_mapf h hglobal hmap
    exact ⟨by rintro rfl; exact hexec, by rintro rfl; exact hexec⟩
  · change execTlbiPage a s = _
    exact tlbi_eq h rfl hv (by simp [hlow, hhigh]) hasid
  · change execTlbiAsid a s = _
    exact tlbi_eq h rfl hv (by simp [hlow]) hasid
  · rw [exec_spcfg h hlanes hfree, if_pos hw]
  · rw [exec_spcfg h hlanes hfree, if_neg hw]
    rfl
  · change execQadjInjected d a s = _
    exact qadj_eq h rfl hv hentry
  · change execQadjConsumed d a s = _
    exact qadj_eq h rfl hv hentry
  · change execQadjClearLost d a s = _
    exact qadj_eq h rfl hv hentry
  · change execQadjQueryToLost d a s = _
    exact qadj_eq h rfl hv hentry
  · change execQbind p q s = _
    exact bindQueue_eq h rfl hseq
  · change execQbindUn q s = _
    exact bindQueue_eq h rfl hseq

end

section
/-! The multicast steps (07 R177 to R180). -/

namespace Sys2Proof.Machine
open Sys2Proof

variable {s u : State} {f : Flight} {p : Part} {m : Stream}

theorem exec_mcrdRequestArrival {fl : Nat} (hf : s.flight? fl = some f) (hp : f.parts[0]? = some p) (hkind : f.kind = .mcrd)
    (hsent : p.state = .sent) (hmay : s.mayPerform f f.parts = true) (hdone : s.issuersDone f = true) :
    exec (.mcrdRequestArrival fl) s = .next (s.mcrdArrive f) := by
  change execMcrdRequestArrival fl s = _
  simp [execMcrdRequestArrival, State.onPart_eq hf hp, hkind, hsent, hmay, hdone]

/-- Bytes that were all read are those a fill leaves. -/
theorem State.map_orFill_map_some (s : State) (bs : List Byte) : (bs.map some).map s.orFill = bs := by
  rw [List.map_map]
  exact List.map_id' bs

/-- A stream's line whose bytes are read at its home is sent: it becomes a delivery, and the stream goes on. -/
theorem State.sendLine_read {n : Nat} {pairs : List (Nat × Nat)} {after : Stream → Stream} {bs : List Byte}
    (hgot : m.got = none) (hread : s.peek m.asid (m.src + n * lineBytes) lineBytes = (.bytes (bs.map some), u)) :
    s.sendLine m n pairs after = { u with
      serial := u.serial + 1
      streams := modifyWhere (·.id == m.id) (fun m => after { m with got := none }) u.streams
      deliveries := u.deliveries ++ [⟨m.id, n, m.offset + n * lineBytes, bs, pairs, m.flights⟩] } := by
  simp only [State.sendLine, hgot, hread, State.map_orFill_map_some]

theorem exec_mcrdLineSend {stream : Nat} (hm : (s.streams.find? fun m => m.id == stream && m.next < m.count) = some m) :
    exec (.mcrdLineSend stream) s = .next (s.sendLine m m.next (m.pairs.map fun (c, k, _) => (c, k))
      fun m => { m with next := m.next + 1 }) := by
  change execMcrdLineSend stream s = _
  simp only [execMcrdLineSend, hm]

theorem exec_mcrdTailReplay {stream : Nat}
    (hm : (s.streams.find? fun m => m.id == stream && m.next == m.count && m.tail < m.tailEnd) = some m) :
    exec (.mcrdTailReplay stream) s = .next (s.sendLine m m.tail
      ((m.pairs.filter fun (_, _, k) => m.tail < k).map fun (c, k, _) => (c, k)) fun m => { m with tail := m.tail + 1 }) := by
  change execMcrdTailReplay stream s = _
  simp only [execMcrdTailReplay, hm]

theorem exec_mcrdLineDeliver {delivery : Nat} {d : Delivery} (hd : s.deliveries[delivery]? = some d) :
    exec (.mcrdLineDeliver delivery) s = .next (State.settleStream
      ((d.flights.filterMap ({ s with deliveries := s.deliveries.eraseIdx delivery } : State).flight?).foldl
        (fun s f => s.deliverTo d f) { s with deliveries := s.deliveries.eraseIdx delivery }) d.stream) := by
  change execMcrdLineDeliver delivery s = _
  simp only [execMcrdLineDeliver, hd]

end Sys2Proof.Machine
end

section
open Sys2Proof Sys2Proof.Machine

/-- Settles O22: a line whose bytes are read at its home leaves as a delivery to every pair of its stream. -/
theorem multicastStepsMove : Obligations.MulticastStepsMove := by
  refine ⟨fun s fl f p => exec_mcrdRequestArrival, fun s stream m bs hm hgot ⟨u, hread, hstreams, hdeliveries, _⟩ => ?_,
    fun s stream m => exec_mcrdTailReplay, fun s delivery d => exec_mcrdLineDeliver⟩
  refine ⟨_, (exec_mcrdLineSend hm).trans (congrArg _ (State.sendLine_read hgot hread)), ?_, ?_⟩
  · rw [← hdeliveries]
    rfl
  · rw [← hstreams]

end

section
/-! Timeouts, spurious wakes and the end of a resize (17 R401, R402; 08 R206; 18 R459; 13 R316; 07 R185, R186). -/

namespace Sys2Proof.Machine
open Sys2Proof

/-! ### Updates that agree where they act -/

theorem listModify_congr {α : Type} {l : List α} {i : Nat} {a : α} {f g : α → α} (ha : l[i]? = some a) (hfg : f a = g a) :
    listModify l i f = listModify l i g := by
  simp [listModify, List.modify_eq_set_getElem?, ha, hfg]

theorem Gang.mapSlice_congr {g : Gang} {i : Nat} {sl : Slice} {f f' : Slice → Slice} (hsl : g.slices[i]? = some sl)
    (h : f sl = f' sl) : g.mapSlice i f = g.mapSlice i f' := by
  rw [Gang.mapSlice, listModify_congr hsl h, Gang.mapSlice]

theorem Gang.mapSlices_congr {g : Gang} {is : List Nat} {f f' : Slice → Slice}
    (h : ∀ i ∈ is, f (g.slice i) = f' (g.slice i)) : g.mapSlices is f = g.mapSlices is f' := by
  refine congrArg (fun sls => ({ g with slices := sls } : Gang)) (List.ext_getElem? fun i => ?_)
  rw [List.getElem?_mapIdx, List.getElem?_mapIdx]
  cases hsl : g.slices[i]? with
  | none => rfl
  | some sl =>
    have hslice : g.slice i = sl := by simp [Gang.slice, hsl]
    by_cases hi : i ∈ is
    · have hfg := h i hi
      rw [hslice] at hfg
      simp [hfg]
    · simp [hi]

theorem Crew.mapMember_congr {c : Crew} {m : Nat} {g : Gang} {F F' : Gang → Gang} (hg : c.member? m = some g)
    (h : F g = F' g) : c.mapMember m F = c.mapMember m F' := by
  unfold Crew.member? at hg
  unfold Crew.mapMember
  split at hg
  · rw [if_pos ‹_›, if_pos ‹_›, hg, Option.map_some, Option.map_some, h]
  · rw [if_neg ‹_›, if_neg ‹_›, listModify_congr hg h]

/-- Two updates of a member are the same when they agree on it, and its crew's id is its own. -/
theorem State.mapGang_congr {s : State} {crew m : Nat} {c : Crew} {g : Gang} {F F' : Gang → Gang}
    (hunique : ∀ d ∈ s.crews, d.id = crew → d = c) (hg : c.member? m = some g) (h : F g = F' g) :
    s.mapGang crew m F = s.mapGang crew m F' := by
  refine congrArg (fun cs => ({ s with crews := cs } : State)) (List.map_congr_left fun d hd => ?_)
  by_cases hid : d.id = crew
  · rw [hunique d hd hid]
    exact if_congr Iff.rfl (Crew.mapMember_congr hg h) rfl
  · rw [if_neg (by simpa using hid), if_neg (by simpa using hid)]

/-! ### The waits' ends in one slice -/

/-- What MWAIT_TIMEOUT does to a slice (17 R402). -/
def State.mwaitOver (s : State) (crew member slice : Nat) (sl : Slice) : Slice :=
  match sl.wait with
  | .mwait since t =>
    let quiet := match sl.monitor with | some m => m.event.isNone | none => false
    if t ≠ 0 && since + t ≤ s.clock.toNat && sl.wake.isNone && quiet && !s.monPending crew member slice then
      { sl with wake := some 3 }
    else sl
  | _ => sl

/-- What SPURIOUS_WAKE does to a slice (08 R206). -/
def State.wakeSpuriously (s : State) (sl : Slice) : Slice :=
  match sl.monitor with
  | some m =>
    if m.event.isNone && (sl.spur.all fun t => t + 65536 ≤ s.clock.toNat) then
      { sl with monitor := some { m with event := some 2 }, spur := some s.clock.toNat }
    else sl
  | none => sl

/-- What YLD_EXPIRE does to a slice (18 R459). -/
def State.yldOver (s : State) (sl : Slice) : Slice :=
  match sl.wait with
  | .yld til => if til ≤ s.clock.toNat then { sl with wait := .none } else sl
  | _ => sl

/-- What QUIET_TIMEOUT does to a slice (13 R316). -/
def State.quietOver (s : State) (sl : Slice) : Slice :=
  match sl.wait with
  | .quiet _ _ since t =>
    if t ≠ 0 && since + t ≤ s.clock.toNat && sl.wake.isNone then { sl with wake := some 2 } else sl
  | _ => sl

section
variable (s : State) (crew member slice : Nat)

theorem exec_mwaitTimeout : exec (.mwaitTimeout crew member slice) s =
    .next (s.mapGang crew member (·.mapSlice slice (s.mwaitOver crew member slice))) := rfl

theorem exec_spuriousWake : exec (.spuriousWake crew member slice) s =
    .next (s.mapGang crew member (·.mapSlice slice s.wakeSpuriously)) := rfl

theorem exec_yldExpire : exec (.yldExpire crew member slice) s =
    .next (s.mapGang crew member fun x => x.mapSlices (x.partySlices slice) s.yldOver) := rfl

theorem exec_quietTimeout : exec (.quietTimeout crew member slice) s =
    .next (s.mapGang crew member fun x => x.mapSlices (x.partySlices slice) s.quietOver) := rfl

end

section
variable {s : State} {crew member slice since t : Nat} {sl : Slice} {m : Monitor}

/-- At the bound of its wait a slice whose monitor has no event wakes, unless a MON is still to be armed. -/
theorem State.mwaitOver_of_over (hwait : sl.wait = .mwait since t) (ht : t ≠ 0) (hover : since + t ≤ s.clock.toNat)
    (hwake : sl.wake = none) (hm : sl.monitor = some m) (hevent : m.event = none) :
    s.mwaitOver crew member slice sl = if s.monPending crew member slice then sl else { sl with wake := some 3 } := by
  cases hp : s.monPending crew member slice <;> simp [State.mwaitOver, hwait, ht, hover, hwake, hm, hevent, hp]

theorem State.mwaitOver_of_open (hwait : sl.wait = .mwait since t) (hopen : t = 0 ∨ s.clock.toNat < since + t) :
    s.mwaitOver crew member slice sl = sl := by
  have hbound : ¬(t ≠ 0 ∧ since + t ≤ s.clock.toNat) := by omega
  simp only [State.mwaitOver, hwait]
  exact if_neg fun h => hbound (by simp only [Bool.and_eq_true, decide_eq_true_eq] at h; exact h.1.1.1)

theorem State.wakeSpuriously_of_due (hm : sl.monitor = some m) (hevent : m.event = none)
    (hdue : ∀ t, sl.spur = some t → t + 65536 ≤ s.clock.toNat) :
    s.wakeSpuriously sl = { sl with monitor := some { m with event := some 2 }, spur := some s.clock.toNat } := by
  have hall : (sl.spur.all fun t => t + 65536 ≤ s.clock.toNat) = true := by
    cases hs : sl.spur with
    | none => rfl
    | some t => exact decide_eq_true (hdue t hs)
  simp [State.wakeSpuriously, hm, hevent, hall]

theorem State.wakeSpuriously_of_recent (hspur : sl.spur = some t) (hrecent : s.clock.toNat < t + 65536) :
    s.wakeSpuriously sl = sl := by
  unfold State.wakeSpuriously
  split
  · exact if_neg (by simp [hspur]; omega)
  · rfl

theorem State.yldOver_eq {til : Nat} (hwait : sl.wait = .yld til) :
    s.yldOver sl = if til ≤ s.clock.toNat then { sl with wait := .none } else sl := by
  simp only [State.yldOver, hwait]

theorem State.quietOver_eq {job w : Nat} (hwait : sl.wait = .quiet job w since t) (hwake : sl.wake = none) :
    s.quietOver sl = if t ≠ 0 ∧ since + t ≤ s.clock.toNat then { sl with wake := some 2 } else sl := by
  simp [State.quietOver, hwait, hwake]

end

/-! ### SPCFG_COMPLETE -/

section
variable {s : State} {die : Nat} {r : Resize}

/-- The state that a resize ends in. -/
def State.endResize (s : State) (die : Nat) (r : Resize) : State :=
  (s.resize die r).mapGang r.thread.crew r.thread.member (Gang.endSpcfg die r.thread.party s.issued)

theorem exec_spcfgComplete_grow (hr : s.spcfg.getD die none = some r) (hgrow : s.chipWays.getD die 0 < r.ways)
    (hempty : (s.drainWays die r.ways).drained die r.ways = true) :
    exec (.spcfgComplete die) s = .next ((s.drainWays die r.ways).endResize die r) := by
  change execSpcfgComplete die s = _
  simp only [execSpcfgComplete, hr, hgrow, hempty, if_true, Bool.not_true, Bool.false_eq_true, if_false, State.endResize]

theorem exec_spcfgComplete_shrink (hr : s.spcfg.getD die none = some r) (hshrink : r.ways ≤ s.chipWays.getD die 0)
    (hidle : s.chipBusy die (r.ways * wayBytes) r = false) : exec (.spcfgComplete die) s = .next (s.endResize die r) := by
  change execSpcfgComplete die s = _
  simp only [execSpcfgComplete, hr, Nat.not_lt.2 hshrink, hidle, if_false, Bool.false_eq_true, State.endResize]

/-- A die that gives ways back keeps what lies in the others. -/
theorem State.endResize_chip {m : Table Memory} (hless : r.ways < s.chipWays.getD die 0) (hm : s.chip[die]? = some m) :
    (s.endResize die r).chip[die]? = some (keptWays m r.ways) := by
  change (if r.ways < s.chipWays.getD die 0 then listModify s.chip die fun t => keptWays t r.ways else s.chip)[die]? = _
  rw [if_pos hless, listModify, List.getElem?_modify_eq, hm]
  rfl

end
end Sys2Proof.Machine
end

section
open Sys2Proof Sys2Proof.Machine

/-- Settles O23: each end of a wait is one function of a slice, which the third part evaluates on the slices of the member
that it names. -/
theorem waitsEnd : Obligations.WaitsEnd := by
  refine ⟨fun s crew member slice => ?_, fun s crew member party => ?_, fun s crew member c g hunique hc hg => ?_,
    fun s die r hr => ?_⟩
  · exact ⟨s.mwaitOver crew member slice, s.wakeSpuriously, s.yldOver, exec_mwaitTimeout .., exec_spuriousWake ..,
      exec_yldExpire .., fun sl since t m => State.mwaitOver_of_over, fun sl since t => State.mwaitOver_of_open,
      fun sl m => State.wakeSpuriously_of_due, fun sl t => State.wakeSpuriously_of_recent, fun sl t => State.yldOver_eq⟩
  · exact ⟨s.quietOver, exec_quietTimeout .., fun sl job w since t => State.quietOver_eq⟩
  · refine ⟨fun slice sl since t m hsl hwait ht hover hwake hm hevent hpending => ?_,
      fun slice sl m hsl hm hevent hdue => ?_, fun party hall => ?_, fun party hall => ?_⟩
    · refine congrArg Host.Outcome.next (State.mapGang_congr hunique hg (Gang.mapSlice_congr hsl ?_))
      change s.mwaitOver crew member slice sl = _
      rw [State.mwaitOver_of_over hwait ht hover hwake hm hevent, hpending]
      rfl
    · exact congrArg Host.Outcome.next (State.mapGang_congr hunique hg
        (Gang.mapSlice_congr hsl (State.wakeSpuriously_of_due hm hevent hdue)))
    · refine congrArg Host.Outcome.next (State.mapGang_congr hunique hg (Gang.mapSlices_congr fun i hi => ?_))
      obtain ⟨til, hwait, hover⟩ := hall i hi
      exact (State.yldOver_eq hwait).trans (if_pos hover)
    · refine congrArg Host.Outcome.next (State.mapGang_congr hunique hg (Gang.mapSlices_congr fun i hi => ?_))
      obtain ⟨hwake, job, w, since, t, hwait, hover⟩ := hall i hi
      exact (State.quietOver_eq hwait hwake).trans (if_pos hover)
  · exact ⟨exec_spcfgComplete_grow hr, fun hshrink hidle =>
      ⟨exec_spcfgComplete_shrink hr hshrink hidle, rfl, rfl, fun hless m hm => State.endResize_chip hless hm⟩⟩

end

section
/-! Integer results as 32-bit words (15 R333, R337, R340; 16 R379; 17 R404; 18 R458). -/

namespace Sys2Proof.Machine
open Sys2Proof

variable (v x y : BitVec 32)

/-- The signed reading of a word is its two's complement. -/
theorem signedOf_toNat : signedOf 32 x.toNat = x.toInt := by
  rw [signedOf, BitVec.toInt_eq_toNat_cond]
  exact if_congr (by omega) rfl rfl

/-- An integer narrowed to 32 bits is the word of that integer. -/
theorem word32_eq (n : Int) : word32 n = (BitVec.ofInt 32 n).toNat := (BitVec.toNat_ofInt n).symm

theorem word32_toNat_add : word32 (x.toNat + y.toNat) = (x + y).toNat := by
  rw [word32_eq, BitVec.ofInt_add, BitVec.ofInt_natCast, BitVec.ofInt_natCast, BitVec.ofNat_toNat, BitVec.ofNat_toNat,
    BitVec.setWidth_eq, BitVec.setWidth_eq]

theorem word32_toNat_sub : word32 (x.toNat - y.toNat) = (x - y).toNat := by
  rw [word32_eq]
  refine congrArg BitVec.toNat (BitVec.eq_of_toNat_eq ?_)
  rw [BitVec.toNat_ofInt, BitVec.toNat_sub]
  omega

theorem word32_toInt_mul : word32 (x.toInt * y.toInt) = (x * y).toNat := by
  rw [word32_eq, BitVec.ofInt_mul, BitVec.ofInt_toInt, BitVec.ofInt_toInt]

/-! ### The atomics' operations -/

variable (fmt : Word) (easel : Bool)

/-- The operand of an atomic is one word. -/
theorem toNat_mod_word : x.toNat % 2 ^ 32 = x.toNat := Nat.mod_eq_of_lt x.isLt

theorem atomicOp_aadd : atomicOp .aadd easel fmt v.toNat x.toNat = (v + x).toNat := by
  simp only [atomicOp, toNat_mod_word, BitVec.toNat_add]

theorem atomicOp_aand : atomicOp .aand easel fmt v.toNat x.toNat = (v &&& x).toNat := by
  simp only [atomicOp, toNat_mod_word, BitVec.toNat_and]

theorem atomicOp_aor : atomicOp .aor easel fmt v.toNat x.toNat = (v ||| x).toNat := by
  simp only [atomicOp, toNat_mod_word, BitVec.toNat_or]

theorem atomicOp_axor : atomicOp .axor easel fmt v.toNat x.toNat = (v ^^^ x).toNat := by
  simp only [atomicOp, toNat_mod_word, BitVec.toNat_xor]

theorem atomicOp_axch : atomicOp .axch easel fmt v.toNat x.toNat = x.toNat := by
  simp only [atomicOp, toNat_mod_word]

/-- The least of two words: where neither is less they are one word. -/
theorem atomicOp_amin : atomicOp .amin easel fmt v.toNat x.toNat = (if v.slt x then v else x).toNat := by
  simp only [atomicOp, toNat_mod_word, signedOf_toNat, BitVec.slt_iff_toInt_lt, apply_ite BitVec.toNat]
  by_cases hlt : v.toInt < x.toInt
  · rw [if_neg (Int.lt_asymm hlt), if_pos hlt]
  · rw [if_neg hlt]
    by_cases hgt : x.toInt < v.toInt
    · rw [if_pos hgt]
    · rw [if_neg hgt, BitVec.eq_of_toInt_eq (Int.le_antisymm (Int.not_lt.1 hgt) (Int.not_lt.1 hlt))]

theorem atomicOp_amax : atomicOp .amax easel fmt v.toNat x.toNat = (if v.slt x then x else v).toNat := by
  simp only [atomicOp, toNat_mod_word, signedOf_toNat, BitVec.slt_iff_toInt_lt, apply_ite BitVec.toNat]

/-- ACAS on its two words: the compared one lies low and the new one above, on the easel in the next register. -/
theorem atomicOp_acas : atomicOp .acas easel fmt v.toNat (x.toNat + 2 ^ (if easel then 64 else 32) * y.toNat) =
    (if v = x then y else v).toNat := by
  have hlow : (x.toNat + 2 ^ (if easel then 64 else 32) * y.toNat) % 2 ^ 32 = x.toNat := by
    cases easel <;> simp <;> omega
  have hhigh : (x.toNat + 2 ^ (if easel then 64 else 32) * y.toNat) / 2 ^ (if easel then 64 else 32) % 2 ^ 32 = y.toNat := by
    cases easel <;> simp <;> omega
  simp only [atomicOp, hlow, hhigh, apply_ite BitVec.toNat, BitVec.toNat_inj]

theorem atomicOp_jdec : atomicOp .jdec easel fmt v.toNat 0 = (v - 1).toNat := by
  have hone : (1 : BitVec 32).toNat = 1 := rfl
  simp only [atomicOp, BitVec.toNat_sub, hone]
  omega

end Sys2Proof.Machine
end

section
/-! Results of two words in one lane. -/

namespace Sys2Proof.Claim
open Sys2Proof Sys2Proof.Machine

/-- One lane's result of two sources. -/
theorem perLane_f2_single {c : Ctx} {l : Nat} (hl : c.lanes = [l]) (f : Nat → Nat → Nat) (x y : Nat) :
    c.perLane [[x], [y]] (f2 f) = [f x y] := by
  rw [Ctx.perLane, hl]
  rfl

end Sys2Proof.Claim
end

section
open Sys2Proof Sys2Proof.Machine Sys2Proof.Claim

/-- Settles O54: the model's integers narrowed to 32 bits are the words that `BitVec` computes. -/
theorem integerWordsCompute : Obligations.IntegerWordsCompute := by
  refine ⟨fun v x y fmt easel => ⟨atomicOp_aadd .., atomicOp_aand .., atomicOp_aor .., atomicOp_axor .., atomicOp_axch ..,
    atomicOp_amin .., atomicOp_amax .., atomicOp_acas .., atomicOp_jdec ..⟩, fun k easel fmt x v rest => ⟨rfl, rfl, rfl⟩,
    fun s c d a b x y l hl => ?_⟩
  have hlane (f : Nat → Nat → Nat) {r : Nat} (hr : f x.toNat y.toNat = r) :
      some (c.perLane [[x.toNat], [y.toNat]] (f2 f)) = some [r] := by
    rw [perLane_f2_single hl, hr]
  refine ⟨hlane _ (BitVec.toNat_and x y).symm, hlane _ (BitVec.toNat_or x y).symm, hlane _ (BitVec.toNat_xor x y).symm,
    hlane _ (word32_toNat_add x y), hlane _ (word32_toNat_sub x y), hlane _ ?_, hlane _ ?_, hlane _ ?_⟩
  · change word32 (signedOf 32 x.toNat * signedOf 32 y.toNat) = _
    rw [signedOf_toNat, signedOf_toNat, word32_toInt_mul]
  · change (if signedOf 32 x.toNat ≤ signedOf 32 y.toNat then x.toNat else y.toNat) = _
    simp only [signedOf_toNat, BitVec.sle_iff_toInt_le, apply_ite BitVec.toNat]
  · change (if signedOf 32 x.toNat ≤ signedOf 32 y.toNat then y.toNat else x.toNat) = _
    simp only [signedOf_toNat, BitVec.sle_iff_toInt_le, apply_ite BitVec.toNat]

end

section
/-! TRANSLATION_REQUEST of a part whose page lies in another device, when a lower lane outside the request precedes it
(13 R305). -/

namespace Sys2Proof.Machine
open Sys2Proof

/-- The part waits: the model's request for its line does not take it. -/
theorem State.translationRequest_preceded {s u : State} {f : Flight} {i t off : Nat} {p : Part} (hstate : p.state = .miss)
    (hfrozen : s.frozen f.asid p.addr.toNat = false)
    (howned : s.ownedByOther f.asid (p.addr.toNat / lineBytes) none = false)
    (hhome : s.homeBytes? f.asid (p.addr.toNat / lineBytes) = none)
    (htranslate : s.translate f.asid p.addr.toNat f.kind.want = (.ok (.fabric t off), u)) (hgroup : i ∉ f.lineGroup i) :
    s.translationRequest f i p = u := by
  simp [State.translationRequest, hstate, hfrozen, howned, hhome, htranslate, hgroup]

end Sys2Proof.Machine
end

section
/-! A counterexample to the fabric clause of O18 (13 R305; 08 R188): a store whose lower lane is on its way to another
device, with a higher lane at the same location. -/

namespace Sys2Proof.Claim
open Sys2Proof Sys2Proof.Machine

/-- Where both lanes store: offset 0 of device 0 under ASID 4095 (11 R267). -/
def farVa : Nat := 2 ^ 51

/-- One lane's part of the store, 4 bytes at `farVa`. -/
def farPart (lane : Nat) (state : PartState) : Part :=
  ⟨lane, 0, BitVec.ofNat 64 farVa, 4, 0, 1, 0, [], 0, state⟩

/-- Lane 0's part is on its way to the other device, and lane 1's has missed. -/
def farStore : Flight where
  id := 7
  crew := 0
  member := 0
  slices := [0]
  kind := .store
  opcode := 0
  asid := aliasAsid
  size := 4
  dest := 0
  port := none
  path := none
  strength := ⟨false, 0, false, false, false⟩
  wait := 0
  parkedOnce := false
  replaying := false
  held := false
  reported := []
  inHandler := false
  parts := [farPart 0 (.fabric 5), farPart 1 .miss]
  aux := []
  returns := false

/-- A crew of ASID 4095 with that store in flight. -/
def farState : State := { State.reset with crews := [probeCrew false false], flights := [farStore] }

theorem farState_translate : farState.translate farStore.asid (farPart 1 .miss).addr.toNat farStore.kind.want =
    (.ok (.fabric 0 0), farState) := by
  have hplace : aliasPlace (farPart 1 .miss).addr.toNat = some (.fabric 0 0) := by decide +kernel
  change (if aliasAsid = aliasAsid then _ else _) = _
  rw [if_pos rfl, hplace]

/-- The lower lane's part precedes lane 1's, so that no request may take lane 1's part yet. -/
theorem farStore_lineGroup : farStore.lineGroup 1 = [] := by decide +kernel

/-- TRANSLATION_REQUEST leaves the part to wait. -/
theorem farState_exec : exec (.translationRequest 7 1) farState = .next farState := by
  have hflight : farState.flight? 7 = some farStore := by decide +kernel
  change Host.Outcome.next (farState.onPart 7 1 fun f p => farState.translationRequest f 1 p) = _
  rw [State.onPart_eq hflight (p := farPart 1 .miss) rfl]
  exact congrArg _ (State.translationRequest_preceded rfl (by decide +kernel) (by decide +kernel) (by decide +kernel)
    farState_translate (by rw [farStore_lineGroup]; exact List.not_mem_nil))

end Sys2Proof.Claim
end

section
open Sys2Proof Sys2Proof.Machine Sys2Proof.Claim

/-- Refutes O18: the request of a part that a lower lane precedes would be sent without it, and the model leaves it. -/
theorem not_missesAreTranslatedAndFilled : ¬ Obligations.MissesAreTranslatedAndFilled := by
  rintro ⟨hmisses, -⟩
  obtain ⟨-, -, -, hfabric⟩ := hmisses farState farState 7 1 farStore (farPart 1 .miss) (by decide +kernel) rfl rfl
    (by decide +kernel) (by decide +kernel) (by decide +kernel)
  have hsent := hfabric 0 0 farState_translate (by decide +kernel)
  rw [farState_exec, farStore_lineGroup] at hsent
  have hmessages := congrArg State.messages (Host.Outcome.next.inj hsent)
  exact absurd (congrArg List.length hmessages) (by decide +kernel)

end

section
/-! A counterexample to O45's home clause (07 R183): a store to a line whose group its home also holds in compact form,
newer than memory. -/

namespace Sys2Proof.Claim
open Sys2Proof Sys2Proof.Machine

/-- A home's line of ASID 4095 that begins with some doubles of a page table. -/
def tableLine (line : Nat) (d : Double) : Line :=
  ⟨aliasAsid, line, bytesOfDoubles (d :: List.replicate 15 0), true, none, none, 0, 0⟩

/-- A page-table entry with an address and its low flags. -/
def tableEntry (pa flags : Nat) : Double := BitVec.ofNat 64 (flags + pa / 256 * 4096)

/-- The dense line that the store writes, as a load has left it: clean. -/
def storedLine : Line := ⟨8, 0, List.replicate 128 0, false, none, none, 0, 0⟩

/-- A frame line of its group in compact form (07 R182), newer than memory. -/
def groupFrameLine : Line := ⟨8, 0, List.replicate 128 0, true, some (1, 32), none, 1, 0⟩

/-- One lane's store of 4 bytes at address 0. -/
def groupPart : Part := ⟨0, 0, 0, 4, 0, 1, 0, [], 0, .sent⟩

def groupStore : Flight where
  id := 7
  crew := 0
  member := 0
  slices := [0]
  kind := .store
  opcode := 0
  asid := 8
  size := 4
  dest := 0
  port := none
  path := none
  strength := ⟨false, 0, false, false, false⟩
  wait := 0
  parkedOnce := false
  replaying := false
  held := false
  reported := []
  inHandler := false
  parts := [groupPart]
  aux := []
  returns := false

/-- A crew of ASID 8, whose page 0 is a writable crumb page of format 1, with that store in flight. -/
def groupState : State := { State.reset with
  crews := [{ probeCrew false false with asid := 8 }]
  flights := [groupStore]
  rootTable := [(8, tableEntry 0x10000 1)]
  lines := [tableLine 0x200 (tableEntry 0x20000 1), tableLine 0x400 (tableEntry 0x30000 1),
    tableLine 0x600 (tableEntry 0x40000 1), tableLine 0x800 (tableEntry 0x50000 1),
    tableLine 0xA00 (tableEntry 0x200000 0x67), storedLine, groupFrameLine] }

/-- What the store leaves at its home once the check of its translation has left `u` (07 R170). -/
def groupStored (u : State) : State := (u.expandHeld 8 0).performHome groupStore (groupStore.group 0) 0 storedLine

/-- The page's translation lets the store write. -/
theorem groupState_translate : (groupState.translate 8 0 .write).1.isOk = true := by decide +kernel

/-- Whether the home checks the hit or not (assumption 13), the store also makes line 1 dense, which the home held in compact
form only. -/
theorem groupState_hitCode :
    ∃ u, groupState.hitCode 8 0 .write = (0, u) ∧ ((groupStored u).line? 8 1).isSome = true := by
  rw [State.hitCode, if_neg (by decide)]
  by_cases hcheck : Config.checksHit groupState.freeCount = true
  · rw [if_pos hcheck]
    have hdense : ((groupStored (groupState.translate 8 0 .write).2).line? 8 1).isSome = true := by decide +kernel
    have hok := groupState_translate
    revert hdense hok
    rcases groupState.translate 8 0 .write with ⟨_ | _, u⟩
    · exact fun _ hok => nomatch hok
    · exact fun hdense _ => ⟨u, rfl, hdense⟩
  · rw [if_neg hcheck]
    exact ⟨_, rfl, by decide +kernel⟩

theorem groupState_exec {u : State} (hcode : groupState.hitCode 8 0 .write = (0, u)) :
    exec (.homeRequest 7 0) groupState = .next (groupStored u) := by
  have hperforms : groupState.Performs groupStore 0 groupPart := ⟨rfl, by decide +kernel, by decide +kernel⟩
  rw [exec_homeRequest (f := groupStore) (p := groupPart) (by decide +kernel) rfl (by decide) (by decide)]
  exact congrArg _ (State.homeRequest_served hperforms (va := 0) (l := storedLine) (by decide +kernel) (by decide +kernel)
    (by decide +kernel) (by decide) (by decide +kernel) (by decide +kernel) hcode)

end Sys2Proof.Claim
end

section
open Sys2Proof Sys2Proof.Machine Sys2Proof.Claim

/-- Refutes O45: the store leaves every line of its group dense at the home (07 R183), also one that the home did not hold in
dense form before. -/
theorem not_storesWriteTheirBytes : ¬ Obligations.StoresWriteTheirBytes := by
  intro h
  obtain ⟨u, hcode, hdense⟩ := groupState_hitCode
  obtain ⟨hhome, -⟩ := h groupState 7 0 groupStore groupPart _ (by decide +kernel) rfl rfl rfl (by decide +kernel)
    (by decide +kernel) rfl
  obtain ⟨t, m, hexec, -, -, -, hothers, -⟩ := hhome 0 storedLine u (by decide +kernel) (by decide +kernel)
    (by decide +kernel) (by decide +kernel) rfl (by decide) hcode
  rw [groupState_exec hcode] at hexec
  cases hexec
  have hnone : groupState.line? 8 1 = none := by decide +kernel
  rw [hothers 8 1 (by decide), hnone] at hdense
  exact absurd hdense (by decide)

end

section
/-! The memory of a state (07 R161, R162), and the operations of an issuing word that leave it as it is. -/

namespace Sys2Proof.Machine
open Sys2Proof

/-! ### The view -/

/-- The memories of a gang's lanes that are each lane's own. -/
def Gang.memory (g : Gang) : List Memory := g.lanes.map (·.priv)

/-- A crew's local memories: its core and cluster scratchpads, and its lanes' own. -/
structure CrewMemory where
  id : Nat
  cores : Table Memory
  cluster : Table Memory
  gangs : List (List Memory)
  seq : Option (List Memory)

def Crew.memory (c : Crew) : CrewMemory :=
  ⟨c.id, c.coreMem, c.cluMem, c.gangs.map Gang.memory, c.seq.map Gang.memory⟩

/-- What a write-back holds of its line. -/
def WriteBack.held (w : WriteBack) : Nat × Nat × Option (Nat × Nat) × List Byte × Option (List Bool) :=
  (w.asid, w.line, w.form, w.data, w.poison)

/-- Every place that holds bytes of memory. -/
structure MemoryView where
  hbm : Memory
  staging : Memory
  lines : List Line
  held : List (Nat × Nat × Option (Nat × Nat) × List Byte × Option (List Bool))
  chip : List (Table Memory)
  chipFree : List (List (Nat × Nat × Nat))
  crews : List CrewMemory

def State.memory (s : State) : MemoryView :=
  ⟨s.hbm, s.staging, s.lines, s.writeBacks.map WriteBack.held, s.chip, s.chipFree, s.crews.map Crew.memory⟩

/-! ### The view decides every byte -/

/-- The line that a write-back holds, as its home reads it. -/
def heldBytes (h : Nat × Nat × Option (Nat × Nat) × List Byte × Option (List Bool)) : List (Option Byte) :=
  let d := denseImage h.2.2.1 h.2.2.2.1
  if h.2.2.2.2.isSome then d.map fun _ => none else d.map some

section
variable {s t : State}

theorem State.memory_lines (h : t.memory = s.memory) : t.lines = s.lines := congrArg MemoryView.lines h

/-- What a home holds of a line hangs on its lines and on what its write-backs hold. -/
theorem State.homeBytes?_congr (h : t.memory = s.memory) (asid line : Nat) : t.homeBytes? asid line = s.homeBytes? asid line := by
  have hheld (u : State) :
      ((u.writeBacks.reverse.find? fun w => w.asid == asid && w.line == line).map fun w =>
        let d := denseImage w.form w.data
        if w.poison.isSome then d.map fun _ => none else d.map some) =
      ((u.memory.held.reverse.find? fun x => x.1 == asid && x.2.1 == line).map heldBytes) := by
    simp only [State.memory, ← List.map_reverse, List.find?_map, Option.map_map]
    rfl
  have hlines := State.memory_lines h
  have hcompact : t.compact? asid line = s.compact? asid line := by
    simp only [State.compact?, State.groupForm?, State.groupBytes, State.groupLine, hlines]
  simp only [State.homeBytes?, hheld, hcompact, hlines, h]

/-- A crew's local memories are found under its id. -/
theorem State.crew?_memory (u : State) (crew : Nat) :
    (u.crew? crew).map Crew.memory = u.memory.crews.find? (·.id == crew) := by
  simp only [State.memory, State.crew?, List.find?_map]
  rfl

theorem State.crew?_memory_congr (h : t.memory = s.memory) (crew : Nat) :
    (t.crew? crew).map Crew.memory = (s.crew? crew).map Crew.memory := by
  rw [State.crew?_memory, State.crew?_memory, h]

/-- What a member's lanes hold of their own. -/
theorem Crew.member?_memory (c : Crew) (m : Nat) :
    (c.member? m).map Gang.memory = if m = 16 then c.memory.seq else c.memory.gangs[m]? := by
  unfold Crew.member? Crew.memory
  split
  · rfl
  · exact (List.getElem?_map ..).symm

theorem Gang.lane_priv (g : Gang) (l : Nat) : (g.lane l).priv = g.memory.getD l noLane.priv := by
  simp only [Gang.lane, Gang.memory, List.getD_eq_getElem?_getD, List.getElem?_map]
  cases g.lanes[l]? <;> rfl

end

end Sys2Proof.Machine

namespace Sys2Proof.Claim
open Sys2Proof Sys2Proof.Machine

variable {s t : State}

/-- States with one view read alike at every local place. -/
theorem readLocal_of_memory (h : t.memory = s.memory) (crew m n : Nat) (p : Place) :
    t.readLocal crew m p n = s.readLocal crew m p n := by
  have hcrew := State.crew?_memory_congr h crew
  have hcases : (t.crew? crew = none ∧ s.crew? crew = none) ∨
      ∃ d c, t.crew? crew = some d ∧ s.crew? crew = some c ∧ d.memory = c.memory := by
    cases ht : t.crew? crew <;> cases hs : s.crew? crew <;> simp_all
  cases p with
  | global va => rfl
  | chip d off =>
    have hchip : t.chip = s.chip := congrArg MemoryView.chip h
    have hfree : t.chipFree = s.chipFree := congrArg MemoryView.chipFree h
    simp only [State.readLocal, State.chipByte, hchip, hfree]
  | core k off =>
    rcases hcases with ⟨ht, hs⟩ | ⟨d, c, ht, hs, hdc⟩
    · simp only [State.readLocal, ht, hs]
    · have hcores : d.coreMem = c.coreMem := congrArg CrewMemory.cores hdc
      simp only [State.readLocal, ht, hs, hcores]
  | clu off =>
    rcases hcases with ⟨ht, hs⟩ | ⟨d, c, ht, hs, hdc⟩
    · simp only [State.readLocal, ht, hs]
    · have hcluster : d.cluMem = c.cluMem := congrArg CrewMemory.cluster hdc
      simp only [State.readLocal, ht, hs, hcluster]
  | priv lane off =>
    rcases hcases with ⟨ht, hs⟩ | ⟨d, c, ht, hs, hdc⟩
    · simp only [State.readLocal, ht, hs]
    · have hmember : (d.member? m).map Gang.memory = (c.member? m).map Gang.memory := by
        rw [Crew.member?_memory, Crew.member?_memory, hdc]
      simp only [State.readLocal, ht, hs, Option.bind_some]
      cases hd : d.member? m <;> cases hc : c.member? m <;> simp_all [Gang.lane_priv]

/-- States with one view have the same bytes of memory. -/
theorem sameMemory_of_memory (h : t.memory = s.memory) : SameMemory s t := by
  have hhbm : t.hbm = s.hbm := congrArg MemoryView.hbm h
  have hstaging : t.staging = s.staging := congrArg MemoryView.staging h
  exact ⟨fun a => by rw [hhbm], State.homeBytes?_congr h, fun a => by rw [hstaging],
    fun crew m p => readLocal_of_memory h crew m 1 p⟩

end Sys2Proof.Claim
end

section
/-! Updates of crews and of threads that leave memory as it is. -/

namespace Sys2Proof.Machine
open Sys2Proof

variable {s : State} {c : Ctx} {k : Crew} {g : Gang}

/-! ### Gangs -/

/-- An update of each lane that leaves its own memory alone. -/
theorem Gang.memory_mapIdx {F : Nat → Lane → Lane} (h : ∀ l ln, (F l ln).priv = ln.priv) :
    Gang.memory { g with lanes := g.lanes.mapIdx F } = g.memory := by
  refine List.ext_getElem? fun l => ?_
  simp only [Gang.memory, List.getElem?_map, List.getElem?_mapIdx]
  cases g.lanes[l]? with
  | none => rfl
  | some ln => exact congrArg some (h l ln)

theorem Gang.memory_mapLane {F : Lane → Lane} (h : ∀ ln, (F ln).priv = ln.priv) (l : Nat) :
    (g.mapLane l F).memory = g.memory := by
  refine List.ext_getElem? fun n => ?_
  simp only [Gang.memory, Gang.mapLane, listModify, List.getElem?_map, List.getElem?_modify]
  cases g.lanes[n]? with
  | none => rfl
  | some ln => by_cases hn : l = n <;> simp [hn, h]

@[simp] theorem Gang.memory_mapSlices (is : List Nat) (f : Slice → Slice) : (g.mapSlices is f).memory = g.memory := rfl
@[simp] theorem Gang.memory_part (p stamp : Nat) : (g.part p stamp).memory = g.memory := rfl

@[simp] theorem Gang.memory_partAll (stamp : Nat) : (g.partAll stamp).memory = g.memory := by
  unfold Gang.partAll
  generalize dedup _ = ps
  induction ps generalizing g with
  | nil => rfl
  | cons p ps ih => rw [List.foldl_cons, ih, Gang.memory_part]

@[simp] theorem Gang.memory_settleRegang (stamp : Nat) : (g.settleRegang stamp).memory = g.memory := by
  simp only [Gang.settleRegang]
  split
  · rfl
  · split <;> rfl

theorem Gang.memory_writeReg (l : Nat) (r : RegName) (v : Nat) : (g.writeReg l r v).memory = g.memory := by
  cases r with
  | v i | s i =>
    refine Gang.memory_mapLane (fun ln => ?_) l
    rfl
  | h i =>
    refine Gang.memory_mapLane (fun ln => ?_) l
    split <;> rfl
  | g i =>
    simp only [Gang.writeReg]
    split <;> rfl
  | palette | port => rfl

theorem Gang.memory_writeRegs (l : Nat) (rs : List RegName) (v : Nat) : (g.writeRegs l rs v).memory = g.memory := by
  induction rs generalizing g v with
  | nil => rfl
  | cons r rs ih => rw [Gang.writeRegs, ih, Gang.memory_writeReg]

@[simp] theorem Gang.memory_writeLanes (use : Slice → Use) (vals : List (Nat × Nat)) :
    (g.writeLanes use vals).memory = g.memory := by
  induction vals generalizing g with
  | nil => rfl
  | cons x rest ih =>
    rw [Gang.writeLanes]
    split
    · exact Gang.memory_writeRegs ..
    · rw [ih, Gang.memory_writeRegs]

@[simp] theorem Ctx.memory_enter (e : Entry) (pc : Double) (parked n : Nat) : (c.enter e pc parked n g).memory = g.memory := by
  refine Gang.memory_mapIdx fun l ln => ?_
  split
  · simp only [freshHandlerRegs]
    split <;> rfl
  · rfl

/-! ### Crews -/

@[simp] theorem Crew.memory_mapAllSlices (f : Slice → Slice) : (k.mapAllSlices f).memory = k.memory := by
  simp only [Crew.memory, Crew.mapAllSlices, List.map_map, Option.map_map]
  rfl

/-- A crew whose members have all stopped at once (11 R286). -/
def Crew.stopped (k : Crew) : Crew :=
  { k.mapAllSlices (fun sl : Slice => { sl with finished := true, wait := .none }) with
    abandoned := true
    barriers := List.replicate 16 Barrier.empty }

theorem Crew.memory_stopped : k.stopped.memory = k.memory :=
  Crew.memory_mapAllSlices (k := k) fun sl : Slice => { sl with finished := true, wait := .none }

theorem Crew.memory_mapMember {F : Gang → Gang} (h : ∀ g, (F g).memory = g.memory) (m : Nat) :
    (k.mapMember m F).memory = k.memory := by
  unfold Crew.mapMember Crew.memory
  split
  · simp [Function.comp_def, h]
  · congr 1
    refine List.ext_getElem? fun n => ?_
    simp only [listModify, List.getElem?_map, List.getElem?_modify]
    cases k.gangs[n]? with
    | none => rfl
    | some g => by_cases hn : m = n <;> simp [hn, h]

@[simp] theorem Crew.memory_settleBarrier (finish : Bool) (stamp n : Nat) :
    (k.settleBarrier finish stamp n).memory = k.memory := by
  unfold Crew.settleBarrier
  split
  · rfl
  · dsimp only
    split
    · refine Eq.trans ?_ (Crew.memory_mapAllSlices (k := k) (Slice.releaseBar n))
      simp only [Crew.memory, List.map_map, Function.comp_def, Gang.memory_partAll]
    · split
      · exact Crew.memory_mapAllSlices (k := k) (Slice.killBar n)
      · rfl

@[simp] theorem Crew.memory_settleBarriers (finish : Bool) (stamp : Nat) :
    (Crew.settleBarriers finish stamp k).memory = k.memory := by
  unfold Crew.settleBarriers
  generalize List.range 16 = ns
  induction ns generalizing k with
  | nil => rfl
  | cons n ns ih => rw [List.foldl_cons, ih, Crew.memory_settleBarrier]

/-! ### States -/

theorem State.memory_mapCrew {F : Crew → Crew} (h : ∀ k, (F k).memory = k.memory) (id : Nat) :
    (s.mapCrew id F).memory = s.memory := by
  simp only [State.memory, State.mapCrew, modifyWhere, List.map_map]
  congr 1
  refine List.map_congr_left fun k _ => ?_
  simp only [Function.comp_apply]
  split
  · exact h k
  · rfl

theorem State.memory_mapGang {F : Gang → Gang} (h : ∀ g, (F g).memory = g.memory) (crew m : Nat) :
    (s.mapGang crew m F).memory = s.memory := State.memory_mapCrew (fun _ => Crew.memory_mapMember h m) crew

theorem State.memory_mapIssuer {F : Gang → Gang} (h : ∀ g, (F g).memory = g.memory) : (s.mapIssuer c F).memory = s.memory :=
  State.memory_mapGang h _ _

theorem State.memory_retire (f : Slice → Slice) : (s.retire c f).memory = s.memory :=
  State.memory_mapIssuer (s := { s with issued := s.issued + 1 }) fun _ => rfl

theorem State.memory_retireNext : (s.retireNext c).memory = s.memory := State.memory_retire _

theorem State.memory_retireEach (f : Nat → Slice → Slice) : (s.retireEach c f).memory = s.memory :=
  State.memory_mapIssuer (s := { s with issued := s.issued + 1 }) fun _ => rfl

theorem State.memory_settle : (s.settle c).memory = s.memory :=
  (State.memory_mapCrew (fun _ => Crew.memory_settleBarriers ..) _).trans
    (State.memory_mapIssuer fun _ => Gang.memory_settleRegang _)

theorem State.memory_writeField (use : Slice → Use) (vals : List Nat) : (s.writeField c use vals).memory = s.memory := by
  unfold State.writeField
  split
  · split <;> rfl
  · exact State.memory_mapIssuer fun _ => Gang.memory_writeLanes ..

theorem State.memory_startFlight (i : Instr) (o : Launching) (ps : List Part) :
    (s.startFlight c i o ps).memory = s.memory := by
  obtain ⟨w, hstart, hw, -⟩ := Claim.startFlight_eq s c i o ps
  rw [hstart, State.memory_mapIssuer fun _ => by rfl, hw]
  rfl

theorem State.memory_issueFlight (i : Instr) (o : Launching) (addrs datas results : List Nat) :
    (s.issueFlight c i o addrs datas results).memory = s.memory := by
  unfold State.issueFlight
  split
  · exact State.memory_retireNext
  · rw [State.memory_startFlight, State.memory_retireNext]

theorem State.memory_holdBindings : (s.holdBindings c).memory = s.memory := State.memory_mapIssuer fun _ => rfl

theorem State.memory_postEvent (r : EventRec) : (s.postEvent r).memory = s.memory := by
  unfold State.postEvent
  split <;> rfl

theorem State.memory_abandonCrew (crew cause va : Nat) : (s.abandonCrew crew cause va).memory = s.memory := by
  unfold State.abandonCrew
  split
  · rfl
  · split
    · rfl
    · refine (State.memory_postEvent _).trans ?_
      refine Eq.trans ?_ (State.memory_mapCrew (s := s) (fun k => Crew.memory_stopped (k := k)) crew)
      split <;> rfl

theorem State.memory_takeEntry (e : Entry) (code : Nat) : (s.takeEntry c e code).memory = s.memory := by
  unfold State.takeEntry
  split
  · exact State.memory_abandonCrew (s := { s with issued := s.issued + 1 }) ..
  · split
    · rfl
    · refine (State.memory_mapIssuer fun g => ?_).trans (State.memory_mapCrew (fun _ => by rfl) _)
      rw [Gang.memory_mapSlices, Ctx.memory_enter]

theorem State.memory_takeTrap (cause : Cause) (addrs : List (Nat × Nat)) (info : Nat) :
    (s.takeTrap c cause addrs info).memory = s.memory := State.memory_takeEntry ..

end Sys2Proof.Machine
end

section
/-! Results, tickets, palettes and matrix instructions on their way (06 R139; 09 R219; 13 R316; 17 R415): none changes a byte
of memory. -/

namespace Sys2Proof.Machine
open Sys2Proof

variable {s : State} {c : Ctx}

theorem State.memory_endQuiet (i : Instr) (d : BitVec 7) (la v : Nat) : (s.endQuiet c i d la v).memory = s.memory :=
  (State.memory_issueFlight ..).trans (State.memory_mapIssuer fun _ => by rfl)

theorem State.memory_startPalette (i : Instr) (o : Launching) (addr result la : Nat) :
    (s.startPalette c i o addr result la).memory = s.memory := by
  refine (State.memory_mapIssuer fun _ => by rfl).trans ?_
  rw [State.memory_startFlight, State.memory_retireNext]

theorem State.memory_giveCommand (kind : CmdKind) (packet : List Double) (desc : Nat) :
    (s.giveCommand c kind packet desc).2.memory = s.memory :=
  State.memory_mapIssuer (s := s) (c := c) fun _ => by rfl

theorem State.memory_sendTicket (i : Instr) (use : Slice → Use) (size la t : Nat) :
    (s.sendTicket c i use size la t).memory = s.memory := State.memory_startFlight ..

theorem State.memory_xwaitDone (d : BitVec 7) : (s.xwaitDone c d).memory = s.memory := by
  unfold State.xwaitDone
  split
  · exact State.memory_retireNext
  · rw [State.memory_retireNext, State.memory_mapIssuer fun _ => by rfl, State.memory_writeField]

theorem State.memory_enqueue (e : Nat) (o : EngOp) : (s.enqueue c e o).memory = s.memory := by
  unfold State.enqueue
  split
  · rfl
  · refine (State.memory_mapCrew (fun k => ?_) _).trans rfl
    split <;> rfl

theorem State.memory_wordFlight (i : Instr) (t : BitVec 7) (la v : Nat) :
    (s.wordFlight c i t la v).2.memory = s.memory := State.memory_issueFlight ..

theorem State.memory_takeImage {cluster n : Nat} {o : MatOp} {img : Option (List Byte)} {u : State}
    (h : s.takeImage cluster o n = some (img, u)) : u.memory = s.memory := by
  unfold State.takeImage at h
  split at h
  · dsimp only at h
    split at h
    · cases h
    · cases h
      rfl
  · cases h
    rfl

theorem State.memory_returnGrant (easel units : Nat) : (s.returnGrant easel units).memory = s.memory := by
  unfold State.returnGrant
  split <;> rfl

/-- An easel's instruction takes its tokens and goes on, or asks for them (06 R152). -/
theorem State.memory_withTokens {units : Nat} {k : State → State} (hk : ∀ s, (k s).memory = s.memory) :
    (s.withTokens c units k).memory = s.memory := by
  unfold State.withTokens
  refine Eq.trans ?_ (State.memory_returnGrant c.crew.cluster units)
  dsimp only
  split
  · rename_i u hu
    unfold State.takeTokens? at hu
    split at hu
    · cases hu
      exact hk _
    · cases hu
  · unfold State.askTokens
    split <;> rfl

theorem State.memory_issueMat {i : Instr} {t : BitVec 7} {la e an bn : Nat} {a b : MatOp} {o : EngOp} {u : State}
    (h : s.issueMat c i t la e a b an bn o = some u) : u.memory = s.memory := by
  unfold State.issueMat at h
  obtain ⟨⟨aImg, s₁⟩, ha, h⟩ := Option.bind_eq_some_iff.1 h
  obtain ⟨⟨bImg, s₂⟩, hb, h⟩ := Option.bind_eq_some_iff.1 h
  cases h
  rw [State.memory_withTokens fun s₃ => ?_, State.memory_takeImage hb, State.memory_takeImage ha]
  refine (State.memory_enqueue ..).trans ?_
  split
  · exact State.memory_wordFlight ..
  · exact State.memory_wordFlight ..

/-! ### Flights that end, and messages that are lost (13 R306, R317) -/

theorem State.memory_endFlight (f : Flight) : (s.endFlight f).memory = s.memory := by
  unfold State.endFlight
  refine (State.memory_mapGang (fun g => ?_) _ _).trans ?_
  · dsimp only
    split <;> split <;> rfl
  · unfold State.pushResult
    split <;> rfl

theorem State.memory_settleFlights : s.settleFlights.memory = s.memory := by
  change (s.endFlights s.flights []).memory = s.memory
  generalize s.flights = fs
  generalize ([] : List (Nat × Nat × Nat)) = held
  induction fs generalizing s held with
  | nil => rfl
  | cons f fs ih =>
    rcases State.endFlights_cons s f fs held with ⟨held', h⟩ | h
    · rw [h, ih]
    · rw [h, ih, State.memory_endFlight]

/-- A step of a fold that keeps the memory, made for each item. -/
theorem State.memory_foldl {α : Type} {f : State → α → State} (h : ∀ s a, (f s a).memory = s.memory) (as : List α) :
    (as.foldl f s).memory = s.memory := by
  induction as generalizing s with
  | nil => rfl
  | cons a as ih => rw [List.foldl_cons, ih, h]

theorem State.memory_mapAllCrewSlices (f : Slice → Slice) :
    State.memory { s with crews := s.crews.map fun k => k.mapAllSlices f } = s.memory := by
  simp only [State.memory, List.map_map, Function.comp_def, Crew.memory_mapAllSlices]

theorem State.memory_armMonitor (crew member slice : Nat) (b : Block) :
    (s.armMonitor crew member slice b).memory = s.memory := by
  have harmed : (State.mapGang { s with serial := s.serial + 1 } crew member fun g =>
      g.mapSlice slice fun sl => { sl with monitor := some ⟨b, s.serial, none⟩ }).memory = s.memory :=
    State.memory_mapGang (s := { s with serial := s.serial + 1 }) (fun _ => by rfl) crew member
  unfold State.armMonitor
  dsimp only
  split
  · exact harmed
  · split
    · exact harmed
    · split
      · exact harmed
      · exact (State.memory_mapAllCrewSlices _).trans harmed

theorem State.memory_monPerformed (f : Flight) (idx : List Nat) (place : Place) :
    (s.monPerformed f idx place).memory = s.memory := by
  have harm : ((f.at_ idx).foldl (fun s p =>
      if f.armsSlice p then s.armMonitor f.crew f.member p.slice (place.block f.asid f.crew f.member) else s) s).memory =
      s.memory := State.memory_foldl (fun s p => by split; exacts [State.memory_armMonitor .., rfl]) _
  unfold State.monPerformed
  dsimp only
  split
  · split
    · exact (State.memory_mapGang (fun _ => by rfl) _ _).trans harm
    · exact harm
  · exact harm

theorem State.memory_pushRecord (r : Record) (origin : Origin) (die : Nat) (fl : Option Nat) (slot : Option (Nat × Nat)) :
    (s.pushRecord r origin die fl slot).memory = s.memory := by
  unfold State.pushRecord State.mapLaunch
  split <;> rfl

/-- What records the parts of an access as performed writes no memory itself. -/
theorem State.memory_performed (f : Flight) (idx : List Nat) (place : Place) (e : Effect) :
    (s.performed f idx place e).memory = s.memory := by
  unfold State.performed
  dsimp only
  split
  · refine (State.memory_foldl (fun s bs => State.memory_pushRecord ..) _).trans ?_
    split
    · exact State.memory_monPerformed ..
    · rfl
  · split
    · exact State.memory_monPerformed ..
    · rfl

theorem State.memory_answerParts_none (f : Flight) (msg : Nat) : (s.answerParts f msg none).memory = s.memory := by
  unfold State.answerParts
  dsimp only [Option.isSome_none]
  rw [if_neg Bool.false_ne_true]
  split
  · exact State.memory_performed ..
  · refine State.memory_foldl (fun s i => ?_) _
    unfold State.answerPart
    split
    · rfl
    · exact State.memory_performed ..

theorem State.memory_answerSlot_none (m : Message) (k n va : Nat) : (s.answerSlot m k n va none).memory = s.memory := by
  unfold State.answerSlot
  dsimp only [Option.isSome_none]
  simp only [Bool.and_false, Bool.false_eq_true, if_false]
  cases (s.slot k n).cmd
  all_goals
    split
    · rfl
    · split <;> rfl

theorem State.memory_ackLines (wbs : List Nat) : (s.ackLines wbs).memory = s.memory := by
  simp only [State.memory, State.ackLines, List.map_map]
  congr 1
  refine List.map_congr_left fun w _ => ?_
  simp only [Function.comp_apply]
  split <;> rfl

theorem State.memory_countInjected (die job : Nat) (n : Int) : (s.countInjected die job n).memory = s.memory := by
  unfold State.countInjected
  split <;> rfl

theorem State.memory_countConsumed (die job : Nat) (n : Int) : (s.countConsumed die job n).memory = s.memory := by
  unfold State.countConsumed
  split <;> rfl

theorem State.memory_countPending (die job : Nat) (n : Int) : (s.countPending die job n).memory = s.memory := by
  unfold State.countPending
  split <;> rfl

theorem State.memory_countLost (die job : Nat) : (s.countLost die job).memory = s.memory := by
  unfold State.countLost
  split <;> rfl

theorem State.memory_clearLost (die job : Nat) : (s.clearLost die job).memory = s.memory := by
  unfold State.clearLost
  split <;> rfl

/-- An access with no answer ends without a write (13 R306). -/
theorem State.memory_answered_none (m : Message) (status : Nat) : (s.answered m none status).memory = s.memory := by
  unfold State.answered
  dsimp only
  refine State.memory_settleFlights.trans ?_
  split
  · split
    · exact State.memory_answerParts_none ..
    · rfl
  · exact State.memory_answerSlot_none ..
  · rfl
  · rfl
  · rfl
  · exact State.memory_ackLines ..
  · exact State.memory_countConsumed ..
  · split <;> rfl

theorem State.memory_loseMessage (m : Message) : (s.loseMessage m).memory = s.memory := by
  unfold State.loseMessage State.failMessage
  refine (State.memory_answered_none ..).trans ((State.memory_postEvent _).trans ?_)
  change (State.countLost _ _ _).memory = _
  rw [State.memory_countLost, State.memory_countInjected, State.memory_countPending]

theorem State.memory_loseQueried (die job : Nat) : (s.loseQueried die job).memory = s.memory :=
  State.memory_foldl (fun _ m => State.memory_loseMessage m) _

end Sys2Proof.Machine
end

section
/-! Instruction words leave memory as it is: the frame that every word runs in, and the body of each word. -/

namespace Sys2Proof.Machine
open Sys2Proof

/-- A word's body, where it ends in a state, ends in one with the memory of the state it starts from. -/
structure KeepsMemory (s : State) (r : Except Stop State) : Prop where
  keeps : ∀ t, r = .ok t → t.memory = s.memory

/-- A step, where it goes on, leaves memory as it was. -/
structure StepKeepsMemory (f : State → Host.Outcome State Fault Refusal) : Prop where
  keeps : ∀ s t, f s = .next t → t.memory = s.memory

section
variable {s t : State} {c : Ctx} {i : Instr} {o : OpSpec} {body : Ctx → List (List Nat) → State → Except Stop State}

theorem KeepsMemory.ok (h : t.memory = s.memory) : KeepsMemory s (.ok t) := by
  refine ⟨fun _ hok => ?_⟩
  cases hok
  exact h

theorem KeepsMemory.error (e : Stop) : KeepsMemory s (.error e) := ⟨fun _ h => nomatch h⟩

/-- A check, or a step that finds a value, before the rest of the body. -/
theorem KeepsMemory.bind {α : Type} {x : Except Stop α} {k : α → Except Stop State} (h : ∀ a, KeepsMemory s (k a)) :
    KeepsMemory s (x >>= k) := by
  refine ⟨fun t ht => ?_⟩
  obtain ⟨a, -, ha⟩ := Claim.exceptBind_eq_ok ht
  exact (h a).keeps t ha

theorem KeepsMemory.ite {p : Prop} [Decidable p] {x y : Except Stop State} (hx : KeepsMemory s x) (hy : KeepsMemory s y) :
    KeepsMemory s (if p then x else y) := by
  split
  · exact hx
  · exact hy

/-- A trap that the rest of the body comes after. -/
theorem KeepsMemory.guard {p : Prop} [Decidable p] {e : Stop} {k : PUnit → Except Stop State} (h : ∀ a, KeepsMemory s (k a)) :
    KeepsMemory s (if p then .error e >>= k else k ⟨⟩) := .ite (.error e) (h _)

theorem Ctx.memory_fetch {uses : Slice → List Use} {ks : List Nat} {args : List (List Nat)}
    (h : c.fetch uses ks s = .ok (args, t)) : t.memory = s.memory := by
  obtain ⟨hports, -⟩ := Claim.fetch_portsOnly h
  rw [hports]
  rfl

/-- A word whose body leaves memory alone does so however it ends. -/
theorem runOp_keepsMemory (hbody : ∀ c args s, KeepsMemory s (body c args s)) : StepKeepsMemory (runOp i o body) := by
  refine ⟨fun s t h => ?_⟩
  rcases runOp_cases i o body s with ⟨-, hfault⟩ | ⟨c, -, ⟨k, as, htrap⟩ | hwait | hqueued |
    ⟨args, s', u, hfetch, hu, hnext⟩⟩
  · rw [hfault] at h
    cases h
  · rw [htrap] at h
    cases h
    exact State.memory_takeTrap ..
  · rw [hwait] at h
    cases h
    rfl
  · rw [hqueued] at h
    cases h
    exact State.memory_holdBindings
  · rw [hnext] at h
    cases h
    exact ((hbody c args s').keeps t hu).trans (Ctx.memory_fetch hfetch)

/-- A body that goes on to the next instruction. -/
theorem KeepsMemory.next : KeepsMemory s (.ok (s.retireNext c)) := .ok State.memory_retireNext

theorem KeepsMemory.issueFlight (o : Launching) (addrs datas results : List Nat) :
    KeepsMemory s (.ok (s.issueFlight c i o addrs datas results)) := .ok (State.memory_issueFlight ..)

/-- A body that writes a field and goes on. -/
theorem KeepsMemory.writeField (use : Slice → Use) (vals : List Nat) :
    KeepsMemory s (.ok ((s.writeField c use vals).retireNext c)) :=
  .ok (State.memory_retireNext.trans (State.memory_writeField ..))

end

/-! ### Registers, queues and accesses -/

section
variable {i : Instr}

theorem laneOp_keepsMemory (o : OpSpec) (dst : Slice → Use) (f : Slice → List Nat → Nat) :
    StepKeepsMemory (laneOp i o dst f) := by
  refine ⟨fun s t h => ?_⟩
  unfold laneOp at h
  exact (runOp_keepsMemory fun _ _ _ => .writeField ..).keeps s t h

/-- IADD and ISUB have two forms, which name operands of different width. -/
theorem addSub_keepsMemory (d a b : BitVec 7) (f : Nat) (g : Int → Int → Int) : StepKeepsMemory (addSub i d a b f g) := by
  unfold addSub
  split <;> exact laneOp_keepsMemory ..

theorem access_keepsMemory (c : Ctx) (s : State) (o : Launching) (align : Nat) (ok : Place → Bool) (path : List Nat → Nat)
    (addrs datas : List Nat) : KeepsMemory s (c.access s i o align ok path addrs datas) :=
  .bind fun _ => .bind fun _ => .issueFlight ..

theorem accessBody_keepsMemory (c : Ctx) (args : List (List Nat)) (s : State) : KeepsMemory s (Claim.accessBody i c args s) := by
  unfold Claim.accessBody
  split
  · exact access_keepsMemory ..
  · exact .error _

theorem queueOp_keepsMemory (o : OpSpec) (dst : Slice → Use) (size : Nat) (la : BitVec 4) (f : Slice → List Nat → Nat) :
    StepKeepsMemory (queueOp i o dst size la f) := runOp_keepsMemory fun _ _ _ => .bind fun _ => .issueFlight ..

theorem qntOp_keepsMemory (d a : BitVec 7) (l : BitVec 4) (fixed : Bool) : StepKeepsMemory (qntOp i d a l fixed) := by
  refine runOp_keepsMemory fun c args s => .bind fun _ => .ok ?_
  split
  · exact (State.memory_mapIssuer fun _ => by rfl).trans State.memory_retireNext
  · exact (State.memory_startFlight ..).trans ((State.memory_mapIssuer fun _ => by rfl).trans State.memory_retireNext)

theorem execQntHealth_keepsMemory (d : BitVec 7) (l : BitVec 4) : StepKeepsMemory (execQntHealth d l) :=
  runOp_keepsMemory fun _ _ _ => .bind fun _ =>
    .ok ((State.memory_mapIssuer fun _ => by rfl).trans (State.memory_issueFlight ..))

theorem execQstat_keepsMemory (d : BitVec 7) (n : BitVec 3) : StepKeepsMemory (execQstat d n) := by
  refine runOp_keepsMemory fun c args s => ?_
  dsimp only
  split
  · exact .error _
  · exact .writeField ..

theorem execUnpkCb_keepsMemory (d a b : BitVec 7) : StepKeepsMemory (execUnpkCb d a b) :=
  runOp_keepsMemory fun _ _ _ => .writeField ..

theorem execShfl_keepsMemory (d a b : BitVec 7) (m : BitVec 2) : StepKeepsMemory (execShfl d a b m) :=
  runOp_keepsMemory fun _ _ _ => .writeField ..

theorem execVote_keepsMemory (d a : BitVec 7) (f : BitVec 4) : StepKeepsMemory (execVote d a f) :=
  runOp_keepsMemory fun _ _ _ => .writeField ..

theorem execRdx_keepsMemory (d a : BitVec 7) (f : BitVec 4) : StepKeepsMemory (execRdx d a f) :=
  runOp_keepsMemory fun _ _ _ => .writeField ..

theorem execScan_keepsMemory (d a : BitVec 7) (e : BitVec 1) (f : BitVec 4) : StepKeepsMemory (execScan d a e f) :=
  runOp_keepsMemory fun _ _ _ => .writeField ..

theorem execMfs_keepsMemory (d : BitVec 7) (n : BitVec 5) : StepKeepsMemory (execMfs d n) :=
  runOp_keepsMemory fun _ _ _ => .writeField ..

theorem execLdx_keepsMemory (t a b : BitVec 7) (l : BitVec 4) : StepKeepsMemory (execLdx t a b l) := by
  refine runOp_keepsMemory fun c args s => .guard fun _ => .guard fun _ => .bind fun _ => .ok ?_
  split
  · exact State.memory_retireNext
  · exact (State.memory_startFlight ..).trans State.memory_retireNext

end

/-! ### Words that move a party (02 R22 to R34; 16, 17) -/

theorem execNop_keepsMemory : StepKeepsMemory execNop := runOp_keepsMemory fun _ _ _ => .next

theorem execBra_keepsMemory (o : BitVec 18) : StepKeepsMemory (execBra o) :=
  runOp_keepsMemory fun _ _ _ => .ok (State.memory_retire _)

theorem execBraZ_keepsMemory (r : BitVec 7) (o : BitVec 18) : StepKeepsMemory (execBraZ r o) :=
  runOp_keepsMemory fun _ _ _ => .ok (State.memory_retireEach _)

theorem execBrc_keepsMemory (r : BitVec 7) (o : BitVec 18) : StepKeepsMemory (execBrc r o) :=
  runOp_keepsMemory fun _ _ _ => .bind fun _ => .ok (State.memory_retireEach _)

theorem execCall_keepsMemory (r : BitVec 7) (o : BitVec 18) : StepKeepsMemory (execCall r o) :=
  runOp_keepsMemory fun _ _ _ => .ok ((State.memory_retire _).trans (State.memory_writeField ..))

theorem execRet_keepsMemory (a : BitVec 7) : StepKeepsMemory (execRet a) :=
  runOp_keepsMemory fun _ _ _ => .guard fun _ => .guard fun _ => .ok (State.memory_retireEach _)

theorem execRcp_keepsMemory (o : BitVec 18) : StepKeepsMemory (execRcp o) :=
  runOp_keepsMemory fun _ _ _ => .bind fun _ => .ok (State.memory_retire _)

theorem execJoin_keepsMemory : StepKeepsMemory execJoin :=
  runOp_keepsMemory fun _ _ _ => .bind fun _ => .bind fun _ => .ok (State.memory_retire _)

theorem execLoop_keepsMemory (r : BitVec 7) (len : BitVec 8) : StepKeepsMemory (execLoop r len) :=
  runOp_keepsMemory fun _ _ _ => .bind fun _ => .bind fun _ => .ok (State.memory_retireEach _)

theorem execFmt_keepsMemory (i : BitVec 16) : StepKeepsMemory (execFmt i) :=
  runOp_keepsMemory fun _ _ _ => .ok (State.memory_retire _)

theorem execWin_keepsMemory (i : BitVec 18) : StepKeepsMemory (execWin i) :=
  runOp_keepsMemory fun _ _ _ => .ok (State.memory_retire _)

theorem execSetx_keepsMemory (a : BitVec 7) (w : BitVec 1) (o : BitVec 9) : StepKeepsMemory (execSetx a w o) := by
  refine runOp_keepsMemory fun c args s => ?_
  split
  · exact .next
  · exact .bind fun _ => .ok (State.memory_retire _)

/-- MTS to TADDR: each lane's new value. -/
def writeTaddrs (vals : List (Nat × Nat)) (g : Gang) : Gang :=
  vals.foldl (fun g (l, v) => g.mapLane l fun ln => { ln with taddr := BitVec.ofNat 64 v }) g

theorem memory_writeTaddrs (vals : List (Nat × Nat)) (g : Gang) : (writeTaddrs vals g).memory = g.memory := by
  unfold writeTaddrs
  induction vals generalizing g with
  | nil => rfl
  | cons x vals ih => rw [List.foldl_cons, ih, Gang.memory_mapLane fun _ => by rfl]

theorem execMts_keepsMemory (a : BitVec 7) (n : BitVec 5) : StepKeepsMemory (execMts a n) := by
  refine runOp_keepsMemory fun c args s => .bind fun _ => .ok ((State.memory_retireEach _).trans ?_)
  have hasid (u : State) (id : Nat) (w : Word) : (u.mapCrew id fun k => { k with hasid := w }).memory = u.memory :=
    State.memory_mapCrew (fun _ => by rfl) id
  have hlanes : (if n.toNat = 0x10 && !c.gang.isSeq then s.mapIssuer c (writeTaddrs (c.lanes.zip (args.getD 0 [])))
      else s).memory = s.memory := by
    split
    · exact State.memory_mapIssuer fun g => memory_writeTaddrs ..
    · rfl
  dsimp only
  split
  · split
    · exact (hasid ..).trans hlanes
    · exact hlanes
  · exact hlanes

theorem execWaitp_keepsMemory (a : BitVec 7) (p : BitVec 3) : StepKeepsMemory (execWaitp a p) :=
  runOp_keepsMemory fun _ _ _ => .bind fun _ => .next

theorem execRegang_keepsMemory : StepKeepsMemory execRegang :=
  runOp_keepsMemory fun _ _ _ => .ite .next (.ok (State.memory_settle.trans (State.memory_retire _)))

theorem execExit_keepsMemory : StepKeepsMemory execExit :=
  runOp_keepsMemory fun _ _ _ => .bind fun _ => .ok (State.memory_settle.trans (State.memory_retire _))

theorem barrierOp_keepsMemory (i : Instr) (count : BitVec 5) (n : BitVec 4) (f : Slice → Slice) :
    StepKeepsMemory (barrierOp i count n f) :=
  runOp_keepsMemory fun _ _ _ => .bind fun _ => .bind fun _ =>
    .ok (State.memory_settle.trans ((State.memory_mapCrew (fun _ => by rfl) _).trans (State.memory_retire _)))

theorem execYld_keepsMemory : StepKeepsMemory execYld := by
  refine runOp_keepsMemory fun c args s => .ok ?_
  split
  · exact State.memory_retireNext
  · exact (State.memory_mapIssuer fun _ => by rfl).trans State.memory_retireNext

theorem execMwait_keepsMemory (d a : BitVec 7) : StepKeepsMemory (execMwait d a) :=
  runOp_keepsMemory fun _ _ _ => .ite (.ok ((State.memory_retireEach _).trans (State.memory_writeField ..)))
    (.ok (State.memory_mapIssuer fun _ => by rfl))

theorem execQuiet_keepsMemory (d a b : BitVec 7) (l : BitVec 4) : StepKeepsMemory (execQuiet d a b l) := by
  refine runOp_keepsMemory fun c args s => ?_
  dsimp only
  split
  · split
    · exact .ok (State.memory_endQuiet ..)
    · exact .ite (.ok (State.memory_endQuiet ..)) (.error _)
  · refine .bind fun _ => ?_
    split
    · exact .ok (State.memory_endQuiet ..)
    · exact .ok (State.memory_mapIssuer fun _ => by rfl)

theorem execEret_keepsMemory : StepKeepsMemory execEret := by
  refine runOp_keepsMemory fun c args s => .bind fun _ => .ok ?_
  refine Eq.trans ?_ (State.memory_retire (s := s) (c := c) Slice.eret)
  refine State.memory_mapIssuer (s := s.retire c Slice.eret) (c := c) (F := fun g =>
    { g with lanes := g.lanes.mapIdx fun l ln => if c.sls.contains (l / 4) then ln.loseHandlerRegs else ln }) fun g => ?_
  exact Gang.memory_mapIdx fun l ln => by split <;> rfl

theorem execEretAbandon_keepsMemory : StepKeepsMemory execEretAbandon :=
  runOp_keepsMemory fun _ _ s => .bind fun _ => .ok (State.memory_abandonCrew (s := { s with issued := s.issued + 1 }) ..)

theorem execTrap_keepsMemory (k : BitVec 18) : StepKeepsMemory (execTrap k) := by
  refine ⟨fun s t h => ?_⟩
  unfold execTrap at h
  split at h
  · cases h
  · split at h
    · rename_i e _
      rcases e with ⟨cause, as⟩ | _ | _
      · cases h
        exact State.memory_takeTrap ..
      · cases h
        rfl
      · cases h
        exact State.memory_holdBindings
    · cases h
      exact State.memory_takeTrap ..

/-! ### Accesses and their orders (07 R173; 15 R352, R353; 16 R374; 17 R396, R421; 18 R447) -/

theorem execFence_keepsMemory (sc : BitVec 3) (r : BitVec 2) : StepKeepsMemory (execFence sc r) := by
  refine runOp_keepsMemory fun c args s => .bind fun _ => .ok ?_
  split
  · exact (State.memory_startFlight ..).trans State.memory_retireNext
  · exact State.memory_retireNext

theorem execRply_keepsMemory : StepKeepsMemory execRply :=
  runOp_keepsMemory fun _ _ s => .ok (State.memory_retireNext (s := s))

theorem execCflush_keepsMemory (a : BitVec 7) : StepKeepsMemory (execCflush a) := by
  refine runOp_keepsMemory fun c args s => .guard fun _ => .bind fun _ => .ok ?_
  split
  · exact State.memory_retireNext
  · exact (State.memory_startFlight ..).trans State.memory_retireNext

theorem execCbt_keepsMemory (a : BitVec 7) (l : BitVec 4) : StepKeepsMemory (execCbt a l) := by
  refine runOp_keepsMemory fun c args s => ?_
  split
  · exact .next
  · exact .guard fun _ => .guard fun _ => .bind fun _ => .ok (State.memory_startPalette ..)

theorem execCbtReg_keepsMemory (b : BitVec 7) (l : BitVec 4) : StepKeepsMemory (execCbtReg b l) := by
  refine runOp_keepsMemory fun c args s => ?_
  split
  · exact .next
  · exact .ok (State.memory_startPalette ..)

theorem execMcrd_keepsMemory (t a b : BitVec 7) : StepKeepsMemory (execMcrd t a b) := by
  refine runOp_keepsMemory fun c args s => ?_
  split
  · exact .bind fun _ => .guard fun _ => .guard fun _ => .bind fun _ =>
      .ok ((State.memory_startFlight ..).trans State.memory_retireNext)
  · exact .next

theorem execTsub_keepsMemory (t a : BitVec 7) (l : BitVec 4) : StepKeepsMemory (execTsub t a l) := by
  refine runOp_keepsMemory fun c args s => ?_
  split
  · exact .next
  · exact .guard fun _ => .guard fun _ => .bind fun _ => .bind fun _ => .issueFlight ..

theorem execAmsg_keepsMemory (t b : BitVec 7) (l : BitVec 4) : StepKeepsMemory (execAmsg t b l) := by
  refine runOp_keepsMemory fun c args s => ?_
  split
  · exact .next
  · exact .ite (.issueFlight ..) (.ok (State.memory_issueFlight ..))

/-! ### Commands to the block transfer engine (09 R219 to R223) -/

theorem execXcp_keepsMemory (d a : BitVec 7) (x : BitVec 6) (k : BitVec 1) (l : BitVec 4) :
    StepKeepsMemory (execXcp d a x k l) := by
  refine runOp_keepsMemory fun c args s => ?_
  split
  · exact .next
  · exact .bind fun _ =>
      .ok ((State.memory_sendTicket ..).trans (State.memory_retireNext.trans (State.memory_giveCommand ..)))

theorem execGrpl_keepsMemory (t a b : BitVec 7) (l : BitVec 4) : StepKeepsMemory (execGrpl t a b l) := by
  refine runOp_keepsMemory fun c args s => ?_
  split
  · exact .bind fun _ =>
      .ok ((State.memory_sendTicket ..).trans (State.memory_retireNext.trans (State.memory_giveCommand ..)))
  · exact .next

theorem execXqap_keepsMemory (d a : BitVec 7) (x : BitVec 6) (k : BitVec 1) : StepKeepsMemory (execXqap d a x k) := by
  refine runOp_keepsMemory fun c args s => ?_
  split
  · exact .bind fun _ => .ok (State.memory_retireNext.trans (State.memory_giveCommand ..))
  · exact .next

theorem execXcpr_keepsMemory (d a : BitVec 7) (x : BitVec 6) (k : BitVec 1) (l : BitVec 4) :
    StepKeepsMemory (execXcpr d a x k l) := by
  refine runOp_keepsMemory fun c args s => ?_
  split
  · exact .next
  · refine .bind fun _ => .bind fun _ => .bind fun _ => .bind fun _ => .ok ?_
    refine (State.memory_mapGang (fun _ => by rfl) _ _).trans ((State.memory_sendTicket ..).trans
      (State.memory_retireNext.trans ((State.memory_mapIssuer fun _ => by rfl).trans ?_)))
    exact State.memory_giveCommand (s := { s with serial := s.serial + 1 }) ..

theorem execXwait_keepsMemory (d a : BitVec 7) : StepKeepsMemory (execXwait d a) :=
  runOp_keepsMemory fun _ _ _ => .bind fun _ => .ok (State.memory_xwaitDone _)

theorem execXwaitAll_keepsMemory (d : BitVec 7) : StepKeepsMemory (execXwaitAll d) :=
  runOp_keepsMemory fun _ _ _ => .bind fun _ => .ok (State.memory_xwaitDone _)

/-! ### Supervisor's words (17 R393 to R427; 18 R438) -/

theorem tlbi_keepsMemory {i : Instr} {a : BitVec 7} {legal : Nat → Bool} {drop : State → Nat → State}
    (hdrop : ∀ s v, (drop s v).memory = s.memory) : StepKeepsMemory (tlbi i a legal drop) := by
  refine runOp_keepsMemory fun c args s => ?_
  split
  · exact .next
  · refine .bind fun _ => .ok (State.memory_retireNext.trans ?_)
    split
    · rfl
    · exact hdrop ..

theorem execTlbiPage_keepsMemory (a : BitVec 7) : StepKeepsMemory (execTlbiPage a) := tlbi_keepsMemory fun _ _ => by rfl

theorem execTlbiAsid_keepsMemory (a : BitVec 7) : StepKeepsMemory (execTlbiAsid a) := tlbi_keepsMemory fun _ _ => by rfl

theorem execTlbiAll_keepsMemory : StepKeepsMemory execTlbiAll := by
  refine runOp_keepsMemory fun c args s => .ok (State.memory_retireNext.trans ?_)
  split <;> rfl

theorem execSpcfg_keepsMemory (o z : BitVec 1) (w : BitVec 4) : StepKeepsMemory (execSpcfg o z w) :=
  runOp_keepsMemory fun _ _ _ => .bind fun _ => .ite .next (.ok ((State.memory_retire _).trans rfl))

theorem qadj_keepsMemory {i : Instr} {d a : BitVec 7} {f : State → Nat → Nat → Int → State}
    (hf : ∀ s die job n, (f s die job n).memory = s.memory) : StepKeepsMemory (qadj i d a f) := by
  refine runOp_keepsMemory fun c args s => ?_
  split
  · exact .next
  · refine .ok (State.memory_retireNext.trans ((State.memory_writeField ..).trans ?_))
    split
    · exact hf ..
    · rfl

theorem execQadjInjected_keepsMemory (d a : BitVec 7) : StepKeepsMemory (execQadjInjected d a) :=
  qadj_keepsMemory fun _ _ _ _ => State.memory_countInjected ..

theorem execQadjConsumed_keepsMemory (d a : BitVec 7) : StepKeepsMemory (execQadjConsumed d a) :=
  qadj_keepsMemory fun _ _ _ _ => State.memory_countConsumed ..

theorem execQadjClearLost_keepsMemory (d a : BitVec 7) : StepKeepsMemory (execQadjClearLost d a) :=
  qadj_keepsMemory fun _ _ _ _ => State.memory_clearLost ..

theorem execQadjQueryToLost_keepsMemory (d a : BitVec 7) : StepKeepsMemory (execQadjQueryToLost d a) :=
  qadj_keepsMemory fun _ _ _ _ => State.memory_loseQueried ..

theorem bindQueue_keepsMemory (i : Instr) (q : BitVec 3) (p : Option Nat) : StepKeepsMemory (bindQueue i q p) :=
  runOp_keepsMemory fun _ _ _ => .bind fun _ =>
    .ok ((State.memory_mapIssuer fun _ => by rfl).trans State.memory_retireNext)

/-! ### Matrix words (06 R138 to R149) -/

theorem tryMat_keepsMemory {s : State} {c : Ctx} {i : Instr} {t : BitVec 7} {la e an bn : Nat} {a b : MatOp} {o : EngOp} :
    KeepsMemory s (s.tryMat c i t la e a b an bn o) := by
  refine .bind fun _ => ?_
  split
  · exact .error _
  · rename_i u hu
    refine .ok ?_
    split
    · exact State.memory_withTokens fun _ => rfl
    · exact State.memory_issueMat hu

theorem execTmma_keepsMemory (t a b : BitVec 7) (l : BitVec 4) : StepKeepsMemory (execTmma t a b l) :=
  runOp_keepsMemory fun _ _ _ => .bind fun _ => tryMat_keepsMemory

theorem execDmma_keepsMemory (t a b : BitVec 7) (l : BitVec 4) : StepKeepsMemory (execDmma t a b l) := by
  refine runOp_keepsMemory fun c args s => .bind fun _ => .bind fun _ => ?_
  split
  · exact .error _
  · exact .bind fun _ => tryMat_keepsMemory

theorem execTbnd_keepsMemory (t a : BitVec 7) (l : BitVec 4) : StepKeepsMemory (execTbnd t a l) :=
  runOp_keepsMemory fun _ _ _ => .bind fun _ => .bind fun _ => .ok (State.memory_wordFlight ..)

theorem execTcfg_keepsMemory (w : BitVec 1) (e g : BitVec 2) (x : BitVec 1) (n : BitVec 5) :
    StepKeepsMemory (execTcfg w e g x n) := by
  refine runOp_keepsMemory fun c args s => .bind fun _ => ?_
  dsimp only
  split <;> exact .bind fun _ => .ok (State.memory_retireNext (s := s))

theorem execTclr_keepsMemory (k x : BitVec 1) (n : BitVec 5) : StepKeepsMemory (execTclr k x n) := by
  refine runOp_keepsMemory fun c args s => .bind fun _ => ?_
  dsimp only
  split
  · exact .bind fun _ => .ok ((State.memory_enqueue ..).trans (State.memory_retireNext (s := s)))
  · refine .bind fun _ => ?_
    split
    · exact .bind fun _ => .ok ((State.memory_enqueue ..).trans (State.memory_retireNext (s := State.mapCluster s _ _)))
    · exact .ite (.error _) (.error _)

theorem execTdrn_keepsMemory (d a : BitVec 7) (x : BitVec 6) (k : BitVec 1) (l : BitVec 4) :
    StepKeepsMemory (execTdrn d a x k l) := by
  refine runOp_keepsMemory fun c args s => .bind fun _ => .bind fun _ => .bind fun _ => ?_
  split
  · exact .error _
  · refine .bind fun _ => .bind fun _ => .bind fun _ => .ok ((State.memory_enqueue ..).trans ?_)
    split <;> exact State.memory_wordFlight ..

theorem execTstg_keepsMemory (t b : BitVec 7) : StepKeepsMemory (execTstg t b) := by
  refine runOp_keepsMemory fun c args s => .bind fun _ => .bind fun _ => .bind fun _ => .bind fun _ => ?_
  split
  · exact .error _
  · refine .bind fun _ => .bind fun _ => ?_
    split
    · exact .error _
    · rename_i img u hu
      exact .ok ((State.memory_enqueue ..).trans ((State.memory_retireNext (s := u)).trans (State.memory_takeImage hu)))

theorem execTtbl_keepsMemory (t a : BitVec 7) : StepKeepsMemory (execTtbl t a) := by
  refine runOp_keepsMemory fun c args s => .bind fun _ => .bind fun _ => ?_
  dsimp only
  split
  · refine .bind fun _ => .bind fun _ => .bind fun _ => ?_
    split
    · exact .error _
    · rename_i img u hu
      exact .ok ((State.memory_enqueue ..).trans ((State.memory_retireNext (s := u)).trans (State.memory_takeImage hu)))
  · exact .error _

end Sys2Proof.Machine
end

section
/-! Every instruction word but MAPF leaves memory as it is (07 R168; 11 R277, R284). -/

namespace Sys2Proof.Machine
open Sys2Proof

theorem exec_of_access_keepsMemory {i : Instr} {args : List (List Nat)} {a : Claim.Access}
    (h : Claim.accessOf args i = some a) : StepKeepsMemory (exec i) := by
  refine ⟨fun s t hs => ?_⟩
  rw [Claim.exec_of_accessOf h] at hs
  exact (runOp_keepsMemory accessBody_keepsMemory).keeps s t hs

/-- Word by word: what writes registers at once, what sends accesses, and each word with a body of its own. -/
theorem exec_keepsMemory {i : Instr} (hword : i.isWord = true) (hmapf : ∀ d a, i ≠ .mapf d a) : StepKeepsMemory (exec i) := by
  refine ⟨fun s u h => ?_⟩
  cases i with
  | and | andi | or | ori | xor | xori | shl | shr | shli | shri | sra | bfx | bfi | clz | popc | imul | imulh |
  imad | imin | imax | iaddi | icmp | lea | lui | sel | coal | mkab | tsta | pack | unpk | dot8 | dot4 |
  fadd | fsub | fmul | fmin | fmax | ffma | fcmp => exact (laneOp_keepsMemory ..).keeps s u h
  | unpkCb d a b => exact (execUnpkCb_keepsMemory d a b).keeps s u h
  | shfl d a b m => exact (execShfl_keepsMemory d a b m).keeps s u h
  | vote d a f => exact (execVote_keepsMemory d a f).keeps s u h
  | rdx d a f => exact (execRdx_keepsMemory d a f).keeps s u h
  | scan d a e f => exact (execScan_keepsMemory d a e f).keeps s u h
  | mfs d n => exact (execMfs_keepsMemory d n).keeps s u h
  | ld | ldw | ldq | lda | mon | st | stw | stq | stl | aadd | amin | amax | aand | aor | axor | axch | acas | afadd
  | jdec | prom | spawn => exact (exec_of_access_keepsMemory (args := []) rfl).keeps s u h
  | iadd | isub => exact (addSub_keepsMemory ..).keeps s u h
  | qstat d n => exact (execQstat_keepsMemory d n).keeps s u h
  | cvt | dqt | frcp | frsq | fsqrt | fexp2 | flog2 | fsin | fcos | ftanh => exact (queueOp_keepsMemory ..).keeps s u h
  | qnt | qntFix => exact (qntOp_keepsMemory ..).keeps s u h
  | qntHealth d l => exact (execQntHealth_keepsMemory d l).keeps s u h
  | ldx t a b l => exact (execLdx_keepsMemory t a b l).keeps s u h
  | nop => exact execNop_keepsMemory.keeps s u h
  | bra o => exact (execBra_keepsMemory o).keeps s u h
  | braZ r o => exact (execBraZ_keepsMemory r o).keeps s u h
  | brc r o => exact (execBrc_keepsMemory r o).keeps s u h
  | call r o => exact (execCall_keepsMemory r o).keeps s u h
  | ret a => exact (execRet_keepsMemory a).keeps s u h
  | rcp o => exact (execRcp_keepsMemory o).keeps s u h
  | join => exact execJoin_keepsMemory.keeps s u h
  | loop r n => exact (execLoop_keepsMemory r n).keeps s u h
  | fmt i => exact (execFmt_keepsMemory i).keeps s u h
  | win i => exact (execWin_keepsMemory i).keeps s u h
  | setx a w o => exact (execSetx_keepsMemory a w o).keeps s u h
  | mts a n => exact (execMts_keepsMemory a n).keeps s u h
  | waitp a p => exact (execWaitp_keepsMemory a p).keeps s u h
  | regang => exact execRegang_keepsMemory.keeps s u h
  | exit => exact execExit_keepsMemory.keeps s u h
  | bar | bara => exact (barrierOp_keepsMemory ..).keeps s u h
  | yld => exact execYld_keepsMemory.keeps s u h
  | mwait d a => exact (execMwait_keepsMemory d a).keeps s u h
  | quiet d a b l => exact (execQuiet_keepsMemory d a b l).keeps s u h
  | eret => exact execEret_keepsMemory.keeps s u h
  | eretAbandon => exact execEretAbandon_keepsMemory.keeps s u h
  | trap k => exact (execTrap_keepsMemory k).keeps s u h
  | fence x r => exact (execFence_keepsMemory x r).keeps s u h
  | rply => exact execRply_keepsMemory.keeps s u h
  | cflush a => exact (execCflush_keepsMemory a).keeps s u h
  | cbt a l => exact (execCbt_keepsMemory a l).keeps s u h
  | cbtReg b l => exact (execCbtReg_keepsMemory b l).keeps s u h
  | mcrd t a b => exact (execMcrd_keepsMemory t a b).keeps s u h
  | tsub t a l => exact (execTsub_keepsMemory t a l).keeps s u h
  | amsg t b l => exact (execAmsg_keepsMemory t b l).keeps s u h
  | xcp d a x k l => exact (execXcp_keepsMemory d a x k l).keeps s u h
  | grpl t a b l => exact (execGrpl_keepsMemory t a b l).keeps s u h
  | xqap d a x k => exact (execXqap_keepsMemory d a x k).keeps s u h
  | xcpr d a x k l => exact (execXcpr_keepsMemory d a x k l).keeps s u h
  | xwait d a => exact (execXwait_keepsMemory d a).keeps s u h
  | xwaitAll d => exact (execXwaitAll_keepsMemory d).keeps s u h
  | tlbiPage a => exact (execTlbiPage_keepsMemory a).keeps s u h
  | tlbiAsid a => exact (execTlbiAsid_keepsMemory a).keeps s u h
  | tlbiAll => exact execTlbiAll_keepsMemory.keeps s u h
  | spcfg o z w => exact (execSpcfg_keepsMemory o z w).keeps s u h
  | qadjInjected d a => exact (execQadjInjected_keepsMemory d a).keeps s u h
  | qadjConsumed d a => exact (execQadjConsumed_keepsMemory d a).keeps s u h
  | qadjClearLost d a => exact (execQadjClearLost_keepsMemory d a).keeps s u h
  | qadjQueryToLost d a => exact (execQadjQueryToLost_keepsMemory d a).keeps s u h
  | qbind | qbindUn => exact (bindQueue_keepsMemory ..).keeps s u h
  | tmma t a b l => exact (execTmma_keepsMemory t a b l).keeps s u h
  | dmma t a b l => exact (execDmma_keepsMemory t a b l).keeps s u h
  | tbnd t a l => exact (execTbnd_keepsMemory t a l).keeps s u h
  | tcfg w e g x n => exact (execTcfg_keepsMemory w e g x n).keeps s u h
  | tclr k x n => exact (execTclr_keepsMemory k x n).keeps s u h
  | tdrn d a x k l => exact (execTdrn_keepsMemory d a x k l).keeps s u h
  | tstg t b => exact (execTstg_keepsMemory t b).keeps s u h
  | ttbl t a => exact (execTtbl_keepsMemory t a).keeps s u h
  | mapf d a => exact absurd rfl (hmapf d a)
  | _ => cases hword

end Sys2Proof.Machine
end

section
open Sys2Proof Sys2Proof.Machine Sys2Proof.Claim

/-- Settles O44: no word's body touches what holds bytes of memory, and neither does a trap or a wait. -/
theorem wordsLeaveMemoryAlone : Obligations.WordsLeaveMemoryAlone :=
  fun s t _ hword hmapf h => sameMemory_of_memory ((exec_keepsMemory hword hmapf).keeps s t h)

end

section
/-! Page migration (08 R204; 11 R282, R283): what each step of a unit does when it is due, by whether the page's leaf is
still what the request found. -/

namespace Sys2Proof.Machine
open Sys2Proof

variable {s u : State} {unit ecc : Nat} {m : Migration} (hm : s.migrations[unit]? = some m)
include hm

/-- A START in IDLE is judged by the walk of its page (11 R282). -/
theorem exec_migrationStart (hidle : m.state = 0) : exec (.migrationStart unit) s = .next (
    let w := (s.walk m.asid m.va).1
    if m.usable unit w then (s.walked w).mapUnit unit fun m =>
      { m with state := 1, rounds := 0, dirty := [], copying := [], due := false, entry := w.entry, pte := w.pte }
    else (s.walked w).abortMigration unit m w.code) := by
  change execMigrationStart unit s = _
  simp only [execMigrationStart, hm, hidle, ne_eq, not_true_eq_false, if_false]

section
variable (hbusy : s.frameBusy m = false)
include hbusy

theorem exec_migrationCopyDone_leafChanged (hcopy : m.state = 1) (hleaf : s.leafChanged m = true) :
    exec (.migrationCopyDone unit ecc) s = .next ((s.leafRead m).abortMigration unit m 0) := by
  change execMigrationCopyDone unit ecc s = _
  simp [execMigrationCopyDone, hm, hcopy, hbusy, hleaf]

/-- Every line is copied: the lines written meanwhile make the first round. -/
theorem exec_migrationCopyDone_copied (hcopy : m.state = 1) (hleaf : s.leafChanged m = false)
    (hread : (s.leafRead m).streamLines m ecc (List.range (frameBytes m.level m.pte / lineBytes)) = (true, u)) :
    exec (.migrationCopyDone unit ecc) s =
      .next (u.mapUnit unit fun m => { m with state := 2, copying := m.dirty, dirty := [] }) := by
  change execMigrationCopyDone unit ecc s = _
  simp [execMigrationCopyDone, hm, hcopy, hbusy, hleaf, hread]

/-- A round's lines are copied: the freeze falls due, or the lines written meanwhile make the next round. -/
theorem exec_migrationRoundDone_copied (hround : m.state = 2) (hdue : m.due = false) (hleaf : s.leafChanged m = false)
    (hread : (s.leafRead m).streamLines m ecc (m.copying.flatMap m.frameLines) = (true, u)) :
    exec (.migrationRoundDone unit ecc) s = .next (u.mapUnit unit fun m =>
      if m.dirty.length ≤ m.freezeLines ∨ m.roundLimit ≤ m.rounds + 1 then
        { m with rounds := m.rounds + 1, copying := [], due := true }
      else { m with rounds := m.rounds + 1, copying := m.dirty, dirty := [] }) := by
  change execMigrationRoundDone unit ecc s = _
  simp [execMigrationRoundDone, hm, hround, hdue, hbusy, hleaf, hread]

theorem exec_migrationDone_leafChanged (hfreeze : m.state = 3) (hleaf : s.leafChanged m = true) :
    exec (.migrationDone unit) s = .next ((s.leafRead m).abortMigration unit m 0) := by
  change execMigrationDone unit s = _
  simp [execMigrationDone, hm, hfreeze, hbusy, hleaf]

/-- The leaf takes the new frame once the last lines are copied, and the page's translations are dropped. -/
theorem exec_migrationDone_moved (hfreeze : m.state = 3) (hleaf : s.leafChanged m = false)
    (hpoke : ((s.leafRead m).lastCopy m).poke deviceOwner aliasAsid m.entry
      (leBytes 8 (moveLeaf m.pte m.newFrame).toNat) = (.done, u)) :
    exec (.migrationDone unit) s = .next ((((u.tlbiPage m.asid m.va).retarget m).mapUnit unit fun m =>
      { m with state := 0, due := false, dirty := [], copying := [] }).migrationEvent m 0 0) := by
  change execMigrationDone unit s = _
  simp [execMigrationDone, hm, hfreeze, hbusy, hleaf, hpoke]

end

/-- A freeze that is due begins when no operation owns a line of the page (08 R204). -/
theorem exec_migrationFreeze (hround : m.state = 2) (hdue : m.due = true)
    (hreleased : ∀ o ∈ s.owned, m.holds o.asid (o.line * lineBytes) = false) (hleaf : s.leafChanged m = false) :
    exec (.migrationFreeze unit) s = .next ((s.leafRead m).mapUnit unit fun m => { m with state := 3 }) := by
  have hfree : (s.owned.any fun o => m.holds o.asid (o.line * lineBytes)) = false :=
    List.any_eq_false.2 fun o ho => Bool.not_eq_true _ ▸ hreleased o ho
  change execMigrationFreeze unit s = _
  simp [execMigrationFreeze, hm, hround, hdue, hfree, hleaf]

end Sys2Proof.Machine
end

section
open Sys2Proof Sys2Proof.Machine

/-- Settles O34: a unit's step hangs on the state it is in, and there on whether the page's leaf has changed. -/
theorem pagesMigrate : Obligations.PagesMigrate := by
  intro s unit m hm
  refine ⟨fun w hidle hw => ?start, fun ecc u hcopy hbusy => exec_migrationCopyDone_copied hm hbusy hcopy,
    fun ecc u hround hdue hbusy => exec_migrationRoundDone_copied hm hbusy hround hdue, exec_migrationFreeze hm,
    fun v hfreeze hbusy => exec_migrationDone_moved hm hbusy hfreeze, fun _ hbusy hleaf => ?changed⟩
  case start =>
    subst hw
    rw [exec_migrationStart hm hidle]
    exact ⟨fun husable => congrArg _ (if_pos husable), fun hunusable => congrArg _ (if_neg (Bool.eq_false_iff.1 hunusable))⟩
  case changed =>
    exact ⟨fun hcopy ecc => exec_migrationCopyDone_leafChanged hm hbusy hcopy hleaf,
      fun hfreeze => exec_migrationDone_leafChanged hm hbusy hfreeze hleaf⟩

end

section
/-! The commands that a thread gives the block transfer engine (09 R219 to R223; 16 R376, R377; 18 R456, R457). -/

namespace Sys2Proof.Claim
open Sys2Proof Sys2Proof.Machine

variable {s s' : State} {c : Ctx} {args : List (List Nat)}

theorem commandReady_bind {α : Type} (h : 0 < (s.cluster c.crew.cluster).room) (f : Unit → Except Stop α) :
    (c.commandReady s >>= f) = f () := ready_bind (decide_eq_true h) f

theorem exec_xcp {d a : BitVec 7} {x : BitVec 6} {k : BitVec 1} {l : BitVec 4} {v : Nat} (h : Issues s c (.xcp d a x k l) args s')
    (hv : firstArg c args 0 = some v) (hroom : 0 < (s'.cluster c.crew.cluster).room) :
    exec (.xcp d a x k l) s = .next (((s'.giveCommand c .packet (packetOf v x k) 0).2.retireNext c).sendTicket c
      (.xcp d a x k l) (fun _ => .dst d) 4 l.toNat (c.gang.ticket + 1).toNat) := by
  unfold firstArg at hv
  change execXcp d a x k l s = _
  refine h.runOp_ok ?_
  rw [hv]
  exact commandReady_bind hroom _

theorem exec_xqap {d a : BitVec 7} {x : BitVec 6} {k : BitVec 1} {v desc : Nat} (h : Issues s c (.xqap d a x k) args s')
    (hv : firstArg c args 0 = some v) (hdesc : firstArg c args 1 = some desc)
    (hroom : 0 < (s'.cluster c.crew.cluster).room) :
    exec (.xqap d a x k) s = .next ((s'.giveCommand c .xqap (packetOf v x k) desc).2.retireNext c) := by
  unfold firstArg at hv hdesc
  change execXqap d a x k s = _
  refine h.runOp_ok ?_
  rw [hv, hdesc]
  exact commandReady_bind hroom _

theorem exec_grpl {t a b : BitVec 7} {l : BitVec 4} {graph patch w : Nat} (h : Issues s c (.grpl t a b l) args s')
    (hgraph : firstArg c args 0 = some graph) (hpatch : firstArg c args 1 = some patch) (hw : firstArg c args 2 = some w)
    (hroom : 0 < (s'.cluster c.crew.cluster).room) :
    exec (.grpl t a b l) s = .next (((s'.giveCommand c .packet
      (grplPacket graph patch w (c.gang.ticket + 1).toNat c.crew.job) 0).2.retireNext c).sendTicket c (.grpl t a b l)
        (fun _ => .dst64 t) 8 l.toNat (c.gang.ticket + 1).toNat) := by
  unfold firstArg at hgraph hpatch hw
  change execGrpl t a b l s = _
  refine h.runOp_ok ?_
  rw [hgraph, hpatch, hw]
  exact commandReady_bind hroom _

/-- An XCPR issues once its target's registers are free for it, path 4 has room, and so has the cluster's BTE (09 R222). -/
theorem exec_xcpr {d a : BitVec 7} {x : BitVec 6} {k : BitVec 1} {l : BitVec 4} {v n : Nat} {g : Gang}
    (h : Issues s c (.xcpr d a x k l) args s') (hv : firstArg c args 0 = some v)
    (htarget : c.xcprTarget (packetOf v x k) = .ok (n, g)) (hpath : c.gang.ifc 4 < 65535)
    (hroom : 0 < (s'.cluster c.crew.cluster).room) (hscore : n ≠ c.member ∨ c.xcprScore (packetOf v x k) g = true) :
    exec (.xcpr d a x k l) s = .next (((((State.giveCommand { s' with serial := s'.serial + 1 } c .xcpr (packetOf v x k)
        s'.serial).2.mapIssuer c fun g => { g with paths := listModify g.paths 4 (· ++ [⟨s'.serial, false⟩]) }).retireNext
        c).sendTicket c (.xcpr d a x k l) (fun _ => .dst d) 4 l.toNat (c.gang.ticket + 1).toNat).mapGang c.crew.id n
      fun h => h.awaitXcpr s'.serial (xcprReg (packetOf v x k)) (xcprRegs (packetOf v x k) g)) := by
  have hfree : (n != c.member || c.xcprScore (packetOf v x k) g) = true := by simpa [bne_iff_ne] using hscore
  have hpathRoom : c.pathRoom 4 = true := decide_eq_true hpath
  unfold firstArg at hv
  change execXcpr d a x k l s = _
  refine h.runOp_ok ?_
  rw [hv]
  dsimp only
  rw [htarget]
  refine (ready_bind hfree _).trans ((ready_bind hpathRoom _).trans ?_)
  exact commandReady_bind hroom _

/-- XWAIT of a ticket already given waits for the tickets up to it (09 R221). -/
theorem exec_xwait {d a : BitVec 7} {v : Nat} (h : Issues s c (.xwait d a) args s') (hv : firstArg c args 0 = some v)
    (hgiven : ticketUpTo v c.gang.ticket.toNat = true) (hdone : ∀ t ∈ c.gang.tickets, ticketUpTo t v = false) :
    exec (.xwait d a) s = .next (s'.xwaitDone c d) := by
  have hall : (c.gang.tickets.all fun t => !ticketUpTo t v) = true := List.all_eq_true.2 fun t ht => by simp [hdone t ht]
  unfold firstArg at hv
  change execXwait d a s = _
  refine h.runOp_ok ?_
  rw [hv]
  dsimp only [Option.getD_some]
  rw [if_pos hgiven]
  exact ready_bind hall _

theorem exec_xwaitAll {d : BitVec 7} (h : Issues s c (.xwaitAll d) args s') (hdone : c.gang.tickets = []) :
    exec (.xwaitAll d) s = .next (s'.xwaitDone c d) := by
  change execXwaitAll d s = _
  exact h.runOp_ok (ready_bind (List.isEmpty_iff.2 hdone) _)

end Sys2Proof.Claim
end

section
open Sys2Proof Sys2Proof.Machine Sys2Proof.Claim

/-- Settles O11, word by word. -/
theorem commandsComplete : Obligations.CommandsComplete := by
  intro s s' c args
  exact ⟨fun d a x k l v h hv => exec_xcp h hv, fun d a x k v desc h hv hdesc => exec_xqap h hv hdesc,
    fun d a x k l v n g h hv htarget hpath => exec_xcpr h hv htarget hpath,
    fun t a b l graph patch w h hgraph hpatch hw => exec_grpl h hgraph hpatch hw,
    fun d a v h hv hgiven => exec_xwait h hv hgiven, fun d h => exec_xwaitAll h⟩

end

section
/-! Steps of the block transfer engines (09 R229, R234): how a step over the state runs, and what a context slot and its
command are after an update. -/

namespace Sys2Proof.Machine
open Sys2Proof

/-! ### Running a step -/

section
variable {α β : Type} {x : BteM α} {s u : State}

theorem BteM.bind_of_ok {a : α} (h : x s = (.ok a, u)) (f : α → BteM β) : (x >>= f) s = f a u := by
  change (match x s with
    | (r, t) => ExceptT.bindCont f r t) = _
  rw [h]
  rfl

theorem BteM.bind_of_error {e : Halt} (h : x s = (.error e, u)) (f : α → BteM β) : (x >>= f) s = (.error e, u) := by
  change (match x s with
    | (r, t) => ExceptT.bindCont f r t) = _
  rw [h]
  rfl

end

section
variable {s u : State} {r : BteRef} {body : BteM Unit}

theorem State.runCommand_of_ok (h : body s = (.ok (), u)) : s.runCommand r body = u := by
  simp only [State.runCommand, h]

theorem State.runCommand_of_error {e : Halt} (h : body s = (.error e, u)) : s.runCommand r body = u.haltCommand r e := by
  simp only [State.runCommand, h]

theorem State.runLaunch_of_ok (h : body s = (.ok (), u)) : s.runLaunch r body = u := by
  simp only [State.runLaunch, h]

end

/-! ### Slots -/

section
variable {s : State} {c k : Nat} {sl : Slot} {r : BteRef}

theorem State.slot_mapSlot_self (f : Slot → Slot) :
    (s.mapSlot c k f).slot c k = if k < (s.cluster c).slots.length then f (s.slot c k) else freeSlot := by
  simp only [State.slot, State.mapSlot, State.cluster_mapCluster_self, listModify, List.getD_eq_getElem?_getD]
  split
  case isTrue h => simp [h]
  case isFalse h => simp [Nat.not_lt.1 h]

@[simp] theorem State.slotQuiet_mapSlot (d j : Nat) (f : Slot → Slot) : (s.mapSlot c k f).slotQuiet d j = s.slotQuiet d j := rfl

theorem State.command?_eq_some (h : s.command? c k = some (sl, r)) :
    sl = s.slot c k ∧ sl.cmd = some r.cmd ∧ r = ⟨c, k, r.cmd⟩ := by
  unfold State.command? at h
  obtain ⟨cmd, hcmd, heq⟩ := Option.map_eq_some_iff.1 h
  cases heq
  exact ⟨rfl, hcmd, rfl⟩

theorem State.command?_place (h : s.command? c k = some (sl, r)) : c = r.cluster ∧ k = r.slot := by
  obtain ⟨-, -, hr⟩ := State.command?_eq_some h
  exact ⟨(congrArg BteRef.cluster hr).symm, (congrArg BteRef.slot hr).symm⟩

theorem State.active?_of_command (h : s.command? c k = some (sl, r)) (p : Command → Bool) :
    s.active? c k p = if sl.state == .active && p r.cmd then some r else none := by
  simp only [State.active?, h]

theorem State.active?_of_not_active (h : (s.slot c k).state ≠ .active) (p : Command → Bool) : s.active? c k p = none := by
  cases hcmd : s.command? c k with
  | none => simp only [State.active?, hcmd]
  | some x =>
    obtain ⟨hsl, -, -⟩ := State.command?_eq_some hcmd
    rw [State.active?_of_command hcmd, hsl, beq_eq_false_iff_ne.2 h]
    rfl

end

/-! ### A command that ends (09 R223, R234) -/

section
variable {s t : State} {c k status : Nat} {r : BteRef}

theorem State.slot_congr (h : t.clusters = s.clusters) : t.slot c k = s.slot c k := by
  simp only [State.slot, State.cluster, h]

@[simp] theorem State.clusters_dropLaunch (cmd : Command) (sl : Slot) : (s.dropLaunch cmd sl).clusters = s.clusters := by
  unfold State.dropLaunch
  split
  · rfl
  · generalize sl.ranks = ls
    induction ls generalizing s with
    | nil => rfl
    | cons l ls ih => exact ih

@[simp] theorem State.clusters_endXcpr (cmd : Command) : (s.endXcpr cmd).clusters = s.clusters := by
  unfold State.endXcpr
  split <;> rfl

/-- A slot whose command has ended: COMPLETING, with the status, and last in the order of completions. -/
def Slot.ended (sl : Slot) (status order : Nat) : Slot :=
  { sl with state := .completing, wait := .none, status := status, ranks := [], order := order }

theorem State.slot_endCommand (h : r.cmd.kind ≠ .xqap) : ∃ n, (s.endCommand r status).slot r.cluster r.slot =
    if r.slot < (s.cluster r.cluster).slots.length then (s.slot r.cluster r.slot).ended status n else freeSlot := by
  have hxqap : (r.cmd.kind == .xqap) = false := by simpa using h
  let d : State := s.dropLaunch r.cmd (s.slot r.cluster r.slot)
  have hd : d.clusters = s.clusters := State.clusters_dropLaunch ..
  refine ⟨d.serial, ?_⟩
  unfold State.endCommand
  dsimp only
  rw [hxqap, Bool.false_and, if_neg Bool.false_ne_true, State.slot_congr (State.clusters_endXcpr _), State.slot_mapSlot_self]
  change (if r.slot < (d.cluster r.cluster).slots.length then (d.slot r.cluster r.slot).ended status d.serial else freeSlot) = _
  rw [State.slot_congr hd, State.cluster, State.cluster, hd]

/-- A command that has ended is no longer ACTIVE. -/
theorem State.active?_endCommand (h : r.cmd.kind ≠ .xqap) (p : Command → Bool) :
    (s.endCommand r status).active? r.cluster r.slot p = none := by
  obtain ⟨n, hslot⟩ := State.slot_endCommand (s := s) (status := status) h
  refine State.active?_of_not_active ?_ p
  rw [hslot]
  split
  case isTrue => exact nofun
  case isFalse => exact nofun

end

end Sys2Proof.Machine
end

section
/-! How a command comes to a context slot (09 R214 to R218, R223; 19 R460): acceptance, looks of the shared queues, writes of a
queue's entry, and appends. -/

namespace Sys2Proof.Machine
open Sys2Proof

variable {s u v : State} {cluster : Nat}

/-! ### Acceptance (09 R218) -/

/-- The cluster's round-robin has come to a command, which leaves those that wait. -/
def State.takeCommand (s : State) (cluster : Nat) (cmd : Command) : State := s.mapCluster cluster fun cl =>
  { cl with
    turn := cmd.sourceNo
    inbox := if cmd.sourceNo = 0 then cl.inbox.erase cmd else cl.inbox
    pending := if cmd.sourceNo = 0 then cl.pending else cl.pending.erase cmd }

theorem exec_packetAccept {k : Nat} {cmd : Command} (hnext : s.nextCommand cluster = some cmd)
    (hfree : ((List.range 16).find? fun k => (s.slot cluster k).state == .free) = some k) :
    exec (.packetAccept cluster) s = .next ((s.takeCommand cluster cmd).acceptAt cluster k cmd) := by
  change execPacketAccept cluster s = _
  simp only [execPacketAccept, hnext, hfree]
  rfl

/-- A malformed packet ends in its slot as it is accepted (09 R211). -/
theorem State.acceptAt_malformed {k : Nat} {cmd : Command} (hkind : cmd.kind ≠ .xqap)
    (hbad : packetStatus cmd.packet (cmd.kind == .xcpr) ≠ 0) :
    s.acceptAt cluster k cmd = (State.mapSlot { s with serial := s.serial + 1 } cluster k fun _ =>
      { freeSlot with state := .active, cmd := some cmd, since := s.clock.toNat, order := s.serial }).endCommand
        ⟨cluster, k, cmd⟩ (packetStatus cmd.packet (cmd.kind == .xcpr)) := by
  have hput : s.putAt cluster k cmd = (State.mapSlot { s with serial := s.serial + 1 } cluster k fun _ =>
      { freeSlot with state := .active, cmd := some cmd, since := s.clock.toNat, order := s.serial }).endCommand
        ⟨cluster, k, cmd⟩ (packetStatus cmd.packet (cmd.kind == .xcpr)) := by
    simp only [State.putAt, beq_eq_false_iff_ne.2 hkind, Bool.false_eq_true, if_false, if_pos hbad]
  unfold State.acceptAt
  rw [hput]
  dsimp only
  rw [State.active?_endCommand (r := ⟨cluster, k, cmd⟩) hkind]

/-! ### Looks of a queue (09 R215 to R217) -/

/-- A look has read what it asked other devices for. -/
def State.lookRead (s : State) (looker : FarUser) : State :=
  { s with farOps := s.farOps.filter fun o => !(o.user == looker && o.kind == 0) }

/-- What a look does with what it reads: a packet that bears its stamp and may start is consumed; false says that the
descriptor breaks R214. -/
def bteLookOnce (r : BteRef) (c q addr : Nat) : BteM Bool := do
  match ← bteLook r addr with
  | none => return false
  | some (d, p) =>
    if bitsOf (dbl p 0) 16 16 == d.stamp d.rd && (← get).mayStart c q p then bteConsume r q addr d p
    return true

theorem bteLookOnce_broken {r : BteRef} {q addr : Nat} (h : bteLook r addr s = (.ok none, u)) :
    bteLookOnce r cluster q addr s = (.ok false, u) := BteM.bind_of_ok h _

theorem bteLookOnce_consumes {r : BteRef} {q addr : Nat} {d : QueueDesc} {p : List Double}
    (hlook : bteLook r addr s = (.ok (some (d, p)), u)) (hstamp : bitsOf (dbl p 0) 16 16 = d.stamp d.rd)
    (hstart : u.mayStart cluster q p = true) (hconsume : bteConsume r q addr d p u = (.ok (), v)) :
    bteLookOnce r cluster q addr s = (.ok true, v) := by
  refine (BteM.bind_of_ok hlook _).trans ?_
  dsimp only
  refine (BteM.bind_of_ok (a := u) (u := u) rfl _).trans ?_
  rw [if_pos (by simp [hstamp, hstart])]
  exact BteM.bind_of_ok hconsume _

/-- A descriptor that breaks R214, or an address outside every space, clears ENABLE. -/
def State.clearEnable (s : State) (c q : Nat) : State := s.mapQueue c q fun e => { e with desc := e.desc &&& ~~~1 }

/-- A fault at a queue's descriptor keeps the queue from being served until it resumes (11 R480). -/
def State.queueFault (s : State) (c q asid code va : Nat) : State :=
  (s.mapQueue c q fun e => { e with faulted := true }).postEvent (faultEvent (0x9000 + 16 * c + q) asid code va)

/-- What a look leaves, by how it ended. -/
def lookEnds (r : BteRef) (c q : Nat) : Except Halt Bool × State → State
  | (.ok true, s) => s.lookRead r.looker
  | (.ok false, s) | (.error (.stop _), s) => (s.lookRead r.looker).clearEnable c q
  | (.error (.fault code va), s) => (s.lookRead r.looker).queueFault c q r.cmd.asid code va
  | (.error _, s) => s

/-- A look of a served queue, when nothing of it is on its way to another device. -/
theorem State.lookQueue_eq {q : Nat} (hon : (s.queueEntry cluster q).desc.getLsbD 0 = true)
    (hfault : (s.queueEntry cluster q).faulted = false) (hroom : (s.cluster cluster).room ≠ 0)
    (hfar : ∀ o ∈ s.farOps, o.user ≠ (s.lookRef cluster q).looker) :
    s.lookQueue cluster q = lookEnds (s.lookRef cluster q) cluster q
      (bteLookOnce (s.lookRef cluster q) cluster q (s.queueEntry cluster q).addr s) := by
  have hquiet (f : FarOp → Bool) : (s.farOps.any fun o => o.user == (s.lookRef cluster q).looker && f o) = false :=
    List.any_eq_false.2 fun o ho => by simp [hfar o ho]
  simp only [State.lookQueue, hon, hfault, hroom, hquiet, Bool.and_assoc, decide_false, Bool.not_true, Bool.or_false,
    Bool.false_eq_true, if_false]
  rfl

/-! ### Writes of a queue's entry (09 R214, R215) -/

/-- The entry that a write of its double 0 makes. -/
def State.writeEntry (s : State) (cluster entry : Nat) (value : Double) : State :=
  (s.farDone (.look cluster entry)).mapQueue cluster entry fun e => { e with desc := value &&& ~~~0x3E, faulted := false }

/-- Whether the descriptor at an address keeps R214. -/
def bteKeeps (r : BteRef) (addr : Nat) : BteM Bool := do
  match (← get).btePlace r addr 64 with
  | none => return false
  | some _ => return (queueDesc (← bteBytes r addr 64)).ok

/-- What the check of an enabled entry leaves, by how it ended. -/
def entryEnds (r : BteRef) (cluster entry : Nat) : Except Halt Bool × State → State
  | (.ok false, s) => s.clearEnable cluster entry
  | (.error (.fault code va), s) => s.queueFault cluster entry r.cmd.asid code va
  | (_, s) => s

theorem exec_queueTableWrite_disabled {entry : Nat} {value : Double} (h : value.getLsbD 0 = false) :
    exec (.queueTableWrite cluster entry value) s = .next (s.writeEntry cluster entry value) := by
  change execQueueTableWrite cluster entry value s = _
  simp only [execQueueTableWrite, h]
  rfl

theorem exec_queueTableWrite_enabled {entry : Nat} {value : Double} (h : value.getLsbD 0 = true) :
    exec (.queueTableWrite cluster entry value) s =
      let w := s.writeEntry cluster entry value
      .next (entryEnds (w.lookRef cluster entry) cluster entry
        (bteKeeps (w.lookRef cluster entry) (w.queueEntry cluster entry).addr w)) := by
  change execQueueTableWrite cluster entry value s = _
  simp only [execQueueTableWrite, h]
  rfl

theorem bteKeeps_of_nowhere {r : BteRef} {addr : Nat} (h : s.btePlace r addr 64 = none) :
    bteKeeps r addr s = (.ok false, s) := by
  refine (BteM.bind_of_ok (a := s) (u := s) rfl _).trans ?_
  rw [h]
  rfl

theorem bteKeeps_of_read {r : BteRef} {addr : Nat} {place : Place} {bs : List Byte}
    (hplace : s.btePlace r addr 64 = some place) (hread : bteBytes r addr 64 s = (.ok bs, u)) :
    bteKeeps r addr s = (.ok (queueDesc bs).ok, u) := by
  refine (BteM.bind_of_ok (a := s) (u := s) rfl _).trans ?_
  rw [hplace]
  exact BteM.bind_of_ok hread _

theorem bteKeeps_of_error {r : BteRef} {addr : Nat} {place : Place} {e : Halt}
    (hplace : s.btePlace r addr 64 = some place) (hread : bteBytes r addr 64 s = (.error e, u)) :
    bteKeeps r addr s = (.error e, u) := by
  refine (BteM.bind_of_ok (a := s) (u := s) rfl _).trans ?_
  rw [hplace]
  exact BteM.bind_of_error hread _

/-- When a queue's descriptor keeps R214: its LOG2, its SCOPE, its reserved bits, and the alignment of its slots. -/
theorem queueDesc_ok_iff (bs : List Byte) : (queueDesc bs).ok = true ↔
    2 ≤ bitsOf (dbl (doublesOf bs) 1) 0 5 ∧ bitsOf (dbl (doublesOf bs) 1) 0 5 ≤ 16 ∧
    3 ≤ bitsOf (dbl (doublesOf bs) 1) 5 3 ∧ bitsOf (dbl (doublesOf bs) 1) 5 3 ≤ 6 ∧
    bitsOf (dbl (doublesOf bs) 1) 8 56 = 0 ∧
    (dbl (doublesOf bs) 0).toNat % (64 * 2 ^ bitsOf (dbl (doublesOf bs) 1) 0 5) = 0 := by
  simp [queueDesc, and_assoc]

theorem State.clearEnable_desc (entry : Nat) : ((s.clearEnable cluster entry).queueEntry cluster entry).desc.getLsbD 0 = false := by
  simp only [State.queueEntry, State.clearEnable, State.mapQueue, State.cluster_mapCluster_self, listModify,
    List.getD_eq_getElem?_getD, List.getElem?_modify]
  cases (s.cluster cluster).queues[entry]? <;> simp

/-! ### Appends (09 R223) -/

/-- A slot that goes on from a claim or from a wait for its queue's slot. -/
def Slot.appending (sl k : Slot) : Slot :=
  { k with state := .active, wait := .none, fetched := if sl.wait == .slotRoom then [] else k.fetched }

theorem exec_xqapAppend {slot : Nat} {sl : Slot} {r : BteRef} (hcmd : s.command? cluster slot = some (sl, r))
    (hkind : r.cmd.kind = .xqap) (hgo : sl.state = .active ∨ (sl.state = .waiting ∧ sl.wait = .slotRoom)) :
    exec (.xqapAppend cluster slot) s = .next ((s.mapSlot cluster slot sl.appending).runCommand r (bteAppend r)) := by
  have hgo : (r.cmd.kind == .xqap && (sl.state == .active || (sl.state == .waiting && sl.wait == .slotRoom))) = true := by
    simpa [hkind] using hgo
  change execXqapAppend cluster slot s = _
  simp only [execXqapAppend, hcmd]
  rw [if_pos hgo]
  rfl

end Sys2Proof.Machine
end

section
open Sys2Proof Sys2Proof.Machine

/-- Settles O29: a command is taken in its turn, a look ends by what it reads, and a write of an entry by the descriptor it
names. -/
theorem commandsAreAccepted : Obligations.CommandsAreAccepted := by
  refine ⟨fun s cluster k cmd hnext hfree => ?accept, fun s cluster k cmd => State.acceptAt_malformed,
    fun s cluster entry => rfl, fun s u v cluster q d p hon hfault hroom hfar hlook hstamp hstart hconsume => ?consume,
    fun s cluster entry value => exec_queueTableWrite_disabled, fun s u cluster entry value bs henable => ?enable,
    fun s u cluster q hon hfault hroom hfar hlook => ?broken,
    fun s cluster slot sl r hcmd hkind => exec_xqapAppend hcmd hkind⟩
  case accept =>
    refine ⟨s.takeCommand cluster cmd, exec_packetAccept hnext hfree, rfl, ?_, ?_⟩
    · rw [State.takeCommand, State.cluster_mapCluster_self]
    · rw [State.takeCommand, State.cluster_mapCluster_self]
  case consume =>
    have hlooks : s.lookQueue cluster q = v.lookRead (s.lookRef cluster q).looker := by
      rw [State.lookQueue_eq hon hfault hroom hfar, bteLookOnce_consumes hlook hstamp hstart hconsume]
      rfl
    exact ⟨congrArg _ hlooks, congrArg _ hlooks⟩
  case broken =>
    have hlooks : s.lookQueue cluster q = (u.lookRead (s.lookRef cluster q).looker).clearEnable cluster q := by
      rw [State.lookQueue_eq hon hfault hroom hfar, bteLookOnce_broken hlook]
      rfl
    exact congrArg _ hlooks
  case enable =>
    intro w r addr clear log2 scope keeps
    have hexec : exec (.queueTableWrite cluster entry value) s = .next (entryEnds r cluster entry (bteKeeps r addr w)) :=
      exec_queueTableWrite_enabled henable
    rw [hexec]
    refine ⟨fun place hplace hread => ?_, fun hplace => ?_, fun code va ⟨place, hplace⟩ hread => ?_⟩
    · rw [bteKeeps_of_read hplace hread]
      refine ⟨fun hkeeps => ?_, fun hbreaks => ⟨?_, State.clearEnable_desc entry⟩⟩
      · rw [(queueDesc_ok_iff bs).2 hkeeps]
        rfl
      · rw [Bool.eq_false_iff.2 (mt (queueDesc_ok_iff bs).1 hbreaks)]
        rfl
    · rw [bteKeeps_of_nowhere hplace]
      rfl
    · rw [bteKeeps_of_error hplace hread]
      rfl

end

section
/-! A counterexample to the frame clause of O30 (08 R194, R198; 09 R234): a command that ends while a write it has posted to
another device is still to be performed keeps the lines it owns. -/

namespace Sys2Proof.Machine
open Sys2Proof

/-- Only a LAUNCH or a GRAPH can hold a launch slot (10 R246). -/
theorem State.dropLaunch_of_type {s : State} {cmd : Command} (hlaunch : pktType cmd.packet ≠ 2)
    (hgraph : pktType cmd.packet ≠ 3) (sl : Slot) : s.dropLaunch cmd sl = s :=
  if_pos (by simp [hlaunch, hgraph])

@[simp] theorem State.owned_endXcpr (s : State) (cmd : Command) : (s.endXcpr cmd).owned = s.owned := by
  unfold State.endXcpr
  split <;> rfl

/-- A transform that ends while something it has sent is still on its way gives up none of its lines. -/
theorem State.owned_endCommand_of_sent {s : State} {r : BteRef} (hty : pktType r.cmd.packet = 1)
    (hsent : s.slotQuiet r.cluster r.slot = false) (status : Nat) : (s.endCommand r status).owned = s.owned := by
  unfold State.endCommand
  rw [State.dropLaunch_of_type (by simp [hty]) (by simp [hty])]
  simp only [hsent, Bool.and_false, Bool.false_eq_true, if_false, State.owned_endXcpr]
  exact List.filter_true _

end Sys2Proof.Machine

namespace Sys2Proof.Claim
open Sys2Proof Sys2Proof.Machine

/-- A COPY of one element by thread 0 of crew 0. -/
def sentCommand : Command := ⟨.packet, [1, 0, 0, 0, 0, 0, 0, 0], .thread 0 0 1, 4095, 0, some 0, some 0, 0, [0], 0⟩

def sentSlot : Slot := { freeSlot with state := .active, cmd := some sentCommand }

/-- The line that slot 0 of cluster 0 owns. -/
def sentLine : Owned := ⟨4095, 0, slotOwner 0 0⟩

/-- Slot 0 of cluster 0 runs the COPY, owns a line, and has a write to device 1 outstanding. -/
def sentState : State := { State.reset with
  clusters := [(0, { noCluster with slots := sentSlot :: List.replicate 15 freeSlot })]
  owned := [sentLine]
  messages := [⟨6, .slot 0 0 0, none, 1, 1, 0, 0, 128, [], 0, 0, 0, .outstanding, 0⟩] }

theorem sentState_command : sentState.command? 0 0 = some (sentSlot, ⟨0, 0, sentCommand⟩) := rfl

theorem sentState_owned (status : Nat) : (sentState.endCommand ⟨0, 0, sentCommand⟩ status).owned = [sentLine] :=
  State.owned_endCommand_of_sent (r := ⟨0, 0, sentCommand⟩) (by decide) (by decide) status

end Sys2Proof.Claim
end

section
open Sys2Proof Sys2Proof.Machine Sys2Proof.Claim

/-- Refutes O30: a COPY that ends while a write it has posted is still outstanding keeps its line (08 R194, R198), which the
statement's second part says no command does that ends. -/
theorem not_transformsRun : ¬ Obligations.TransformsRun := by
  rintro ⟨-, hends, -⟩
  obtain ⟨-, -, -, hended⟩ := hends sentState sentState 0 0 sentSlot ⟨0, 0, sentCommand⟩ sentState_command rfl rfl (by decide)
  obtain ⟨-, -, -, -, -, howned, -⟩ := hended sentSlot 0 sentState_command
  exact howned sentLine (by rw [sentState_owned]; exact List.mem_singleton_self _) rfl

end

section
/-! The other commands of the block transfer engines (09 R213, R231, R234; 10 R245, R246, R251 to R253): what each step does
with the command of its slot, which `h` names. -/

namespace Sys2Proof.Machine
open Sys2Proof

variable {s u v : State} {sl : Slot} {r : BteRef}

theorem State.typeStep_eq (h : s.command? r.cluster r.slot = some (sl, r)) (hactive : sl.state = .active)
    (hkind : r.cmd.kind = .packet) {ty : Nat} (hty : pktType r.cmd.packet = ty) (body : BteRef → BteM Unit) :
    s.typeStep r.cluster r.slot ty body = s.runCommand r (body r) := by
  simp [State.typeStep, State.active?_of_command h, hactive, hkind, hty]

/-! ### WAITVAL (09 R213) -/

theorem exec_waitval (h : s.command? r.cluster r.slot = some (sl, r)) (hactive : sl.state = .active)
    (hkind : r.cmd.kind = .packet) (hty : pktType r.cmd.packet = 4) :
    exec (.waitval r.cluster r.slot) s = .next (s.runCommand r (bteWaitval r)) :=
  congrArg _ (State.typeStep_eq h hactive hkind hty bteWaitval)

/-- A WAITVAL ends, or waits, by the double it reads. -/
theorem bteWaitval_eq {x : Nat} (hread : bteDouble r (dbl r.cmd.packet 1).toNat
    (s.mapSlot r.cluster r.slot fun k => { k with readAt := s.clock.toNat }) = (.ok x, u)) :
    bteWaitval r s = (.error (if waitHolds r.cmd.packet x then .stop 0 else .wait .value), u) := by
  refine (BteM.bind_of_ok (a := ()) rfl _).trans ((BteM.bind_of_ok hread _).trans ?_)
  cases waitHolds r.cmd.packet x <;> rfl

section
variable (h : s.command? r.cluster r.slot = some (sl, r)) (hwait : sl.state = .waiting)
include h hwait

theorem State.valueWait?_eq (hvalue : sl.wait = .value) : s.valueWait? r.cluster r.slot = some (sl, r) := by
  simp [State.valueWait?, h, hwait, hvalue]

theorem exec_waitvalRead (hvalue : sl.wait = .value) : exec (.waitvalRead r.cluster r.slot) s =
    .next ((s.mapSlot r.cluster r.slot fun k =>
      { k with state := .active, wait := .none, reread := false, fetched := [] }).runCommand r (bteWaitval r)) := by
  change execWaitvalRead _ _ s = _
  simp only [execWaitvalRead, State.valueWait?_eq h hwait hvalue]

/-- A WAITVAL whose time has run out since a recent read ends with TIMEOUT, unless its double in local memory holds now. -/
theorem exec_waitvalTimeout (hvalue : sl.wait = .value) (htime : bitsOf (dbl r.cmd.packet 4) 32 32 ≠ 0)
    (hread : sl.reread = false) (hrecent : s.clock.toNat ≤ sl.readAt + 4096)
    (hover : sl.since + 1024 * bitsOf (dbl r.cmd.packet 4) 32 32 ≤ s.clock.toNat) :
    exec (.waitvalTimeout r.cluster r.slot) s = .next (s.endCommand r (if s.localHolds r then 0 else 5)) := by
  have hdue : s.waitvalDue sl r = true := by simp [State.waitvalDue, htime, hover]
  change execWaitvalTimeout _ _ s = _
  simp [execWaitvalTimeout, State.valueWait?_eq h hwait hvalue, hdue, hread, hrecent]

end

/-! ### SIGNAL (09 R213) -/

theorem exec_signal (h : s.command? r.cluster r.slot = some (sl, r)) (hactive : sl.state = .active)
    (hkind : r.cmd.kind = .packet) (hty : pktType r.cmd.packet = 5) :
    exec (.signal r.cluster r.slot) s = .next (s.runCommand r (bteSignal r)) :=
  congrArg _ (State.typeStep_eq h hactive hkind hty bteSignal)

theorem bteFinish_of_quiet (h : s.slotQuiet r.cluster r.slot = true) : bteFinish r s = (.error (.stop 0), s) := by
  refine (BteM.bind_of_ok (a := s) (u := s) rfl _).trans ?_
  rw [if_pos h]
  rfl

theorem bteSignal_nowhere (haddr : (dbl r.cmd.packet 1).toNat = 0) : bteSignal r s = (.error (.stop 0), s) := by
  unfold bteSignal
  dsimp only
  rw [if_pos haddr]
  exact BteM.bind_of_error rfl _

/-- A SIGNAL that has made its write ends once nothing of it is on its way. -/
theorem bteSignal_wrote (hquiet : u.slotQuiet r.cluster r.slot = true) :
    (do bteMap r fun k => { k with next := 1, bytes := 8 }
        bteFinish r : BteM Unit) u =
      (.error (.stop 0), u.mapSlot r.cluster r.slot fun k => { k with next := 1, bytes := 8 }) :=
  (BteM.bind_of_ok (a := ()) rfl _).trans (bteFinish_of_quiet hquiet)

section
variable (haddr : (dbl r.cmd.packet 1).toNat ≠ 0) (hnext : (s.slot r.cluster r.slot).next = 0)
include haddr hnext

theorem bteSignal_stores (hput : (dbl r.cmd.packet 3).getLsbD 0 = false)
    (hstore : bteStore r (dbl r.cmd.packet 1).toNat (leBytes 8 (dbl r.cmd.packet 2).toNat) s = (.ok (), u))
    (hquiet : u.slotQuiet r.cluster r.slot = true) :
    bteSignal r s = (.error (.stop 0), u.mapSlot r.cluster r.slot fun k => { k with next := 1, bytes := 8 }) := by
  unfold bteSignal
  dsimp only
  rw [if_neg haddr]
  refine (BteM.bind_of_ok (a := s.slot r.cluster r.slot) (u := s) rfl _).trans ?_
  rw [if_pos hnext, if_neg (Bool.eq_false_iff.1 hput)]
  exact (BteM.bind_of_ok hstore _).trans (bteSignal_wrote hquiet)

theorem bteSignal_adds {x : Nat} (hadd : (dbl r.cmd.packet 3).getLsbD 0 = true)
    (hread : (bteRemote r (dbl r.cmd.packet 1).toNat 8 >>= fun _ => bteDouble r (dbl r.cmd.packet 1).toNat) s = (.ok x, u))
    (hhere : (bteRemote r (dbl r.cmd.packet 1).toNat 8 s).1 = .ok none)
    (hstore : bteStore r (dbl r.cmd.packet 1).toNat (leBytes 8 (x + (dbl r.cmd.packet 2).toNat)) u = (.ok (), v))
    (hquiet : v.slotQuiet r.cluster r.slot = true) :
    bteSignal r s = (.error (.stop 0), v.mapSlot r.cluster r.slot fun k => { k with next := 1, bytes := 8 }) := by
  obtain ⟨t, ht⟩ : ∃ t, bteRemote r (dbl r.cmd.packet 1).toNat 8 s = (.ok none, t) := ⟨_, Prod.ext hhere rfl⟩
  have hdouble : bteDouble r (dbl r.cmd.packet 1).toNat t = (.ok x, u) := (BteM.bind_of_ok ht _).symm.trans hread
  unfold bteSignal
  dsimp only
  rw [if_neg haddr]
  refine (BteM.bind_of_ok (a := s.slot r.cluster r.slot) (u := s) rfl _).trans ?_
  rw [if_pos hnext, if_pos hadd]
  refine (BteM.bind_of_ok ht _).trans ((BteM.bind_of_ok hdouble _).trans ?_)
  exact (BteM.bind_of_ok hstore _).trans (bteSignal_wrote hquiet)

end

/-! ### LAUNCH and GRAPH (10 R245, R246, R251 to R253) -/

theorem State.launchStep_eq (h : s.command? r.cluster r.slot = some (sl, r)) (hactive : sl.state = .active)
    (hkind : r.cmd.kind = .packet) (hty : pktType r.cmd.packet = 2) :
    s.launchStep r.cluster r.slot = s.runLaunch r (bteLaunch r) := by
  simp [State.launchStep, State.active?_of_command h, hactive, hkind, hty]

/-- A GRAPH goes on unless the launch it holds makes no more pushes (10 R246). -/
theorem State.pushes_of_forall (h : ∀ l, sl.launchNo = some l → s.launchOpen l = true) :
    (sl.launchNo.map s.launchOpen).getD true = true := by
  cases hl : sl.launchNo with
  | none => rfl
  | some l => exact h l hl

section
variable (h : s.command? r.cluster r.slot = some (sl, r)) (hkind : r.cmd.kind = .packet) (hty : pktType r.cmd.packet = 3)
  (hpush : ∀ l, sl.launchNo = some l → s.launchOpen l = true)
include h hkind hty hpush

theorem State.graphStep_of_active (hactive : sl.state = .active) (ws : List SlotWait) :
    s.graphStep r.cluster r.slot ws =
      (s.mapSlot r.cluster r.slot fun k => { k with state := .active, wait := .none }).runLaunch r (bteGraph r) := by
  simp only [State.graphStep, h]
  rw [if_pos (by simp [hkind, hty, hactive, State.pushes_of_forall hpush]), hactive]
  rfl

theorem State.graphStep_of_waiting (hwait : sl.state = .waiting) (hquiet : s.slotQuiet r.cluster r.slot = true)
    {ws : List SlotWait} (hws : ws.contains sl.wait = true) :
    s.graphStep r.cluster r.slot ws =
      (s.mapSlot r.cluster r.slot fun k => { k with state := .active, wait := .none, fetched := [] }).runLaunch r
        (bteGraph r) := by
  simp only [State.graphStep, h]
  rw [if_pos (by simp [hkind, hty, hwait, hquiet, List.contains_iff_mem.1 hws, State.pushes_of_forall hpush]), hwait]
  rfl

end

theorem exec_launchSlotGrant (h : s.command? r.cluster r.slot = some (sl, r)) (hwait : sl.state = .waiting)
    (hslot : sl.wait = .launchSlot) : exec (.launchSlotGrant r.cluster r.slot) s = .next
      (if pktType r.cmd.packet = 3 then s.graphStep r.cluster r.slot [.launchSlot]
      else (s.mapSlot r.cluster r.slot fun k => { k with state := .active, wait := .none }).launchStep r.cluster r.slot) := by
  change execLaunchSlotGrant _ _ s = _
  simp [execLaunchSlotGrant, h, hwait, hslot]

/-! ### Completion records (09 R231) -/

theorem exec_completionRecordWrite (h : s.command? r.cluster r.slot = some (sl, r)) (hdone : sl.state = .completing) :
    exec (.completionRecordWrite r.cluster r.slot) s = .next (s.writeRecord sl r) := by
  change execCompletionRecordWrite _ _ s = _
  simp [execCompletionRecordWrite, h, hdone]

section
variable (hwait : sl.wait = .none)
include hwait

theorem State.writeRecord_of_busy (hbusy : s.slotQuiet r.cluster r.slot = false) : s.writeRecord sl r = s := by
  simp [State.writeRecord, hwait, hbusy]

theorem State.writeRecord_of_noRecord (hquiet : s.slotQuiet r.cluster r.slot = true) (hno : s.noRecord sl r = true) :
    s.writeRecord sl r = s.releaseSlot r.cluster r.slot := by
  simp [State.writeRecord, hwait, hquiet, hno]

theorem State.writeRecord_of_stored (hquiet : s.slotQuiet r.cluster r.slot = true) (hsome : s.noRecord sl r = false)
    (hroom : (s.ring r.cmd.ring).roomy = true) (hturn : s.ringBusy r = false)
    (hstore : bteStore (s.recorder r) (s.ring r.cmd.ring).next
      (bytesOfDoubles (sl.record r.cmd.packet (s.ring r.cmd.ring).phase s.clock)) s = (.ok (), u))
    (hperformed : u.slotQuiet r.cluster r.slot = true) : s.writeRecord sl r = u.recordDone sl r := by
  simp [State.writeRecord, hwait, hquiet, hsome, hroom, hturn, hstore, hperformed]

end

end Sys2Proof.Machine
end

section
open Sys2Proof Sys2Proof.Machine

/-- Settles O31, step by step. -/
theorem queueCommandsRun : Obligations.QueueCommandsRun := by
  intro s cluster slot sl r h
  obtain ⟨rfl, rfl⟩ := State.command?_place h
  have hnext : sl.next = (s.slot r.cluster r.slot).next := congrArg Slot.next (State.command?_eq_some h).1
  intro p again afresh pushes
  refine ⟨fun hactive hkind => ⟨fun hty => ⟨rfl, fun u hrun => ?launch⟩, fun hty hpush => ⟨?graph, fun u hrun => ?graphRuns⟩,
      fun hty => ⟨exec_waitval h hactive hkind hty, fun x u hread => ?waitval⟩,
      fun hty => ⟨exec_signal h hactive hkind hty, fun haddr => ?nowhere, fun u haddr h0 hput hstore hquiet => ?stores,
        fun u v x haddr h0 hadd hread hhere hstore hquiet => ?adds⟩⟩,
    fun hwait hvalue => ⟨exec_waitvalRead h hwait hvalue, exec_waitvalTimeout h hwait hvalue⟩,
    fun hwait hkind hty hquiet hpush => ?resumes, fun hwait hslot hty => ?grant, fun _ _ => rfl,
    fun hdone => ⟨exec_completionRecordWrite h hdone, fun hwait hbusy => ?busy, fun hwait hquiet hno => ?noRecord,
      fun u hwait hquiet hsome hroom hturn hstore hperformed => ?stored⟩⟩
  case launch =>
    exact congrArg _ ((State.launchStep_eq h hactive hkind hty).trans (State.runLaunch_of_ok hrun))
  case graph => exact congrArg _ (State.graphStep_of_active h hkind hty hpush hactive _)
  case graphRuns =>
    exact congrArg _ ((State.graphStep_of_active h hkind hty hpush hactive _).trans (State.runLaunch_of_ok hrun))
  case waitval =>
    rw [exec_waitval h hactive hkind hty, State.runCommand_of_error (bteWaitval_eq hread)]
    exact ⟨fun hholds => by rw [if_pos hholds]; rfl, fun hfails => by rw [if_neg (Bool.eq_false_iff.1 hfails)]; rfl⟩
  case nowhere =>
    rw [exec_signal h hactive hkind hty, State.runCommand_of_error (bteSignal_nowhere haddr)]
    rfl
  case stores =>
    rw [exec_signal h hactive hkind hty,
      State.runCommand_of_error (bteSignal_stores haddr (hnext.symm.trans h0) hput hstore hquiet)]
    rfl
  case adds =>
    rw [exec_signal h hactive hkind hty,
      State.runCommand_of_error (bteSignal_adds haddr (hnext.symm.trans h0) hadd hread hhere hstore hquiet)]
    rfl
  case resumes =>
    have hgo {w : SlotWait} (hw : sl.wait = w) : s.graphStep r.cluster r.slot [w] = afresh.runLaunch r (bteGraph r) :=
      State.graphStep_of_waiting h hkind hty hpush hwait hquiet (by simp [hw])
    refine ⟨fun hw => congrArg _ (hgo hw), fun hw => congrArg _ (hgo hw), fun hw => ?_, fun hw => congrArg _ (hgo hw)⟩
    rw [exec_launchSlotGrant h hwait hw, if_pos hty, hgo hw]
  case grant => rw [exec_launchSlotGrant h hwait hslot, if_neg hty]
  case busy => rw [exec_completionRecordWrite h hdone, State.writeRecord_of_busy hwait hbusy]
  case noRecord => rw [exec_completionRecordWrite h hdone, State.writeRecord_of_noRecord hwait hquiet hno]
  case stored =>
    rw [exec_completionRecordWrite h hdone,
      State.writeRecord_of_stored hwait hquiet hsome hroom hturn hstore hperformed]

end

section
/-! Completion rings (09 R228 to R233): what a ring holds once it is written, once a record is in it, and once its interrupt is
raised; and the drain of the event buffer into ring 63. -/

namespace Sys2Proof.Machine
open Sys2Proof

variable {s : State} {n m : Nat}

/-! ### A ring after an update -/

@[simp] theorem State.ring_mapRing_self (f : Ring → Ring) : (s.mapRing n f).ring n = f (s.ring n) := tabGet_put_self ..

theorem State.ring_mapRing_other (hm : m ≠ n) (f : Ring → Ring) : (s.mapRing n f).ring m = s.ring m :=
  tabGet_put_other _ _ _ _ _ _ hm

@[simp] theorem State.ring_noteWindow (off : Nat) : (s.noteWindow off).ring n = s.ring n := rfl

@[simp] theorem State.rings_endTicket (src : Source) (status : Nat) : (s.endTicket src status).rings = s.rings := by
  cases src <;> rfl

@[simp] theorem State.rings_releaseSlot (c k : Nat) : (s.releaseSlot c k).rings = s.rings := by
  unfold State.releaseSlot
  dsimp only
  cases (s.slot c k).cmd with
  | none => rfl
  | some cmd => exact State.rings_endTicket ..

/-! ### A record is in its ring (09 R231, R232) -/

/-- A ring with one more record, counted or not, written at a time. -/
def Ring.recorded (r : Ring) (counted : Bool) (now : Nat) : Ring :=
  { r with
    wr := r.wr + 1
    count := r.count + (if counted then 1 else 0)
    since := if counted && r.count == 0 then now else r.since }

theorem State.ring_recordWritten_self (counted : Bool) :
    (s.recordWritten n counted).ring n = (s.ring n).recorded counted s.clock.toNat := by
  rw [State.recordWritten, State.ring_noteWindow, State.ring_mapRing_self]
  cases counted <;> simp [Ring.recorded]

theorem State.ring_recordWritten_other (hm : m ≠ n) (counted : Bool) : (s.recordWritten n counted).ring m = s.ring m := by
  rw [State.recordWritten, State.ring_noteWindow, State.ring_mapRing_other hm]

theorem State.ring_recordDone (sl : Slot) (r : BteRef) :
    (s.recordDone sl r).ring m =
      (s.recordWritten r.cmd.ring ((dbl r.cmd.packet 0).getLsbD 53 || sl.status != 0)).ring m :=
  congrArg (tabGet · m noRing) (State.rings_releaseSlot ..)

/-! ### Interrupts (09 R232; 13 R321) -/

/-- Whether COAL_TIME has passed since a ring's first counted record. -/
def Ring.timeUp (r : Ring) (now : Nat) : Prop := bitsOf r.conf 32 24 ≠ 0 ∧ r.since + bitsOf r.conf 32 24 ≤ now

section
variable (hon : (s.ring n).enabled = true) (hcount : 0 < (s.ring n).count)
include hon hcount

theorem exec_ringCoalCount_raises (h : bitsOf (s.ring n).conf 24 8 ≤ (s.ring n).count) :
    exec (.ringCoalCount n) s = .next (s.raiseRing n) := by
  change execRingCoalCount n s = _
  simp [execRingCoalCount, hon, hcount, h]

theorem exec_ringCoalTime_raises (h : (s.ring n).timeUp s.clock.toNat) : exec (.ringCoalTime n) s = .next (s.raiseRing n) := by
  obtain ⟨htime, hpast⟩ := h
  change execRingCoalTime n s = _
  simp [execRingCoalTime, hon, hcount, htime, hpast]

end

theorem exec_ringCoalCount_below (h : (s.ring n).count < bitsOf (s.ring n).conf 24 8) :
    exec (.ringCoalCount n) s = .next s := by
  change execRingCoalCount n s = _
  simp [execRingCoalCount, h]

theorem exec_ringCoalTime_early (h : ¬(s.ring n).timeUp s.clock.toNat) : exec (.ringCoalTime n) s = .next s := by
  refine congrArg _ (if_neg fun hgo => h ?_)
  simp only [Bool.and_eq_true, decide_eq_true_eq] at hgo
  exact ⟨hgo.1.2, hgo.2⟩

/-- A ring without a counted record, or that is not enabled, raises nothing. -/
theorem exec_ringCoal_idle (h : (s.ring n).enabled = false ∨ (s.ring n).count = 0) :
    exec (.ringCoalCount n) s = .next s ∧ exec (.ringCoalTime n) s = .next s := by
  change execRingCoalCount n s = _ ∧ execRingCoalTime n s = _
  rcases h with h | h <;> simp [execRingCoalCount, execRingCoalTime, h]

/-! ### RD_INDEX and the event buffer (09 R231, R233) -/

theorem exec_ringRdIndexWrite (value : Double) : exec (.ringRdIndexWrite n value) s =
    .next (State.mapRing { s with eventStuck := s.eventStuck && n ≠ 63 } n fun r => { r with rd := value }) := rfl

theorem exec_eventRecordDrain {u : State} {e : EventRec} {rest : List EventRec} {va : Nat} (hbuf : s.eventBuf = e :: rest)
    (hon : (s.ring 63).enabled = true) (hstuck : s.eventStuck = false) (hroom : (s.ring 63).roomy = true)
    (hplace : s.place? none none none 0 (s.ring 63).next 32 = some (.global va))
    (hpoke : s.agentPoke .events 0 0 s.supAsid va (bytesOfDoubles
      [e.d0 ||| BitVec.ofNat 64 (2 ^ 63 * (s.ring 63).phase), e.d1, e.d2, s.clock]) = (.done, u)) :
    exec .eventRecordDrain s =
      .next (State.recordWritten { u.farDone .events with eventBuf := rest } 63 (e.d0.toNat % 256 != 0)) := by
  change execEventRecordDrain s = _
  simp only [execEventRecordDrain, hbuf, hon, hstuck, hroom, hplace, hpoke]
  rfl

end Sys2Proof.Machine
end

section
open Sys2Proof Sys2Proof.Machine

/-- Settles O32: a record changes its own ring alone, and a ring's interrupt hangs on its count and its time. -/
theorem ringsRaiseInterrupts : Obligations.RingsRaiseInterrupts := by
  refine ⟨fun s sl r => ?done, fun s n counted => ?written, fun s ring h => exec_ringCoal_idle h,
    fun s ring hon hcount => ?raise, fun s ring value => ?rdIndex,
    fun s u e rest va hbuf hon hstuck hroom hplace => exec_eventRecordDrain hbuf hon hstuck hroom hplace⟩
  case done =>
    dsimp only
    rw [State.ring_recordDone, State.ring_recordWritten_self]
    exact ⟨rfl, rfl, rfl, fun m hm => by rw [State.ring_recordDone, State.ring_recordWritten_other hm]⟩
  case written =>
    dsimp only
    rw [State.ring_recordWritten_self]
    exact ⟨rfl, rfl⟩
  case raise =>
    refine ⟨exec_ringCoalCount_raises hon hcount, exec_ringCoalCount_below,
      fun ht hpast => exec_ringCoalTime_raises hon hcount ⟨ht, hpast⟩, fun hearly => exec_ringCoalTime_early ?_⟩
    rintro ⟨ht, hpast⟩
    rcases hearly with h | h
    · exact ht h
    · exact Nat.not_le.2 h hpast
  case rdIndex =>
    exact ⟨_, exec_ringRdIndexWrite value, State.ring_mapRing_self _, fun n hn => State.ring_mapRing_other hn _, rfl, rfl⟩

end

section
/-! Registers of the management window (14 R328): what a write of each offset changes, and which step it is. -/

namespace Sys2Proof.Machine
open Sys2Proof

variable {s : State} {v : Double}

/-! ### Registers by their offsets (14 R328) -/

/-- An offset within a block's entry names the entry and its double. -/
theorem block_index {base n k : Nat} (hk : k < 4) :
    (base + 32 * n + 8 * k - base) / 8 / 4 = n ∧ (base + 32 * n + 8 * k - base) / 8 % 4 = k := by
  omega

theorem table_index {base k : Nat} : (base + 8 * k - base) / 8 = k := by
  omega

section
variable {n k : Nat}

theorem State.registerWrite_ring (hn : n < 64) (hk : k < 4) :
    s.registerWrite (0x1000 + 32 * n + 8 * k) v = s.writeRing n k v := by
  simp (disch := omega) only [State.registerWrite, Bool.and_eq_true, decide_eq_true_eq, ↓if_neg, ↓if_pos, block_index]

theorem State.registerWrite_handler (hn : n < 64) (hk : k < 4) :
    s.registerWrite (0x2000 + 32 * n + 8 * k) v = s.writeHandler n k v := by
  simp (disch := omega) only [State.registerWrite, Bool.and_eq_true, decide_eq_true_eq, ↓if_neg, ↓if_pos, block_index]

theorem State.registerWrite_window (hn : n < 32) (hk : k < 4) :
    s.registerWrite (0x3000 + 32 * n + 8 * k) v = s.writeWindow n k v := by
  simp (disch := omega) only [State.registerWrite, Bool.and_eq_true, decide_eq_true_eq, ↓if_neg, ↓if_pos, block_index]

theorem State.registerWrite_unit (hn : n < 8) (hk : k < 4) :
    s.registerWrite (0x4000 + 32 * n + 8 * k) v = s.writeUnit n k v := by
  simp (disch := omega) only [State.registerWrite, Bool.and_eq_true, decide_eq_true_eq, ↓if_neg, ↓if_pos, block_index]

theorem State.registerWrite_pool (hn : n < 29) (hk : k < 4) :
    s.registerWrite (0x5000 + 32 * n + 8 * k) v = s.writePool n k v := by
  simp (disch := omega) only [State.registerWrite, Bool.and_eq_true, decide_eq_true_eq, ↓if_neg, ↓if_pos, block_index]

theorem State.registerWrite_nonce (hk : k < 4) :
    s.registerWrite (0x6020 + 8 * k) v = { s with nonce := s.nonce.set k v } := by
  simp (disch := omega) only [State.registerWrite, Bool.and_eq_true, decide_eq_true_eq, ↓if_neg, ↓if_pos, table_index]

theorem State.registerWrite_root (hk : k < 4096) :
    s.registerWrite (0x10000 + 8 * k) v = { s with rootTable := tabPut 0 s.rootTable k v } := by
  simp (disch := omega) only [State.registerWrite, Bool.and_eq_true, decide_eq_true_eq, ↓if_neg, ↓if_pos, table_index]

theorem State.registerWrite_route (hk : k < 1024) :
    s.registerWrite (0x40000 + 8 * k) v = { s with routes := tabPut 0 s.routes k (lowBits v 48) } := by
  simp (disch := omega) only [State.registerWrite, Bool.and_eq_true, decide_eq_true_eq, ↓if_neg, ↓if_pos, table_index]

theorem State.registerWrite_staging (hk : k < 2 ^ 21) : s.registerWrite (0x1000000 + 8 * k) v =
    { s with staging := memSetBytes s.staging (8 * k) (leBytes 8 v.toNat), staged := true } := by
  simp (disch := omega) only [State.registerWrite, Bool.and_eq_true, decide_eq_true_eq, ↓if_neg, ↓if_pos,
    Nat.add_sub_cancel_left]

end

section
variable {c e : Nat}

/-- The attributes of a queue's entry. -/
theorem State.registerWrite_queue (hc : c < 24) (he : e < 16) : s.registerWrite (0x20000 + 0x200 * c + 32 * e + 16) v =
    s.mapQueue c e fun x => { x with attrs := lowBits v 36 } := by
  have hindex : (0x20000 + 0x200 * c + 32 * e + 16 - 0x20000) / 0x200 = c ∧
      (0x20000 + 0x200 * c + 32 * e + 16 - 0x20000) % 0x200 / 32 = e := by omega
  simp (disch := omega) only [State.registerWrite, Bool.and_eq_true, decide_eq_true_eq, ↓if_neg, ↓if_pos, hindex]

/-- Double 1 of a job's entry. -/
theorem State.registerWrite_job (hc : c < 2) (he : e < 256) :
    s.registerWrite (0x30000 + 0x4000 * c + 64 * e + 8) v = s.setJob c e 1 (lowBits v 60) := by
  have hindex : (0x30000 + 0x4000 * c + 64 * e + 8 - 0x30000) / 0x4000 = c ∧
      (0x30000 + 0x4000 * c + 64 * e + 8 - 0x30000) % 0x4000 / 64 = e := by omega
  simp (disch := omega) only [State.registerWrite, Bool.and_eq_true, decide_eq_true_eq, ↓if_neg, ↓if_pos, hindex]

end

/-- Offsets that are no double's take no bits, and neither do those from 0x140 to 0xFFF, where a write is another step or
nothing. -/
theorem State.registerWrite_reserved {o : Nat} (h : o % 8 ≠ 0 ∨ (0x140 ≤ o ∧ o < 0x1000)) : s.registerWrite o v = s := by
  by_cases hodd : o % 8 ≠ 0
  · exact if_pos hodd
  · obtain ⟨hlo, hhi⟩ := h.resolve_left hodd
    refine (if_neg hodd).trans ?_
    clear h hodd
    simp (disch := omega) only [Bool.and_eq_true, decide_eq_true_eq, ↓if_neg]

/-! ### Migration blocks (11 R282) -/

theorem State.mapUnit_eq {u : Nat} {m : Migration} (hm : s.migrations[u]? = some m) (f : Migration → Migration) :
    s.mapUnit u f = { s with migrations := s.migrations.set u (f m) } := by
  simp only [State.mapUnit, listModify, List.modify_eq_set_getElem?, hm, Option.map_eq_map, Option.map_some,
    Option.getD_some]

/-- A request block after a write of its double k. -/
def Migration.written (m : Migration) (k : Nat) (v : Double) : Migration :=
  match k with
  | 0 => { m with d0 := lowBits v 56 }
  | 1 => { m with d1 := v }
  | 2 => { m with d2 := lowBits v 52 }
  | _ => m

/-- A unit that is idle takes what is written of its block; one at work keeps its request. -/
theorem State.writeUnit_eq {u : Nat} {m : Migration} (hm : s.migrations[u]? = some m) (k : Nat) : s.writeUnit u k v =
    { s with migrations := s.migrations.set u (if m.state = 0 then m.written k v else m) } := by
  rw [← ite_not]
  exact State.mapUnit_eq hm _

theorem State.writeUnit_status {u : Nat} {m : Migration} (hm : s.migrations[u]? = some m) : s.writeUnit u 3 v = s := by
  obtain ⟨hu, hget⟩ := List.getElem?_eq_some_iff.1 hm
  have hsame : s.migrations.set u m = s.migrations := by rw [← hget, List.set_getElem_self]
  rw [State.writeUnit_eq hm]
  change { s with migrations := s.migrations.set u (if m.state = 0 then m else m) } = s
  rw [ite_self, hsame]

/-! ### Semaphores, counters and job entries (13 R312, R320; 14 R330) -/

section
variable {sem owner : Nat} (hlo : 1 ≤ owner) (hhi : owner ≤ 3) (hsem : sem < s.sems.length)
include hlo hhi

theorem exec_semaphoreTake : exec (.semaphoreTake sem owner) s =
    .next (if s.sems.getD sem 1 = 0 then { s with sems := s.sems.set sem owner } else s) := by
  change execSemaphoreTake sem owner s = _
  simp [execSemaphoreTake, hlo, hhi]

include hsem in
theorem exec_semaphoreFree : exec (.semaphoreFree sem owner) s =
    .next (if s.sems.getD sem 1 = owner then { s with sems := s.sems.set sem 0 } else s) := by
  change execSemaphoreFree sem owner s = _
  simp [execSemaphoreFree, hlo, hhi, hsem]

end

theorem exec_counterClear_stack {stack k : Nat} (hs : stack < 8) (hk : k < 8) :
    exec (.counterClear (0x81000 + 64 * stack + 8 * k)) s =
      .next { s with stackCounters := listModify s.stackCounters stack fun cs => cs.set k 0 } := by
  have hindex : (0x81000 + 64 * stack + 8 * k - 0x81000) / 64 = stack ∧
      (0x81000 + 64 * stack + 8 * k) % 64 / 8 = k := by omega
  change execCounterClear _ s = _
  simp (disch := omega) only [execCounterClear, Bool.and_eq_true, decide_eq_true_eq, ↓if_pos, hindex]

theorem exec_counterClear_port {block k : Nat} (hb : block < 51) (hk : k < 6) :
    exec (.counterClear (0x82000 + 64 * block + 8 * k)) s =
      .next { s with portCounters := tabPut 0 s.portCounters (6 * block + k) 0 } := by
  have hindex : (0x82000 + 64 * block + 8 * k - 0x82000) / 64 = block ∧
      (0x82000 + 64 * block + 8 * k) % 64 / 8 = k := by omega
  change execCounterClear _ s = _
  simp (disch := omega) only [execCounterClear, Bool.and_eq_true, decide_eq_true_eq, ↓if_neg, ↓if_pos, hindex]

section
variable {die entry : Nat} (hdie : die < 2) (hentry : entry < 256)
include hdie hentry

/-- A write of double 0 of a job's entry; the first of its entries to be enabled starts its waves. -/
theorem exec_jobEntryWrite : exec (.jobEntryWrite die entry v) s =
    .next (if v.getLsbD 24 = true ∧ bitsOf v 0 24 ≠ 0 ∧ s.treeDie (bitsOf v 0 24) = none then
      (s.setJob die entry 0 (v &&& jobMask)).startWaves (bitsOf v 0 24) else s.setJob die entry 0 (v &&& jobMask)) := by
  have hin : (decide (2 ≤ die) || decide (256 ≤ entry)) = false := by simp [hdie, hentry]
  change execJobEntryWrite die entry v s = _
  simp only [execJobEntryWrite, hin, Bool.false_eq_true, if_false, Bool.and_eq_true, decide_eq_true_eq,
    Option.isNone_iff_eq_none, and_assoc]

end

/-- A job's waves start at its root, unless one is still under way. -/
theorem State.startWaves_eq (job : Nat) : s.startWaves job =
    if s.isRoot job = true ∧ ∀ x ∈ s.waves, x.job = job → x.ended.isSome = true then
      s.runPass job (s.nextWave job) 1
    else s := by
  unfold State.startWaves
  congr 1
  simp [Option.isSome_iff_ne_none]

/-! ### Attestation and telemetry (14 R326, R329) -/

theorem exec_attestationStart : exec .attestationStart s = .next (if s.attCtl.getD 0 0 = 1 then
    { s with attCtl := s.attCtl.set 2 1 } else { s with attCtl := (s.attCtl.set 0 1).set 1 0, latched := s.nonce }) := rfl

/-- The report that is done stands, and one that was asked for meanwhile begins (14 R326). -/
def State.reportDone (s : State) : State :=
  let seq := (s.attCtl.getD 3 0 + 1) % 2 ^ 32
  let u := { s with report := s.attestReport seq, freeCount := s.freeCount + 1 }
  if s.attCtl.getD 2 0 = 1 then { u with attCtl := [1, 0, 0, seq], latched := s.nonce }
  else { u with attCtl := [0, 1, 0, seq] }

theorem exec_attestationReportDone (h : s.attCtl.getD 0 0 ≠ 0) : exec .attestationReportDone s = .next s.reportDone :=
  congrArg _ (if_neg h)

/-- The double of telemetry: powers and temperatures that the spec leaves open, and the hottest stack's reading. -/
def State.telemetryDouble (s : State) : Double := BitVec.ofNat 64 (bitsOf (Config.telemetry s.freeCount 0) 0 48 +
  2 ^ 48 * (((List.range 8).map s.heat).foldl max 0 % 256))

theorem exec_telemetryRefresh : exec .telemetryRefresh s = .next { s with
    freeCount := s.freeCount + 1
    rollbackMin := max s.rollbackMin (min (Config.fused s.freeCount) s.fwVersion)
    telemetry := [s.telemetryDouble, s.tokenWait] } := rfl

theorem State.telemetryDouble_heat : bitsOf s.telemetryDouble 48 8 = ((List.range 8).map s.heat).foldl max 0 % 256 := by
  have hlow : bitsOf (Config.telemetry s.freeCount 0) 0 48 < 2 ^ 48 := Nat.mod_lt _ (by decide)
  have hheat : ((List.range 8).map s.heat).foldl max 0 % 256 < 256 := Nat.mod_lt _ (by decide)
  unfold State.telemetryDouble bitsOf at *
  rw [BitVec.toNat_ofNat]
  omega

/-! ### The step that a write of the window is (14 R328) -/

section
variable {owner o : Nat}

theorem State.windowWrite_double (ho : o % 8 = 0) : s.windowWrite owner o (leBytes 8 v.toNat) =
    { s with agenda := .event (windowStep owner o v) :: s.agenda } := by
  have hv : BitVec.ofNat 64 (leValue (leBytes 8 v.toNat)) = v := by
    have hlt : v.toNat < 256 ^ 8 := v.isLt
    rw [leValue_leBytes, Nat.mod_eq_of_lt hlt, BitVec.ofNat_toNat, BitVec.setWidth_eq]
  simp [State.windowWrite, ho, hv]

theorem windowStep_reset (howner : owner ≠ 0) (h : v.getLsbD 3 = true) : windowStep owner 0x100 v = .reset := by
  simp [windowStep, howner, h]

theorem windowStep_tlbiPage (h : bitsOf v 12 2 = 0) :
    windowStep owner 0x148 v = .tlbiRequestPage (bitsOf v 0 12) (2 ^ 16 * bitsOf v 24 40) := by
  simp [windowStep, h]

theorem windowStep_tlbiAsid (h : bitsOf v 12 2 = 1) : windowStep owner 0x148 v = .tlbiRequestAsid (bitsOf v 0 12) := by
  simp [windowStep, h]

theorem windowStep_tlbiAll (h : bitsOf v 12 2 = 2) : windowStep owner 0x148 v = .tlbiRequestAll := by
  simp [windowStep, h]

theorem windowStep_semaphore {k : Nat} (hk : k < 32) (howner : owner ≠ 0) : windowStep owner (0x200 + 8 * k) v =
    if v.getLsbD 0 then .semaphoreTake k owner else .semaphoreFree k owner := by
  simp (disch := omega) only [windowStep, Bool.and_eq_true, decide_eq_true_eq, ↓if_neg, ↓if_pos, table_index]

theorem windowStep_ring {r : Nat} (hr : r < 64) : windowStep owner (0x1000 + 32 * r + 24) v = .ringRdIndexWrite r v := by
  have hindex : (0x1000 + 32 * r + 24 - 0x1000) / 32 = r := by omega
  simp (disch := omega) only [windowStep, Bool.and_eq_true, decide_eq_true_eq, ↓if_neg, ↓if_pos, hindex]

theorem windowStep_migration {k : Nat} (hk : k < 8) (h : v.getLsbD 3 = true) :
    windowStep owner (0x4000 + 32 * k + 24) v = .migrationStart k := by
  have hindex : (0x4000 + 32 * k + 24 - 0x4000) / 32 = k := by omega
  simp (disch := omega) only [windowStep, Bool.and_eq_true, decide_eq_true_eq, h, and_true, ↓if_neg, ↓if_pos, hindex]

theorem windowStep_attestation (h : v.getLsbD 0 = true) : windowStep owner 0x6000 v = .attestationStart := by
  simp [windowStep, h]

theorem windowStep_queueEntry {c e : Nat} (hc : c < 24) (he : e < 16) :
    windowStep owner (0x20000 + 0x200 * c + 32 * e) v = .queueTableWrite c e v := by
  have hindex : (0x20000 + 0x200 * c + 32 * e - 0x20000) / 0x200 = c ∧
      (0x20000 + 0x200 * c + 32 * e - 0x20000) % 0x200 / 32 = e := by omega
  simp (disch := omega) only [windowStep, Bool.and_eq_true, decide_eq_true_eq, ↓if_neg, ↓if_pos, hindex]

theorem windowStep_doorbell {c e : Nat} (hc : c < 24) (he : e < 16) :
    windowStep owner (0x20000 + 0x200 * c + 32 * e + 8) v = .doorbell c e := by
  have hindex : (0x20000 + 0x200 * c + 32 * e + 8 - 0x20000) / 0x200 = c ∧
      (0x20000 + 0x200 * c + 32 * e + 8 - 0x20000) % 0x200 / 32 = e := ⟨by omega, by omega⟩
  simp (disch := omega) only [windowStep, Bool.and_eq_true, decide_eq_true_eq, ↓if_neg, ↓if_pos, hindex]

theorem windowStep_job {d e : Nat} (hd : d < 2) (he : e < 256) :
    windowStep owner (0x30000 + 0x4000 * d + 64 * e) v = .jobEntryWrite d e v := by
  have hindex : (0x30000 + 0x4000 * d + 64 * e - 0x30000) / 0x4000 = d ∧
      (0x30000 + 0x4000 * d + 64 * e - 0x30000) % 0x4000 / 64 = e := by omega
  simp (disch := omega) only [windowStep, Bool.and_eq_true, decide_eq_true_eq, ↓if_neg, ↓if_pos, hindex]

theorem windowStep_register (h : o = 0x108 ∨ (0x110 ≤ o ∧ o ≤ 0x138)) :
    windowStep owner o v = .registerWrite o v := by
  rcases h with rfl | ⟨hlo, hhi⟩
  · rfl
  · simp (disch := omega) only [windowStep, Bool.and_eq_true, Bool.or_eq_true, decide_eq_true_eq, ↓if_neg]

end

end Sys2Proof.Machine
end

section
open Sys2Proof Sys2Proof.Machine

/-- Settles O35: each register's write is what its offset selects, and a write of the window is the step its offset names. -/
theorem managementRegistersWork : Obligations.ManagementRegistersWork := by
  refine ⟨fun s sem owner hlo hhi hsem => ?semaphores, fun s => rfl, fun s stack k => exec_counterClear_stack,
    fun s block k => exec_counterClear_port, fun s => ?start, fun s hbusy => ?report, fun s => ?telemetry,
    fun s die entry value hdie hentry hoff => ?entry, fun s die entry value hdie hentry hon hjob => ?firstEntry,
    fun s v => ⟨rfl, rfl, rfl, rfl, rfl, rfl, rfl, fun k hk => congrArg _ (State.registerWrite_root hk),
      fun k hk => congrArg _ (State.registerWrite_route hk)⟩,
    fun s o v h => congrArg _ (State.registerWrite_reserved h), fun s r v hr => ?rings, fun s q v hq => ?handlers,
    fun s w v hw => ?windows, fun s k v m hk hm => ?migrations, fun s n v hn => ?pools,
    fun s k v hk => congrArg _ (State.registerWrite_nonce hk),
    fun s c e v hc he => congrArg _ (State.registerWrite_queue hc he),
    fun s d e v hd he => congrArg _ (State.registerWrite_job hd he),
    fun s k v hk => congrArg _ (State.registerWrite_staging hk), fun s owner o v ho => ?window⟩
  case semaphores =>
    rw [exec_semaphoreTake hlo hhi, exec_semaphoreFree hlo hhi hsem]
    exact ⟨fun h => congrArg _ (if_pos h), fun h => congrArg _ (if_neg h), fun h => congrArg _ (if_pos h),
      fun h => congrArg _ (if_neg h)⟩
  case start => exact ⟨fun h => congrArg _ (if_pos h), fun h => congrArg _ (if_neg h)⟩
  case report =>
    refine ⟨_, exec_attestationReportDone hbusy, ?_⟩
    unfold State.reportDone
    split
    · next h => exact ⟨rfl, rfl, fun _ => ⟨rfl, rfl⟩, fun hno => absurd h hno⟩
    · next h => exact ⟨rfl, rfl, fun hyes => absurd hyes h, fun _ => ⟨rfl, rfl⟩⟩
  case telemetry =>
    exact ⟨_, s.telemetryDouble, exec_telemetryRefresh, rfl, Nat.le_max_left .., max_le_max le_rfl (Nat.min_le_right ..),
      State.telemetryDouble_heat⟩
  case entry =>
    rw [exec_jobEntryWrite hdie hentry, if_neg]
    rintro ⟨hon, hjob, -⟩
    rcases hoff with h | h
    · exact absurd hon (Bool.eq_false_iff.1 h)
    · exact hjob h
  case firstEntry =>
    rw [exec_jobEntryWrite hdie hentry]
    refine congrArg _ ?_
    by_cases hfirst : s.treeDie (bitsOf value 0 24) = none
    · rw [if_pos ⟨hon, hjob, hfirst⟩, State.startWaves_eq]
      simp only [hfirst, true_and]
    · rw [if_neg fun h => hfirst h.2.2, if_neg fun h => hfirst h.1]
  case rings =>
    have hring {k : Nat} (hk : k < 4) : _ = s.writeRing r k v := State.registerWrite_ring hr hk
    exact ⟨congrArg _ (hring (k := 0) (by decide)), congrArg _ (hring (k := 1) (by decide)),
      congrArg _ (hring (k := 2) (by decide))⟩
  case handlers =>
    have hentry {k : Nat} (hk : k < 4) : _ = s.writeHandler q k v := State.registerWrite_handler hq hk
    exact ⟨congrArg _ (hentry (k := 0) (by decide)), congrArg _ (hentry (k := 1) (by decide)),
      congrArg _ (hentry (k := 2) (by decide)), congrArg _ (hentry (k := 3) (by decide))⟩
  case windows =>
    have hwindow {k : Nat} (hk : k < 4) : _ = s.writeWindow w k v := State.registerWrite_window hw hk
    exact ⟨congrArg _ (hwindow (k := 0) (by decide)), congrArg _ (hwindow (k := 1) (by decide)),
      congrArg _ (hwindow (k := 2) (by decide)), congrArg _ (hwindow (k := 3) (by decide))⟩
  case migrations =>
    have hunit {j : Nat} (hj : j < 4) : _ = s.writeUnit k j v := State.registerWrite_unit hk hj
    have hput {j : Nat} (hj : j < 4) := (hunit hj).trans (State.writeUnit_eq hm j)
    exact ⟨congrArg _ (hput (j := 0) (by decide)), congrArg _ (hput (j := 1) (by decide)),
      congrArg _ (hput (j := 2) (by decide)), congrArg _ ((hunit (j := 3) (by decide)).trans (State.writeUnit_status hm))⟩
  case pools =>
    have hpool {k : Nat} (hk : k < 4) : _ = s.writePool n k v := State.registerWrite_pool hn hk
    exact ⟨congrArg _ (hpool (k := 0) (by decide)), congrArg _ (hpool (k := 1) (by decide)),
      congrArg _ (hpool (k := 2) (by decide)), congrArg _ (hpool (k := 3) (by decide))⟩
  case window =>
    refine ⟨windowStep owner o v, State.windowWrite_double ho, ?_, ?_, ?_, ?_, ?_, ?_, ?_, ?_, ?_, ?_, ?_, ?_, ?_,
      windowStep_register⟩
    · rintro rfl
      exact windowStep_reset
    · rintro rfl
      rfl
    · rintro rfl
      exact windowStep_tlbiPage
    · rintro rfl
      exact windowStep_tlbiAsid
    · rintro rfl
      exact windowStep_tlbiAll
    · rintro rfl
      rfl
    · rintro rfl rfl
      rfl
    · rintro k hk rfl
      exact windowStep_semaphore hk
    · rintro r hr rfl
      exact windowStep_ring hr
    · rintro k hk rfl
      exact windowStep_migration hk
    · rintro rfl
      exact windowStep_attestation
    · rintro c e hc he
      exact ⟨fun heq => heq ▸ windowStep_queueEntry hc he, fun heq => heq ▸ windowStep_doorbell hc he⟩
    · rintro d e hd he rfl
      exact windowStep_job hd he

end

section
/-! RECORD_PUSH, SCHED_AGE, SKIP_LIMIT and RECORD_POP (10 R236, R238 to R240): when a push enters its queue, and what a pop
considers and does with its choice. -/

namespace Sys2Proof.Machine
open Sys2Proof
set_option Elab.async false

variable {s u : State} {cluster push : Nat} {p : Push} {q : QueuedRec} {skipped : List Nat}

/-! ### Pushes (10 R236) -/

theorem exec_recordPush (hp : s.pushes[push]? = some p) (hturn : s.pushTurn push p = true) :
    exec (.recordPush push) s = .next (s.makePush push p) := by
  change execRecordPush push s = _
  simp [execRecordPush, hp, hturn]

/-- A push enters its queue while an entry is free and no older record of the queue is spilled. -/
theorem State.makePush_enters (hkept : s.pushDropped p = false) (hspilled : s.spilled p.queue = [])
    (hroom : (s.onChip p.queue).length < 64) : s.makePush push p = State.pushMade
      { s with pushes := s.pushes.eraseIdx push, serial := s.serial + 1, records := s.records ++ [s.newQueued p false] } p := by
  simp [State.makePush, State.dropPush, hkept, hspilled, hroom]

/-- A push waits while its queue is full and the queue's spill ring is too, or is absent. -/
theorem State.makePush_waits (hkept : s.pushDropped p = false) (hfull : 64 ≤ (s.onChip p.queue).length)
    (hring : s.spillRoom p.queue = false) : s.makePush push p = s := by
  simp [State.makePush, hkept, hfull, hring]

/-! ### Ageing and passing over (10 R239, R240) -/

/-- The ageing step of a record whose period is over; the step from 2 to 3 notes the time. -/
theorem exec_schedAge (n : Nat) : exec (.schedAge n) s = .next { s with records := s.records.map fun r =>
    let period : Nat := 1024 * bitsOf s.schedCtl 0 16
    if r.id = n ∧ period ≠ 0 ∧ r.prio < 3 ∧ r.since + period ≤ s.clock.toNat then
      { r with boosts := r.boosts + 1, since := r.since + period
               topAt := if r.rcd.prio + r.boosts = 2 then s.clock.toNat else r.topAt }
    else r } := by
  change execSchedAge n s = _
  simp [execSchedAge, and_assoc]

theorem exec_skipLimit (n : Nat) : exec (.skipLimit n) s = .next { s with records := s.records.map fun r =>
    if r.id = n ∧ s.skipLimit ≤ r.skips then { r with blocking := true } else r } := by
  change execSkipLimit n s = _
  simp [execSkipLimit]

/-! ### Pops (10 R239, R240) -/

/-- The queues of a cluster and of its die, refilled from their spill rings. -/
def State.refillOwn (s : State) (cluster : Nat) : State := (s.refill cluster 64).refill (24 + cluster / 12) 64

/-- What a pop tries again first: the buffers held back, and the spilled records of the three queues it considers. -/
def State.beforePop (s : State) (cluster : Nat) : State :=
  ((s.returnBuffers none).2.refillOwn cluster).refill (25 - cluster / 12) 64

/-- The records a pop goes through: the blocking record of the cluster before all others. -/
def State.popOrder (s : State) (cluster : Nat) : List QueuedRec :=
  match s.blockingAt cluster with
  | some b => [b]
  | none => s.considered cluster

/-- What a pop does with its choice: it fails the record, or loads it and counts those passed over. -/
def takeChoice (cluster : Nat) : Option (QueuedRec × Fit × List Nat) × State → State
  | (some (q, .fails st, _), s) => s.failRecord q cluster st
  | (some (q, .now, skipped), s) =>
    State.load { s with records := s.records.map fun r => if skipped.contains r.id then { r with skips := r.skips + 1 } else r }
      q cluster (s.room cluster [])
  | (_, s) => s

theorem State.popRecord_eq (s : State) (cluster : Nat) : s.popRecord cluster =
    (takeChoice cluster ((s.beforePop cluster).choose cluster ((s.beforePop cluster).popOrder cluster) [])).refillOwn
      cluster := by
  rw [State.popOrder]
  unfold State.popRecord
  change State.refillOwn (match (s.beforePop cluster).blockingAt cluster with
    | some b => takeChoice cluster ((s.beforePop cluster).choose cluster [b] [])
    | none => takeChoice cluster ((s.beforePop cluster).choose cluster ((s.beforePop cluster).considered cluster) []))
      cluster = _
  cases (s.beforePop cluster).blockingAt cluster <;> rfl

/-- A pop at a cluster does what its choice asks for. -/
theorem exec_recordPop (hcluster : cluster < 24) {choice : Option (QueuedRec × Fit × List Nat) × State}
    (hchoice : let s1 := State.beforePop { s with freeCount := s.freeCount + 1 } cluster
      s1.choose cluster (s1.popOrder cluster) [] = choice) :
    exec (.recordPop cluster) s = .next ((takeChoice cluster choice).refillOwn cluster) := by
  subst hchoice
  exact congrArg _ ((if_pos hcluster).trans (State.popRecord_eq _ cluster))

end Sys2Proof.Machine
end

section
open Sys2Proof Sys2Proof.Machine
set_option Elab.async false

/-- Settles O26: when a push enters or waits, what ageing and the skip limit change, and what a pop makes of its choice. -/
theorem recordsAreScheduled : Obligations.RecordsAreScheduled := by
  refine ⟨fun s push p hp hturn hkept => ?push, fun s n => exec_schedAge n, fun s n => exec_skipLimit n,
    fun s u cluster q skipped hcluster => ⟨fun st hfails => exec_recordPop hcluster hfails,
      fun hnow => exec_recordPop hcluster hnow, fun hnone => exec_recordPop hcluster hnone⟩⟩
  case push =>
    rw [exec_recordPush hp hturn]
    exact ⟨fun hspilled hroom => congrArg _ (State.makePush_enters hkept hspilled hroom),
      fun hfull hring => congrArg _ (State.makePush_waits hkept hfull hring)⟩

end

section
/-! Pre-emption (02 R43 to R45; 10 R259 to R262): what each step does once the conditions that it waits for hold. -/

namespace Sys2Proof.Machine
open Sys2Proof
set_option Elab.async false

variable {s u v : State} {c : Crew}

theorem exec_preemptRequest (context : Nat) : exec (.preemptRequest context) s =
    .next (s.mapCrew context fun c => if c.state = .running then { c with state := .stopping } else c) := by
  change execPreemptRequest context s = _
  simp only [execPreemptRequest, beq_iff_eq]

/-- A record is to be loaded in place of a victim: it has waited its time at priority 3, it fits nowhere, a save frame is
free, and no crew stops for it yet (10 R260). -/
structure State.Urgent (s : State) (r : QueuedRec) (n : Nat) : Prop where
  waits : (s.records.find? fun r => r.id == n && !r.spilled) = some r
  enabled : bitsOf s.schedCtl 16 16 ≠ 0
  top : r.prio = 3
  due : r.topAt + 1024 * bitsOf s.schedCtl 16 16 ≤ s.clock.toNat
  frames : s.poolEmpty framePool = false
  nowhere : s.placeable r = false
  noVictim : ∀ k ∈ s.crews, k.victimOf ≠ some n

/-- The state in which a record's victim stops for it. -/
def State.stopFor (s : State) (c : Crew) (n : Nat) : State :=
  s.mapCrew c.id fun k => { k with state := .stopping, victimOf := some n }

/-- A record is loaded beside the partition of its victim where it fits there, or else it waits (10 R261). -/
def State.loadBeside (s : State) (r : QueuedRec) (c : Crew) : State :=
  match s.fitIn r (s.roomBeside c.cluster c.id) (s.easelFree c.cluster [c.id]) with
  | (.now, s) => s.load r c.cluster (s.roomBeside c.cluster c.id)
  | (_, s) => s

theorem State.loadBeside_now {r : QueuedRec}
    (h : s.fitIn r (s.roomBeside c.cluster c.id) (s.easelFree c.cluster [c.id]) = (.now, v)) :
    s.loadBeside r c = v.load r c.cluster (v.roomBeside c.cluster c.id) := by
  rw [State.loadBeside, h]

theorem State.loadBeside_waits {r : QueuedRec} {f : Fit} (hf : f ≠ .now)
    (h : s.fitIn r (s.roomBeside c.cluster c.id) (s.easelFree c.cluster [c.id]) = (f, v)) : s.loadBeside r c = v := by
  rw [State.loadBeside, h]
  cases f with
  | now => exact absurd rfl hf
  | later | fails | wait => rfl

theorem exec_preemptWait {r : QueuedRec} {n : Nat} (hr : s.Urgent r n) (hvictim : s.victimFor r = some c) :
    exec (.preemptWait n) s = .next ((s.stopFor c n).loadBeside r c) := by
  have hnone : s.crews.any (·.victimOf == some n) = false := by simpa using hr.noVictim
  have hwait : 1024 * bitsOf s.schedCtl 16 16 ≠ 0 := mul_ne_zero (by decide) hr.enabled
  change execPreemptWait n s = _
  unfold execPreemptWait
  rw [hr.waits]
  dsimp only
  rw [hvictim, if_pos (by simp [hwait, hr.top, hr.due, hr.frames, hr.nowhere, hnone])]
  rfl

theorem exec_preemptStopped (h : s.crew? c.id = some c) (hstate : c.state = .stopping) (hlive : c.finished = false)
    (hstopped : s.stopped c = true) (hstream : s.streamBusy c (s.standbyOn c) = false)
    (hframes : s.takeFrames ((if c.seq.isSome || s.tight c then [c] else []) ++ s.standbyOn c) = (true, u))
    (heasel : u.writeEasel c = (true, v)) :
    exec (.preemptStopped c.id) s = .next (v.rotate c (s.standbyOn c) (s.tight c)) := by
  change execPreemptStopped c.id s = _
  simp only [execPreemptStopped, h, hstate, hlive, hstopped, hstream, hframes, heasel, BEq.rfl, Bool.not_false, Bool.and_true,
    if_true]

/-- The record of a crew that is saved, as it enters its former queue again at its former age (10 R261). -/
def State.savedRecord (s : State) (c : Crew) : QueuedRec :=
  { id := c.age, rcd := c.rcd, origin := c.origin, queue := c.queue, since := s.clock.toNat, boosts := 0
    topAt := s.clock.toNat, skips := 0, blocking := false, spilled := false, saved := some c.id }

theorem exec_contextSaved (h : s.crew? c.id = some c) (hstate : c.state = .stream) (hroom : (s.onChip c.queue).length < 64)
    (hframe : s.writeFrame c c.easelLength (c.bankBytes ++ c.log.flatMap FaultLog.bytes) = (true, u)) :
    exec (.contextSaved c.id) s = .next
      (((State.mapCrew { u with records := u.records ++ [s.savedRecord c] } c.id fun k =>
        { k with state := .saved, victimOf := none }).takeIn c).streamTight c.cluster) := by
  change execContextSaved c.id s = _
  simp only [execContextSaved, h, hstate, hroom, hframe, BEq.rfl, decide_true, Bool.and_true, if_true]
  rfl

theorem exec_standbyResume (h : s.crew? c.id = some c) (hstate : c.state = .standby) (hvictim : c.victimOf = none)
    (hcores : ∀ k ∈ c.cores, s.coreFree c.cluster k [] = true) (heasel : c.seq = none ∨ s.easelFree c.cluster [] = true) :
    exec (.standbyResume c.id) s = .next (s.resume c) := by
  have heasel' : (c.seq.isNone || s.easelFree c.cluster []) = true := by simpa using heasel
  change execStandbyResume c.id s = _
  simp only [execStandbyResume, h, hstate, hvictim, List.all_eq_true.2 hcores, heasel', BEq.rfl, Option.isNone_none,
    Bool.and_true, if_true]

end Sys2Proof.Machine
end

section
open Sys2Proof Sys2Proof.Machine
set_option Elab.async false

/-- Settles O28: each step of a pre-emption does its part once what it waits for holds. -/
theorem crewsArePreempted : Obligations.CrewsArePreempted := by
  refine ⟨fun s => exec_preemptRequest, fun s n r c hwaits henabled htop hdue hframes hnowhere hnone hvictim => ?wait,
    fun s u c v => exec_preemptStopped, fun s u c h hstate hroom hframe =>
      ⟨s.savedRecord c, rfl, rfl, rfl, rfl, exec_contextSaved h hstate hroom hframe⟩, fun s c => exec_standbyResume⟩
  case wait =>
    have hexec := exec_preemptWait ⟨hwaits, henabled, htop, hdue, hframes, hnowhere, hnone⟩ hvictim
    refine ⟨_, _, rfl, fun hnow => ?_, fun hlater => ?_⟩
    · exact hexec.trans (congrArg _ (State.loadBeside_now (Prod.ext hnow rfl)))
    · exact hexec.trans (congrArg _ (State.loadBeside_waits hlater rfl))

end

section
/-! Taking a precise trap and returning from it (11 R272, R273, R275, R284): the words TSTATE, TCAUSE and TMASK that entry
writes, and what a party's slices and lanes hold once it is in the handler. -/

namespace Sys2Proof.Machine
open Sys2Proof
set_option Elab.async false

/-! ### The exception registers that entry writes (11 R272) -/

/-- Every cause has a code of six bits (11 R285). -/
theorem Cause.code_lt (k : Cause) : k.code < 64 := by
  cases k <;> decide

/-- TCAUSE of a trap: its CODE, WRITE clear, and the low 18 bits of its INFO. -/
theorem tcauseWord_fields {code : Nat} (hcode : code < 64) (multi : Bool) (info : Nat) :
    bitsOf ((tcauseWord code false multi info).setWidth 64) 0 6 = code ∧
      (tcauseWord code false multi info).getLsbD 6 = false ∧
      bitsOf ((tcauseWord code false multi info).setWidth 64) 14 18 = info % 2 ^ 18 := by
  have hval : (tcauseWord code false multi info).toNat = (code + (if multi then 128 else 0) + 2 ^ 14 * info) % 2 ^ 32 := by
    simp [tcauseWord]
  have hlow : (code + if multi then 128 else 0) < 2 ^ 14 ∧ (code + if multi then 128 else 0) % 128 = code := by
    cases multi <;> simp <;> omega
  generalize (code + if multi then 128 else 0) = low at hval hlow
  refine ⟨?_, ?_, ?_⟩
  · simp only [bitsOf, BitVec.toNat_setWidth, hval]
    omega
  · rw [← BitVec.testBit_toNat, hval, Nat.testBit_eq_decide_div_mod_eq, decide_eq_false_iff_not]
    omega
  · simp only [bitsOf, BitVec.toNat_setWidth, hval]
    omega

/-- A sum of powers of two for distinct lanes has just their bits. -/
theorem testBit_sum_two_pow {ls : List Nat} (hls : ls.Nodup) (l : Nat) :
    ((ls.map (2 ^ ·)).foldl (· + ·) 0).testBit l = ls.contains l := by
  have hsum : (ls.map (2 ^ ·)).foldl (· + ·) 0 = ∑ i ∈ ls.toFinset, 2 ^ i := by
    rw [← List.sum_eq_foldl, List.sum_toFinset _ hls]
  rw [hsum, Bool.eq_iff_iff, ← Nat.mem_bitIndices, ← List.mem_toFinset, Finset.toFinset_bitIndices_sum_two_pow,
    List.mem_toFinset, List.contains_iff_mem]

/-- A slice is in handler state from entry, with its mask saved. -/
theorem Slice.inHandler_of_tstate {sl : Slice} {m : BitVec 4} {f : Bool} {n : Nat} (h : sl.tstate = tstateWord m f n) :
    sl.inHandler = true ∧ sl.savedMask = m := by
  obtain ⟨hbit, hmask⟩ := tstateWord_fields m f n
  refine ⟨?_, by rw [Slice.savedMask, h, hmask]⟩
  rw [← BitVec.testBit_toNat, Nat.testBit_eq_decide_div_mod_eq, decide_eq_true_eq] at hbit
  simpa [Slice.inHandler, natBits, h] using hbit

/-! ### The party in the handler (11 R272, R273) -/

/-- What entry into the handler for a precise trap makes of the issuing gang (11 R272, R273, R284). -/
def State.trapGang (s : State) (c : Ctx) (cause : Cause) (addrs : List (Nat × Nat)) (info : Nat) (g : Gang) : Gang :=
  (c.enter ⟨cause.code, false, info, false, addrs, c.lanes, false⟩ s.handlerPc (s.parkedOf c.crew.id c.member c.sls).length
    s.freeCount g).mapSlices c.sls fun sl => { sl with stamp := s.issued + 1 }

/-- A slice of a party that has entered the handler for a precise trap. -/
def State.trapSlice (s : State) (c : Ctx) (cause : Cause) (info : Nat) (sl : Slice) : Slice :=
  let parked := (s.parkedOf c.crew.id c.member c.sls).length
  { sl.endWindows with
    savedFmt := sl.fmt, savedWb := sl.wb, savedX0 := sl.x0, savedX1 := sl.x1
    savedDepth := sl.stack.length
    epc := sl.pc
    tmask := if c.gang.isSeq then 0 else BitVec.ofNat 64 ((c.lanes.map (2 ^ ·)).foldl (· + ·) 0)
    tcause := tcauseWord cause.code false (1 < parked) info
    tstate := tstateWord sl.mask false parked
    pc := s.handlerPc
    savedWait := match sl.wait with | .bar n => .bar n | .trap k => .trap k | _ => .none
    wait := .none
    stamp := s.issued + 1 }

section
variable {s : State} {c : Ctx} {cause : Cause} {addrs : List (Nat × Nat)} {info : Nat}

theorem State.trapGang_slice_other {k : Nat} (h : k ∉ c.sls) :
    (s.trapGang c cause addrs info c.gang).slice k = c.gang.slice k := by
  cases hk : c.gang.slices[k]? <;>
    simp [State.trapGang, Ctx.enter, Gang.mapSlices, Gang.slice, List.getD_eq_getElem?_getD, hk, h]

theorem State.trapGang_slice (h : s.issuer? = some c) {k : Nat} (hk : k ∈ c.sls) :
    (s.trapGang c cause addrs info c.gang).slice k = s.trapSlice c cause info (c.gang.slice k) := by
  obtain ⟨-, -, hsls, -⟩ := State.issuer?_eq_some h
  have hlt : k < c.gang.slices.length := (Gang.mem_partySlices.1 (hsls ▸ hk)).1
  have hin : c.sls.contains k = true := List.contains_iff_mem.2 hk
  simp only [State.trapGang, Ctx.enter, Gang.mapSlices, Gang.slice, List.getD_eq_getElem?_getD, List.getElem?_mapIdx,
    List.getElem?_eq_getElem hlt, Option.map_some, Option.getD_some, hin, if_true] <;> rfl

/-- A lane of the party has fresh handler registers, and TADDR is its trapping address if it was active (11 R272, R273). -/
theorem State.trapGang_lane {l : Nat} (hl : l / 4 ∈ c.sls) (hlt : l < c.gang.lanes.length) :
    (s.trapGang c cause addrs info c.gang).lane l =
      let ln := freshHandlerRegs c.gang.isSeq (s.freeCount + 8 * l) (c.gang.lane l)
      if c.gang.isSeq then ln
      else { ln with taddr := if c.lanes.contains l then BitVec.ofNat 64 ((addrs.lookup l).getD 0) else 0 } := by
  simp [State.trapGang, Ctx.enter, Gang.mapSlices, Gang.lane, List.getD_eq_getElem?_getD, hlt, hl]

theorem State.trapGang_lane_other {l : Nat} (h : l / 4 ∉ c.sls ∨ c.gang.lanes.length ≤ l) :
    (s.trapGang c cause addrs info c.gang).lane l = c.gang.lane l := by
  cases hl : c.gang.lanes[l]? with
  | none => simp [State.trapGang, Ctx.enter, Gang.mapSlices, Gang.lane, List.getD_eq_getElem?_getD, hl]
  | some ln =>
    have hout : l / 4 ∉ c.sls := h.resolve_right fun hle => by simp [List.getElem?_eq_none hle] at hl
    simp [State.trapGang, Ctx.enter, Gang.mapSlices, Gang.lane, List.getD_eq_getElem?_getD, hl, hout]

/-- Of a lane only the handler registers, and TADDR in a gang, change. -/
theorem State.trapGang_lane_frame (l : Nat) : let b := (s.trapGang c cause addrs info c.gang).lane l
    if c.gang.isSeq then b = { c.gang.lane l with hs := b.hs } else b = { c.gang.lane l with h := b.h, taddr := b.taddr } := by
  by_cases hl : l / 4 ∈ c.sls ∧ l < c.gang.lanes.length
  · rw [State.trapGang_lane hl.1 hl.2]
    cases hseq : c.gang.isSeq <;> rfl
  · rw [State.trapGang_lane_other (by rwa [not_and_or, not_lt] at hl)]
    split <;> rfl

/-- TMASK has the party's active lanes (11 R272). -/
theorem State.trapSlice_tmask (h : s.issuer? = some c) (hseq : c.gang.isSeq = false) (sl : Slice) {l : Nat} (hl : l < 64) :
    (s.trapSlice c cause info sl).tmask.getLsbD l = c.lanes.contains l := by
  simp only [State.trapSlice, hseq, Bool.false_eq_true, if_false, BitVec.getLsbD_ofNat, hl, decide_true, Bool.true_and,
    testBit_sum_two_pow (Ctx.nodup_lanes h)]

/-- ERET gives a slice back what it held when its party trapped. -/
theorem State.eret_trapSlice (sl : Slice) : let b := (s.trapSlice c cause info sl).eret
    b.pc = sl.pc ∧ b.mask = sl.mask ∧ b.fmt = sl.fmt ∧ b.wb = sl.wb ∧ b.x0 = sl.x0 ∧ b.x1 = sl.x1 ∧ b.stack = sl.stack ∧
      b.loops = sl.loops ∧ b.lc = sl.lc ∧ b.inHandler = false :=
  ⟨rfl, (Slice.inHandler_of_tstate (sl := s.trapSlice c cause info sl) rfl).2, rfl, rfl, rfl, rfl, rfl, rfl, rfl,
    Slice.eret_inHandler _⟩

/-! ### The machine after a trap (11 R272, R284, R286) -/

/-- In handler state a trap abandons the crew. -/
theorem State.takeTrap_inHandler (hin : c.inHandler = true) : s.takeTrap c cause addrs info =
    State.abandonCrew { s with issued := s.issued + 1 } c.crew.id cause.code ((addrs.map Prod.snd).headD 0) := if_pos hin

/-- A trap waits while another party of the same physical slices is in handler state. -/
theorem State.takeTrap_busy (hin : c.inHandler = false) (hbusy : s.handlerBusy c = true) :
    s.takeTrap c cause addrs info = s := by
  simp [State.takeTrap, State.takeEntry, hin, hbusy]

/-- A trap that is delivered sets the handler's ASID register to the crew's (11 R276), and changes the issuing gang. -/
theorem State.takeTrap_enters (hin : c.inHandler = false) (hbusy : s.handlerBusy c = false) :
    s.takeTrap c cause addrs info =
      State.mapIssuer (State.mapCrew { s with issued := s.issued + 1, freeCount := s.freeCount + 512 } c.crew.id fun k =>
        { k with hasid := BitVec.ofNat 32 k.asid }) c (s.trapGang c cause addrs info) := by
  simp only [State.takeTrap, State.takeEntry, hin, hbusy]
  rfl

/-- The crew after a trap that is delivered. -/
theorem State.crew?_takeTrap (h : s.issuer? = some c) (hin : c.inHandler = false) (hbusy : s.handlerBusy c = false) :
    (s.takeTrap c cause addrs info).crew? c.crew.id =
      some (Crew.mapMember { c.crew with hasid := BitVec.ofNat 32 c.crew.asid } c.member (s.trapGang c cause addrs info)) := by
  obtain ⟨hcrew, -, -, -⟩ := State.issuer?_eq_some h
  rw [State.takeTrap_enters hin hbusy]
  refine State.crew?_mapCrew_self (State.crew?_mapCrew_self (s := { s with issued := _, freeCount := _ }) hcrew ?_) ?_
  · exact fun d hd => hd
  · exact fun d hd => (Crew.mapMember_id _ _ _).trans hd

/-- Every other crew is as it was. -/
theorem State.crew?_takeTrap_other (hin : c.inHandler = false) (hbusy : s.handlerBusy c = false) {id : Nat}
    (hid : id ≠ c.crew.id) : (s.takeTrap c cause addrs info).crew? id = s.crew? id := by
  rw [State.takeTrap_enters hin hbusy, State.mapIssuer_eq, State.crew?_mapCrew _ _ _ _ fun k => Crew.mapMember_id k _ _,
    if_neg hid, State.crew?_mapCrew _ _ _ (fun k : Crew => { k with hasid := BitVec.ofNat 32 k.asid }) fun _ => rfl, if_neg hid]
  rfl

/-- A member of the crew after a trap that is delivered: the issuing gang is in the handler, and the others are as they
were. -/
theorem State.member?_takeTrap (h : s.issuer? = some c) (hin : c.inHandler = false) (hbusy : s.handlerBusy c = false)
    (n : Nat) : ((s.takeTrap c cause addrs info).crew? c.crew.id).bind (·.member? n) =
      if n = c.member then some (s.trapGang c cause addrs info c.gang) else c.crew.member? n := by
  obtain ⟨-, hmember, -, -⟩ := State.issuer?_eq_some h
  have hhasid (n : Nat) : Crew.member? { c.crew with hasid := BitVec.ofNat 32 c.crew.asid } n = c.crew.member? n := rfl
  rw [State.crew?_takeTrap h hin hbusy, Option.bind_some, Crew.member?_mapMember, hhasid]
  split
  · next hn => rw [hn, hmember, Option.map_some]
  · rfl

end

end Sys2Proof.Machine
end

section
open Sys2Proof Sys2Proof.Machine
set_option Elab.async false

/-- Settles O49: ERET reads back the fields that entry saved, and leaves the others alone. -/
theorem eretUndoesATrap : Obligations.EretUndoesATrap := by
  refine ⟨fun sl => ⟨rfl, rfl, rfl, rfl, rfl, rfl, Slice.eret_inHandler sl, rfl, rfl, rfl, rfl⟩,
    fun s c cause addrs info g h hin hbusy hg k hk => ?_⟩
  rw [State.member?_takeTrap h hin hbusy, if_pos rfl, Option.some.injEq] at hg
  rw [← hg, State.trapGang_slice h hk]
  exact State.eret_trapSlice _

end

section
open Sys2Proof Sys2Proof.Machine Sys2Proof.Claim
set_option Elab.async false

/-- Settles O47: in handler state the crew is abandoned, a busy unit makes the party wait, and otherwise the party enters. -/
theorem trapsEnterTheHandler : Obligations.TrapsEnterTheHandler := by
  intro s c cause addrs info h
  refine ⟨fun hin => State.takeTrap_inHandler hin, fun hin hbusy => State.takeTrap_busy hin hbusy, fun hin hbusy => ?_⟩
  obtain ⟨hcrew, -, -, -⟩ := State.issuer?_eq_some h
  have hafter := State.crew?_takeTrap (cause := cause) (addrs := addrs) (info := info) h hin hbusy
  have hmember := State.member?_takeTrap (cause := cause) (addrs := addrs) (info := info) h hin hbusy
  refine ⟨?others, ⟨fun id hid => State.crew?_takeTrap_other hin hbusy hid, fun n hn => ?members⟩, ⟨hcrew, _, hafter, ?crew⟩, ?asid,
    _, (hmember c.member).trans (if_pos rfl), rfl, fun k hk => State.trapGang_slice_other hk, fun k hk => ?slice,
    fun l hl => State.trapGang_lane_other (.inl hl), fun l => ⟨State.trapGang_lane_frame l, fun hseq hl hlt => ?taddr⟩⟩
  case others =>
    rw [State.takeTrap_enters hin hbusy]
    rfl
  case members => rw [hmember n, if_neg hn, hcrew, Option.bind_some]
  case crew =>
    unfold Crew.mapMember
    split <;> rfl
  case asid =>
    rw [hafter]
    unfold Crew.mapMember
    split <;> rfl
  case slice =>
    rw [State.trapGang_slice h hk]
    obtain ⟨hhandler, hmask⟩ := Slice.inHandler_of_tstate (sl := s.trapSlice c cause info (c.gang.slice k)) rfl
    obtain ⟨hcode, hwrite, hinfo⟩ := tcauseWord_fields cause.code_lt (1 < (s.parkedOf c.crew.id c.member c.sls).length) info
    exact ⟨rfl, rfl, hhandler, hmask, rfl, rfl, rfl, rfl, rfl, hcode, hwrite, hinfo,
      fun hseq l hl => State.trapSlice_tmask h hseq _ hl, rfl, rfl, rfl, rfl, rfl, rfl, rfl, rfl, rfl, rfl⟩
  case taddr =>
    rw [State.trapGang_lane hl hlt]
    simp [hseq]

end

section
/-! Abandoning a crew (11 R286, R287): every member has stopped, and no access of the crew is parked. -/

namespace Sys2Proof.Machine
open Sys2Proof
set_option Elab.async false

variable {s : State} {id cause va : Nat} {c : Crew}

/-- A crew is abandoned once (assumption 78). -/
theorem State.abandonCrew_of_abandoned (hc : s.crew? id = some c) (ha : c.abandoned = true) :
    s.abandonCrew id cause va = s := by
  simp [State.abandonCrew, hc, ha]

theorem State.postEvent_crews (s : State) (r : EventRec) : (s.postEvent r).crews = s.crews := by
  rw [State.postEvent_eq]

theorem State.postEvent_flights (s : State) (r : EventRec) : (s.postEvent r).flights = s.flights := by
  rw [State.postEvent_eq]

/-- The crews after one that lives is abandoned: its members have stopped. -/
theorem State.abandonCrew_crews (hc : s.crew? id = some c) (ha : c.abandoned = false) :
    (s.abandonCrew id cause va).crews = (s.mapCrew id Crew.stopped).crews := by
  simp only [State.abandonCrew, hc, ha, State.postEvent_crews, Bool.false_eq_true, if_false]
  split <;> rfl

theorem State.crew?_abandonCrew (hc : s.crew? id = some c) (ha : c.abandoned = false) :
    (s.abandonCrew id cause va).crew? id = some c.stopped := by
  rw [Claim.crew?_of_crews_eq (State.abandonCrew_crews hc ha)]
  exact State.crew?_mapCrew_self hc fun _ hd => hd

/-- A member of a crew that is abandoned: each of its slices has stopped. -/
def Gang.stopped (g : Gang) : Gang :=
  { g with slices := g.slices.map fun sl => { sl with finished := true, wait := .none } }

theorem Crew.member?_stopped (m : Nat) : c.stopped.member? m = (c.member? m).map Gang.stopped :=
  Crew.member?_mapAllSlices c _ m

theorem Gang.finished_of_mem_stopped {g : Gang} {sl : Slice} (h : sl ∈ g.stopped.slices) : sl.finished = true := by
  obtain ⟨_, -, rfl⟩ := List.mem_map.1 h
  rfl

/-- No access of a crew that is abandoned is parked. -/
theorem State.abandonCrew_unparked (hc : s.crew? id = some c) (ha : c.abandoned = false) {f : Flight}
    (hf : f ∈ (s.abandonCrew id cause va).flights) (hid : f.crew = id) {p : Part} (hp : p ∈ f.parts) : p.isParked = false := by
  simp only [State.abandonCrew, hc, ha, State.postEvent_flights, Bool.false_eq_true, if_false, List.mem_filterMap] at hf
  obtain ⟨g, -, hg⟩ := hf
  split at hg
  · next hne =>
    cases hg
    exact absurd hid (by simpa using hne)
  · split at hg
    · cases hg
    · cases hg
      simp only [List.mem_filter, Bool.and_eq_true, Bool.not_eq_true'] at hp
      exact hp.2.1

end Sys2Proof.Machine

namespace Sys2Proof.Claim
open Sys2Proof Sys2Proof.Machine
set_option Elab.async false

variable {s s' : State} {c : Ctx} {args : List (List Nat)}

/-! ### TRAP, ERET and ERET.ABANDON (16 R365; 18 R443) -/

theorem exec_trap {k : BitVec 18} (h : s.issuer? = some c) (hadmits : Admits c (.trap k)) :
    exec (.trap k) s = .next (s.takeTrap c .trap [] k.toNat) := by
  have hcheck : c.check (.trap k) {} = .ok () := check_of_admits hadmits
  change execTrap k s = _
  simp only [execTrap, h, hcheck]

/-- The stack of every slice of the party is as deep as it was at entry (11 R274). -/
theorem savedDepth_all (hdepth : ∀ i ∈ c.sls, (c.gang.slice i).stack.length = (c.gang.slice i).savedDepth) :
    (c.sls.all fun i => (c.gang.slice i).stack.length == (c.gang.slice i).savedDepth) = true := by
  simpa using hdepth

/-- ERET moves the party's slices, whose lanes lose their handler registers (11 R273, R275). -/
theorem exec_eret (h : Issues s c .eret args s')
    (hdepth : ∀ i ∈ c.sls, (c.gang.slice i).stack.length = (c.gang.slice i).savedDepth) :
    exec .eret s = .next { (moved s' c fun _ sl => sl.eret).mapIssuer c fun g =>
        { g with lanes := g.lanes.mapIdx fun l ln => if c.sls.contains (l / 4) then ln.loseHandlerRegs else ln } with
      flights := s'.flights.map (Flight.afterEret c) } := by
  change execEret s = _
  exact h.runOp_ok (need_bind (savedDepth_all hdepth) _ _)

theorem exec_eretAbandon (h : Issues s c .eretAbandon args s')
    (hdepth : ∀ i ∈ c.sls, (c.gang.slice i).stack.length = (c.gang.slice i).savedDepth) :
    exec .eretAbandon s = .next (State.abandonCrew { s' with issued := s'.issued + 1 } c.crew.id Cause.abandon.code 0) := by
  change execEretAbandon s = _
  exact h.runOp_ok (need_bind (savedDepth_all hdepth) _ _)

end Sys2Proof.Claim
end

section
open Sys2Proof Sys2Proof.Machine Sys2Proof.Claim
set_option Elab.async false

/-- Settles O48: the crew after a trap in handler state is the abandoned crew, or the crew that had been abandoned. -/
theorem trapsInHandlerStateAbandonTheCrew : Obligations.TrapsInHandlerStateAbandonTheCrew := by
  refine fun s c h hin => ⟨fun cause addrs info => ⟨⟨_, _, State.takeTrap_inHandler hin⟩, ?_⟩, fun k => exec_trap h⟩
  obtain ⟨hcrew, -, -, -⟩ := State.issuer?_eq_some h
  have hissued : State.crew? { s with issued := s.issued + 1 } c.crew.id = some c.crew := hcrew
  rw [State.takeTrap_inHandler hin]
  cases ha : c.crew.abandoned with
  | true =>
    rw [State.abandonCrew_of_abandoned hissued ha]
    exact ⟨c.crew, hissued, ha, fun m g hg => ⟨g, hg, rfl, rfl, nofun⟩, nofun⟩
  | false =>
    refine ⟨_, State.crew?_abandonCrew hissued ha, rfl, fun m g hg => ⟨g.stopped, ?member, rfl, List.map_map,
      fun _ sl => Gang.finished_of_mem_stopped⟩, fun _ f hf hid p => State.abandonCrew_unparked hissued ha hf hid⟩
    case member => rw [Crew.member?_stopped, hg, Option.map_some]

/-- Settles O7: TRAP traps once its checks pass, and the two returns once the stacks are as deep as at entry. -/
theorem trapAndReturnsComplete : Obligations.TrapAndReturnsComplete :=
  fun _ _ _ _ => ⟨fun _ => exec_trap, fun h hdepth => ⟨_, exec_eret h hdepth, rfl, rfl⟩, exec_eretAbandon⟩

end

section
/-! Faults on their way to a party (11 R271, R272, R280, R286): FAULT_REPORT, FAULT_LOG_REPLY and HANDLER_ENTRY. -/

namespace Sys2Proof.Machine
open Sys2Proof
set_option Elab.async false

/-! ### FAULT_REPORT (11 R271, R276, R280) -/

/-- The faulted part of an instruction, and what goes with it, parks, and the instruction's slices have a report (11 R271). -/
def State.park (s : State) (f : Flight) (fl part code : Nat) : State :=
  (s.mapParts fl (f.group part) fun p => { p with state := .parked code }).mapFlight fl fun f =>
    { f with parkedOnce := true, reported := if f.held then f.reported else f.slices }

section
variable {s u : State} {fl part code : Nat} {f : Flight} {p : Part} {c : Crew}
variable (hf : s.flight? fl = some f) (hp : f.parts[part]? = some p)
include hf hp

section
variable (hfault : p.state = .faulted code) (hc : s.crew? f.crew = some c)
include hfault hc

theorem exec_faultReport_discards (ha : c.abandoned = true) : exec (.faultReport fl part) s = .next (s.dropPart fl part) := by
  change execFaultReport fl part s = _
  simp [execFaultReport, State.onPart_eq hf hp, hfault, hc, ha]

theorem exec_faultReport_abandons (ha : c.abandoned = false) (hin : f.inHandler = true) :
    exec (.faultReport fl part) s = .next (s.abandonCrew f.crew Cause.hfault.code p.addr.toNat) := by
  change execFaultReport fl part s = _
  simp [execFaultReport, State.onPart_eq hf hp, hfault, hc, ha, hin]

section
variable (ha : c.abandoned = false) (hin : f.inHandler = false)
include ha hin

theorem exec_faultReport_waits (hnone : f.parts.any Part.isParked = false) (hfull : s.parkSpace f = false) :
    exec (.faultReport fl part) s = .next s := by
  change execFaultReport fl part s = _
  simp only [execFaultReport, State.onPart_eq hf hp, hfault, hc, ha, hin, hnone, hfull, Option.map_some, Option.getD_some,
    Bool.false_eq_true, if_false, Bool.not_false, Bool.and_self, if_true]

variable (hroom : f.parts.any Part.isParked = true ∨ s.parkSpace f = true)
include hroom

theorem exec_faultReport_parks (haway : c.away = false) : exec (.faultReport fl part) s = .next (s.park f fl part code) := by
  have hpass : (!f.parts.any Part.isParked && !s.parkSpace f) = false := by
    rcases hroom with h | h <;> simp [h]
  change execFaultReport fl part s = _
  simp only [execFaultReport, State.onPart_eq hf hp, hfault, hc, ha, hin, hpass, haway, Option.map_some, Option.getD_some,
    Bool.false_eq_true, if_false, State.park]

/-- The fault log of a context that is away has the code before its part parks (11 R280). -/
theorem exec_faultReport_logs (haway : c.away = true)
    (hlog : s.changeLog f.crew (noteFault f f.crew code ((f.at_ (f.group part)).map (·.lane))) = (true, u)) :
    exec (.faultReport fl part) s = .next (u.park f fl part code) := by
  have hpass : (!f.parts.any Part.isParked && !s.parkSpace f) = false := by
    rcases hroom with h | h <;> simp [h]
  change execFaultReport fl part s = _
  simp only [execFaultReport, State.onPart_eq hf hp, hfault, hc, ha, hin, hpass, haway, Option.map_some, Option.getD_some,
    Bool.false_eq_true, if_false, if_true, hlog, State.park]

end
end

/-! ### FAULT_LOG_REPLY (11 R280) -/

theorem exec_faultLogReply (hdone : p.state = .performed) (hc : s.crew? f.crew = some c) (haway : c.away = true)
    (hk : f.kind ≠ .mcrd) (hlog : s.changeLog c.id (noteReply f part p) = (true, u)) :
    exec (.faultLogReply fl part) s =
      .next ((u.mapParts fl [part] fun p => { p with state := .returned }).settleFlights) := by
  change execFaultLogReply fl part s = _
  simp [execFaultLogReply, State.onPart_eq hf hp, hdone, hc, haway, hk, hlog]

end

/-! ### HANDLER_ENTRY (11 R272) -/

/-- The instructions of a member have no report of some slices any more. -/
def Flight.takeReports (c : Ctx) (f : Flight) : Flight :=
  if f.crew == c.crew.id && f.member == c.member then { f with reported := f.reported.filter fun i => !c.sls.contains i } else f

theorem Flight.not_mem_reported_takeReports {c : Ctx} {f : Flight} (hcrew : (f.takeReports c).crew = c.crew.id)
    (hmember : (f.takeReports c).member = c.member) {i : Nat} (hi : i ∈ c.sls) : i ∉ (f.takeReports c).reported := by
  unfold Flight.takeReports at hcrew hmember ⊢
  split
  · simp [hi]
  · next hother =>
    rw [if_neg hother] at hcrew hmember
    simp [hcrew, hmember] at hother

/-- What a party enters the handler for when it takes the reports of its parked instructions, the first of which is `f`. -/
def State.faultEntry (s : State) (c : Ctx) (f : Flight) : Entry :=
  let addrs := parkedAddrs (s.parkedOf c.crew.id c.member c.sls) c.sls
  ⟨((f.parts.find? Part.isParked).map Part.code).getD 0, f.faultWrites, 0, false, addrs, addrs.map Prod.fst, true⟩

/-- A RUNNING party with a report, which nothing holds back, enters the handler and takes its reports. -/
theorem exec_handlerEntry {s : State} {crew member party : Nat} {c : Ctx} {f : Flight} (hc : s.thread? crew member party = some c)
    (hrun : c.crew.state = .running) (hin : c.inHandler = false) (hbusy : s.handlerBusy c = false)
    (hspcfg : ∀ d, c.first.wait ≠ .spcfg d) (hmapf : ∀ done, c.first.wait ≠ .mapf done)
    (hf : ((s.parkedOf c.crew.id c.member c.sls).find? fun f => f.reported.any c.sls.contains) = some f) :
    exec (.handlerEntry crew member party) s =
      .next (let t := s.takeEntry c (s.faultEntry c f) (s.faultEntry c f).code
        { t with flights := t.flights.map (Flight.takeReports c) }) := by
  change execHandlerEntry crew member party s = _
  simp only [execHandlerEntry, hc, hrun, State.enterForFaults, hf, hin, hbusy]
  rfl

end Sys2Proof.Machine
end

section
open Sys2Proof Sys2Proof.Machine
set_option Elab.async false

/-- Settles O19: what FAULT_REPORT does with a faulted part in each case, the reply to a fault log, and the entry. -/
theorem faultsAreReported : Obligations.FaultsAreReported := by
  refine ⟨fun s fl part code f p c hf hp hfault hc => ⟨exec_faultReport_discards hf hp hfault hc,
      exec_faultReport_abandons hf hp hfault hc, fun ha hin => ⟨exec_faultReport_waits hf hp hfault hc ha hin, fun hroom =>
        ⟨exec_faultReport_parks hf hp hfault hc ha hin hroom, fun u => exec_faultReport_logs hf hp hfault hc ha hin hroom⟩⟩⟩,
    fun s u fl part f p c hf hp => exec_faultLogReply hf hp,
    fun s crew member party c f hc hrun hin hbusy hspcfg hmapf hf =>
      ⟨_, _, exec_handlerEntry hc hrun hin hbusy hspcfg hmapf hf, rfl, rfl, fun g hg hcrew hmember i hi => ?_⟩⟩
  obtain ⟨g', -, rfl⟩ := List.mem_map.1 hg
  exact Flight.not_mem_reported_takeReports hcrew hmember hi

end

section
/-! Fault-resume and translation requests (11 R268, R269, R278, R479, R480). -/

namespace Sys2Proof.Machine
open Sys2Proof
set_option Elab.async false

variable (s : State)

/-! ### Context numbers (11 R480) -/

/-- The slot that a context number of a block transfer engine names. -/
theorem slotOf_context {cluster slot : Nat} (hslot : slot < 16) : slotOf (0x8000 + 16 * cluster + slot) = (cluster, slot) := by
  simp only [slotOf, Prod.mk.injEq]
  omega

section
variable {cluster slot : Nat} (hcluster : cluster < 24) (hslot : slot < 16)
include hcluster hslot

theorem exec_faultResume_slot : exec (.faultResume (0x8000 + 16 * cluster + slot)) s = .next (s.mapSlot cluster slot fun sl =>
    if sl.state == .parked then { sl with state := .active, faultCode := 0, faultVa := 0 }
    else if sl.state == .completing && sl.wait == .record then { sl with wait := .none } else sl) := by
  have hcrew : ¬0x8000 + 16 * cluster + slot < 0x8000 := by omega
  have hlt : 0x8000 + 16 * cluster + slot < 0x8180 := by omega
  change execFaultResume _ s = _
  simp only [execFaultResume, if_neg hcrew, if_pos hlt, slotOf_context hslot]

theorem exec_faultResumeAbort_slot :
    exec (.faultResumeAbort (0x8000 + 16 * cluster + slot)) s = .next (s.abortSlot cluster slot) := by
  have hcrew : ¬0x8000 + 16 * cluster + slot < 0x8000 := by omega
  have hlt : 0x8000 + 16 * cluster + slot < 0x8180 := by omega
  change execFaultResumeAbort _ s = _
  simp only [execFaultResumeAbort, if_neg hcrew, if_pos hlt, slotOf_context hslot]

/-- A context number of a shared queue lies in the range of the queues, and names its cluster and its entry. -/
theorem queue_context : ¬0x9000 + 16 * cluster + slot < 0x8000 ∧ ¬0x9000 + 16 * cluster + slot < 0x8180 ∧
    (0x9000 ≤ 0x9000 + 16 * cluster + slot ∧ 0x9000 + 16 * cluster + slot < 0x9180) ∧
    (0x9000 + 16 * cluster + slot - 0x9000) / 16 = cluster ∧ (0x9000 + 16 * cluster + slot) % 16 = slot := by
  omega

theorem exec_faultResume_queue : exec (.faultResume (0x9000 + 16 * cluster + slot)) s =
    .next (s.mapQueue cluster slot fun e => { e with faulted := false }) := by
  obtain ⟨hcrew, hbte, hqueue, hdiv, hmod⟩ := queue_context hcluster hslot
  change execFaultResume _ s = _
  simp only [execFaultResume, if_neg hcrew, if_neg hbte, Bool.and_eq_true, decide_eq_true_eq, if_pos hqueue, hdiv, hmod]

theorem exec_faultResumeAbort_queue : exec (.faultResumeAbort (0x9000 + 16 * cluster + slot)) s =
    .next (s.mapQueue cluster slot fun e => if e.faulted then { e with faulted := false, desc := e.desc &&& ~~~1 } else e) := by
  obtain ⟨hcrew, hbte, hqueue, hdiv, hmod⟩ := queue_context hcluster hslot
  change execFaultResumeAbort _ s = _
  simp only [execFaultResumeAbort, if_neg hcrew, if_neg hbte, Bool.and_eq_true, decide_eq_true_eq, if_pos hqueue, hdiv, hmod]

end

section
variable {context : Nat} (h : context < 0x8000)
include h

/-- Every parked access of a crew is made again, and none of its instructions is held (11 R278, R279). -/
theorem exec_faultResume_crew : exec (.faultResume context) s = .next (let t := s.replay context fun _ _ _ => true
    { t with flights := t.flights.map fun f => if f.crew = context then { f with held := false } else f }) := by
  change execFaultResume context s = _
  simp only [execFaultResume, if_pos h, beq_iff_eq]

theorem exec_faultResumeAbort_crew :
    exec (.faultResumeAbort context) s = .next (s.abandonCrew context Cause.abandon.code 0) := by
  change execFaultResumeAbort context s = _
  simp only [execFaultResumeAbort, if_pos h]

end

/-! ### Translation requests (11 R269) -/

section
variable {asid : Nat} (h : asid ≠ aliasAsid)
include h

theorem exec_tlbiRequestPage (va : Nat) : exec (.tlbiRequestPage asid va) s = .next (s.tlbiPage asid va) :=
  congrArg Host.Outcome.next (if_neg h)

theorem exec_tlbiRequestAsid : exec (.tlbiRequestAsid asid) s = .next (s.tlbiAsid asid) :=
  congrArg Host.Outcome.next (if_neg h)

end

/-- An entry stays cached when it is of another ASID. -/
theorem State.mem_tlb_tlbiAsid {asid : Nat} {e : TlbEntry} : e ∈ (s.tlbiAsid asid).tlb ↔ e ∈ s.tlb ∧ e.asid ≠ asid := by
  simp [State.tlbiAsid, State.dropEntries]

/-- Nothing stays cached. -/
theorem exec_tlbiRequestAll : exec .tlbiRequestAll s = .next { s with tlb := [], walkCache := [] } := by
  change execTlbiRequestAll s = _
  simp [execTlbiRequestAll, State.tlbiAll, State.dropEntries]

end Sys2Proof.Machine
end

section
open Sys2Proof Sys2Proof.Machine
set_option Elab.async false

/-- Settles O33, by the ranges of context numbers and the forms of translation request. -/
theorem waitingAccessesResume : Obligations.WaitingAccessesResume := by
  refine fun s => ⟨fun context h => ⟨exec_faultResume_crew s h, exec_faultResumeAbort_crew s h⟩,
    fun cluster slot hcluster hslot => ⟨exec_faultResume_slot s hcluster hslot, exec_faultResumeAbort_slot s hcluster hslot,
      exec_faultResume_queue s hcluster hslot, exec_faultResumeAbort_queue s hcluster hslot⟩, rfl, rfl, rfl, rfl,
    fun asid va h => exec_tlbiRequestPage s h va,
    fun asid h => ⟨_, exec_tlbiRequestAsid s h, fun e he => ((State.mem_tlb_tlbiAsid s).1 he).symm,
      fun e he hne => (State.mem_tlb_tlbiAsid s).2 ⟨he, hne⟩, rfl, rfl⟩, _, exec_tlbiRequestAll s, rfl, rfl, rfl, rfl⟩

end

section
/-! The special-function and conversion queues (15 R358, R364; 16 R371, R372): a word of a queue that has room sends its
results on the way. -/

namespace Sys2Proof.Claim
open Sys2Proof Sys2Proof.Machine

variable {s s' : State} {c : Ctx} {i : Instr} {args : List (List Nat)}

/-- A word of a queue, once the queue has room. -/
theorem queueOp_ok {dst : Slice → Use} {size : Nat} {la : BitVec 4} {f : Slice → List Nat → Nat} (h : Issues s c i args s')
    (hroom : s'.queueRoom c i = true) : queueOp i (needs i) dst size la f s =
      .next (s'.issueFlight c i (resultFlight size dst la.toNat) [] [] (c.perLane args f)) :=
  h.runOp_ok (ready_bind hroom _)

/-- A special function, once its queue has room. -/
theorem sfqOp_ok {g : SpecFun} {d a : BitVec 7} {k : BitVec 1} {l : BitVec 4} {size : Nat} {dst : Slice → Use} {la : BitVec 4}
    {vals : List Nat} (h : Issues s c i args s') (hneeds : needs i = sfqNeeds d a) (hroom : s'.queueRoom c i = true)
    (hres : queuedOf.sfq c args g d k l = some (size, dst, la, vals)) :
    sfqOp i g d a k l s = .next (s'.issueFlight c i (resultFlight size dst la.toNat) [] [] vals) := by
  cases hres
  change queueOp i (sfqNeeds d a) _ _ _ _ s = _
  rw [← hneeds]
  exact queueOp_ok h hroom

/-- Each word that sends its results by a queue is one of the two forms. -/
theorem exec_of_queuedOf {size : Nat} {dst : Slice → Use} {la : BitVec 4} {vals : List Nat} (h : Issues s c i args s')
    (hres : queuedOf c args i = some (size, dst, la, vals)) (hroom : s'.queueRoom c i = true) :
    exec i s = .next (s'.issueFlight c i (resultFlight size dst la.toNat) [] [] vals) := by
  cases i with
  | frcp | frsq | fsqrt | fexp2 | flog2 | fsin | fcos | ftanh => exact sfqOp_ok h rfl hroom hres
  | cvt | dqt =>
    cases hres
    exact queueOp_ok h hroom
  | _ => cases hres

end Sys2Proof.Claim
end

section
open Sys2Proof Sys2Proof.Machine Sys2Proof.Claim

/-- Settles O5: each word of a queue is `queueOp` of its results. -/
theorem queuedResultsComplete : Obligations.QueuedResultsComplete :=
  fun _ _ _ _ _ _ _ _ _ h hres hroom => exec_of_queuedOf h hres hroom

end

section
/-! AMSG (13 R307; 15 R339): a message leaves by the fabric, or ends at once with BADMSG. -/

namespace Sys2Proof.Claim
open Sys2Proof Sys2Proof.Machine

variable {s s' : State} {c : Ctx} {args : List (List Nat)} {t b : BitVec 7} {l : BitVec 4} {v : Nat}

/-- The flight that brings an active message's status back: a release at system scope (03 R69). -/
def amsgFlight (t : BitVec 7) (l : BitVec 4) : Launching :=
  { kind := .amsg, size := 0, dst := some fun _ => .dst t, la := l.toNat, strength := ⟨true, 6, false, true, false⟩ }

/-- The reserved fields of an active message's packet are zero. -/
def amsgSound (ds : List Double) : Prop := bitsOf (dbl ds 0) 32 32 = 0 ∧ dbl ds 7 = 0

theorem not_amsgSound_iff (ds : List Double) :
    ¬amsgSound ds ↔ (bitsOf (dbl ds 0) 32 32 ≠ 0 || dbl ds 7 ≠ 0) = true := by
  simp only [amsgSound, Bool.or_eq_true, decide_eq_true_eq, ne_eq]
  exact Classical.not_and_iff_not_or_not

/-- AMSG sends what is sound, and ends with BADMSG otherwise. -/
theorem exec_amsg (h : Issues s c (.amsg t b l) args s') (hv : firstArg c args 0 = some v) :
    exec (.amsg t b l) s = .next (if (bitsOf (dbl (packetOf v 0 1) 0) 32 32 ≠ 0 || dbl (packetOf v 0 1) 7 ≠ 0) = true then
        s'.issueFlight c (.amsg t b l) { amsgFlight t l with start := .performed } [] [] (c.lanes.map fun _ => amBadMsg)
      else (s'.issueFlight c (.amsg t b l) { amsgFlight t l with start := .fabric (s'.serial + 1) } [] [] []).newMessage
        (.amsg s'.serial) (some c.crew.id) 13 (bitsOf (dbl (packetOf v 0 1) 0) 0 10) 0 64 (packetOf v 0 1) c.crew.job c.die) := by
  change c.firstVal (args.getD 0 []) = some v at hv
  change execAmsg t b l s = _
  refine h.runOp_ok ?_
  simp only [hv]
  exact (apply_ite Except.ok ..).symm

end Sys2Proof.Claim
end

section
open Sys2Proof Sys2Proof.Machine Sys2Proof.Claim

/-- Settles O14, by whether the reserved fields are zero. -/
theorem activeMessageCompletes : Obligations.ActiveMessageCompletes := by
  intro s s' c args t b l v h hv ds o
  refine ⟨fun hsound => ?_, fun hbad => ?_⟩
  · rw [exec_amsg h hv, if_neg fun hbad => (not_amsgSound_iff _).2 hbad hsound]
    rfl
  · rw [exec_amsg h hv, if_pos ((not_amsgSound_iff _).1 hbad)]
    rfl

end

section
/-! The accesses that are not one part per lane (15 R350, R353; 16 R387; 17 R396; 18 R447): each, once its checks pass and it
has room, goes on its way. -/

namespace Sys2Proof.Claim
open Sys2Proof Sys2Proof.Machine

variable {s s' : State} {c : Ctx} {args : List (List Nat)} {t a b : BitVec 7} {l : BitVec 4}

/-- An access issues when its path has room, and the parked-access table for a global one (03 R57; 11 R271). -/
theorem accessReady_of_room {path : Nat} {addrs : List Nat} (hpath : c.gang.ifc path < 65535)
    (hpark : anyGlobal addrs = true → s.parkRoom c = true) : c.accessReady s path addrs = .ok () := by
  have hroom : (c.pathRoom path && (!anyGlobal addrs || s.parkRoom c)) = true := by
    cases hg : anyGlobal addrs with
    | false => simp [Ctx.pathRoom, hpath]
    | true => simp [Ctx.pathRoom, hpath, hpark hg]
  unfold Ctx.accessReady
  rw [hroom, Bool.or_true]
  rfl

/-- A check that finds nothing lets the rest run. -/
theorem guard_bind {α : Type} {p : Prop} [Decidable p] (h : ¬p) (e : Stop) (k : PUnit → Except Stop α) :
    (if p then (.error e : Except Stop PUnit) >>= k else k ⟨⟩) = k ⟨⟩ := if_neg h

/-- What has been answered lets the rest run. -/
theorem ok_bind {α : Type} {x : Except Stop Unit} (h : x = .ok ()) (k : Unit → Except Stop α) : (x >>= k) = k () := by
  rw [h]
  rfl

/-! ### LDX (16 R387) -/

/-- Each lane's address in LDX. -/
def ldxAddrs (args : List (List Nat)) : List Nat :=
  List.zipWith (fun x y => (x + y) % 2 ^ 64) (args.getD 0 []) (args.getD 1 [])

/-- Each lane's size in LDX: that of its slice's FMT. -/
def ldxSizes (c : Ctx) : List Nat := c.lanes.map fun k => ldxSize (c.gang.slice (k / 4))

/-- The flight of an LDX. -/
def ldxFlight (c : Ctx) (args : List (List Nat)) (t : BitVec 7) (l : BitVec 4) : Launching :=
  { kind := .load, size := (ldxSizes c).foldl max 4, dst := some (ldxDst t), la := l.toNat,
    path := some (loadPath (ldxAddrs args)) }

theorem exec_ldx (h : Issues s c (.ldx t a b l) args s') (hlanes : c.lanes ≠ [])
    (hplace : ∀ p ∈ (c.lanes.zip (ldxAddrs args)).zip (ldxSizes c), (c.place? s' p.1.1 p.1.2 p.2).isSome = true)
    (halign : ∀ p ∈ (ldxAddrs args).zip (ldxSizes c), p.1 % p.2 = 0)
    (hready : c.accessReady s' (loadPath (ldxAddrs args)) (ldxAddrs args) = .ok ()) :
    exec (.ldx t a b l) s = .next ((s'.retireNext c).startFlight c (.ldx t a b l) (ldxFlight c args t l)
      ((c.parts (ldxFlight c args t l) (ldxAddrs args) [] []).mapIdx fun k p => { p with size := (ldxSizes c).getD k 4 })) := by
  have hnoAddress : ¬(((c.lanes.zip (ldxAddrs args)).zip (ldxSizes c)).any fun ((k, x), n) =>
      (c.place? s' k x n).isNone) = true := by
    simp only [List.any_eq_true, not_exists, not_and]
    exact fun p hp hnone => Option.isSome_iff_ne_none.1 (hplace p hp) (Option.isNone_iff_eq_none.1 hnone)
  have hnoAlign : ¬(((ldxAddrs args).zip (ldxSizes c)).any fun (x, n) => x % n ≠ 0) = true := by
    simpa only [List.any_eq_true, not_exists, not_and, decide_eq_true_eq, not_not] using halign
  change execLdx t a b l s = _
  refine h.runOp_ok ?_
  refine (guard_bind hnoAddress _ _).trans ((guard_bind hnoAlign _ _).trans ((ok_bind hready _).trans ?_))
  exact congrArg Except.ok (if_neg (by simpa using hlanes))

/-! ### CFLUSH (15 R353) -/

theorem exec_cflush (h : Issues s c (.cflush a) args s')
    (hparts : flushParts c { kind := .flush, size := 128, path := some 2 } (args.getD 0 []) ≠ [])
    (hspace : ∀ p ∈ c.lanes.zip (args.getD 0 []), natBits p.2 56 8 = 0 ∨ natBits p.2 56 8 = 0xFE)
    (hready : c.accessReady s' 2 (args.getD 0 []) = .ok ()) :
    exec (.cflush a) s = .next ((s'.retireNext c).startFlight c (.cflush a) { kind := .flush, size := 128, path := some 2 }
      (flushParts c { kind := .flush, size := 128, path := some 2 } (args.getD 0 []))) := by
  have hnoAddress : ¬((c.lanes.zip (args.getD 0 [])).any fun (_, x) =>
      natBits x 56 8 ≠ 0 && natBits x 56 8 ≠ 0xFE) = true := by
    simp only [List.any_eq_true, not_exists, not_and, Bool.and_eq_true, decide_eq_true_eq, not_not]
    exact fun p hp hne => (hspace p hp).resolve_left hne
  change execCflush a s = _
  refine h.runOp_ok ((guard_bind hnoAddress _ _).trans ((ok_bind hready _).trans ?_))
  exact congrArg Except.ok (if_neg (mt List.isEmpty_iff.1 hparts))

/-! ### CBT (15 R350) -/

theorem exec_cbt {x : Nat} (h : Issues s c (.cbt a l) args s') (hx : firstArg c args 0 = some x)
    (hplace : (c.place? s' (c.lanes.headD 0) x (paletteSize c.first)).isSome = true) (halign : x % paletteSize c.first = 0)
    (hready : c.accessReady s' (loadPath [x]) [x] = .ok ()) :
    exec (.cbt a l) s = .next (s'.startPalette c (.cbt a l)
      { kind := .palette, size := paletteSize c.first, path := some (loadPath [x]) } x 0 l.toNat) := by
  unfold firstArg at hx
  change execCbt a l s = _
  refine h.runOp_ok ?_
  rw [hx]
  have hnoAddress : ¬(c.place? s' (c.lanes.headD 0) x (paletteSize c.first)).isNone = true := by
    rw [Option.isNone_iff_eq_none]
    exact Option.isSome_iff_ne_none.1 hplace
  exact (guard_bind hnoAddress _ _).trans ((guard_bind (not_not.2 halign) _ _).trans (ok_bind hready _))

theorem exec_cbtReg {x : Nat} (h : Issues s c (.cbtReg b l) args s') (hx : firstArg c args 0 = some x) :
    exec (.cbtReg b l) s = .next (s'.startPalette c (.cbtReg b l)
      { kind := .palette, size := paletteSize c.first, start := .performed } 0 x l.toNat) := by
  unfold firstArg at hx
  change execCbtReg b l s = _
  refine h.runOp_ok ?_
  rw [hx]

/-! ### MCRD (17 R396) -/

/-- The flight of an MCRD: source, request word, destination. -/
def mcrdFlight (src w dst : Nat) : Launching :=
  { kind := .mcrd, size := 128 * mcrdCount w, path := some 5
    aux := [BitVec.ofNat 64 dst, BitVec.ofNat 64 (mcrdCount w), BitVec.ofNat 64 (mcrdMask w), BitVec.ofNat 64 src] }

theorem exec_mcrd {src w dst : Nat} (h : Issues s c (.mcrd t a b) args s') (hsrc : firstArg c args 0 = some src)
    (hw : firstArg c args 1 = some w) (hdst : firstArg c args 2 = some dst) (hmask : mcrdMask w ≠ 0)
    (hreserved : natBits w 9 7 = 0) (hreach : c.crew.mcrdReach src dst w = true) (hsrcAlign : src % 128 = 0)
    (hdstAlign : dst % 128 = 0) (hready : c.accessReady s' 5 [src] = .ok ()) :
    exec (.mcrd t a b) s = .next ((s'.retireNext c).startFlight c (.mcrd t a b) (mcrdFlight src w dst)
      ((c.parts (mcrdFlight src w dst) [src] [] []).take 1)) := by
  unfold firstArg at hsrc hw hdst
  change execMcrd t a b s = _
  refine h.runOp_ok ?_
  rw [hsrc, hw, hdst]
  have hlegal : (mcrdMask w != 0 && natBits w 9 7 == 0) = true := by simp [hmask, hreserved]
  have hnoAddress : ¬(!c.crew.mcrdReach src dst w) = true := by simp [hreach]
  have hnoAlign : ¬(src % lineBytes ≠ 0 || dst % lineBytes ≠ 0) = true := by simp [lineBytes, hsrcAlign, hdstAlign]
  exact (need_bind hlegal _ _).trans ((guard_bind hnoAddress _ _).trans ((guard_bind hnoAlign _ _).trans (ok_bind hready _)))

/-! ### TSUB (18 R447) -/

/-- The frame that a TSUB's descriptor names, as it is read at issue. -/
def tsubFrame (s : State) (c : Ctx) (desc : Nat) : Double :=
  match s.peek c.asid (desc + 8) 8 with
  | (.bytes bs, _) => BitVec.ofNat 64 (leValue (bs.map s.orFill))
  | _ => 0

/-- The flight of a TSUB: its descriptor, and the frame that the descriptor names. -/
def tsubFlight (s : State) (c : Ctx) (desc : Nat) (t : BitVec 7) (l : BitVec 4) : Launching :=
  { kind := .tsub, size := 8, dst := some fun _ => .dst64 t, la := l.toNat
    strength := ⟨true, 3, false, true, false⟩, aux := [BitVec.ofNat 64 desc, 0, tsubFrame s c desc] }

theorem exec_tsub {desc : Nat} (h : Issues s c (.tsub t a l) args s') (hdesc : firstArg c args 0 = some desc)
    (hglobal : natBits desc 56 8 = 0) (halign : desc % 128 = 0) (hpark : s'.parkRoom c = true)
    (hsubmit : s'.submit c.crew c.asid desc (.flight s'.serial) ≠ .error .wait) :
    exec (.tsub t a l) s =
      .next (s'.issueFlight c (.tsub t a l) (tsubFlight s' c desc t l) (c.lanes.map fun _ => desc) [] []) := by
  have hfree : (match s'.submit c.crew c.asid desc (.flight s'.serial) with
      | .error .wait => false
      | _ => true) = true := by
    split
    case h_1 hwait => exact absurd hwait hsubmit
    case h_2 => rfl
  unfold firstArg at hdesc
  change execTsub t a l s = _
  refine h.runOp_ok ?_
  rw [hdesc]
  exact (guard_bind (not_not.2 hglobal) _ _).trans ((guard_bind (not_not.2 halign) _ _).trans
    ((ready_bind hpark _).trans (ready_bind hfree _)))

end Sys2Proof.Claim
end

section
open Sys2Proof Sys2Proof.Machine Sys2Proof.Claim

/-- Settles O8, word by word. -/
theorem otherAccessesComplete : Obligations.OtherAccessesComplete := by
  intro s s' c args
  refine ⟨fun t a b l => ?_, fun a => ?_, fun a l x h hx hplace halign hpath hpark => ?_, fun b l x => exec_cbtReg,
    fun t a b src w dst h hsrc hw hdst hmask hreserved hreach hsrcAlign hdstAlign hpath hpark => ?_,
    fun t a l desc h hdesc hglobal halign hpark hsubmit => ?_⟩
  · intro addrs sizes h hlanes hplace halign hpath hpark
    exact ⟨ldxFlight c args t l, rfl, rfl, rfl,
      exec_ldx h hlanes hplace halign (accessReady_of_room hpath hpark)⟩
  · intro o h hparts hspace hpath hpark
    exact exec_cflush h hparts hspace (accessReady_of_room hpath fun _ => hpark)
  · exact exec_cbt h hx hplace halign (accessReady_of_room hpath fun _ => hpark)
  · exact ⟨mcrdFlight src w dst, rfl, rfl, rfl, rfl, exec_mcrd h hsrc hw hdst hmask hreserved hreach hsrcAlign hdstAlign
      (accessReady_of_room hpath fun _ => hpark)⟩
  · exact ⟨tsubFlight s' c desc t l, rfl, rfl, rfl, rfl, exec_tsub h hdesc hglobal halign hpark hsubmit⟩

end

section
/-! Fabric messages (13 R305, R306, R311, R315): how one is sent, what its answer does, and how an overdue one is repaired. -/

namespace Sys2Proof.Machine
open Sys2Proof

variable {s : State} {m : Message} {payload : List (BitVec 64)}

/-! ### Sending (13 R305, R311) -/

/-- The messages once one of them has left by a port. -/
def State.sentBy (s : State) (m : Message) (port : Nat) : List Message :=
  s.messages.map fun x => if x.id = m.id then { x with port := port, state := .outstanding, since := s.clock.toNat } else x

/-- A message whose job has its entry, and whose target has room, leaves by the port that its address selects. -/
theorem State.inject_sent {p : Nat} (hjob : m.job = 0 ∨ (s.jobEntry? m.die m.job).isSome = true)
    (hport : (s.routePorts m.target)[natBits m.pa 7 33 % (s.routePorts m.target).length]? = some p)
    (hroom : s.outstandingTo m.target < 4096) :
    s.inject m = State.countInjected { s with messages := s.sentBy m p } m.die m.job 1 := by
  have hentry : ¬(m.job ≠ 0 && (s.jobEntry? m.die m.job).isNone) = true := by
    rcases hjob with hnone | hsome
    · simp [hnone]
    · simp [Option.isNone_eq_false_iff.2 hsome]
  unfold State.inject
  rw [if_neg hentry]
  simp only [hport, if_neg (Nat.not_le.2 hroom), modifyWhere, beq_iff_eq]
  rfl

theorem exec_messageInject (hready : (s.messages.find? fun x => x.id == m.id && x.state == .ready) = some m)
    (hmay : s.mayInject m = true) : exec (.messageInject m.id) s = .next (s.inject m) := by
  change execMessageInject m.id s = _
  simp only [execMessageInject, hready, hmay, if_true]

/-! ### Answers and timeouts (13 R306, R311, R315) -/

section
variable (h : s.message? m.id .outstanding = some m)
include h

/-- An answer of code 0 performs the message, 1 refuses it at its target, and any other in the fabric. -/
theorem exec_messageResponse (code : Nat) : exec (.messageResponse m.id code payload) s = .next (
    match code with
    | 0 => s.answered m (some payload) (dbl payload 0).toNat
    | 1 => s.failMessage m amUnreach
    | _ => (s.countInjected m.die m.job (-1)).failMessage m amUnreach) := by
  change execMessageResponse m.id code payload s = _
  simp only [execMessageResponse, h] <;> rfl

theorem exec_respTimeout : exec (.respTimeout m.id) s = .next
    (if m.since + 1024 * bitsOf s.fabricCtl 16 16 ≤ s.clock.toNat then s.toQuery m else s) := by
  change execRespTimeout m.id s = _
  simp only [execRespTimeout, h]

end

/-! ### Queries (13 R315) -/

section
variable (h : s.message? m.id .query = some m)
include h

/-- The query of an overdue message is sent again. -/
theorem exec_queryWait (hdue : m.since + 1024 * bitsOf s.fabricCtl 32 16 ≤ s.clock.toNat) :
    exec (.queryWait m.id) s = .next { s with
      messages := modifyWhere (·.id == m.id) (fun m => { m with since := s.clock.toNat }) s.messages
      control := s.control ++ [.query m.target m.id] } := by
  change execQueryWait m.id s = _
  simp only [execQueryWait, h, if_pos hdue]

/-- PERFORMED delivers a message, and NOT PERFORMED makes it LOST. -/
theorem exec_queryAnswer (performed : Nat) : exec (.queryAnswer m.id performed) s =
    .next (if performed ≠ 0 then s.deliverMessage m else s.loseMessage m) := by
  change execQueryAnswer m.id performed s = _
  simp only [execQueryAnswer, h]

end

section
variable {source tag : Nat}

theorem exec_queryReceive_inHand (h : s.inHand source tag = true) : exec (.queryReceive source tag) s = .next s := by
  change execQueryReceive source tag s = _
  simp only [execQueryReceive, h, if_true]

/-- The requests noted once a query is answered: one that was not performed is to be discarded. -/
def State.tagsQueried (s : State) (source tag : Nat) : List Tag :=
  if (s.tags.any fun t => t.source == source && t.tag == tag && t.performed) || s.tags.contains ⟨source, tag, false⟩ then s.tags
  else s.tags ++ [⟨source, tag, false⟩]

theorem exec_queryReceive (h : s.inHand source tag = false) : exec (.queryReceive source tag) s = .next { s with
    tags := s.tagsQueried source tag
    control := s.control ++
      [.answer source tag (s.tags.any fun t => t.source == source && t.tag == tag && t.performed)] } := by
  change execQueryReceive source tag s = _
  simp only [execQueryReceive, h, Bool.false_eq_true, if_false]
  rfl

/-- A request that has not been performed is noted as one to discard. -/
theorem State.mem_tagsQueried (h : ∀ x ∈ s.tags, x.source = source → x.tag = tag → x.performed = false) :
    ⟨source, tag, false⟩ ∈ s.tagsQueried source tag := by
  have hnone : (s.tags.any fun t => t.source == source && t.tag == tag && t.performed) = false :=
    List.any_eq_false.2 fun x hx => by
      simp only [Bool.and_eq_true, beq_iff_eq, not_and]
      exact fun ⟨hs, ht⟩ => Bool.not_eq_true _ ▸ h x hx hs ht
  unfold State.tagsQueried
  rw [hnone, Bool.false_or]
  split
  case isTrue hnoted => exact List.contains_iff_mem.1 hnoted
  case isFalse => exact List.mem_append_right _ (List.mem_singleton_self _)

end

end Sys2Proof.Machine
end

section
open Sys2Proof Sys2Proof.Machine

/-- Settles O36: a message's sending, its answers, its timeouts, and the two sides of a query. -/
theorem messagesAreSentAndRepaired : Obligations.MessagesAreSentAndRepaired := by
  refine ⟨fun s m p hready hmay hjob hport hroom => ?_, fun s m payload h => ?_, fun s m h => ⟨fun hdue => ?_, fun hearly => ?_⟩,
    fun s m h => ⟨exec_queryWait h, exec_queryAnswer h 0, exec_queryAnswer h 1⟩,
    fun s source tag => exec_queryReceive_inHand, fun s source tag h => ⟨_, exec_queryReceive h, rfl, State.mem_tagsQueried⟩⟩
  · rw [exec_messageInject hready hmay, State.inject_sent hjob hport hroom]
    rfl
  · exact ⟨exec_messageResponse h 0, exec_messageResponse h 1, exec_messageResponse h 2⟩
  · rw [exec_respTimeout h, if_pos hdue]
  · rw [exec_respTimeout h, if_neg (Nat.not_le.2 hearly)]

end

section
/-! Requests and active messages of peers (13 R304, R309, R311, R315, R318, R322): how each is admitted, refused, served and
counted, and what a read and a fetch-and-add give. -/

namespace Sys2Proof.Machine
open Sys2Proof

variable {s : State} {origin tag kind offset size job : Nat} {payload : List (BitVec 64)}

/-! ### Requests that are not served (13 R304, R311, R315) -/

theorem exec_inboundFabricRequest_discarded (h : s.discarded (origin % 1024) tag = true) :
    exec (.inboundFabricRequest origin tag kind offset size job payload) s = .next s := by
  change execInboundFabricRequest origin tag kind offset size job payload s = _
  simp only [execInboundFabricRequest, originOf, h, if_true]

/-- A job has an entry on a die, or there is no job. -/
def State.jobKnown (s : State) (die job : Nat) : Prop := job = 0 ∨ (s.jobEntry? die job).isSome = true

theorem State.not_unknown_of_jobKnown {die : Nat} (h : s.jobKnown die job) :
    ¬(job ≠ 0 && (s.jobEntry? die job).isNone) = true := by
  rcases h with hnone | hsome
  · simp [hnone]
  · simp [Option.isNone_eq_false_iff.2 hsome]

/-- Where a request's window leads (13 R304). -/
def State.peerPlace (s : State) (kind offset size : Nat) : Option (Nat × Nat) :=
  s.inbound srcFabric offset size (messageWrites kind)

/-- What becomes of a request that a window admits, by how its home has served it (13 R311, R315, R318). -/
def Served.settle (port source tag kind size asid : Nat) (payload : List Double) (job die : Nat) : Served → State
  | .done data _ s => ((s.noteTag source tag).countConsumed die job 1).respond source tag 0 data
  | .pushed s => (s.noteTag source tag).countConsumed die job 1
  | .fault code at_ s => ((s.refusePeer port source tag 1).countConsumed die job 1).postEvent (faultEvent 0xFFFE asid code at_)
  | .far t off s => s.newMessage (.relay none source tag) none kind t off size payload job die
  | .held s => s

section
variable (hfresh : s.discarded (origin % 1024) tag = false)
include hfresh

/-- A request of a job without an entry has a code of its own (13 R311). -/
theorem exec_inboundFabricRequest_unknownJob (hjob : job ≠ 0)
    (hentry : s.jobEntry? (targetDie (origin / 1024 % 48) (s.peerPlace kind offset size)) job = none) :
    exec (.inboundFabricRequest origin tag kind offset size job payload) s =
      .next (s.refusePeer (origin / 1024 % 48) (origin % 1024) tag 2) := by
  have hunknown : (job ≠ 0 &&
      (s.jobEntry? (targetDie (origin / 1024 % 48) (s.peerPlace kind offset size)) job).isNone) = true := by
    simp [hjob, hentry]
  change execInboundFabricRequest origin tag kind offset size job payload s = _
  simp only [execInboundFabricRequest, originOf, hfresh, Bool.false_eq_true, if_false]
  exact congrArg _ (if_pos hunknown)

section
variable (hjob : s.jobKnown (targetDie (origin / 1024 % 48) (s.peerPlace kind offset size)) job)
include hjob

theorem exec_inboundFabricRequest_notAdmitted (hplace : s.peerPlace kind offset size = none) :
    exec (.inboundFabricRequest origin tag kind offset size job payload) s =
      .next ((s.refusePeer (origin / 1024 % 48) (origin % 1024) tag 1).countConsumed
        (targetDie (origin / 1024 % 48) (s.peerPlace kind offset size)) job 1) := by
  change execInboundFabricRequest origin tag kind offset size job payload s = _
  simp only [execInboundFabricRequest, originOf, hfresh, Bool.false_eq_true, if_false]
  refine congrArg _ ((if_neg (State.not_unknown_of_jobKnown hjob)).trans ?_)
  simp only [State.peerPlace] at hplace
  simp only [hplace, State.peerPlace]

theorem exec_inboundFabricRequest_admitted {asid va : Nat} {r : Served} (hplace : s.peerPlace kind offset size = some (asid, va))
    (hserve : s.serve (origin % 1024) tag kind asid va payload job
      (targetDie (origin / 1024 % 48) (s.peerPlace kind offset size)) = r) :
    exec (.inboundFabricRequest origin tag kind offset size job payload) s =
      .next (r.settle (origin / 1024 % 48) (origin % 1024) tag kind size asid payload job
        (targetDie (origin / 1024 % 48) (s.peerPlace kind offset size))) := by
  subst hserve
  change execInboundFabricRequest origin tag kind offset size job payload s = _
  simp only [execInboundFabricRequest, originOf, hfresh, Bool.false_eq_true, if_false]
  refine congrArg _ ((if_neg (State.not_unknown_of_jobKnown hjob)).trans ?_)
  simp only [State.peerPlace] at hplace
  simp only [hplace, State.peerPlace]
  rfl

end

end

/-! ### Active messages (13 R309, R311) -/

theorem exec_amsgReceive_discarded (h : s.discarded (origin % 1024) tag = true) :
    exec (.amsgReceive origin tag job payload) s = .next s := by
  change execAmsgReceive origin tag job payload s = _
  simp only [execAmsgReceive, originOf, h, if_true]

/-- An active message that ends with a status is answered with it; one that is refused is counted. -/
theorem exec_amsgReceive_status {n : Nat} {u : State} (hfresh : s.discarded (origin % 1024) tag = false)
    (hjob : s.jobKnown (s.handlerDie (origin / 1024 % 48) (bitsOf (dbl payload 0) 10 6)) job)
    (hwaits : s.deviceAcc.contains
      (.message (bitsOf (dbl payload 0) 10 6) (origin / 1024 % 48) (origin % 1024) tag job payload) = false)
    (hreceive : s.receive (origin / 1024 % 48) (origin % 1024) tag job payload = .status n u) :
    exec (.amsgReceive origin tag job payload) s = .next (
      if n = 0 then (u.noteTag (origin % 1024) tag).respond (origin % 1024) tag 0 [0]
      else ((u.portCount (origin / 1024 % 48) cRefused).countConsumed
        (s.handlerDie (origin / 1024 % 48) (bitsOf (dbl payload 0) 10 6)) job 1).respond
          (origin % 1024) tag 0 [BitVec.ofNat 64 n]) := by
  change execAmsgReceive origin tag job payload s = _
  simp only [execAmsgReceive, originOf, hfresh, Bool.false_eq_true, if_false, State.amsgReceive, hwaits]
  refine congrArg _ ((if_neg (State.not_unknown_of_jobKnown hjob)).trans ?_)
  rw [hreceive]
  cases n <;> rfl

/-! ### What a home gives (13 R305, R318) -/

section
variable {u v : State} {asid va n : Nat} {bs : List (Option Byte)}

/-- A read of bytes that no operation owns and that are found goes on with them. -/
theorem State.serveRead_bytes (hfree : s.ownedSpan asid va n = false) (hpeek : s.devPeek asid va n = (.bytes bs, u))
    (k : List Byte → Bool → State → Served) : s.serveRead asid va n k = k (bs.map u.orFill) (bs.contains none) u := by
  unfold State.serveRead
  rw [hfree, if_neg Bool.false_ne_true, hpeek]

theorem State.serveWrite_done {me : Nat} {ws : List Byte} (hpoke : s.devPoke me asid va ws = (.done, v))
    (k : State → Served) : s.serveWrite me asid va ws k = k v := by
  unfold State.serveWrite
  rw [hpoke]

/-- A 64-bit atomic of bytes that are found and may be written returns their old value. -/
theorem State.serveDouble_done {f : Nat → Nat} (hfree : s.ownedSpan asid va 8 = false)
    (hpeek : s.devPeek asid va 8 = (.bytes bs, u))
    (hpoke : u.devPoke deviceOwner asid va (leBytes 8 (f (leValue (bs.map u.orFill)))) = (.done, v)) :
    s.serveDouble asid va f = .done [BitVec.ofNat 64 (leValue (bs.map u.orFill))] false v :=
  (State.serveRead_bytes hfree hpeek _).trans (State.serveWrite_done hpoke _)

/-- A peer's read gives the whole line. -/
theorem State.serve_read {source die : Nat} (hfree : s.ownedSpan asid (va / 128 * 128) 128 = false)
    (hpeek : s.devPeek asid (va / 128 * 128) 128 = (.bytes bs, u)) : s.serve source tag 0 asid va payload job die =
      .done (doublesOf (bs.map u.orFill)) (bs.contains none) u := by
  unfold State.serve
  exact State.serveRead_bytes hfree hpeek _

/-- A peer's 64-bit fetch-and-add gives the old value. -/
theorem State.serve_fetchAdd {source die : Nat} (hfree : s.ownedSpan asid va 8 = false)
    (hpeek : s.devPeek asid va 8 = (.bytes bs, u))
    (hpoke : u.devPoke deviceOwner asid va (leBytes 8 (leValue (bs.map u.orFill) + (dbl payload 0).toNat)) = (.done, v)) :
    s.serve source tag 14 asid va payload job die = .done [BitVec.ofNat 64 (leValue (bs.map u.orFill))] false v := by
  unfold State.serve
  exact State.serveDouble_done hfree hpeek hpoke

end

end Sys2Proof.Machine
end

section
open Sys2Proof Sys2Proof.Machine

/-- Settles O37: a request that is to be served is served by its home, whose answer decides what becomes of it. -/
theorem peerRequestsAreServed : Obligations.PeerRequestsAreServed := by
  refine ⟨?_, fun s u source tag asid va job die payload bs hfree hpeek => State.serve_read hfree hpeek,
    fun s u v source tag asid va job die payload bs hfree hpeek hpoke => ?_⟩
  case refine_2 => exact State.serve_fetchAdd hfree hpeek hpoke
  intro s origin tag kind offset size job payload port source place die
  refine ⟨fun h => ⟨exec_inboundFabricRequest_discarded h, exec_amsgReceive_discarded h⟩,
    exec_inboundFabricRequest_unknownJob, fun hfresh hjob => ⟨exec_inboundFabricRequest_notAdmitted hfresh hjob, ?_⟩,
    fun n u => exec_amsgReceive_status⟩
  intro asid va hplace
  have hexec {r : Served} := exec_inboundFabricRequest_admitted (payload := payload) (r := r) hfresh hjob hplace
  exact ⟨fun data poison u hserve => hexec hserve, fun u hserve => hexec hserve, fun code at_ u hserve => hexec hserve,
    fun target off u hserve => hexec hserve, fun u hserve => hexec hserve⟩

end

section
/-! The proof wave (13 R312 to R314, R316): its start, the two passes at a node, the root's decision, and what a decision
changes. -/

namespace Sys2Proof.Machine
open Sys2Proof

variable {s : State} {job wave pass child lost : Nat} {x : Wave} {payload : List (BitVec 64)}

/-! ### The start of a wave and DOWN (13 R313) -/

theorem exec_waveStart {t : Nat} (hwave : (s.waves.find? (·.job == job)) = some x) (hended : x.ended = some t)
    (hroot : s.isRoot job = true) : exec (.waveStart job) s =
      .next (if t + s.wavePeriod job ≤ s.clock.toNat then s.runPass job (s.nextWave job) 1 else s) := by
  change execWaveStart job s = _
  simp only [execWaveStart, hwave, hended, hroot, Bool.true_and, decide_eq_true_eq]

theorem exec_down (htree : (s.treeDie job).isSome = true) :
    exec (.down job wave pass) s = .next (if s.isRoot job then s else s.runPass job wave pass) := by
  change execDown job wave pass s = _
  simp only [execDown, htree, Bool.true_and]
  cases s.isRoot job <;> rfl

/-! ### UP (13 R313) -/

/-- A wave to which a child's sums have been added. -/
def Wave.takeUp (x : Wave) (child : Nat) (payload : List Double) : Wave :=
  { x with left := x.left.erase child, sums := addSums x.sums (payload.map BitVec.toNat) }

theorem exec_up (h : (s.waves.find? fun x => x.job == job && x.w == wave && x.pass == pass && x.left.contains child) = some x) :
    exec (.up job wave pass child payload) s = .next ((s.putWave (x.takeUp child payload)).settleWave job 2) := by
  change execUp job wave pass child payload s = _
  simp only [execUp, h]
  rfl

/-- A wave that is found is one of the job, of the number and of the pass asked for. -/
theorem eq_of_find?_wave
    (h : (s.waves.find? fun x => x.job == job && x.w == wave && x.pass == pass && x.left.contains child) = some x) :
    x.job = job ∧ x.w = wave ∧ x.pass = pass := by
  have hx := List.find?_some h
  simp only [Bool.and_eq_true, beq_iff_eq] at hx
  obtain ⟨⟨⟨hjob, hw⟩, hpass⟩, -⟩ := hx
  exact ⟨hjob, hw, hpass⟩

/-! ### The root's decision (13 R314) -/

/-- Both passes agree in injected, consumed and lost, nothing is pending in either, and as much was consumed as injected. -/
theorem quietWave_iff (a b : List Nat) : quietWave a b = true ↔
    a.getD 0 0 = b.getD 0 0 ∧ a.getD 1 0 = b.getD 1 0 ∧ a.getD 2 0 = b.getD 2 0 ∧ a.getD 3 0 = 0 ∧ b.getD 3 0 = 0 ∧
      a.getD 0 0 = a.getD 1 0 := by
  have hthree : List.range 3 = [0, 1, 2] := rfl
  simp only [quietWave, hthree, List.all_cons, List.all_nil, Bool.and_true, Bool.and_eq_true, beq_iff_eq, and_assoc]

/-- The last of a job's waves put is the one it has. -/
theorem State.putWave_putWave (s : State) (x : Wave) {y : Wave} (h : y.job = x.job) : (s.putWave x).putWave y = s.putWave y := by
  simp [State.putWave, List.filter_filter, h]

/-- The root ends a wave whose second pass has all its children's sums, and decides it if it is quiet. -/
theorem State.settleWave_root (hpass : x.pass = 2) (hleft : x.left = []) (hended : x.ended = none)
    (hroot : s.isRoot x.job = true) : (s.putWave x).settleWave x.job 2 =
      if quietWave (x.first.getD []) x.sums then
        (s.putWave { x with ended := some s.clock.toNat }).takeDecision x.job x.w (x.sums.getD 2 0)
      else s.putWave { x with ended := some s.clock.toNat } := by
  have hfind : ((s.putWave x).waves.find? fun y => y.job == x.job && y.left.isEmpty && y.ended.isNone) = some x := by
    simp [State.putWave, hleft, hended]
  have hrootPut : (s.putWave x).isRoot x.job = true := hroot
  have hsecond : ¬x.pass = 1 := by rw [hpass]; decide
  rw [State.settleWave, hfind]
  simp only [hrootPut, if_true, if_neg hsecond]
  unfold State.endWave
  rw [State.putWave_putWave s x (by rfl)]
  rfl

/-- With the sums of the last child of the second pass the root's wave has ended. -/
theorem exec_up_root {a : List Nat}
    (h : (s.waves.find? fun x => x.job == job && x.w == wave && x.pass == 2 && x.left.contains child) = some x)
    (hlast : x.left = [child]) (hended : x.ended = none) (hfirst : x.first = some a) (hroot : s.isRoot job = true) :
    let b := addSums x.sums (payload.map BitVec.toNat)
    let u := s.putWave { x with left := [], sums := b, ended := some s.clock.toNat }
    exec (.up job wave 2 child payload) s = .next (if quietWave a b then u.takeDecision job wave (b.getD 2 0) else u) := by
  obtain ⟨rfl, rfl, hpass⟩ := eq_of_find?_wave h
  have hnone : (x.takeUp child payload).left = [] := by simp [Wave.takeUp, hlast]
  have hup : x.takeUp child payload = { x with left := [], sums := addSums x.sums (payload.map BitVec.toNat) } := by
    rw [← hnone]
    rfl
  rw [exec_up h, hup]
  refine congrArg _ ((State.settleWave_root (x := { x with left := [], sums := _ }) hpass rfl hended hroot).trans ?_)
  simp only [hfirst, Option.getD_some]

/-! ### DECIDE (13 R314, R316) -/

theorem exec_decide (htree : (s.treeDie job).isSome = true) :
    exec (.decide job wave lost) s = .next (s.takeDecision job wave lost) :=
  congrArg Host.Outcome.next (if_pos htree)

/-- DECIDED is a field of the job's entries alone. -/
theorem State.setDecided_eq : s.setDecided job wave = { s with jobs := (s.setDecided job wave).jobs } := by
  have hkeep (u : State) (d e : Nat) (v : Double) : u.setJob d e 5 v = { u with jobs := (u.setJob d e 5 v).jobs } := rfl
  simp only [State.setDecided, State.eachEntry, List.foldl_cons, List.foldl_nil]
  split <;> split <;> rfl

/-- A slice that waits for a later wave than it saw has its status. -/
theorem Slice.wake_decide_ {sl : Slice} {since n w₀ : Nat} (hwait : sl.wait = .quiet job w₀ since n) (hlater : w₀ < wave)
    (hwake : sl.wake = none) : (Slice.decide_ job wave lost sl).wake = some (quietResult lost) := by
  simp [Slice.decide_, hwait, hlater, hwake]

end Sys2Proof.Machine
end

section
open Sys2Proof Sys2Proof.Machine

/-- Settles O38: the wave's start, DOWN, UP at any node and at the root, and DECIDE. -/
theorem wavesProve : Obligations.WavesProve := by
  refine ⟨fun s job x t hwave hended hroot => ⟨fun hdue => ?_, fun hearly => ?_⟩,
    fun s job wave pass htree => ⟨fun hnode => ?_, fun hroot => ?_⟩, fun s job wave pass child payload x => exec_up,
    fun s job wave child payload x a h hlast hended hfirst hroot => ?_, fun s job wave lost htree =>
      ⟨_, exec_decide htree, ?_, rfl, ?_, fun sl since n w₀ => Slice.wake_decide_⟩⟩
  · rw [exec_waveStart hwave hended hroot, if_pos hdue]
  · rw [exec_waveStart hwave hended hroot, if_neg (Nat.not_le.2 hearly)]
  · rw [exec_down htree, hnode, if_neg Bool.false_ne_true]
  · rw [exec_down htree, hroot, if_pos rfl]
  · intro b u
    have hexec := exec_up_root (payload := payload) h hlast hended hfirst hroot
    refine ⟨fun hquiet => ?_, fun hloud => ?_⟩
    · exact hexec.trans (congrArg _ (if_pos ((quietWave_iff ..).2 hquiet)))
    · exact hexec.trans (congrArg _ (if_neg (mt (quietWave_iff ..).1 hloud)))
  · rw [State.takeDecision, State.setDecided_eq]
  · rw [State.takeDecision, State.setDecided_eq]

end

section
/-! UALink ports and host ports (13 R301, R302, R315, R319 to R322; 14 R323, R324): training, failures and replays of a link, and
what a host's request does. -/

namespace Sys2Proof.Machine
open Sys2Proof

variable {s : State} {port : Nat}

/-! ### Links (13 R302, R315, R319) -/

/-- A training that ends with four lanes or two brings the port up, once ACCEL_ID has been written (14 R323). -/
theorem exec_portTraining {lanes : Nat} (haccel : s.accelSet = true) :
    exec (.portTraining port lanes) s = .next (s.mapLink port fun _ =>
      ⟨lanes == 4 || lanes == 2, (if lanes == 4 || lanes == 2 then lanes else 0), s.fabricCtl.getLsbD 52, 0⟩) := by
  change execPortTraining port lanes s = _
  simp only [execPortTraining, haccel, Bool.not_true, Bool.false_eq_true, if_false]

section
variable {l : Link} (hport : s.ports[port]? = some l) (hup : l.up = true)
include hport hup

theorem exec_portRetrain : exec (.portRetrain port) s =
    .next ((s.mapLink port fun l => { l with fails := l.fails + 1 }).portCount port cRetrain) := by
  change execPortRetrain port s = _
  simp only [execPortRetrain, hport, hup, if_true]

/-- A port whose failed retrains have reached their limit goes down; none of its messages has to be queried. -/
theorem exec_retrainLimit_down (hlimit : s.retrainLimit ≤ l.fails)
    (hsettled : ∀ m ∈ s.messages, m.port = port → m.state ≠ .outstanding) :
    exec (.retrainLimit port) s = .next (s.mapLink port fun _ => ⟨false, 0, l.slow, 0⟩) := by
  have hnone : s.messages.filter (fun m => m.port == port && m.state == .outstanding) = [] :=
    List.filter_eq_nil_iff.2 fun m hm => by
      simp only [Bool.and_eq_true, beq_iff_eq, not_and]
      exact hsettled m hm
  change execRetrainLimit port s = _
  simp only [execRetrainLimit, hport, hup, hlimit, decide_true, Bool.and_self, if_true, hnone, List.foldl_nil]

theorem exec_retrainLimit_below (hbelow : l.fails < s.retrainLimit) : exec (.retrainLimit port) s = .next s := by
  change execRetrainLimit port s = _
  simp only [execRetrainLimit, hport, hup, decide_eq_false (Nat.not_le.2 hbelow), Bool.and_false, Bool.false_eq_true, if_false]

end

/-- A host port's link retrains: block 48 or 49 counts it (14 R330). -/
theorem exec_portRetrain_host (hports : s.ports.length ≤ 48) (hup : s.linkUp.getD port false = true) :
    exec (.portRetrain (48 + port)) s = .next (s.portCount (48 + port) cRetrain) := by
  have hnone : s.ports[48 + port]? = none := List.getElem?_eq_none (by omega)
  have hhost : (48 ≤ 48 + port && s.linkUp.getD (48 + port - 48) false) = true := by
    rw [Nat.add_sub_cancel_left, hup, decide_eq_true (Nat.le_add_right ..), Bool.and_self]
  change execPortRetrain (48 + port) s = _
  simp only [execPortRetrain, hnone, hhost, if_true]

theorem exec_linkLevelReplay (hport : port < 50) : exec (.linkLevelReplay port) s = .next (s.portCount port cReplay) :=
  congrArg Host.Outcome.next (if_pos hport)

/-! ### Host ports (13 R320; 14 R323) -/

theorem exec_hostHotReset (hport : port < 2) :
    exec (.hostHotReset port) s = .next { s.freeSems port with linkUp := s.linkUp.set port true } :=
  congrArg Host.Outcome.next (if_pos hport)

theorem exec_hostLinkLoss (hport : port < 2) :
    exec (.hostLinkLoss port) s = .next { s.freeSems port with linkUp := s.linkUp.set port false } :=
  congrArg Host.Outcome.next (if_pos hport)

/-! ### Requests of a host (13 R319, R321, R322; 14 R323, R324) -/

section
variable {kind offset size : Nat} {payload : List (BitVec 64)} (hport : port < 2) (hup : s.linkUp.getD port false = true)
include hport hup

/-- A port whose link is up makes its requests. -/
theorem hostPort_open : ¬(2 ≤ port || !s.linkUp.getD port false) = true := by
  rw [hup, decide_eq_false (Nat.not_le.2 hport)]
  decide

/-- A request of device memory is performed in READY, and in no other state. -/
theorem exec_hostRequest_memory (hkind : kind < 8) : exec (.hostRequest port kind offset size payload) s =
    .next (if s.device = .ready then s.hostMemory port kind offset size payload else s.answerHost port 1 []) := by
  change execHostRequest port kind offset size payload s = _
  simp only [execHostRequest, if_neg (hostPort_open hport hup), if_pos hkind]

/-- In READY every offset of the window responds; what writes waits for the port's write that is on its way. -/
theorem exec_hostRequest_window (hready : s.device = .ready) (hlow : 8 ≤ kind) (hhigh : kind < 13) :
    exec (.hostRequest port kind offset size payload) s = .next (
      if kind = 8 then s.answerHost port 0 (doublesPadded (s.windowBytes offset size))
      else if s.hostWriting port then s
      else if kind = 9 then (s.windowWrite (port + 1) offset ((bytesOfDoubles payload).take size)).noteWindow offset
      else s.hostWindowAtomic port (kind - 8) offset size payload) := by
  have hresponds : ¬(!s.device.responds offset || 13 ≤ kind) = true := by
    simp [hready, DeviceState.responds, hhigh]
  have hwaits : (s.device ≠ .fatal && s.hostWriting port) = s.hostWriting port := by
    simp [hready]
  change execHostRequest port kind offset size payload s = _
  simp only [execHostRequest, if_neg (hostPort_open hport hup), if_neg (Nat.not_lt.2 hlow), if_neg hresponds, hwaits]

end

end Sys2Proof.Machine
end

section
open Sys2Proof Sys2Proof.Machine

/-- Settles O39: the links of UALink and host ports, and a host's requests by their kinds. -/
theorem portsAndHostsWork : Obligations.PortsAndHostsWork := by
  refine ⟨fun s port lanes => exec_portTraining, fun s port l hport hup => ⟨exec_portRetrain hport hup,
      exec_retrainLimit_down hport hup, exec_retrainLimit_below hport hup⟩,
    fun s port hport => exec_portRetrain_host, fun s port => exec_linkLevelReplay,
    fun s port hport => ⟨exec_hostHotReset hport, exec_hostLinkLoss hport⟩, fun s port offset size payload hport hup =>
    ⟨fun hready => ?_, fun hready hidle => ?_, fun kind hlow hhigh hready hidle => ?_, fun kind hkind hready => ?_,
      fun kind hkind hready => ?_⟩⟩
  · exact exec_hostRequest_window hport hup hready (by decide) (by decide)
  · rw [exec_hostRequest_window hport hup hready (by decide) (by decide), hidle]
    rfl
  · rw [exec_hostRequest_window hport hup hready (by omega) (by omega), hidle, if_neg (by omega), if_neg Bool.false_ne_true,
      if_neg (by omega), Nat.add_sub_cancel_left]
  · rw [exec_hostRequest_memory hport hup hkind, if_pos hready]
  · rw [exec_hostRequest_memory hport hup hkind, if_neg hready]
    rfl

end

section
/-! What an access at the memory controllers leaves alone (12 R289 to R291, R295, R296): everything off the HBM stacks. -/

namespace Sys2Proof.Machine
open Sys2Proof

/-- The machine off its HBM stacks: a state without their stored bits and marks, their rows and their counters. -/
def State.offStacks (s : State) : State :=
  { s with
    hbm := [], damage := [], poisonPas := [], undelivPas := []
    openRows := [], driving := [], streaming := false, stackCounters := [], ueTimes := [] }

theorem State.gathers_of_offStacks {s t : State} (h : t.offStacks = s.offStacks) : t.gathers = s.gathers :=
  show t.offStacks.gathers = s.offStacks.gathers from congrArg State.gathers h

theorem State.writeBacks_of_offStacks {s t : State} (h : t.offStacks = s.offStacks) : t.writeBacks = s.writeBacks :=
  show t.offStacks.writeBacks = s.offStacks.writeBacks from congrArg State.writeBacks h

theorem State.offStacks_foldl {α β : Type} {f : β × State → α → β × State}
    (h : ∀ x a, (f x a).2.offStacks = x.2.offStacks) (x : β × State) (as : List α) :
    (as.foldl f x).2.offStacks = x.2.offStacks := by
  induction as generalizing x with
  | nil => rfl
  | cons a as ih => rw [List.foldl_cons, ih, h]

variable (s : State) (stack stripe : Nat)

/-! ### Rows and counters -/

@[simp] theorem State.offStacks_drive (sub : Nat) : (s.drive stack stripe sub).offStacks = s.offStacks := rfl
@[simp] theorem State.offStacks_bump (counter : Nat) : (s.bump stack counter).offStacks = s.offStacks := rfl
@[simp] theorem State.offStacks_noteUe : (s.noteUe stack).offStacks = s.offStacks := rfl

@[simp] theorem State.offStacks_openRow (bank row mask : Nat) (stream : Bool) :
    (s.openRow stack bank row mask stream).offStacks = s.offStacks := by
  unfold State.openRow
  split <;> rfl

@[simp] theorem State.offStacks_column : (s.column stack stripe).offStacks = s.offStacks := by
  simp only [State.column]
  split
  · exact State.offStacks_openRow ..
  · split <;> rfl

theorem State.offStacks_asStream {α : Type} {f : State → α × State} (h : ∀ s, (f s).2.offStacks = s.offStacks) :
    (s.asStream f).2.offStacks = s.offStacks := h { s with streaming := true }

/-! ### Stored lines and their marks -/

@[simp] theorem State.offStacks_setRawLine (bs : List Byte) : (s.setRawLine stack stripe bs).offStacks = s.offStacks := rfl
@[simp] theorem State.offStacks_harm (kind : Nat) : (s.harm stack stripe kind).offStacks = s.offStacks := rfl
@[simp] theorem State.offStacks_undeliverable : (s.undeliverable stripe).offStacks = s.offStacks := rfl

@[simp] theorem State.offStacks_lineWritten (poisoned : Bool) : (s.lineWritten stripe poisoned).offStacks = s.offStacks := rfl

@[simp] theorem State.offStacks_putStack (bs : List Byte) : (s.putStack stack stripe bs).offStacks = s.offStacks :=
  State.offStacks_column ..

@[simp] theorem State.offStacks_strike (ecc : Nat) : (s.strike stack stripe ecc).offStacks = s.offStacks := by
  unfold State.strike
  grind [State.offStacks_harm]

/-! ### Reading -/

@[simp] theorem State.offStacks_readStack : (s.readStack stack stripe).2.offStacks = s.offStacks := by
  unfold State.readStack
  grind [State.offStacks_column, State.offStacks_setRawLine, State.offStacks_bump, State.offStacks_noteUe]

@[simp] theorem State.offStacks_rebuild : (s.rebuild stack stripe).2.offStacks = s.offStacks := by
  unfold State.rebuild
  generalize some zeroLine = acc
  induction otherStacks stack generalizing s acc with
  | nil => rfl
  | cons k ks ih => grind [State.offStacks_readStack]

@[simp] theorem State.offStacks_fetchStack : (s.fetchStack stack stripe).2.offStacks = s.offStacks := by
  unfold State.fetchStack
  grind [State.offStacks_readStack, State.offStacks_rebuild, State.offStacks_setRawLine, State.offStacks_bump]

@[simp] theorem State.offStacks_fetchLine (line : Nat) : (s.fetchLine line).2.offStacks = s.offStacks := by
  unfold State.fetchLine
  grind [State.offStacks_column, State.offStacks_readStack, State.offStacks_fetchStack, State.offStacks_undeliverable]

@[simp] theorem State.offStacks_storedLine : (s.storedLine stack stripe).2.offStacks = s.offStacks :=
  State.offStacks_fetchStack ..

@[simp] theorem State.offStacks_parityOf (acc : List Byte) (ks : List Nat) :
    (s.parityOf stripe acc ks).2.offStacks = s.offStacks := by
  unfold State.parityOf
  refine State.offStacks_foldl (fun x k => ?_) _ _
  exact State.offStacks_storedLine x.2 k stripe

end Sys2Proof.Machine
end

section
/-! Gathers of a stripe (12 R292, R293): what is written at once, and what leaves its deltas under the stripe's lock. -/

namespace Sys2Proof.Machine
open Sys2Proof

/-! ### STRIPE_WRITE (12 R292) -/

section
variable {s : State} {stripe : Nat} {g : Gather}

/-- The stack that holds a line of a stripe by its position. -/
def stackAt (stripe pos : Nat) : Nat := dataStack (7 * stripe + pos)

/-- The deltas of a gather's lines, old xor new, each line read as it is stored. -/
def State.readDeltas (s : State) (stripe : Nat) (g : Gather) : List (Nat × List Byte) × State :=
  g.lines.foldl (fun (ds, s) (pos, data, _, _) =>
    let (old, s) := s.storedLine (stackAt stripe pos) stripe
    (ds ++ [(pos, xorLines old data)], s)) ([], (s.storedLine (parityStack stripe) stripe).2)

/-- The lines of a gather, written without their parity. -/
def State.putLines (s : State) (stripe : Nat) (g : Gather) : State :=
  g.lines.foldl (fun s (pos, data, poisoned, _) =>
    (s.putStack (stackAt stripe pos) stripe data).lineWritten (7 * stripe + pos) poisoned) s

theorem State.offStacks_readDeltas : (s.readDeltas stripe g).2.offStacks = s.offStacks := by
  refine Eq.trans ?_ (State.offStacks_storedLine s (parityStack stripe) stripe)
  unfold State.readDeltas
  refine State.offStacks_foldl (fun x l => ?_) _ _
  exact State.offStacks_storedLine x.2 (stackAt stripe l.1) stripe

theorem State.offStacks_putLines : (s.putLines stripe g).offStacks = s.offStacks := by
  unfold State.putLines
  induction g.lines generalizing s with
  | nil => rfl
  | cons l ls ih => exact ih.trans (State.offStacks_putStack _ _ _ l.2.1)

/-- The data of a small gather is on its stacks; its deltas are still to be folded into the parity. -/
def State.writeData (s : State) (stripe : Nat) (g : Gather) : List (Nat × List Byte) × State :=
  s.asStream fun s => ((s.readDeltas stripe g).1, (s.readDeltas stripe g).2.putLines stripe g)

theorem State.offStacks_writeData : (s.writeData stripe g).2.offStacks = s.offStacks :=
  State.offStacks_asStream s fun _ => State.offStacks_putLines.trans State.offStacks_readDeltas

section
variable (hfree : s.stripeLocked stripe = false) (hg : (s.gathers.find? fun g => g.stripe == stripe) = some g)
include hfree hg

/-- A gather of four lines or more, and every gather in a degraded state, is applied at once (12 R292, R296). -/
theorem State.stripeWrite_applied (h : 4 ≤ g.lines.length ∨ 0 < s.lostCount) :
    s.stripeWrite stripe = State.applyGather { s with gathers := s.gathers.erase g } g := by
  have hlarge : (4 ≤ g.lines.length || 0 < s.lostCount) = true := by simpa using h
  simp only [State.stripeWrite, hfree, Bool.false_eq_true, if_false, hg, hlarge, if_true]

/-- A smaller gather locks its stripe and leaves its deltas (12 R292). -/
theorem State.stripeWrite_locked (hfew : g.lines.length < 4) (hsound : s.lostCount = 0) :
    s.stripeWrite stripe = { (s.writeData stripe g).2 with
      gathers := (s.writeData stripe g).2.gathers.map fun x =>
        if x == g then { g with locked := true, deltas := (s.writeData stripe g).1 } else x } := by
  have hsmall : (4 ≤ g.lines.length || 0 < s.lostCount) = false := by simp [hsound, hfew]
  simp only [State.stripeWrite, hfree, Bool.false_eq_true, if_false, hg, hsmall]
  rfl

/-- The stripe of a smaller gather is locked, and no write-back is acknowledged yet. -/
theorem State.stripeWrite_few (hfew : g.lines.length < 4) (hsound : s.lostCount = 0) :
    (s.stripeWrite stripe).stripeLocked stripe = true ∧ (s.stripeWrite stripe).writeBacks = s.writeBacks := by
  have hkept : (s.writeData stripe g).2.offStacks = s.offStacks := State.offStacks_writeData
  have hgathers : (s.writeData stripe g).2.gathers = s.gathers := State.gathers_of_offStacks hkept
  have hwrites : (s.writeData stripe g).2.writeBacks = s.writeBacks := State.writeBacks_of_offStacks hkept
  have hstripe : (g.stripe == stripe) = true := List.find?_some (p := fun g : Gather => g.stripe == stripe) hg
  rw [State.stripeWrite_locked hfree hg hfew hsound]
  refine ⟨List.any_eq_true.2 ⟨{ g with locked := true, deltas := (s.writeData stripe g).1 }, ?_, ?_⟩, hwrites⟩
  · change _ ∈ (s.writeData stripe g).2.gathers.map _
    rw [hgathers]
    exact List.mem_map.2 ⟨g, List.mem_of_find?_eq_some hg, if_pos (beq_self_eq_true g)⟩
  · exact Bool.and_eq_true_iff.2 ⟨hstripe, rfl⟩

end

/-! ### GATHER_WAIT and PARITY_DELTA (12 R292, R293) -/

theorem exec_gatherWait (hg : (s.gathers.find? fun g => g.stripe == stripe) = some g) : exec (.gatherWait stripe) s =
    .next (if g.since + bitsOf s.memCtl 32 12 ≤ s.clock.toNat then s.stripeWrite stripe else s) := by
  change execGatherWait stripe s = _
  simp only [execGatherWait, hg]

/-- The state once a delta has been folded into the parity of its stripe. -/
def State.deltaPut (s : State) (g : Gather) (d : List Byte) : State :=
  (s.asStream fun s => ((), s.putStack (parityStack g.stripe) g.stripe
    (xorLines (s.rawLine (parityStack g.stripe) g.stripe) d))).2

/-- A delta not yet taken is folded into the parity; the last one acknowledges the gather. -/
theorem exec_parityDelta {pos : Nat} {d : List Byte}
    (hg : (s.gathers.find? fun g => g.stripe == stripe && g.locked) = some g) (hd : g.deltas.lookup pos = some d)
    (hnew : pos ∉ g.taken) : exec (.parityDelta stripe pos) s = .next (let u := s.deltaPut g d
      if g.taken.length + 1 = g.deltas.length then
        State.ackLines { u with gathers := u.gathers.erase g } (g.lines.flatMap fun (_, _, _, wbs) => wbs)
      else { u with gathers := u.gathers.map fun x => if x == g then { g with taken := g.taken ++ [pos] } else x }) := by
  have hfresh : ¬g.taken.contains pos = true := mt List.contains_iff_mem.1 hnew
  change execParityDelta stripe pos s = _
  simp only [execParityDelta, hg, State.foldDelta, hd, if_neg hfresh, List.length_append, List.length_singleton]
  rfl

end

end Sys2Proof.Machine
end

section
open Sys2Proof Sys2Proof.Machine

/-- Settles O21, by how many lines a gather has, and by whether a delta is its last. -/
theorem stripesAreWritten : Obligations.StripesAreWritten := by
  refine ⟨fun s stripe g hfree hg => ⟨fun hlarge => congrArg _ (State.stripeWrite_applied hfree hg hlarge),
      fun hfew hsound => ⟨_, rfl, State.stripeWrite_few hfree hg hfew hsound⟩, fun hdue => ?_, fun hearly => ?_⟩,
    fun s stripe pos g d hg hd hnew => ⟨fun hlast => ?_, fun hmore => ?_⟩⟩
  · rw [exec_gatherWait hg, if_pos hdue]
  · rw [exec_gatherWait hg, if_neg (Nat.not_le.2 hearly)]
  · exact (exec_parityDelta hg hd hnew).trans (congrArg _ (if_pos hlast))
  · exact (exec_parityDelta hg hd hnew).trans (congrArg _ (if_neg hmore))

end

section
/-! A stripe whose lock is held by a gather with a delta to fold (12 R292): its eight lines agree only until the delta is folded. -/

namespace Sys2Proof.Machine
open Sys2Proof

/-- The machine at reset but for a locked gather of stripe 0, whose one delta, with its lowest bit set, is not yet in the parity. -/
def State.deltaOwed : State := { State.reset with gathers := [⟨0, 0, [], true, [(0, 1 :: zeroLine.tail)], []⟩] }

/-- A write to line 0 first folds the owed delta, so that the stored parity is the delta and no longer what the zero lines give. -/
theorem deltaOwed_parity : ((State.deltaOwed.writeLine 0 zeroLine false).rawLine 0 0).headD 0 = 1 := by decide +kernel

theorem deltaOwed_reconstruct : ((State.deltaOwed.writeLine 0 zeroLine false).reconstruct 0 0).headD 0 = 0 := by decide +kernel

end Sys2Proof.Machine
end


section
open Sys2Proof Sys2Proof.Machine

/-- Refutes O53: the write folds a delta that a locked gather of the stripe still owes, so the parity takes in a delta that
the lines, which agreed before, do not hold. The state is `State.deltaOwed`, the write is a line of zeros to line 0. -/
theorem not_stripesKeepTheirParity : ¬ Obligations.StripesKeepTheirParity := by
  intro h
  have hbefore : State.deltaOwed.reconstruct 0 0 = State.deltaOwed.rawLine 0 0 := by decide +kernel
  obtain ⟨hafter, -⟩ := h State.deltaOwed 0 zeroLine rfl rfl (by decide) (fun _ _ => rfl) hbefore
  have hbit : (0 : Byte) = 1 :=
    deltaOwed_reconstruct.symm.trans ((congrArg (List.headD · 0) hafter).trans deltaOwed_parity)
  exact absurd hbit (by decide)

end

section
/-! Events of the HBM stacks: their loss, their heat and their rows (12 R290, R291, R296 to R299). -/

namespace Sys2Proof.Machine
open Sys2Proof

section
variable {s : State} {stack bank row mask : Nat}

/-! ### Loss of a stack (12 R296, R297) -/

/-- An event record says nothing about the stacks. -/
theorem State.postEvent_stacks (s : State) (r : EventRec) :
    (s.postEvent r).lost = s.lost ∧ (s.postEvent r).hbm = s.hbm ∧ (s.postEvent r).memState = s.memState := by
  unfold State.postEvent
  split <;> exact ⟨rfl, rfl, rfl⟩

/-- The loss of a stack that answered, where no update is in progress. -/
theorem State.loseStack_stacks (hstack : stack < 8) (halive : s.isLost stack = false) (hidle : s.gathers = []) (cause : Nat) :
    (s.loseStack stack cause).lost = s.lost.set stack true ∧ (s.loseStack stack cause).hbm = s.hbm ∧
      (s.loseStack stack cause).memState = min 2 (s.loseStack stack cause).lostCount := by
  have hsettled : s.settleGathers = s := by simp [State.settleGathers, hidle]
  have hguard : ¬(s.isLost stack || 8 ≤ stack) = true := by simp [halive, hstack]
  simp only [State.loseStack, if_neg hguard, hsettled, State.lostCount, State.postEvent_stacks, and_self]

theorem exec_ueLimit : exec (.ueLimit stack) s = .next (if s.ueReached stack then s.loseStack stack 3 else s) := rfl

/-! ### Heat (12 R298; 14 R324) -/

/-- The state once a sensor has read a temperature. -/
def State.sensed (s : State) (sensor celsius : Nat) : State :=
  State.reheat { s with temps := listModify s.temps (sensor / 17) fun ts => ts.set (sensor % 17) celsius }

theorem exec_thermalSensorUpdate (sensor celsius : Nat) : exec (.thermalSensorUpdate sensor celsius) s =
    .next (if 105 ≤ (s.sensed sensor celsius).heat (sensor / 17) then (s.sensed sensor celsius).enterFatal 2
      else s.sensed sensor celsius) := rfl

/-! ### Rows (12 R290, R291) -/

theorem OpenRow.inBank_iff {r : OpenRow} : r.inBank stack bank = true ↔ r.stack = stack ∧ r.bank = bank := by
  simp [OpenRow.inBank]

theorem State.queuedMask_lt (s : State) (stack bank row : Nat) : s.queuedMask stack bank row < 256 := by
  have hfold : ∀ (l : List (Nat × Nat)) (m : Nat), m < 256 → l.foldl (fun m (_, n) => m ||| 2 ^ lineSegment n) m < 256 := by
    intro l
    induction l with
    | nil => exact fun m hm => hm
    | cons x l ih =>
      have hseg : 2 ^ lineSegment x.2 < 2 ^ 8 := Nat.pow_lt_pow_right (by decide) (Nat.mod_lt _ (by decide))
      exact fun m hm => ih _ (Nat.or_lt_two_pow (n := 8) hm hseg)
  exact hfold _ 0 (by decide)

section
variable (hstack : stack < 8) (hbank : bank < 1024) (hrow : row < 65536) (hsome : 0 < mask) (hmask : mask < 256)
  (hclosed : ∀ r ∈ s.openRows, r.stack = stack → r.bank = bank → r.row ≠ row)
include hstack hbank hrow hsome hmask hclosed

/-- A row that is closed is activated with the segments of the queued requests and those the step names. -/
theorem exec_activate (stream : Nat) : exec (.activate stack bank row mask stream) s =
    .next (s.openRow stack bank row (mask ||| s.queuedMask stack bank row) (stream ≠ 0 && s.streamTo stack bank row)) := by
  have hwide : mask ||| s.queuedMask stack bank row < 256 := Nat.or_lt_two_pow (n := 8) hmask (s.queuedMask_lt stack bank row)
  have hnonzero : mask ||| s.queuedMask stack bank row ≠ 0 := fun h => hsome.ne' (Nat.or_eq_zero_iff.1 h).1
  have hany : (s.openRows.any fun r => r.inBank stack bank && r.row == row) = false := by
    simp only [List.any_eq_false, Bool.and_eq_true, OpenRow.inBank_iff, beq_iff_eq]
    exact fun r hr ⟨⟨hs, hb⟩, he⟩ => hclosed r hr hs hb he
  change Host.Outcome.next (if _ then _ else _) = _
  rw [if_neg]
  simp [hany, hnonzero, Nat.not_le.2, hstack, hbank, hrow, hwide]

end

/-- A request outside the streams closes every other row of its bank. -/
theorem State.mem_openRow_request (r : OpenRow) (m : Nat) : r ∈ (s.openRow stack bank row m false).openRows ↔
    r = ⟨stack, bank, row, m, false⟩ ∨ (r ∈ s.openRows ∧ ¬(r.stack = stack ∧ r.bank = bank)) := by
  change r ∈ s.openRows.filter (fun r => !r.inBank stack bank) ++ [_] ↔ _
  simp [← OpenRow.inBank_iff, or_comm]

/-- The open rows of a bank that a stream's activation leaves open: at most three, in other subarrays. -/
def State.streamKept (s : State) (stack bank row : Nat) : List OpenRow :=
  let here := s.openRows.filter fun r => r.inBank stack bank && subarray r.row != subarray row
  here.drop (here.length - 3)

theorem State.openRows_stream (m : Nat) : (s.openRow stack bank row m true).openRows =
    s.openRows.filter (fun r => !r.inBank stack bank || (s.streamKept stack bank row).contains r) ++
      [⟨stack, bank, row, m, true⟩] := rfl

theorem State.length_streamKept : (s.streamKept stack bank row).length ≤ 3 := by
  simp only [State.streamKept, List.length_drop]
  omega

theorem State.subarray_streamKept {r : OpenRow} (h : r ∈ s.streamKept stack bank row) : subarray r.row ≠ subarray row := by
  have hr := List.mem_of_mem_drop h
  simp only [List.mem_filter, Bool.and_eq_true, bne_iff_ne] at hr
  exact hr.2.2

/-- The rows a stream's activation leaves open in its bank are the new row and at most three others. -/
theorem State.length_openRow_stream (hnodup : s.openRows.Nodup) (m : Nat) :
    ((s.openRow stack bank row m true).openRows.filter fun r => r.inBank stack bank).length ≤ 4 := by
  rw [State.openRows_stream, List.filter_append, List.length_append, List.filter_filter]
  have hsub : ∀ r ∈ s.openRows.filter (fun r => r.inBank stack bank &&
      (!r.inBank stack bank || (s.streamKept stack bank row).contains r)), r ∈ s.streamKept stack bank row := by
    intro r hr
    simp only [List.mem_filter, Bool.and_eq_true, Bool.or_eq_true, List.contains_iff_mem] at hr
    grind
  have hle := (List.subperm_of_subset (hnodup.filter _) hsub).length_le
  have hnew := List.length_filter_le (fun r : OpenRow => r.inBank stack bank) [⟨stack, bank, row, m, true⟩]
  have hthree : (s.streamKept stack bank row).length ≤ 3 := State.length_streamKept
  simp only [List.length_singleton] at hnew
  omega

theorem State.mem_openRow_stream (r : OpenRow) (m : Nat) : r ∈ (s.openRow stack bank row m true).openRows ↔
    r = ⟨stack, bank, row, m, true⟩ ∨
      (r ∈ s.openRows ∧ (¬(r.stack = stack ∧ r.bank = bank) ∨ r ∈ s.streamKept stack bank row)) := by
  rw [State.openRows_stream]
  simp [← OpenRow.inBank_iff, or_comm]

theorem exec_supplementaryActivate {r : OpenRow} (hmask : mask < 256) (hr : r ∈ s.openRows) (hstack : r.stack = stack)
    (hbank : r.bank = bank) (hrow : r.row = row) (hnew : r.mask ||| mask ≠ r.mask) :
    exec (.supplementaryActivate stack bank row mask) s = .next (State.bump { s with openRows := s.openRows.map fun r =>
      if r.stack = stack ∧ r.bank = bank ∧ r.row = row then { r with mask := r.mask ||| mask } else r } stack sactCount) := by
  have hany : (s.openRows.any fun r => (r.inBank stack bank && r.row == row) && (r.mask ||| mask) != r.mask) = true :=
    List.any_eq_true.2 ⟨r, hr, by simp [OpenRow.inBank, hstack, hbank, hrow, hnew]⟩
  change Host.Outcome.next (if _ then _ else _) = _
  rw [if_pos (by simp [hmask, hany])]
  simp [modifyWhere, OpenRow.inBank, and_assoc]

theorem exec_select {sub : Nat}
    (h : ∃ r ∈ s.openRows, r.stack = stack ∧ r.bank = bank ∧ r.stream = true ∧ r.row / 2048 = sub) :
    exec (.select stack bank sub) s = .next (s.drive stack bank sub) := by
  obtain ⟨r, hr, hstack, hbank, hstream, hsub⟩ := h
  have hany : (s.openRows.any fun r => r.inBank stack bank && r.stream && subarray r.row == sub) = true :=
    List.any_eq_true.2 ⟨r, hr, by simp [OpenRow.inBank, subarray, hstack, hbank, hstream, hsub]⟩
  exact congrArg _ (if_pos hany)

end

end Sys2Proof.Machine
end

section
/-! The scrubber over a sound stripe (12 R295, R299): what it reads, corrects, reconstructs and counts. -/

namespace Sys2Proof.Machine
open Sys2Proof

/-! ### Counters and stored lines -/

/-- A counter of a stack. -/
def State.count (s : State) (stack counter : Nat) : Nat := (s.stackCounters.getD stack []).getD counter 0

theorem State.counters_bump (s : State) (stack counter k : Nat) : (s.bump stack counter).stackCounters.getD k [] =
    if stack = k then (s.stackCounters.getD k []).modify counter fun n => min (n + 1) 0xFFFFFFFF else s.stackCounters.getD k [] := by
  simp only [State.bump, listModify, List.getD_eq_getElem?_getD, List.getElem?_modify]
  by_cases h : stack = k
  · cases hk : s.stackCounters[k]? <;> simp [h]
  · simp [h]

theorem State.count_bump_other (s : State) (stack : Nat) {counter other : Nat} (h : counter ≠ other) (k : Nat) :
    (s.bump stack counter).count k other = s.count k other := by
  simp only [State.count, State.counters_bump]
  split
  · simp [List.getD_eq_getElem?_getD, h]
  · rfl

theorem State.count_bump_self (s : State) {stack counter : Nat} (h : counter < (s.stackCounters.getD stack []).length) :
    (s.bump stack counter).count stack counter = min (s.count stack counter + 1) 0xFFFFFFFF := by
  simp only [State.count, State.counters_bump, if_true]
  generalize s.stackCounters.getD stack [] = cs at h
  simp [List.getD_eq_getElem?_getD, h]

theorem State.length_counters_bump (s : State) (stack counter k : Nat) :
    ((s.bump stack counter).stackCounters.getD k []).length = (s.stackCounters.getD k []).length := by
  rw [State.counters_bump]
  split <;> simp

theorem State.rawLine_bump (s : State) (stack counter k n : Nat) : (s.bump stack counter).rawLine k n = s.rawLine k n := rfl

theorem memBytes_setBytes (m : Memory) (a : Nat) (bs : List Byte) : memBytes (memSetBytes m a bs) a bs.length = bs := by
  refine List.ext_getElem (memBytes_length ..) fun i hi hbs => ?_
  have hread := memBytes_getD (memSetBytes m a bs) a bs.length i hbs
  rw [memByte_setBytes, if_pos ⟨Nat.le_add_right .., Nat.add_lt_add_left hbs a⟩, Nat.add_sub_cancel_left] at hread
  simpa [List.getD_eq_getElem?_getD, hi, hbs] using hread

/-- A stored line reads as it was written. -/
theorem State.rawLine_setRawLine {bs : List Byte} (h : bs.length = lineBytes) (s : State) (stack stripe : Nat) :
    (s.setRawLine stack stripe bs).rawLine stack stripe = bs := by
  have hall : bs.take lineBytes = bs := List.take_of_length_le h.le
  simp only [State.rawLine, State.setRawLine, hall]
  rw [← h, memBytes_setBytes]

theorem length_xorLines (a b : List Byte) (ha : a.length = lineBytes) (hb : b.length = lineBytes) :
    (xorLines a b).length = lineBytes := by simp [xorLines, ha, hb]

theorem State.length_rawLine (s : State) (stack stripe : Nat) : (s.rawLine stack stripe).length = lineBytes :=
  memBytes_length ..

theorem State.length_reconstruct (s : State) (stack stripe : Nat) : (s.reconstruct stack stripe).length = lineBytes := by
  have hfold : ∀ (ks : List Nat) (acc : List Byte), acc.length = lineBytes →
      (ks.foldl (fun acc k => xorLines acc (s.rawLine k stripe)) acc).length = lineBytes := by
    intro ks
    induction ks with
    | nil => exact fun acc h => h
    | cons k ks ih => exact fun acc h => ih _ (length_xorLines _ _ h (s.length_rawLine k stripe))
  exact hfold _ _ List.length_replicate

/-! ### Reading clean lines -/

/-- From one state to the next, requests have opened rows, and nothing else has happened at the controllers. -/
structure State.OnlyRows (s t : State) : Prop where
  stored : s.SameStored t
  off : t.offStacks = s.offStacks
  count : ∀ stack counter, sactCount ≠ counter → t.count stack counter = s.count stack counter
  width : ∀ stack, (t.stackCounters.getD stack []).length = (s.stackCounters.getD stack []).length

section
variable {s t u : State} {stack stripe : Nat}

theorem State.OnlyRows.refl (s : State) : s.OnlyRows s := ⟨⟨rfl, rfl, rfl, rfl, rfl, rfl⟩, rfl, fun _ _ _ => rfl, fun _ => rfl⟩

theorem State.OnlyRows.trans (h : s.OnlyRows t) (h' : t.OnlyRows u) : s.OnlyRows u where
  stored := ⟨h'.stored.lost.trans h.stored.lost, h'.stored.damage.trans h.stored.damage, h'.stored.poison.trans h.stored.poison,
    h'.stored.undeliv.trans h.stored.undeliv, h'.stored.hbm.trans h.stored.hbm, h'.stored.gathers.trans h.stored.gathers⟩
  off := h'.off.trans h.off
  count k j hj := (h'.count k j hj).trans (h.count k j hj)
  width k := (h'.width k).trans (h.width k)

theorem State.OnlyRows.isLost (h : s.OnlyRows t) (k : Nat) : t.isLost k = s.isLost k := by
  simp only [State.isLost, h.stored.lost]

theorem State.OnlyRows.rawLine (h : s.OnlyRows t) (k n : Nat) : t.rawLine k n = s.rawLine k n := by
  simp only [State.rawLine, h.stored.hbm]

theorem State.OnlyRows.reconstruct (h : s.OnlyRows t) (k n : Nat) : t.reconstruct k n = s.reconstruct k n := by
  simp only [State.reconstruct, h.rawLine]

theorem State.OnlyRows.lines (h : s.OnlyRows t) : t.lines = s.lines :=
  show t.offStacks.lines = s.offStacks.lines from congrArg State.lines h.off

theorem State.onlyRows_drive (s : State) (bank sub : Nat) : s.OnlyRows (s.drive stack bank sub) :=
  ⟨⟨rfl, rfl, rfl, rfl, rfl, rfl⟩, rfl, fun _ _ _ => rfl, fun _ => rfl⟩

theorem State.onlyRows_openRow (s : State) (bank row mask : Nat) (stream : Bool) : s.OnlyRows (s.openRow stack bank row mask stream) := by
  unfold State.openRow
  split <;> exact ⟨⟨rfl, rfl, rfl, rfl, rfl, rfl⟩, rfl, fun _ _ _ => rfl, fun _ => rfl⟩

/-- A supplementary activate widens a row and is counted. -/
theorem State.onlyRows_widen (s : State) (rows : List OpenRow) : s.OnlyRows (State.bump { s with openRows := rows } stack sactCount) :=
  ⟨⟨rfl, rfl, rfl, rfl, rfl, rfl⟩, rfl, fun k _ hj => State.count_bump_other { s with openRows := rows } stack hj k,
    State.length_counters_bump { s with openRows := rows } stack sactCount⟩

theorem State.onlyRows_column (s : State) (stack stripe : Nat) : s.OnlyRows (s.column stack stripe) := by
  simp only [State.column]
  refine State.OnlyRows.trans ?_ (State.onlyRows_drive ..)
  split
  · exact State.onlyRows_openRow ..
  · split
    · exact State.OnlyRows.refl s
    · exact State.onlyRows_widen ..

/-- A line that its ECC finds clean is delivered as it is stored. -/
theorem State.readStack_clean (h : tabGet s.damage (stackLine stack stripe) 0 = 0) :
    s.readStack stack stripe = (some (s.rawLine stack stripe), s.column stack stripe) := by
  have hrows := s.onlyRows_column stack stripe
  simp only [State.readStack, hrows.stored.damage, h, hrows.rawLine]

theorem State.fetchStack_clean (hlost : s.isLost stack = false) (h : tabGet s.damage (stackLine stack stripe) 0 = 0) :
    s.fetchStack stack stripe = (some (s.rawLine stack stripe), s.column stack stripe) := by
  simp only [State.fetchStack, hlost, Bool.false_eq_true, if_false, State.readStack_clean h]

/-- Seven clean lines give the eighth. -/
theorem State.rebuild_clean (hlost : ∀ k, s.isLost k = false)
    (h : ∀ k ∈ otherStacks stack, tabGet s.damage (stackLine k stripe) 0 = 0) :
    ∃ t, s.rebuild stack stripe = (some (s.reconstruct stack stripe), t) ∧ s.OnlyRows t := by
  simp only [State.rebuild, State.reconstruct]
  generalize zeroLine = acc
  generalize otherStacks stack = ks at h
  induction ks generalizing s acc with
  | nil => exact ⟨s, rfl, .refl s⟩
  | cons k ks ih =>
    have hrows := s.onlyRows_column k stripe
    obtain ⟨t, ht, hst⟩ := ih (s := s.column k stripe) (fun j => by rw [hrows.isLost, hlost]) (xorLines acc (s.rawLine k stripe))
      fun j hj => by rw [hrows.stored.damage]; exact h j (List.mem_cons_of_mem _ hj)
    refine ⟨t, ?_, hrows.trans hst⟩
    simp only [List.foldl_cons, hlost, Bool.false_eq_true, if_false, State.readStack_clean (h k List.mem_cons_self)]
    simpa only [hrows.rawLine] using ht

/-! ### SCRUB (12 R295, R299) -/

/-- The memory is sound at a stripe that a scrubber may read: no stack is lost, no line is marked, no update holds the lock. -/
structure State.Scrubbable (s : State) (stripe : Nat) : Prop where
  alive : s.lostCount = 0
  unlocked : s.stripeLocked stripe = false
  damage : s.damage = []
  poison : s.poisonPas = []
  undeliv : s.undelivPas = []

theorem State.Scrubbable.isLost (h : s.Scrubbable stripe) (k : Nat) : s.isLost k = false := by
  have hnone : ∀ b ∈ s.lost, b = false := by
    simpa [State.lostCount, List.filter_eq_nil_iff] using h.alive
  rw [State.isLost, List.getD_eq_getElem?_getD]
  cases hk : s.lost[k]? with
  | none => rfl
  | some b => exact hnone b (List.mem_of_getElem? hk)

theorem State.Scrubbable.clean (h : s.Scrubbable stripe) (n : Nat) : tabGet s.damage n 0 = 0 := by rw [h.damage]; rfl

theorem State.Scrubbable.onlyRows (h : s.Scrubbable stripe) (hrows : s.OnlyRows t) : t.Scrubbable stripe where
  alive := by rw [State.lostCount, hrows.stored.lost]; exact h.alive
  unlocked := by rw [State.stripeLocked, hrows.stored.gathers]; exact h.unlocked
  damage := hrows.stored.damage.trans h.damage
  poison := hrows.stored.poison.trans h.poison
  undeliv := hrows.stored.undeliv.trans h.undeliv

theorem exec_scrub (h : s.Scrubbable stripe) (hstack : stack < 8) (hstripe : stripe < 2 ^ 29) (hon : bitsOf s.memCtl 44 8 ≠ 0)
    (ecc : Nat) : exec (.scrub stack stripe ecc) s = .next (s.asStream fun s => ((), if stack = parityStack stripe then
      (s.scrubLine stack stripe ecc).scrubParity stripe else s.scrubLine stack stripe ecc)).2 := by
  change Host.Outcome.next (if _ then _ else _) = _
  rw [if_neg (by simpa [h.isLost, h.unlocked, hon, hstack] using hstripe)]

/-- A stack's data line by its physical number (12 R288). -/
theorem dataStack_stripePos (hstack : stack < 8) (hdata : stripePos stack stripe < 7) :
    dataStack (7 * stripe + stripePos stack stripe) = stack ∧ (7 * stripe + stripePos stack stripe) / 7 = stripe := by
  simp only [dataStack, stripePos] at *
  omega

theorem State.strike_marks (s : State) (stack stripe ecc : Nat) :
    (s.strike stack stripe ecc).poisonPas = s.poisonPas ∧ (s.strike stack stripe ecc).undelivPas = s.undelivPas := by
  have hharm : ∀ (s : State) (k n kind : Nat),
      (s.harm k n kind).poisonPas = s.poisonPas ∧ (s.harm k n kind).undelivPas = s.undelivPas := fun _ _ _ _ => ⟨rfl, rfl⟩
  unfold State.strike
  grind

/-- The scrubber reads a line as its controller does, where the line can be delivered. -/
theorem State.Scrubbable.scrubLine (h : s.Scrubbable stripe) (hstack : stack < 8) {ecc : Nat} {bs : List Byte}
    (hread : (s.strike stack stripe ecc).fetchStack stack stripe = (some bs, t)) : s.scrubLine stack stripe ecc = t := by
  obtain ⟨hpoison, hundeliv⟩ := s.strike_marks stack stripe ecc
  simp only [State.scrubLine]
  split
  next hdata =>
    obtain ⟨hk, hn⟩ := dataStack_stripePos hstack hdata
    simp [State.fetchLine, hpoison, hundeliv, h.poison, h.undeliv, hk, hn, hread]
  · rw [hread]

theorem State.strike_zero (s : State) : s.strike stack stripe 0 = s := by simp [State.strike]
theorem State.strike_one (s : State) : s.strike stack stripe 1 = s.harm stack stripe 1 := by simp [State.strike]
theorem State.strike_two (s : State) : s.strike stack stripe 2 = s.harm stack stripe 2 := by simp [State.strike]

/-- A sound line is read and stays as it is. -/
theorem State.Scrubbable.scrubLine_sound (h : s.Scrubbable stripe) (hstack : stack < 8) :
    s.scrubLine stack stripe 0 = s.column stack stripe := by
  refine h.scrubLine hstack (bs := s.rawLine stack stripe) ?_
  rw [State.strike_zero]
  exact State.fetchStack_clean (h.isLost stack) (h.clean _)

/-! A line that has become unclean, in a memory without another such line. -/

theorem State.tabGet_harm_self (h : s.damage = []) (kind : Nat) :
    tabGet (s.harm stack stripe kind).damage (stackLine stack stripe) 0 = kind := by
  rw [State.harm, h]
  exact (tabGet_put_self ..).trans (Nat.max_zero kind)

theorem State.tabGet_harm_other (h : s.damage = []) (kind : Nat) {k : Nat} (hk : k ≠ stack) :
    tabGet (s.harm stack stripe kind).damage (stackLine k stripe) 0 = 0 := by
  have hline : stackLine k stripe ≠ stackLine stack stripe := by
    simp only [stackLine]
    omega
  rw [State.harm, h]
  exact tabGet_put_other _ _ _ _ _ _ hline

/-- Storing the line with a sound ECC removes the mark. -/
theorem State.damage_setRawLine_of_harm (h : s.damage = []) {kind : Nat} (ht : t.damage = (s.harm stack stripe kind).damage)
    (bs : List Byte) : (t.setRawLine stack stripe bs).damage = [] := by
  rw [State.setRawLine, ht, State.harm, h]
  simp only [tabPut]
  split <;> simp [tabErase, tabInsert]

section
variable (h : s.Scrubbable stripe) (hstack : stack < 8) (hwidth : (s.stackCounters.getD stack []).length = 8)
include h hstack hwidth

/-- A correctable error is corrected in place and counted. -/
theorem State.Scrubbable.scrubLine_correctable : (s.scrubLine stack stripe 1).rawLine stack stripe = s.rawLine stack stripe ∧
    (s.scrubLine stack stripe 1).damage = [] ∧
    (s.scrubLine stack stripe 1).count stack ceCount = min (s.count stack ceCount + 1) 0xFFFFFFFF := by
  have hrows := (s.harm stack stripe 1).onlyRows_column stack stripe
  have hread : (s.strike stack stripe 1).fetchStack stack stripe = (some (s.rawLine stack stripe),
      (((s.harm stack stripe 1).column stack stripe).setRawLine stack stripe (s.rawLine stack stripe)).bump stack ceCount) := by
    have halive : (s.harm stack stripe 1).isLost stack = false := h.isLost stack
    have hraw : (s.harm stack stripe 1).rawLine stack stripe = s.rawLine stack stripe := rfl
    simp only [State.strike_one, State.fetchStack, State.readStack, halive, Bool.false_eq_true, if_false, hrows.stored.damage,
      State.tabGet_harm_self h.damage, hrows.rawLine, hraw]
  have hcount : (((s.harm stack stripe 1).column stack stripe).setRawLine stack stripe (s.rawLine stack stripe)).count stack ceCount =
      s.count stack ceCount := hrows.count stack ceCount (by decide)
  rw [h.scrubLine hstack hread]
  refine ⟨(State.rawLine_bump ..).trans (State.rawLine_setRawLine (s.length_rawLine ..) ..),
    State.damage_setRawLine_of_harm h.damage hrows.stored.damage (s.rawLine stack stripe), ?_⟩
  rw [State.count_bump_self, hcount]
  exact (by decide : ceCount < 8).trans_eq ((hrows.width stack).trans hwidth).symm

/-- An uncorrectable error is counted, and its line reconstructed and rewritten. -/
theorem State.Scrubbable.scrubLine_uncorrectable :
    (s.scrubLine stack stripe 2).rawLine stack stripe = s.reconstruct stack stripe ∧ (s.scrubLine stack stripe 2).damage = [] ∧
    (s.scrubLine stack stripe 2).count stack ueCount = min (s.count stack ueCount + 1) 0xFFFFFFFF ∧
    (s.scrubLine stack stripe 2).count stack reconCount = min (s.count stack reconCount + 1) 0xFFFFFFFF := by
  have hrows := (s.harm stack stripe 2).onlyRows_column stack stripe
  generalize ht : (s.harm stack stripe 2).column stack stripe = t at hrows
  have halive : ∀ k, (s.harm stack stripe 2).isLost k = false := h.isLost
  have hothers : ∀ k ∈ otherStacks stack, tabGet (t.noteUe stack).damage (stackLine k stripe) 0 = 0 := fun k hk => by
    have hne : k ≠ stack := by simpa using (List.mem_filter.1 hk).2
    exact (congrArg (tabGet · _ 0) hrows.stored.damage).trans (State.tabGet_harm_other h.damage 2 hne)
  obtain ⟨u, hu, hrows'⟩ := State.rebuild_clean (s := t.noteUe stack) (fun k => (hrows.isLost k).trans (halive k)) hothers
  have hgiven : (t.noteUe stack).reconstruct stack stripe = s.reconstruct stack stripe := hrows.reconstruct stack stripe
  have hread : (s.strike stack stripe 2).fetchStack stack stripe = (some (s.reconstruct stack stripe),
      (u.setRawLine stack stripe (s.reconstruct stack stripe)).bump stack reconCount) := by
    have halive' : u.isLost stack = false := (hrows'.isLost stack).trans ((hrows.isLost stack).trans (halive stack))
    simp only [State.strike_two, State.fetchStack, State.readStack, halive, halive', Bool.false_eq_true, if_false, ht,
      hrows.stored.damage, State.tabGet_harm_self h.damage, hu, hgiven]
  have hwidth' : (t.stackCounters.getD stack []).length = 8 := (hrows.width stack).trans hwidth
  have hue : (t.noteUe stack).count stack ueCount = min (s.count stack ueCount + 1) 0xFFFFFFFF := by
    have hbump := t.count_bump_self ((by decide : ueCount < 8).trans_eq hwidth'.symm)
    have hkept : t.count stack ueCount = s.count stack ueCount := hrows.count stack ueCount (by decide)
    rwa [hkept] at hbump
  have hrecon : (u.setRawLine stack stripe (s.reconstruct stack stripe)).count stack reconCount = s.count stack reconCount :=
    (hrows'.count stack reconCount (by decide)).trans
      ((t.count_bump_other stack (by decide) stack).trans (hrows.count stack reconCount (by decide)))
  rw [h.scrubLine hstack hread]
  refine ⟨(State.rawLine_bump ..).trans (State.rawLine_setRawLine (s.length_reconstruct ..) ..),
    State.damage_setRawLine_of_harm h.damage (hrows'.stored.damage.trans hrows.stored.damage) (s.reconstruct stack stripe),
    ?_, ?_⟩
  · rw [State.count_bump_other _ _ (by decide)]
    exact (hrows'.count stack ueCount (by decide)).trans hue
  · rw [State.count_bump_self, hrecon]
    exact (by decide : reconCount < 8).trans_eq
      ((hrows'.width stack).trans ((t.length_counters_bump stack ueCount stack).trans hwidth')).symm

end

theorem State.Scrubbable.stripeClean (h : s.Scrubbable stripe) : s.stripeClean stripe = true := by
  simp [State.stripeClean, h.clean, h.poison, h.undeliv]

/-- The data lines of a stripe are read and stay as they are. -/
theorem State.Scrubbable.readAll (h : s.Scrubbable stripe) (ks : List Nat) :
    s.OnlyRows (ks.foldl (fun s k => if s.isLost k then s else (s.fetchStack k stripe).2) s) := by
  induction ks generalizing s with
  | nil => exact .refl s
  | cons k ks ih =>
    have hrows := s.onlyRows_column k stripe
    simp only [List.foldl_cons, h.isLost, Bool.false_eq_true, if_false, State.fetchStack_clean (h.isLost k) (h.clean _)]
    exact hrows.trans (ih (h.onlyRows hrows))

/-- A parity that differs from what its clean data lines give is rewritten and counted. -/
theorem State.Scrubbable.scrubParity (h : s.Scrubbable stripe) (hwidth : (s.stackCounters.getD (parityStack stripe) []).length = 8) :
    (s.scrubParity stripe).rawLine (parityStack stripe) stripe = s.reconstruct (parityStack stripe) stripe ∧
    (s.scrubParity stripe).count (parityStack stripe) parityMismatch =
      if s.rawLine (parityStack stripe) stripe = s.reconstruct (parityStack stripe) stripe then
        s.count (parityStack stripe) parityMismatch
      else min (s.count (parityStack stripe) parityMismatch + 1) 0xFFFFFFFF := by
  have hrows := h.readAll (otherStacks (parityStack stripe))
  simp only [State.scrubParity, h.stripeClean]
  generalize (otherStacks (parityStack stripe)).foldl _ s = t at hrows
  simp only [hrows.reconstruct, hrows.rawLine, (h.onlyRows hrows).alive]
  generalize parityStack stripe = p at hwidth
  by_cases hsame : s.rawLine p stripe = s.reconstruct p stripe
  · simp only [hsame, beq_self_eq_true, Bool.or_true, if_true, hrows.rawLine]
    exact ⟨trivial, hrows.count p parityMismatch (by decide)⟩
  · have hcolumn := hrows.trans (t.onlyRows_column p stripe)
    have hcount : (t.putStack p stripe (s.reconstruct p stripe)).count p parityMismatch = s.count p parityMismatch :=
      hcolumn.count p parityMismatch (by decide)
    rw [if_neg (by simp [hsame]), if_neg hsame]
    refine ⟨(State.rawLine_bump ..).trans (State.rawLine_setRawLine (s.length_reconstruct ..) ..), ?_⟩
    rw [State.count_bump_self, hcount]
    exact (by decide : parityMismatch < 8).trans_eq ((hcolumn.width p).trans hwidth).symm

end

end Sys2Proof.Machine
end

section
/-! SCRUB as one step, whose accesses belong to a stream (12 R291, R299). -/

namespace Sys2Proof.Machine
open Sys2Proof

section
variable {s : State} {stack stripe : Nat}
variable (h : s.Scrubbable stripe) (hstack : stack < 8) (hstripe : stripe < 2 ^ 29) (hon : bitsOf s.memCtl 44 8 ≠ 0)
include h hstack hstripe hon

/-- The state after SCRUB of a data line. -/
theorem exec_scrub_data (hdata : stack ≠ parityStack stripe) (ecc : Nat) : exec (.scrub stack stripe ecc) s =
    .next { State.scrubLine { s with streaming := true } stack stripe ecc with streaming := s.streaming } := by
  rw [exec_scrub h hstack hstripe hon]
  simp only [State.asStream, if_neg hdata]

/-- The state after SCRUB of a parity line that reads clean. -/
theorem exec_scrub_parity (hparity : stack = parityStack stripe) : exec (.scrub stack stripe 0) s =
    .next { State.scrubParity (State.column { s with streaming := true } stack stripe) stripe with streaming := s.streaming } := by
  have hread := State.Scrubbable.scrubLine_sound (s := { s with streaming := true }) ⟨h.1, h.2, h.3, h.4, h.5⟩ hstack
  rw [exec_scrub h hstack hstripe hon]
  simp only [State.asStream, hread, if_pos hparity]

end

end Sys2Proof.Machine
end

section
open Sys2Proof Sys2Proof.Machine

/-- Settles O41, event by event: the scrubber by what its ECC finds, a row by whether a stream asks for it. -/
theorem stackEventsWork : Obligations.StackEventsWork := by
  refine ⟨fun s stack hstack halive hidle => ?loss, fun s sensor celsius => ⟨fun hcool => ?cool, fun hhot hrunning => ?hot,
      fun k b hk => ?refreshed, fun k b hk => ?throttled⟩, fun s stack => ⟨rfl, rfl⟩,
    fun s stack line hstack hline halive hon hfree hdamage hpoison hundeliv hwidth => ?scrub,
    fun s stack bank row mask hstack hbank hrow hsome hmask hclosed => ⟨?request, fun hstream hnodup => ?stream⟩,
    fun s stack bank row mask r hmask hr hstack hbank hrow hnew =>
      exec_supplementaryActivate hmask hr hstack hbank hrow hnew,
    fun s stack bank row => ⟨_, rfl, fun r => ?precharge⟩, fun s stack bank sub h => exec_select h⟩
  case loss =>
    obtain ⟨hlost, hhbm, hstate⟩ := State.loseStack_stacks hstack halive hidle 2
    obtain ⟨hlost', -, hstate'⟩ := State.loseStack_stacks hstack halive hidle 3
    refine ⟨_, hlost, hhbm, hstate, rfl, fun hreached => ⟨_, exec_ueLimit.trans (congrArg _ (if_pos hreached)), ?_, ?_⟩,
      fun hfew => exec_ueLimit.trans (by rw [hfew]; rfl)⟩
    · exact hlost'.trans hlost.symm
    · rw [hstate', hstate, State.lostCount, State.lostCount, hlost', hlost]
  case cool => exact (exec_thermalSensorUpdate ..).trans (congrArg _ (if_neg (Nat.not_le.2 hcool)))
  case hot =>
    have hfatal := State.enterFatal_of_ne (s := s.sensed sensor celsius) hrunning 2
    exact (exec_thermalSensorUpdate ..).trans (congrArg _ ((if_pos hhot).trans hfatal))
  case refreshed => exact (List.getElem?_mapIdx ..).trans (by rw [hk]; rfl)
  case throttled => exact (List.getElem?_mapIdx ..).trans (by rw [hk]; rfl)
  case scrub =>
    have h : s.Scrubbable line := ⟨halive, hfree, hdamage, hpoison, hundeliv⟩
    have h' : State.Scrubbable { s with streaming := true } line := ⟨halive, hfree, hdamage, hpoison, hundeliv⟩
    have hrows := State.onlyRows_column { s with streaming := true } stack line
    refine ⟨fun hdata => ⟨⟨_, exec_scrub_data h hstack hline hon hdata 0, ?_⟩, ⟨_, exec_scrub_data h hstack hline hon hdata 1, ?_⟩,
      ⟨_, exec_scrub_data h hstack hline hon hdata 2, ?_⟩⟩, fun hparity => ⟨_, exec_scrub_parity h hstack hline hon hparity, ?_⟩⟩
    · rw [h'.scrubLine_sound hstack]
      exact ⟨hrows.stored.hbm, hrows.lines, hrows.count stack ceCount (by decide)⟩
    · exact h'.scrubLine_correctable hstack (hwidth stack hstack)
    · exact h'.scrubLine_uncorrectable hstack (hwidth stack hstack)
    · subst hparity
      have hchecked := (h'.onlyRows hrows).scrubParity ((hrows.width _).trans (hwidth _ hstack))
      rwa [hrows.reconstruct, hrows.rawLine, hrows.count _ parityMismatch (by decide)] at hchecked
  case request =>
    refine ⟨_, exec_activate hstack hbank hrow hsome hmask hclosed 0, fun r => ?_, tabGet_put_self ..⟩
    exact State.mem_openRow_request r _
  case stream =>
    have hexec := exec_activate hstack hbank hrow hsome hmask hclosed 1
    rw [hstream] at hexec
    refine ⟨_, hexec, (State.mem_openRow_stream _ _).2 (.inl rfl), State.length_openRow_stream hnodup _,
      fun r hr hother => (State.mem_openRow_stream _ _).2 (.inr ⟨hr, .inl hother⟩), fun r hr hs hb hsub => ?_, rfl⟩
    rcases (State.mem_openRow_stream _ _).1 hr with rfl | ⟨-, hother | hkept⟩
    · rfl
    · exact absurd ⟨hs, hb⟩ hother
    · exact absurd hsub (State.subarray_streamKept hkept)
  case precharge =>
    simp only [List.mem_filter, OpenRow.inBank, Bool.not_eq_true', Bool.and_eq_false_iff, beq_eq_false_iff_ne]
    tauto

end

section
/-! What the firmware rule of 14 R325 speaks of, and that no operation on the state below the steps of the management
controller touches it. -/

namespace Sys2Proof.Machine
set_option Elab.async false
open Sys2Proof

/-- The device's state, the version of its firmware and ROLLBACK_MIN: what the firmware rule speaks of (14 R325). -/
def State.firmware (s : State) : DeviceState × Nat × Nat := (s.device, s.fwVersion, s.rollbackMin)

theorem State.firmware_of_offStacks {s t : State} (h : t.offStacks = s.offStacks) : t.firmware = s.firmware :=
  show t.offStacks.firmware = s.offStacks.firmware from congrArg State.firmware h

theorem State.firmware_foldl {α : Type} {f : State → α → State} (h : ∀ s a, (f s a).firmware = s.firmware) (as : List α)
    (s : State) :
    (as.foldl f s).firmware = s.firmware := by
  induction as generalizing s with
  | nil => rfl
  | cons a as ih => rw [List.foldl_cons, ih, h]

/-! ### Crews, traps and retiring -/

theorem State.firmware_mapCrew (s : State) (id : Nat) (f : Crew → Crew) : (s.mapCrew id f).firmware = s.firmware := rfl

theorem State.firmware_mapGang (s : State) (id m : Nat) (f : Gang → Gang) : (s.mapGang id m f).firmware = s.firmware := rfl

theorem State.firmware_mapIssuer (s : State) (c : Ctx) (f : Gang → Gang) : (s.mapIssuer c f).firmware = s.firmware := rfl

theorem State.firmware_mapCluster (s : State) (k : Nat) (f : Cluster → Cluster) :
    (s.mapCluster k f).firmware = s.firmware := rfl

theorem State.firmware_postEvent (s : State) (r : EventRec) : (s.postEvent r).firmware = s.firmware := by
  unfold State.postEvent
  grind [State.firmware]

theorem State.firmware_retireNext (s : State) (c : Ctx) : (s.retireNext c).firmware = s.firmware := rfl

theorem State.firmware_dropRequests (s : State) (easel : Nat) : (s.dropRequests easel).firmware = s.firmware := rfl

theorem State.firmware_abandonCrew (s : State) (crew : Nat) (cause : Nat) (va : Nat) :
    (s.abandonCrew crew cause va).firmware = s.firmware := by
  unfold State.abandonCrew
  grind [State.firmware, State.firmware_mapCrew, State.firmware_dropRequests, State.firmware_postEvent]

theorem State.firmware_takeEntry (s : State) (c : Ctx) (e : Entry) (abandonCode : Nat) :
    (s.takeEntry c e abandonCode).firmware = s.firmware := by
  unfold State.takeEntry
  grind [State.firmware, State.firmware_abandonCrew, State.firmware_mapCrew, State.firmware_mapIssuer]

theorem State.firmware_takeTrap (s : State) (c : Ctx) (cause : Cause) (addrs : List (Nat × Nat)) (info : Nat) :
    (s.takeTrap c cause addrs info).firmware = s.firmware := by
  unfold State.takeTrap
  grind [State.firmware_takeEntry]

theorem State.firmware_takeFetchTrap (s : State) (c : Ctx) (code : Nat) :
    (s.takeFetchTrap c code).firmware = s.firmware := by
  unfold State.takeFetchTrap
  grind [State.firmware, State.firmware_abandonCrew, State.firmware_takeEntry]

theorem State.firmware_holdBindings (s : State) (c : Ctx) : (s.holdBindings c).firmware = s.firmware := rfl

/-! ### Lines of HBM and their parity -/

theorem State.firmware_setRawLine (s : State) (stack stripe : Nat) (bs : List Byte) :
    (s.setRawLine stack stripe bs).firmware = s.firmware := rfl

theorem State.firmware_bump (s : State) (stack counter : Nat) : (s.bump stack counter).firmware = s.firmware := rfl

theorem State.firmware_drive (s : State) (stack bank sub : Nat) : (s.drive stack bank sub).firmware = s.firmware := rfl

theorem State.firmware_openRow (s : State) (stack bank row mask : Nat) (stream : Bool) :
    (s.openRow stack bank row mask stream).firmware = s.firmware := by
  unfold State.openRow
  grind [State.firmware, State.firmware_drive]

theorem State.firmware_column (s : State) (stack n : Nat) : (s.column stack n).firmware = s.firmware := by
  unfold State.column
  grind [State.firmware, State.firmware_openRow, State.firmware_bump, State.firmware_drive]

theorem State.firmware_asStream {α : Type} {f : State → α × State} (h : ∀ s, (f s).2.firmware = s.firmware) (s : State) :
    (s.asStream f).2.firmware = s.firmware :=
  h { s with streaming := true }

theorem State.firmware_ackLines (s : State) (wbs : List Nat) : (s.ackLines wbs).firmware = s.firmware := rfl

theorem State.firmware_putStack (s : State) (stack stripe : Nat) (bs : List Byte) :
    (s.putStack stack stripe bs).firmware = s.firmware := by
  unfold State.putStack
  grind [State.firmware_column, State.firmware_setRawLine]

theorem State.firmware_foldDelta (s : State) (g : Gather) (pos : Nat) : (s.foldDelta g pos).firmware = s.firmware := by
  unfold State.foldDelta
  grind [State.firmware, State.firmware_asStream, State.firmware_putStack, State.firmware_ackLines]

theorem State.firmware_foldAll (s : State) (g : Gather) :
    (s.foldAll g).firmware = s.firmware :=
  State.firmware_foldl (fun s pos => by grind [State.firmware_foldDelta]) _ s

theorem State.firmware_settleStripe (s : State) (stripe : Nat) :
    (s.settleStripe stripe).firmware = s.firmware :=
  State.firmware_foldl State.firmware_foldAll _ s

theorem State.firmware_settleGathers (s : State) :
    (s.settleGathers).firmware = s.firmware :=
  State.firmware_foldl State.firmware_foldAll _ s

theorem State.firmware_harm (s : State) (stack stripe kind : Nat) : (s.harm stack stripe kind).firmware = s.firmware := rfl

theorem State.firmware_strike (s : State) (stack stripe ecc : Nat) : (s.strike stack stripe ecc).firmware = s.firmware := by
  unfold State.strike
  grind [State.firmware_harm]

theorem State.firmware_fetchStack (s : State) (stack stripe : Nat) :
    (s.fetchStack stack stripe).2.firmware = s.firmware :=
  State.firmware_of_offStacks (s.offStacks_fetchStack ..)

theorem State.firmware_fetchLine (s : State) (line : Nat) :
    (s.fetchLine line).2.firmware = s.firmware :=
  State.firmware_of_offStacks (s.offStacks_fetchLine ..)

theorem State.firmware_readLine (s : State) (line ecc : Nat) : (s.readLine line ecc).2.firmware = s.firmware := by
  unfold State.readLine
  grind [State.firmware, State.firmware_settleStripe, State.firmware_strike, State.firmware_fetchLine, State.firmware_bump]

theorem State.firmware_readLines (s : State) (lines : List Nat) :
    (s.readLines lines).firmware = s.firmware :=
  State.firmware_foldl (fun s l => s.firmware_readLine l 0) _ s

theorem State.firmware_storedLine (s : State) (stack stripe : Nat) :
    (s.storedLine stack stripe).2.firmware = s.firmware :=
  State.firmware_of_offStacks (s.offStacks_storedLine ..)

theorem State.firmware_lineWritten (s : State) (line : Nat) (poisoned : Bool) :
    (s.lineWritten line poisoned).firmware = s.firmware := rfl

theorem State.firmware_parityOf (s : State) (stripe : Nat) (acc : List Byte) (ks : List Nat) :
    (s.parityOf stripe acc ks).2.firmware = s.firmware :=
  State.firmware_of_offStacks (s.offStacks_parityOf ..)

theorem State.firmware_writeLine (s : State) (line : Nat) (data : List Byte) (poisoned : Bool) :
    (s.writeLine line data poisoned).firmware = s.firmware := by
  unfold State.writeLine
  grind [State.firmware_settleStripe, State.firmware_bump, State.firmware_putStack, State.firmware_lineWritten,
    State.firmware_parityOf, State.firmware_storedLine]

theorem State.firmware_writeStripe (s : State) (stripe : Nat) (lines : List (Nat × List Byte × Bool)) :
    (s.writeStripe stripe lines).firmware = s.firmware := by
  unfold State.writeStripe
  refine (State.firmware_putStack ..).trans ?_
  refine (State.firmware_foldl (fun s l => ?_) _ _).trans (State.firmware_parityOf ..)
  exact State.firmware_putStack _ _ _ l.2.1

theorem State.firmware_windowWrite (s : State) (owner off : Nat) (bs : List Byte) :
    (s.windowWrite owner off bs).firmware = s.firmware := by
  unfold State.windowWrite
  grind [State.firmware]

/-! ### Translation -/

theorem State.firmware_walked (s : State) (w : WalkEnd) :
    (s.walked w).firmware = s.firmware :=
  State.firmware_foldl (fun s pa => s.firmware_readLine (pa / lineBytes) 0) _ s

theorem State.firmware_translate (s : State) (asid va : Nat) (w : Want) :
    (s.translate asid va w).2.firmware = s.firmware := by
  unfold State.translate
  grind [State.firmware, State.firmware_walked]

theorem State.firmware_hitCode (s : State) (asid va : Nat) (w : Want) : (s.hitCode asid va w).2.firmware = s.firmware := by
  unfold State.hitCode
  grind [State.firmware, State.firmware_translate]

theorem State.firmware_tlbiPage (s : State) (asid va : Nat) : (s.tlbiPage asid va).firmware = s.firmware := rfl

theorem State.firmware_tlbiAsid (s : State) (asid : Nat) : (s.tlbiAsid asid).firmware = s.firmware := rfl

theorem State.firmware_tlbiAll (s : State) : (s.tlbiAll).firmware = s.firmware := rfl

theorem State.firmware_noteDirty (s : State) (asid va : Nat) : (s.noteDirty asid va).firmware = s.firmware := rfl

/-! ### Home directories and fills -/

theorem State.firmware_fillFrom (s : State) (asid : Nat) (ph : Phys) : (s.fillFrom asid ph).2.firmware = s.firmware := by
  unfold State.fillFrom
  grind [State.firmware_readLine, State.firmware_readLines]

theorem State.firmware_dropCopies (s : State) (asid line : Nat) : (s.dropCopies asid line).firmware = s.firmware := rfl

theorem State.firmware_wakeBlock (s : State) (b : Block) : (s.wakeBlock b).firmware = s.firmware := rfl

theorem State.firmware_noteWrite (s : State) (asid line : Nat) : (s.noteWrite asid line).firmware = s.firmware := rfl

theorem State.firmware_noteWindow (s : State) (off : Nat) : (s.noteWindow off).firmware = s.firmware := rfl

theorem State.firmware_addCopy (s : State) (cache asid line : Nat) (data : List Byte) :
    (s.addCopy cache asid line data).firmware = s.firmware := rfl

theorem State.firmware_buffer (s : State) (l : Line) (flush spcfg : Option Nat) :
    (s.buffer l flush spcfg).firmware = s.firmware := rfl

theorem State.firmware_unloadGroup (s : State) (f asid line : Nat) (flush spcfg : Option Nat) :
    (s.unloadGroup f asid line flush spcfg).firmware = s.firmware := by
  unfold State.unloadGroup
  refine (State.firmware_foldl (fun s u => ?_) _ _).trans ?_
  · exact State.firmware_buffer s u _ _
  · exact State.firmware_foldl (fun s u => State.firmware_dropCopies s asid u.line) (s.groupUnits f asid line) s

theorem State.firmware_unload (s : State) (l : Line) (flush spcfg : Option Nat) :
    (s.unload l flush spcfg).firmware = s.firmware := by
  unfold State.unload
  grind [State.firmware, State.firmware_unloadGroup, State.firmware_dropCopies, State.firmware_buffer]

theorem State.firmware_displace (s : State) (slice : Nat) (keep : Line → Bool) :
    (s.displace slice keep).firmware = s.firmware := by
  unfold State.displace
  grind [State.firmware, State.firmware_unload]

theorem State.firmware_takeWay (s : State) (slice : Nat) (keep : Line → Bool) :
    (s.takeWay slice keep).2.firmware = s.firmware := by
  unfold State.takeWay
  grind [State.firmware, State.firmware_displace]

theorem State.firmware_endFills (s : State) (asid line : Nat) : (s.endFills asid line).firmware = s.firmware := rfl

theorem State.firmware_install (s : State) (l : Line) : (s.install l).firmware = s.firmware := by
  unfold State.install
  grind [State.firmware, State.firmware_endFills, State.firmware_takeWay]

theorem State.firmware_holdGroup (s : State) (f a asid base : Nat)
    (units : List (List (List Byte × Option (List Byte)) × Bool)) :
    (s.holdGroup f a asid base units).firmware = s.firmware := by
  unfold State.holdGroup
  refine State.firmware_foldl (fun s l => ?_) _ _
  exact State.firmware_takeWay s l.slice _

theorem State.firmware_denseGroup (s : State) (asid line : Nat) (but : Option Nat) :
    (s.denseGroup asid line but).firmware = s.firmware := by
  unfold State.denseGroup
  split
  · rfl
  · refine State.firmware_foldl (fun s u => ?_) _ _
    exact s.firmware_install u.toDense

theorem State.firmware_writeHome? {s t : State} {asid line off : Nat} {bs : List Byte}
    (h : s.writeHome? asid line off bs = some t) :
    t.firmware = s.firmware := by
  unfold State.writeHome? at h
  split at h
  · cases h
    rw [State.firmware_noteWrite, State.firmware_install, State.firmware_denseGroup]
  · obtain ⟨w, -, rfl⟩ := Option.map_eq_some_iff.1 h
    grind [State.firmware, State.firmware_install, State.firmware_noteWrite]

theorem State.firmware_writeHomeD (s : State) (asid line off : Nat) (bs : List Byte) :
    ((s.writeHome? asid line off bs).getD s).firmware = s.firmware := by
  cases h : s.writeHome? asid line off bs with
  | none => rfl
  | some t => exact State.firmware_writeHome? h

theorem State.firmware_newMessage (s : State) (owner : MsgOwner) (crew : Option Nat) (kind target off size : Nat)
    (data : List Double) (job die : Nat) :
    (s.newMessage owner crew kind target off size data job die).firmware = s.firmware := rfl

theorem State.firmware_farDo (s : State) (u : FarUser) (kind target off size : Nat) (data : List Double)
    (crew : Option Nat) (job die : Nat) :
    (s.farDo u kind target off size data crew job die).2.firmware = s.firmware := by
  unfold State.farDo
  grind [State.firmware, State.firmware_newMessage]

theorem State.firmware_farDone (s : State) (u : FarUser) : (s.farDone u).firmware = s.firmware := rfl

theorem State.firmware_peekSeg (s : State) (asid va n : Nat) : (s.peekSeg asid va n).2.firmware = s.firmware := by
  unfold State.peekSeg
  grind [State.firmware, State.firmware_translate, State.firmware_fillFrom]

theorem State.firmware_peekLines (s : State) (asid va n k : Nat) : (s.peekLines asid va n k).2.firmware = s.firmware := by
  induction k generalizing s va n with
  | zero => rfl
  | succ k ih => grind [State.peekLines, State.firmware_peekSeg]

theorem State.firmware_peek (s : State) (asid va n : Nat) : (s.peek asid va n).2.firmware = s.firmware := by
  unfold State.peek
  grind [State.firmware_peekLines]

theorem State.firmware_pokeSeg (s : State) (me asid va : Nat) (bs : List Byte) :
    (s.pokeSeg me asid va bs).2.firmware = s.firmware := by
  unfold State.pokeSeg
  grind [State.firmware, State.firmware_writeHomeD, State.firmware_hitCode, State.firmware_translate,
    State.firmware_fillFrom, State.firmware_install, State.firmware_noteWrite, State.firmware_noteWindow,
    State.firmware_windowWrite]

theorem State.firmware_pokeLines (s : State) (me asid va : Nat) (bs : List Byte) (k : Nat) :
    (s.pokeLines me asid va bs k).2.firmware = s.firmware := by
  induction k generalizing s va bs with
  | zero => rfl
  | succ k ih => grind [State.pokeLines, State.firmware_pokeSeg]

theorem State.firmware_poke (s : State) (me asid va : Nat) (bs : List Byte) :
    (s.poke me asid va bs).2.firmware = s.firmware := by
  unfold State.poke
  grind [State.firmware_pokeLines]

theorem State.firmware_setPoolDouble (s : State) (n k : Nat) (v : Double) :
    (s.setPoolDouble n k v).firmware = s.firmware := rfl

theorem State.firmware_zeroLines (s : State) (line k : Nat) : (s.zeroLines line k).firmware = s.firmware := by
  induction k generalizing s line with
  | zero => rfl
  | succ k ih => exact (ih ..).trans (State.firmware_writeLine ..)

theorem State.firmware_zeroFrame (s : State) (frame size : Nat) : (s.zeroFrame frame size).firmware = s.firmware := by
  unfold State.zeroFrame
  grind [State.firmware, State.firmware_zeroLines]

theorem State.firmware_deviceFault (s : State) (a : DeviceAccess) (asid code va : Nat) :
    (s.deviceFault a asid code va).firmware = s.firmware := by
  unfold State.deviceFault
  grind [State.firmware, State.firmware_postEvent]

theorem State.firmware_agentRead (s : State) (u : FarUser) (job die asid va n : Nat) :
    (s.agentRead u job die asid va n).2.firmware = s.firmware := by
  unfold State.agentRead
  grind [State.firmware, State.firmware_peek, State.firmware_farDo]

theorem State.firmware_agentWrite (s : State) (me : Nat) (u : FarUser) (job die asid va : Nat) (bs : List Byte) :
    (s.agentWrite me u job die asid va bs).2.firmware = s.firmware := by
  unfold State.agentWrite
  grind [State.firmware, State.firmware_poke, State.firmware_farDo, State.firmware_noteWrite]

/-- A map step by its recursion over the fuel; Lean gives it no equations of its own. -/
theorem State.mapStepFuel_eq (fuel : Nat) : State.mapStepFuel fuel = (Nat.brecOn.go fuel State.mapStepFuel._f).1 := by
  delta State.mapStepFuel
  rfl

theorem State.firmware_mapStepFuel (fuel : Nat) (s : State) (asid va : Nat) :
    (State.mapStepFuel fuel s asid va).2.firmware = s.firmware := by
  rw [State.mapStepFuel_eq]
  induction fuel generalizing s asid va with
  | zero =>
    change (State.mapStepFuel._f 0 ⟨⟩ s asid va).2.firmware = _
    delta State.mapStepFuel._f
    grind [State.firmware_walked, State.firmware_agentRead, State.firmware_agentWrite, State.firmware_zeroFrame,
      State.firmware_setPoolDouble, State.firmware_farDone, State.firmware_deviceFault]
  | succ n ih =>
    change (State.mapStepFuel._f (n + 1) (Nat.brecOn.go n State.mapStepFuel._f) s asid va).2.firmware = _
    generalize Nat.brecOn.go n State.mapStepFuel._f = again at ih
    delta State.mapStepFuel._f
    grind [State.firmware_walked, State.firmware_agentRead, State.firmware_agentWrite, State.firmware_zeroFrame,
      State.firmware_setPoolDouble, State.firmware_farDone, State.firmware_deviceFault]

theorem State.firmware_mapStep (s : State) (asid va : Nat) : (s.mapStep asid va).2.firmware = s.firmware := by
  unfold State.mapStep
  grind [State.firmware_mapStepFuel]

theorem State.firmware_firstTouch (s : State) (asid code va : Nat) :
    (s.firstTouch asid code va).2.firmware = s.firmware := by
  unfold State.firstTouch
  grind [State.firmware, State.firmware_mapStep]

theorem State.firmware_devPeek (s : State) (asid va n : Nat) : (s.devPeek asid va n).2.firmware = s.firmware := by
  unfold State.devPeek
  grind [State.firmware, State.firmware_peek, State.firmware_firstTouch]

theorem State.firmware_devPoke (s : State) (me asid va : Nat) (bs : List Byte) :
    (s.devPoke me asid va bs).2.firmware = s.firmware := by
  unfold State.devPoke
  grind [State.firmware, State.firmware_poke, State.firmware_firstTouch]

theorem State.firmware_devTranslate (s : State) (asid va : Nat) (w : Want) :
    (s.devTranslate asid va w).2.firmware = s.firmware := by
  unfold State.devTranslate
  grind [State.firmware, State.firmware_translate, State.firmware_firstTouch]

theorem State.firmware_devReady (s : State) (me asid va : Nat) : (s.devReady me asid va).2.firmware = s.firmware := by
  unfold State.devReady
  grind [State.firmware, State.firmware_writeHome?, State.firmware_devTranslate]

theorem State.firmware_devReadyLines (s : State) (me asid va n k : Nat) :
    (s.devReadyLines me asid va n k).2.firmware = s.firmware := by
  induction k generalizing s va n with
  | zero => rfl
  | succ k ih => grind [State.devReadyLines, State.firmware_devReady]

theorem State.firmware_agentLines (s : State) (u : FarUser) (job die asid va n k : Nat) :
    (s.agentLines u job die asid va n k).2.firmware = s.firmware := by
  induction k generalizing s va n with
  | zero => rfl
  | succ k ih => grind [State.agentLines, State.firmware_devPeek, State.firmware_farDo]

theorem State.firmware_agentPeek (s : State) (u : FarUser) (job die asid va n : Nat) :
    (s.agentPeek u job die asid va n).2.firmware = s.firmware := by
  unfold State.agentPeek
  grind [State.firmware_agentLines]

theorem State.firmware_agentPutLines (s : State) (u : FarUser) (job die asid va : Nat) (bs : List Byte) (k : Nat) :
    (s.agentPutLines u job die asid va bs k).2.firmware = s.firmware := by
  induction k generalizing s va bs with
  | zero => rfl
  | succ k ih => grind [State.agentPutLines, State.firmware_devPoke, State.firmware_farDo, State.firmware_noteWrite]

theorem State.firmware_agentPoke (s : State) (u : FarUser) (job die asid va : Nat) (bs : List Byte) :
    (s.agentPoke u job die asid va bs).2.firmware = s.firmware := by
  unfold State.agentPoke
  grind [State.firmware_agentPutLines]

/-! ### The local memories -/

theorem State.firmware_seenBy (s : State) (older : Resize → Bool) : (s.seenBy older).firmware = s.firmware := rfl

theorem State.firmware_writeLocal (s : State) (crew member : Nat) (p : Place) (bs : List Byte) :
    (s.writeLocal crew member p bs).firmware = s.firmware := by
  unfold State.writeLocal
  refine (State.firmware_foldl (fun s k => s.firmware_wakeBlock _) _ _).trans ?_
  cases p <;> rfl

/-! ### Operands -/

theorem State.firmware_mapPort (s : State) (k p : Nat) (f : Port → Port) : (s.mapPort k p f).firmware = s.firmware := rfl

theorem State.firmware_pushLater (s : State) (c : Ctx) (p : Nat) (ws : List Word) :
    (s.pushLater c p ws).firmware = s.firmware := rfl

theorem State.firmware_writeField (s : State) (c : Ctx) (use : Slice → Use) (vals : List Nat) :
    (s.writeField c use vals).firmware = s.firmware := by
  unfold State.writeField
  grind [State.firmware, State.firmware_pushLater, State.firmware_mapPort, State.firmware_mapIssuer]

/-! ### Accesses under way -/

theorem State.firmware_startFlight (s : State) (c : Ctx) (i : Instr) (o : Launching) (ps : List Part) :
    (s.startFlight c i o ps).firmware = s.firmware := by
  unfold State.startFlight
  grind [State.firmware, State.firmware_mapPort, State.firmware_mapIssuer]

theorem State.firmware_issueFlight (s : State) (c : Ctx) (i : Instr) (o : Launching) (addrs datas results : List Nat) :
    (s.issueFlight c i o addrs datas results).firmware = s.firmware := by
  unfold State.issueFlight
  grind [State.firmware_retireNext, State.firmware_startFlight]

theorem State.firmware_mapFlight (s : State) (fl : Nat) (f : Flight → Flight) :
    (s.mapFlight fl f).firmware = s.firmware := rfl

theorem State.firmware_mapParts (s : State) (fl : Nat) (idx : List Nat) (f : Part → Part) :
    (s.mapParts fl idx f).firmware = s.firmware := rfl

theorem State.firmware_endFlights (s : State) (fs : List Flight) (held : List (Nat × Nat × Nat)) :
    (s.endFlights fs held).firmware = s.firmware := by
  induction fs generalizing s held with
  | nil => rfl
  | cons f fs ih => grind [State.endFlights, State.firmware, State.firmware_mapPort, State.firmware_mapGang]

theorem State.firmware_settleFlights (s : State) : (s.settleFlights).firmware = s.firmware := by
  unfold State.settleFlights
  grind [State.firmware, State.firmware_endFlights]

theorem State.firmware_arrive (s : State) (f : Flight) (part word : Nat) (p : Part) :
    (s.arrive f part word p).firmware = s.firmware := by
  unfold State.arrive
  grind [State.firmware, State.firmware_mapFlight, State.firmware_mapGang, State.firmware_settleFlights]

theorem State.firmware_arrival (s : State) (kinds : AccKind → Bool) (fl part word : Nat) :
    (s.arrival kinds fl part word).firmware = s.firmware := by
  unfold State.arrival
  grind [State.firmware_arrive]

/-! ### The load-store unit -/

theorem State.firmware_pendPalette (s : State) (c : Ctx) (fl la : Nat) :
    (s.pendPalette c fl la).firmware = s.firmware := rfl

theorem State.firmware_startPalette (s : State) (c : Ctx) (i : Instr) (o : Launching) (addr result la : Nat) :
    (s.startPalette c i o addr result la).firmware = s.firmware := by
  unfold State.startPalette
  grind [State.firmware, State.firmware_retireNext, State.firmware_startFlight, State.firmware_pendPalette]

theorem State.firmware_replay (s : State) (crew : Nat) (p : Nat → List Nat → Nat → Bool) :
    (s.replay crew p).firmware = s.firmware := rfl

/-! ### Continuation records -/

theorem State.firmware_mapLaunch (s : State) (l : Option Nat) (f : Launch → Launch) :
    (s.mapLaunch l f).firmware = s.firmware := by
  unfold State.mapLaunch
  grind [State.firmware]

theorem State.firmware_pushRecord (s : State) (r : Record) (origin : Origin) (die : Nat) (fl : Option Nat)
    (slot : Option (Nat × Nat)) :
    (s.pushRecord r origin die fl slot).firmware = s.firmware := by
  unfold State.pushRecord
  grind [State.firmware, State.firmware_mapLaunch]

/-! ### Write-backs -/

theorem State.firmware_applyGather (s : State) (g : Gather) : (s.applyGather g).firmware = s.firmware := by
  unfold State.applyGather
  refine (State.firmware_ackLines ..).trans (State.firmware_asStream (fun s => ?_) s)
  dsimp only
  split
  · exact State.firmware_writeStripe ..
  · refine State.firmware_foldl (fun s l => ?_) _ _
    exact State.firmware_writeLine s (7 * g.stripe + l.1) l.2.1 l.2.2

theorem State.firmware_stripeWrite (s : State) (stripe : Nat) : (s.stripeWrite stripe).firmware = s.firmware := by
  unfold State.stripeWrite
  split
  · rfl
  · split
    · rfl
    · rename_i g _
      have hdata := State.firmware_of_offStacks (State.offStacks_writeData (s := s) (stripe := stripe) (g := g))
      split
      · exact State.firmware_applyGather ..
      · exact hdata

theorem State.firmware_makeRoom (s : State) (owner : Nat) : (s.makeRoom owner).firmware = s.firmware := by
  unfold State.makeRoom
  grind [State.firmware, State.firmware_settleStripe, State.firmware_applyGather]

theorem State.firmware_gatherLine (s : State) (wb line : Nat) (data : List Byte) (poisoned : Bool) :
    (s.gatherLine wb line data poisoned).firmware = s.firmware := by
  unfold State.gatherLine
  grind [State.firmware, State.firmware_settleStripe, State.firmware_stripeWrite, State.firmware_makeRoom]

theorem State.firmware_sendWriteBack (s : State) (w : WriteBack) (ph : Phys) :
    (s.sendWriteBack w ph).firmware = s.firmware := by
  unfold State.sendWriteBack
  refine (State.firmware_foldl (fun s l => ?_) _ _).trans ?_
  · exact State.firmware_gatherLine s w.id l.1 l.2.1 l.2.2
  · refine (State.firmware_noteDirty _ w.asid (w.line * lineBytes)).trans ?_
    cases ph with
    | crumb => exact State.firmware_readLines ..
    | hbm | host | window | fabric => rfl

theorem State.firmware_makeWriteBack (s : State) (w : WriteBack) : (s.makeWriteBack w).firmware = s.firmware := by
  unfold State.makeWriteBack
  grind [State.firmware, State.firmware_postEvent, State.firmware_devTranslate, State.firmware_sendWriteBack]

theorem State.firmware_bufferLine (s : State) (l : Line) (flush spcfg : Option Nat) :
    (s.bufferLine l flush spcfg).2.firmware = s.firmware := by
  unfold State.bufferLine
  grind [State.firmware, State.firmware_unload]

theorem State.firmware_makeGroup (s : State) (f asid line : Nat) :
    (s.makeGroup f asid line).firmware = s.firmware :=
  State.firmware_foldl State.firmware_makeWriteBack _ s

theorem State.firmware_writeBackLine (s : State) (l : Line) (spcfg : Option Nat) :
    (s.writeBackLine l spcfg).firmware = s.firmware := by
  unfold State.writeBackLine
  grind [State.firmware, State.firmware_bufferLine, State.firmware_makeWriteBack, State.firmware_unloadGroup,
    State.firmware_makeGroup]

theorem State.firmware_evict (s : State) (asid line : Nat) : (s.evict asid line).firmware = s.firmware := by
  unfold State.evict
  grind [State.firmware, State.firmware_makeWriteBack, State.firmware_makeGroup, State.firmware_unload,
    State.firmware_writeBackLine]

theorem State.firmware_flushEnded (s : State) (w : WriteBack) : (s.flushEnded w).firmware = s.firmware := by
  unfold State.flushEnded
  split <;> rfl

/-! ### What an access does at its place -/

theorem State.firmware_armMonitor (s : State) (crew member slice : Nat) (b : Block) :
    (s.armMonitor crew member slice b).firmware = s.firmware := by
  unfold State.armMonitor
  grind [State.firmware, State.firmware_mapGang]

theorem State.firmware_monPerformed (s : State) (f : Flight) (idx : List Nat) (place : Place) :
    (s.monPerformed f idx place).firmware = s.firmware := by
  unfold State.monPerformed
  have harm :=
    State.firmware_foldl
      (f := fun s (p : Part) => if f.armsSlice p then s.armMonitor f.crew f.member p.slice
        (place.block f.asid f.crew f.member) else s) (fun s p => by grind [State.firmware_armMonitor]) (f.at_ idx) s
  grind [State.firmware_mapGang]

theorem State.firmware_performed (s : State) (f : Flight) (idx : List Nat) (place : Place) (e : Effect) :
    (s.performed f idx place e).firmware = s.firmware := by
  unfold State.performed
  dsimp only
  split
  · refine (State.firmware_foldl (fun s bs => ?_) _ _).trans ?_
    · exact State.firmware_pushRecord s (recordOf bs _) .plain _ (some f.id) none
    · split
      · exact State.firmware_monPerformed ..
      · rfl
  · split
    · exact State.firmware_monPerformed ..
    · rfl

theorem State.firmware_performLocal (s : State) (f : Flight) (idx : List Nat) (place : Place) :
    (s.performLocal f idx place).firmware = s.firmware := by
  unfold State.performLocal
  grind [State.firmware, State.firmware_writeLocal, State.firmware_performed]

theorem State.firmware_performHome (s : State) (f : Flight) (idx : List Nat) (va : Nat) (l : Line) :
    (s.performHome f idx va l).firmware = s.firmware := by
  unfold State.performHome
  grind [State.firmware_writeHomeD, State.firmware_addCopy, State.firmware_performed]

theorem State.firmware_dropClean (s : State) (asid line : Nat) : (s.dropClean asid line).firmware = s.firmware := by
  unfold State.dropClean
  grind [State.firmware, State.firmware_unload]

theorem State.firmware_flushLine (s : State) (f : Flight) (idx : List Nat) (line : Nat) :
    (s.flushLine f idx line).firmware = s.firmware := by
  unfold State.flushLine
  grind [State.firmware, State.firmware_dropCopies, State.firmware_dropClean, State.firmware_mapParts,
    State.firmware_performed, State.firmware_translate, State.firmware_bufferLine, State.firmware_sendWriteBack,
    State.firmware_makeGroup]

theorem State.firmware_expandHeld (s : State) (asid line : Nat) : (s.expandHeld asid line).firmware = s.firmware := by
  unfold State.expandHeld
  grind [State.firmware, State.firmware_install]

theorem State.firmware_homeRequest (s : State) (f : Flight) (i : Nat) (p : Part) :
    (s.homeRequest f i p).firmware = s.firmware := by
  unfold State.homeRequest
  grind [State.firmware, State.firmware_flushLine, State.firmware_performHome, State.firmware_hitCode,
    State.firmware_expandHeld, State.firmware_mapParts, State.firmware_performLocal]

theorem State.firmware_onPart {s : State} {k : Flight → Part → State} (h : ∀ f p, (k f p).firmware = s.firmware)
    (fl part : Nat) :
    (s.onPart fl part k).firmware = s.firmware := by
  unfold State.onPart
  grind

theorem State.firmware_forward (s : State) (f : Flight) (idx : List Nat) (target off : Nat) :
    (s.forward f idx target off).firmware = s.firmware := by
  unfold State.forward
  grind [State.firmware, State.firmware_newMessage, State.firmware_mapParts]

theorem State.firmware_performBeyond (s : State) (f : Flight) (idx : List Nat) (va : Nat) (ph : Phys) :
    (s.performBeyond f idx va ph).firmware = s.firmware := by
  unfold State.performBeyond
  grind [State.firmware, State.firmware_windowWrite, State.firmware_noteWrite, State.firmware_noteWindow,
    State.firmware_performed]

theorem State.firmware_startFill (s : State) (f : Flight) (idx : List Nat) (line pa : Nat) (crumb : Option CrumbPage) :
    (s.startFill f idx line pa crumb).firmware = s.firmware := by
  unfold State.startFill
  grind [State.firmware, State.firmware_mapParts, State.firmware_takeWay]

theorem State.firmware_translationRequest (s : State) (f : Flight) (i : Nat) (p : Part) :
    (s.translationRequest f i p).firmware = s.firmware := by
  unfold State.translationRequest
  grind [State.firmware, State.firmware_mapParts, State.firmware_translate, State.firmware_forward,
    State.firmware_startFill, State.firmware_performBeyond]

theorem State.firmware_readFill (s : State) (x : Fill) (ecc : Nat) : (s.readFill x ecc).2.firmware = s.firmware := by
  unfold State.readFill
  grind [State.firmware, State.firmware_strike, State.firmware_fillFrom]

theorem State.firmware_dropPart (s : State) (fl part : Nat) : (s.dropPart fl part).firmware = s.firmware := rfl

theorem State.firmware_writeFrame (s : State) (c : Crew) (off : Nat) (bs : List Byte) :
    (s.writeFrame c off bs).2.firmware = s.firmware := by
  unfold State.writeFrame
  grind [State.firmware, State.firmware_agentPoke, State.firmware_farDone, State.firmware_deviceFault]

theorem State.firmware_writeLog (s : State) (c : Crew) (log : List FaultLog) :
    (s.writeLog c log).2.firmware = s.firmware := by
  unfold State.writeLog
  grind [State.firmware_writeFrame]

theorem State.firmware_changeLog (s : State) (crew : Nat) (f : List FaultLog → List FaultLog) :
    (s.changeLog crew f).2.firmware = s.firmware := by
  unfold State.changeLog
  grind [State.firmware, State.firmware_writeLog, State.firmware_mapCrew]

theorem State.firmware_enterForFaults (s : State) (c : Ctx) : (s.enterForFaults c).firmware = s.firmware := by
  unfold State.enterForFaults
  grind [State.firmware, State.firmware_takeEntry]

/-! ### Commands of the BTE -/

theorem State.firmware_mapSlot (s : State) (c k : Nat) (f : Slot → Slot) : (s.mapSlot c k f).firmware = s.firmware := rfl

theorem State.firmware_bteMessage (s : State) (r : BteRef) (kind target off size va : Nat) (data : List Double) :
    (s.bteMessage r kind target off size va data).firmware = s.firmware := rfl

theorem State.firmware_own (s : State) (owner asid : Nat) (lines : List Nat) :
    (s.own owner asid lines).firmware = s.firmware := rfl

theorem State.firmware_endXcpr (s : State) (cmd : Command) : (s.endXcpr cmd).firmware = s.firmware := by
  unfold State.endXcpr
  grind [State.firmware, State.firmware_mapGang]

theorem State.firmware_endTicket (s : State) (src : Source) (status : Nat) :
    (s.endTicket src status).firmware = s.firmware := by
  unfold State.endTicket
  grind [State.firmware, State.firmware_mapGang]

theorem State.firmware_releaseSlot (s : State) (c k : Nat) : (s.releaseSlot c k).firmware = s.firmware := by
  unfold State.releaseSlot
  grind [State.firmware, State.firmware_endTicket, State.firmware_mapSlot]

theorem State.firmware_dropLaunch (s : State) (cmd : Command) (sl : Slot) :
    (s.dropLaunch cmd sl).firmware = s.firmware := by
  unfold State.dropLaunch
  split
  · rfl
  · refine State.firmware_foldl (fun s l => ?_) _ _
    exact State.firmware_mapLaunch s (some l) (fun x => { x with more := false, slot := none })

theorem State.firmware_endCommand (s : State) (r : BteRef) (status : Nat) :
    (s.endCommand r status).firmware = s.firmware := by
  unfold State.endCommand
  grind [State.firmware, State.firmware_dropLaunch, State.firmware_mapSlot, State.firmware_endXcpr,
    State.firmware_releaseSlot]

theorem State.firmware_haltCommand (s : State) (r : BteRef) (h : Halt) : (s.haltCommand r h).firmware = s.firmware := by
  unfold State.haltCommand
  grind [State.firmware, State.firmware_endCommand, State.firmware_mapSlot, State.firmware_postEvent,
    State.firmware_bteMessage]

theorem State.firmware_putAt (s : State) (c k : Nat) (cmd : Command) : (s.putAt c k cmd).firmware = s.firmware := by
  unfold State.putAt
  grind [State.firmware, State.firmware_mapSlot, State.firmware_endCommand, State.firmware_own]

theorem State.firmware_mapQueue (s : State) (c q : Nat) (f : QueueEntry → QueueEntry) :
    (s.mapQueue c q f).firmware = s.firmware := rfl

theorem State.firmware_sendTicket (s : State) (c : Ctx) (i : Instr) (use : Slice → Use) (size la t : Nat) :
    (s.sendTicket c i use size la t).firmware = s.firmware := by
  unfold State.sendTicket
  grind [State.firmware_performed, State.firmware_startFlight]

theorem State.firmware_xwaitDone (s : State) (c : Ctx) (d : BitVec 7) : (s.xwaitDone c d).firmware = s.firmware := by
  unfold State.xwaitDone
  grind [State.firmware, State.firmware_retireNext, State.firmware_writeField, State.firmware_mapIssuer]

/-! ### Records of compact pages -/

theorem State.firmware_readRecords (s : State) (asid : Nat) (p : CrumbPage) (off : Nat) :
    (s.readRecords asid p off).2.firmware = s.firmware := by
  unfold State.readRecords
  grind [State.firmware_readLines]

theorem State.firmware_unitRecords (s : State) (asid : Nat) (p : CrumbPage) (line off : Nat) :
    (s.unitRecords asid p line off).2.firmware = s.firmware := by
  unfold State.unitRecords
  grind [State.firmware, State.firmware_readRecords]

theorem State.firmware_allUnits (s : State) (asid : Nat) (p : CrumbPage) (off : Nat) (ls : List Nat) :
    (s.allUnits asid p off ls).2.firmware = s.firmware := by
  induction ls generalizing s off with
  | nil => rfl
  | cons l ls ih =>
    have hunit := s.firmware_unitRecords asid p l off
    unfold State.allUnits
    generalize s.unitRecords asid p l off = r at hunit
    obtain ⟨_ | u, t⟩ := r
    · exact hunit
    · have hrest := (ih t (off + lineBytes)).trans hunit
      dsimp only
      split
      next h => rwa [h] at hrest
      next => exact hrest

theorem State.firmware_compactHome (s : State) (asid : Nat) (p : CrumbPage) (line off : Nat) :
    (s.compactHome asid p line off).2.firmware = s.firmware := by
  unfold State.compactHome
  have hdense :=
    fun (ls : List Nat) => State.firmware_foldl (f := fun s l => s.denseGroup asid l none)
      (fun s l => State.firmware_denseGroup ..) ls s
  grind [State.firmware, State.firmware_allUnits, State.firmware_holdGroup]

theorem State.firmware_currentRecord (s : State) (asid : Nat) (p : CrumbPage) (va off dist : Nat) :
    (s.currentRecord asid p va off dist).2.firmware = s.firmware := by
  unfold State.currentRecord
  grind [State.firmware, State.firmware_compactHome, State.firmware_unitRecords]

/-! ### Launches -/

theorem State.firmware_settleLaunch (s : State) (l : Nat) : (s.settleLaunch l).firmware = s.firmware := by
  unfold State.settleLaunch
  grind [State.firmware, State.firmware_mapSlot, State.firmware_endCommand]

theorem State.firmware_stopPushes (s : State) (l status : Nat) : (s.stopPushes l status).firmware = s.firmware := by
  unfold State.stopPushes
  grind [State.firmware, State.firmware_mapLaunch, State.firmware_settleLaunch]

theorem State.firmware_stopLaunch (s : State) (r : BteRef) (status : Nat) :
    (s.stopLaunch r status).firmware = s.firmware := by
  unfold State.stopLaunch
  grind [State.firmware, State.firmware_mapSlot, State.firmware_stopPushes, State.firmware_endCommand]

theorem State.firmware_mapRing (s : State) (n : Nat) (f : Ring → Ring) : (s.mapRing n f).firmware = s.firmware := rfl

theorem State.firmware_recordWritten (s : State) (n : Nat) (counted : Bool) :
    (s.recordWritten n counted).firmware = s.firmware := rfl

theorem State.firmware_recordDone (s : State) (sl : Slot) (r : BteRef) : (s.recordDone sl r).firmware = s.firmware := by
  unfold State.recordDone
  grind [State.firmware_recordWritten, State.firmware_releaseSlot]

theorem State.firmware_raiseRing (s : State) (n : Nat) : (s.raiseRing n).firmware = s.firmware := rfl

/-! ### Control flow -/

theorem State.firmware_retireEach (s : State) (c : Ctx) (f : Nat → Slice → Slice) :
    (s.retireEach c f).firmware = s.firmware := rfl

/-! ### Streams -/

theorem State.firmware_mcrdArrive (s : State) (f : Flight) : (s.mcrdArrive f).firmware = s.firmware := by
  unfold State.mcrdArrive
  grind [State.firmware, State.firmware_mapParts]

theorem State.firmware_endStream (s : State) (m : Stream) (code va : Nat) :
    (s.endStream m code va).firmware = s.firmware :=
  State.firmware_foldl (fun s fl => State.firmware_mapParts s fl [0] _) _ _

theorem State.firmware_sendLine (s : State) (m : Stream) (n : Nat) (pairs : List (Nat × Nat)) (after : Stream → Stream) :
    (s.sendLine m n pairs after).firmware = s.firmware := by
  unfold State.sendLine
  grind [State.firmware, State.firmware_peek, State.firmware_endStream, State.firmware_newMessage]

theorem State.firmware_settleStream (s : State) (id : Nat) : (s.settleStream id).firmware = s.firmware := by
  unfold State.settleStream
  split
  · rfl
  · exact (State.firmware_settleFlights _).trans (State.firmware_foldl (fun s fl => State.firmware_mapParts s fl [0] _) _ _)

theorem State.firmware_deliverTo (s : State) (d : Delivery) (f : Flight) :
    (s.deliverTo d f).firmware = s.firmware :=
  State.firmware_foldl (fun s p => by grind [State.firmware_writeLocal]) _ s

/-! ### Engines -/

theorem State.firmware_mapEngine (s : State) (n : Nat) (f : Engine → Engine) :
    (s.mapEngine n f).firmware = s.firmware := rfl

theorem State.firmware_takeImage {s u : State} {cluster n : Nat} {o : MatOp} {img : Option (List Byte)}
    (h : s.takeImage cluster o n = some (img, u)) :
    u.firmware = s.firmware := by
  unfold State.takeImage at h
  grind [State.firmware_mapPort]

theorem State.firmware_enqueue (s : State) (c : Ctx) (e : Nat) (o : EngOp) : (s.enqueue c e o).firmware = s.firmware := by
  unfold State.enqueue
  grind [State.firmware, State.firmware_mapEngine, State.firmware_mapCrew]

theorem State.firmware_wordFlight (s : State) (c : Ctx) (i : Instr) (t : BitVec 7) (la : Nat) (v : Nat) :
    (s.wordFlight c i t la v).2.firmware = s.firmware := by
  unfold State.wordFlight
  grind [State.firmware_issueFlight, State.firmware_performed]

theorem State.firmware_addTokens (s : State) (n : Nat) : (s.addTokens n).firmware = s.firmware := rfl

theorem State.firmware_returnGrant (s : State) (easel units : Nat) : (s.returnGrant easel units).firmware = s.firmware := by
  unfold State.returnGrant
  grind [State.firmware, State.firmware_addTokens]

theorem State.firmware_askTokens (s : State) (easel units : Nat) : (s.askTokens easel units).firmware = s.firmware := by
  unfold State.askTokens
  grind [State.firmware]

theorem State.firmware_takeTokens? {s t : State} {easel units : Nat} (h : s.takeTokens? easel units = some t) :
    t.firmware = s.firmware := by
  unfold State.takeTokens? at h
  grind [State.firmware]

theorem State.firmware_withTokens {k : State → State} (hk : ∀ s, (k s).firmware = s.firmware) (s : State) (c : Ctx)
    (units : Nat) :
    (s.withTokens c units k).firmware = s.firmware := by
  unfold State.withTokens
  grind [State.firmware_returnGrant, State.firmware_takeTokens?, State.firmware_askTokens]

theorem State.firmware_issueMat {s u : State} {c : Ctx} {i : Instr} {t : BitVec 7} {la e an bn : Nat} {a b : MatOp}
    {o : EngOp} (h : s.issueMat c i t la e a b an bn o = some u) :
    u.firmware = s.firmware := by
  unfold State.issueMat at h
  obtain ⟨⟨aImg, s₁⟩, ha, h⟩ := Option.bind_eq_some_iff.1 h
  obtain ⟨⟨bImg, s₂⟩, hb, h⟩ := Option.bind_eq_some_iff.1 h
  cases h
  rw [State.firmware_withTokens fun s₃ => ?_, State.firmware_takeImage hb, State.firmware_takeImage ha]
  refine (State.firmware_enqueue ..).trans ?_
  split
  · exact State.firmware_wordFlight ..
  · exact State.firmware_wordFlight ..

/-! ### Completion of the engines -/

theorem State.firmware_deliverWord (s : State) (fl v : Nat) : (s.deliverWord fl v).firmware = s.firmware := by
  unfold State.deliverWord
  grind [State.firmware, State.firmware_arrive]

theorem State.firmware_retireOp (s : State) (engine pos : Nat) : (s.retireOp engine pos).firmware = s.firmware := rfl

theorem State.firmware_mapCanvas (s : State) (engine k : Nat) (f : Canvas → Canvas) :
    (s.mapCanvas engine k f).firmware = s.firmware := rfl

theorem State.firmware_finishMat (s : State) (engine pos cycles : Nat) (o : EngOp) (f : Canvas → Canvas) :
    (s.finishMat engine pos cycles o f).firmware = s.firmware := by
  unfold State.finishMat
  grind [State.firmware_mapCanvas, State.firmware_retireOp, State.firmware_addTokens, State.firmware_deliverWord]

theorem State.firmware_writeGroups (s : State) (c : Crew) (d : Desc) (at_ : Nat → Nat) (bs : List Byte) :
    (s.writeGroups c d at_ bs).firmware = s.firmware := by
  unfold State.writeGroups
  exact State.firmware_foldl (fun s g => by grind [State.firmware_writeLocal]) _ s

theorem State.firmware_writeDrainRow (s : State) (c : Crew) (o : EngOp) (d : Desc) (t i : Nat) (q : Quantised) :
    (s.writeDrainRow c o d t i q).firmware = s.firmware := by
  unfold State.writeDrainRow
  grind [State.firmware, State.firmware_writeGroups]

theorem State.firmware_writeCopy (s : State) (c : Crew) (o : EngOp) (d : Desc) (tiles : List (List Quantised)) :
    (s.writeCopy c o d tiles).firmware = s.firmware := by
  unfold State.writeCopy
  refine State.firmware_foldl (fun s rt => ?_) _ s
  refine (State.firmware_foldl (fun s qi => State.firmware_writeDrainRow ..) _ _).trans ?_
  grind [State.firmware_writeGroups]

theorem State.firmware_writeDrain (s : State) (c : Crew) (o : EngOp)
    (copies : List (List Quantised) × List (List Quantised)) :
    (s.writeDrain c o copies).firmware = s.firmware := by
  unfold State.writeDrain
  grind [State.firmware, State.firmware_mapPort, State.firmware_writeCopy]

theorem State.firmware_grant (s : State) (r : TokenReq) : (s.grant r).firmware = s.firmware := by
  unfold State.grant
  grind [State.firmware]

/-! ### Jobs -/

theorem State.firmware_setJob (s : State) (d e k : Nat) (v : Double) : (s.setJob d e k v).firmware = s.firmware := rfl

theorem State.firmware_countInjected (s : State) (die job : Nat) (n : Int) :
    (s.countInjected die job n).firmware = s.firmware := by
  unfold State.countInjected
  grind [State.firmware, State.firmware_setJob]

theorem State.firmware_countConsumed (s : State) (die job : Nat) (n : Int) :
    (s.countConsumed die job n).firmware = s.firmware := by
  unfold State.countConsumed
  grind [State.firmware, State.firmware_setJob]

theorem State.firmware_countPending (s : State) (die job : Nat) (n : Int) :
    (s.countPending die job n).firmware = s.firmware := by
  unfold State.countPending
  grind [State.firmware, State.firmware_setJob]

theorem State.firmware_countLost (s : State) (die job : Nat) : (s.countLost die job).firmware = s.firmware := by
  unfold State.countLost
  grind [State.firmware, State.firmware_setJob]

theorem State.firmware_portCount (s : State) (block counter : Nat) :
    (s.portCount block counter).firmware = s.firmware := rfl

theorem State.firmware_setHandler (s : State) (q k : Nat) (v : Double) : (s.setHandler q k v).firmware = s.firmware := rfl

theorem State.firmware_retireHandler (s : State) (entry job die : Nat) :
    (s.retireHandler entry job die).firmware = s.firmware := by
  unfold State.retireHandler
  grind [State.firmware_setHandler, State.firmware_countConsumed]

theorem State.firmware_endQuiet (s : State) (c : Ctx) (i : Instr) (d : BitVec 7) (la v : Nat) :
    (s.endQuiet c i d la v).firmware = s.firmware := by
  unfold State.endQuiet
  exact (State.firmware_issueFlight ..).trans (State.firmware_mapIssuer ..)

/-! ### Tasks -/

theorem State.firmware_returnBuffer (s : State) (asid pool buf : Nat) :
    (s.returnBuffer asid pool buf).2.firmware = s.firmware := by
  unfold State.returnBuffer
  grind [State.firmware, State.firmware_buffer, State.firmware_farDone, State.firmware_deviceFault,
    State.firmware_agentPeek, State.firmware_agentPoke]

theorem State.firmware_returnAll (s : State) (l : List (Nat × Nat × Nat)) : (s.returnAll l).2.firmware = s.firmware := by
  induction l generalizing s with
  | nil => rfl
  | cons r l ih => grind [State.returnAll, State.firmware, State.firmware_returnBuffer]

theorem State.firmware_returnBuffers (s : State) (but : Option Nat) : (s.returnBuffers but).2.firmware = s.firmware := by
  unfold State.returnBuffers
  grind [State.firmware_returnAll]

theorem State.firmware_pushTask (s : State) (t : Task) : (s.pushTask t).firmware = s.firmware := rfl

theorem State.firmware_pushReady (s : State) :
    (s.pushReady).firmware = s.firmware :=
  State.firmware_foldl State.firmware_pushTask _ s

theorem State.firmware_submitted (s : State) (u : FarUser) : (s.submitted u).firmware = s.firmware := by
  unfold State.submitted
  grind [State.firmware, State.firmware_pushReady, State.firmware_farDone]

theorem State.firmware_taskDone (s : State) (id : Nat) : (s.taskDone id).firmware = s.firmware := by
  unfold State.taskDone
  grind [State.firmware, State.firmware_pushReady]

/-! ### Messages of the fabric -/

theorem State.firmware_answerPart (s : State) (f : Flight) (r : Option (List Double)) (i : Nat) :
    (s.answerPart f r i).firmware = s.firmware := by
  unfold State.answerPart
  grind [State.firmware, State.firmware_performed]

theorem State.firmware_noteParts (s : State) (f : Flight) (ps : List Part) : (s.noteParts f ps).firmware = s.firmware := by
  unfold State.noteParts
  split
  · exact State.firmware_foldl (fun s l => s.firmware_noteWrite f.asid l) _ s
  · rfl

theorem State.firmware_answerParts (s : State) (f : Flight) (msg : Nat) (r : Option (List Double)) :
    (s.answerParts f msg r).firmware = s.firmware := by
  unfold State.answerParts
  have hparts :=
    fun s (idx : List Nat) => State.firmware_foldl (f := fun s i => s.answerPart f r i)
      (fun s i => s.firmware_answerPart f r i) idx s
  grind [State.firmware_noteParts, State.firmware_performed]

theorem State.firmware_answerAmsg (s : State) (fl status : Nat) : (s.answerAmsg fl status).firmware = s.firmware := rfl

theorem State.firmware_answerSlot (s : State) (m : Message) (c k va : Nat) (r : Option (List Double)) :
    (s.answerSlot m c k va r).firmware = s.firmware := by
  unfold State.answerSlot
  grind [State.firmware, State.firmware_noteWrite, State.firmware_mapSlot]

theorem State.firmware_answerFar (s : State) (m : Message) (r : Option (List Double)) :
    (s.answerFar m r).firmware = s.firmware := rfl

theorem State.firmware_noteFar (s : State) (m : Message) : (s.noteFar m).firmware = s.firmware := by
  unfold State.noteFar
  split
  · rfl
  · exact State.firmware_foldl (fun s l => by grind [State.firmware_noteWrite]) _ s

theorem State.firmware_noteTag (s : State) (source tag : Nat) : (s.noteTag source tag).firmware = s.firmware := rfl

theorem State.firmware_respond (s : State) (source tag code : Nat) (data : List Double) :
    (s.respond source tag code data).firmware = s.firmware := rfl

theorem State.firmware_answered (s : State) (m : Message) (r : Option (List Double)) (status : Nat) :
    (s.answered m r status).firmware = s.firmware := by
  unfold State.answered
  grind [State.firmware, State.firmware_answerParts, State.firmware_answerSlot, State.firmware_answerAmsg,
    State.firmware_noteFar, State.firmware_answerFar, State.firmware_ackLines, State.firmware_noteTag,
    State.firmware_countConsumed, State.firmware_respond, State.firmware_settleFlights]

theorem State.firmware_failMessage (s : State) (m : Message) (status : Nat) :
    (s.failMessage m status).firmware = s.firmware := by
  unfold State.failMessage
  grind [State.firmware_portCount, State.firmware_answered]

theorem State.firmware_inject (s : State) (m : Message) : (s.inject m).firmware = s.firmware := by
  unfold State.inject
  grind [State.firmware, State.firmware_answered, State.firmware_failMessage, State.firmware_countInjected]

theorem State.firmware_toQuery (s : State) (m : Message) : (s.toQuery m).firmware = s.firmware := by
  unfold State.toQuery
  grind [State.firmware, State.firmware_countPending, State.firmware_portCount]

theorem State.firmware_loseMessage (s : State) (m : Message) : (s.loseMessage m).firmware = s.firmware := by
  unfold State.loseMessage
  grind [State.firmware_countPending, State.firmware_countInjected, State.firmware_countLost, State.firmware_portCount,
    State.firmware_postEvent, State.firmware_failMessage]

theorem State.firmware_deliverMessage (s : State) (m : Message) : (s.deliverMessage m).firmware = s.firmware := by
  unfold State.deliverMessage
  grind [State.firmware_countPending, State.firmware_failMessage, State.firmware_answered]

theorem State.firmware_mapLink (s : State) (port : Nat) (f : Link → Link) : (s.mapLink port f).firmware = s.firmware := rfl

theorem State.firmware_servePushes (s : State) (source tag old : Nat) (r : Record) (die n : Nat) :
    (s.servePushes source tag old r die n).firmware = s.firmware := by
  induction n generalizing s with
  | zero => rfl
  | succ n ih => exact (ih _).trans (State.firmware_pushRecord s r .plain die none none)

theorem State.firmware_refusePeer (s : State) (port source tag code : Nat) :
    (s.refusePeer port source tag code).firmware = s.firmware := rfl

theorem State.firmware_clearLost (s : State) (die job : Nat) : (s.clearLost die job).firmware = s.firmware := by
  unfold State.clearLost
  grind [State.firmware, State.firmware_setJob]

theorem State.firmware_loseQueried (s : State) (die job : Nat) :
    (s.loseQueried die job).firmware = s.firmware :=
  State.firmware_foldl (fun s m => s.firmware_loseMessage m) _ s

theorem State.firmware_queueArrival (s : State) (ops : List Nat) (fl part word : Nat) :
    (s.queueArrival ops fl part word).firmware = s.firmware := by
  unfold State.queueArrival
  grind [State.firmware, State.firmware_arrival]

/-! ### Placement -/

theorem State.firmware_roleBlock (s : State) (id : Nat) (r : Record) : (s.roleBlock id r).2.firmware = s.firmware := by
  unfold State.roleBlock
  grind [State.firmware, State.firmware_agentPeek]

theorem State.firmware_lookRecord (s : State) (id : Nat) (r : Record) : (s.lookRecord id r).2.firmware = s.firmware := by
  unfold State.lookRecord
  grind [State.firmware, State.firmware_roleBlock]

theorem State.firmware_fitIn (s : State) (q : QueuedRec) (m : Room) (easel : Bool) :
    (s.fitIn q m easel).2.firmware = s.firmware := by
  unfold State.fitIn
  grind [State.firmware, State.firmware_lookRecord]

theorem State.firmware_fit (s : State) (q : QueuedRec) (cluster : Nat) (without : List Nat) :
    (s.fit q cluster without).2.firmware = s.firmware := by
  unfold State.fit
  grind [State.firmware_fitIn]

/-! ### The scheduler -/

theorem State.firmware_pushMade (s : State) (p : Push) : (s.pushMade p).firmware = s.firmware := by
  unfold State.pushMade
  grind [State.firmware, State.firmware_mapFlight, State.firmware_settleFlights]

theorem State.firmware_dropPush (s : State) (i : Nat) : (s.dropPush i).firmware = s.firmware := rfl

theorem State.firmware_makePush (s : State) (i : Nat) (p : Push) : (s.makePush i p).firmware = s.firmware := by
  unfold State.makePush
  grind [State.firmware, State.firmware_dropPush, State.firmware_mapLaunch, State.firmware_settleLaunch,
    State.firmware_pushMade, State.firmware_agentPoke, State.firmware_setPoolDouble, State.firmware_farDone,
    State.firmware_deviceFault]

theorem State.firmware_refill (s : State) (q n : Nat) : (s.refill q n).firmware = s.firmware := by
  induction n generalizing s with
  | zero => rfl
  | succ n ih => grind [State.refill, State.firmware, State.firmware_agentPeek, State.firmware_setPoolDouble,
    State.firmware_farDone, State.firmware_deviceFault]

theorem State.firmware_choose (s : State) (cluster : Nat) (qs : List QueuedRec) (w : List Nat) :
    (s.choose cluster qs w).2.firmware = s.firmware := by
  induction qs generalizing s w with
  | nil => rfl
  | cons q qs ih => grind [State.choose, State.firmware_fit]

theorem State.firmware_load (s : State) (q : QueuedRec) (cluster : Nat) (m : Room) :
    (s.load q cluster m).firmware = s.firmware := by
  unfold State.load
  grind [State.firmware, State.firmware_farDone, State.firmware_mapCrew, State.firmware_lookRecord]

theorem State.firmware_freeTask (s : State) (o : Origin) : (s.freeTask o).2.firmware = s.firmware := by
  unfold State.freeTask
  grind [State.firmware, State.firmware_returnBuffers]

theorem State.firmware_clearStages (s : State) (cluster : Nat) :
    (s.clearStages cluster).firmware = s.firmware :=
  State.firmware_foldl (fun _ _ => State.firmware_mapEngine ..) _ s

theorem State.firmware_saveEasel (s : State) (c : Crew) : (s.saveEasel c).firmware = s.firmware := by
  unfold State.saveEasel
  grind [State.firmware, State.firmware_mapCrew, State.firmware_clearStages, State.firmware_mapCluster]

theorem State.firmware_restoreEasel (s : State) (c : Crew) : (s.restoreEasel c).firmware = s.firmware := by
  unfold State.restoreEasel
  refine (State.firmware_mapCrew ..).trans ?_
  refine (State.firmware_foldl (fun s x => State.firmware_mapEngine ..) _ _).trans ?_
  refine (State.firmware_foldl (fun s x => State.firmware_mapEngine ..) _ _).trans ?_
  exact (State.firmware_mapCluster ..).trans (State.firmware_clearStages ..)

theorem State.firmware_takeFrame (s : State) (c : Crew) : (s.takeFrame c).2.firmware = s.firmware := by
  unfold State.takeFrame
  grind [State.firmware, State.firmware_agentPeek, State.firmware_setPoolDouble, State.firmware_mapCrew,
    State.firmware_farDone, State.firmware_deviceFault]

theorem State.firmware_giveFrame (s : State) (f : Nat) : (s.giveFrame f).2.firmware = s.firmware := by
  unfold State.giveFrame
  grind [State.firmware, State.firmware_agentPoke, State.firmware_setPoolDouble, State.firmware_farDone,
    State.firmware_deviceFault]

theorem State.firmware_dropFrame (s : State) (c : Crew) : (s.dropFrame c).2.firmware = s.firmware := by
  unfold State.dropFrame
  grind [State.firmware, State.firmware_mapCrew, State.firmware_giveFrame]

theorem State.firmware_readFrame (s : State) (c : Crew) : (s.readFrame c).2.firmware = s.firmware := by
  unfold State.readFrame
  grind [State.firmware, State.firmware_agentPeek, State.firmware_farDone, State.firmware_deviceFault]

theorem State.firmware_applyLog (s : State) (c : Crew) :
    (s.applyLog c).firmware = s.firmware :=
  State.firmware_foldl
    (fun s e => by grind [State.firmware_settleFlights, State.firmware_mapGang, State.firmware_mapFlight]) _ s

theorem State.firmware_activate (s : State) (c : Crew) : (s.activate c).firmware = s.firmware := by
  unfold State.activate
  grind [State.firmware, State.firmware_restoreEasel, State.firmware_mapCrew, State.firmware_settleFlights]

theorem State.firmware_resume (s : State) (c : Crew) : (s.resume c).firmware = s.firmware := by
  unfold State.resume
  grind [State.firmware, State.firmware_readFrame, State.firmware_dropFrame, State.firmware_activate,
    State.firmware_mapCrew, State.firmware_applyLog]

theorem State.firmware_joinCrew (s : State) (c : Crew) : (s.joinCrew c).2.firmware = s.firmware := by
  unfold State.joinCrew
  grind [State.firmware, State.firmware_devPeek, State.firmware_devPoke, State.firmware_pushRecord,
    State.firmware_deviceFault, State.firmware_farDo]

theorem State.firmware_dropTokens (s : State) (easel : Nat) : (s.dropTokens easel).firmware = s.firmware := by
  unfold State.dropTokens
  grind [State.firmware_dropRequests, State.firmware_returnGrant]

theorem State.firmware_removeCrew (s : State) (c : Crew) : (s.removeCrew c).firmware = s.firmware := by
  unfold State.removeCrew
  grind [State.firmware, State.firmware_farDone, State.firmware_clearStages, State.firmware_dropTokens,
    State.firmware_mapCluster]

theorem State.firmware_toStream (s : State) (c : Crew) : (s.toStream c).firmware = s.firmware := rfl

theorem State.firmware_takeFrames (s : State) (cs : List Crew) : (s.takeFrames cs).2.firmware = s.firmware := by
  induction cs generalizing s with
  | nil => rfl
  | cons c cs ih => grind [State.takeFrames, State.firmware_takeFrame]

theorem State.firmware_writeEasel (s : State) (c : Crew) : (s.writeEasel c).2.firmware = s.firmware := by
  unfold State.writeEasel
  grind [State.firmware_saveEasel, State.firmware_writeFrame]

theorem State.firmware_streamTight (s : State) (cluster : Nat) :
    (s.streamTight cluster).firmware = s.firmware :=
  State.firmware_foldl (fun s c => by grind [State.firmware_toStream]) _ s

theorem State.firmware_takeIn (s : State) (c : Crew) : (s.takeIn c).firmware = s.firmware := by
  unfold State.takeIn
  grind [State.firmware, State.firmware_fit, State.firmware_load]

theorem State.firmware_rotate (s : State) (c : Crew) (away : List Crew) (tight : Bool) :
    (s.rotate c away tight).firmware = s.firmware := by
  unfold State.rotate
  have haway := fun s => State.firmware_foldl State.firmware_toStream away s
  grind [State.firmware_saveEasel, State.firmware_dropTokens, State.firmware_mapCrew, State.firmware_streamTight,
    State.firmware_takeIn]

/-! ### Supervisor words -/

theorem State.firmware_escalate (s : State) (c : Ctx) (va : Nat) : (s.escalate c va).firmware = s.firmware := rfl

theorem State.firmware_mapLanes (s : State) (c : Ctx) (done : List Nat) (l : List (Nat × Nat)) :
    (s.mapLanes c done l).2.2.firmware = s.firmware := by
  induction l generalizing s done with
  | nil => rfl
  | cons x l ih => grind [State.mapLanes, State.firmware_mapStep, State.firmware_postEvent, State.firmware_escalate]

theorem State.firmware_drainWays (s : State) (die n : Nat) : (s.drainWays die n).firmware = s.firmware := by
  unfold State.drainWays
  refine (State.firmware_foldl (fun s l => ?_) _ _).trans (State.firmware_foldl State.firmware_makeWriteBack _ s)
  grind [State.firmware_unload, State.firmware_writeBackLine]

theorem State.firmware_resize (s : State) (die : Nat) (r : Resize) : (s.resize die r).firmware = s.firmware := rfl

theorem State.firmware_dropDevice (s : State) (l : List DeviceAccess) : (s.dropDevice l).firmware = s.firmware := by
  induction l generalizing s with
  | nil => rfl
  | cons a l ih => cases a <;> grind [State.dropDevice, State.firmware, State.firmware_mapCrew, State.firmware_pushMade,
    State.firmware_dropPush, State.firmware_setPoolDouble]

theorem State.firmware_abortSlot (s : State) (c k : Nat) : (s.abortSlot c k).firmware = s.firmware := by
  unfold State.abortSlot
  grind [State.firmware, State.firmware_stopLaunch, State.firmware_endCommand, State.firmware_releaseSlot]

theorem State.firmware_mapUnit (s : State) (u : Nat) (f : Migration → Migration) :
    (s.mapUnit u f).firmware = s.firmware := rfl

theorem State.firmware_migrationEvent (s : State) (m : Migration) (status code : Nat) :
    (s.migrationEvent m status code).firmware = s.firmware := by
  unfold State.migrationEvent
  grind [State.firmware, State.firmware_postEvent]

theorem State.firmware_abortMigration (s : State) (u : Nat) (m : Migration) (code : Nat) :
    (s.abortMigration u m code).firmware = s.firmware := by
  unfold State.abortMigration
  grind [State.firmware, State.firmware_mapUnit, State.firmware_migrationEvent]

theorem State.firmware_copyLine (s : State) (m : Migration) (ecc : Nat) (o : Nat) :
    (s.copyLine m ecc o).2.firmware = s.firmware := by
  unfold State.copyLine
  grind [State.firmware, State.firmware_strike, State.firmware_readLine, State.firmware_writeLine]

theorem State.firmware_copyLines (s : State) (m : Migration) (ecc : Nat) (os : List Nat) :
    (s.copyLines m ecc os).2.firmware = s.firmware := by
  induction os generalizing s ecc with
  | nil => rfl
  | cons o os ih => grind [State.copyLines, State.firmware_copyLine]

theorem State.firmware_streamLines (s : State) (m : Migration) (ecc : Nat) (os : List Nat) :
    (s.streamLines m ecc os).2.firmware = s.firmware := by
  unfold State.streamLines
  grind [State.firmware_asStream, State.firmware_copyLines]

theorem State.firmware_copyFrozen (s : State) (m : Migration) (o : Nat) : (s.copyFrozen m o).firmware = s.firmware := by
  unfold State.copyFrozen
  grind [State.firmware, State.firmware_readLine, State.firmware_writeLine]

theorem State.firmware_lastCopy (s : State) (m : Migration) :
    (s.lastCopy m).firmware = s.firmware :=
  State.firmware_asStream (fun s => State.firmware_foldl (fun s o => s.firmware_copyFrozen m o) _ s) s

theorem State.firmware_leafRead (s : State) (m : Migration) : (s.leafRead m).firmware = s.firmware := by
  unfold State.leafRead
  grind [State.firmware_walked]

theorem State.firmware_retarget (s : State) (m : Migration) : (s.retarget m).firmware = s.firmware := rfl

/-! ### The proof wave -/

theorem State.firmware_eachEntry {f : State → Nat → Nat → State} (h : ∀ s d e, (f s d e).firmware = s.firmware)
    (s : State) (job : Nat) :
    (s.eachEntry job f).firmware = s.firmware :=
  State.firmware_foldl (fun s d => by grind) _ s

theorem State.firmware_setWave (s : State) (job w : Nat) : (s.setWave job w).firmware = s.firmware := by
  unfold State.setWave
  grind [State.firmware_eachEntry, State.firmware_setJob]

theorem State.firmware_setDecided (s : State) (job w : Nat) : (s.setDecided job w).firmware = s.firmware := by
  unfold State.setDecided
  grind [State.firmware_eachEntry, State.firmware_setJob]

theorem State.firmware_takeDecision (s : State) (job w lost : Nat) : (s.takeDecision job w lost).firmware = s.firmware := by
  unfold State.takeDecision
  grind [State.firmware, State.firmware_setDecided]

theorem State.firmware_putWave (s : State) (x : Wave) : (s.putWave x).firmware = s.firmware := rfl

theorem State.firmware_beginPass (s : State) (job w pass : Nat) (first : Option (List Nat)) :
    (s.beginPass job w pass first).firmware = s.firmware := by
  unfold State.beginPass
  grind [State.firmware, State.firmware_setWave, State.firmware_putWave]

theorem State.firmware_endWave (s : State) (x : Wave) : (s.endWave x).firmware = s.firmware := by
  unfold State.endWave
  grind [State.firmware, State.firmware_putWave, State.firmware_takeDecision]

theorem State.firmware_settleWave (s : State) (job n : Nat) : (s.settleWave job n).firmware = s.firmware := by
  induction n generalizing s with
  | zero => rfl
  | succ n ih => grind [State.settleWave, State.firmware, State.firmware_beginPass, State.firmware_endWave]

theorem State.firmware_runPass (s : State) (job w pass : Nat) : (s.runPass job w pass).firmware = s.firmware := by
  unfold State.runPass
  grind [State.firmware_beginPass, State.firmware_settleWave]

theorem State.firmware_startWaves (s : State) (job : Nat) : (s.startWaves job).firmware = s.firmware := by
  unfold State.startWaves
  grind [State.firmware_runPass]

/-! ### Stacks -/

theorem State.firmware_loseStack (s : State) (stack cause : Nat) : (s.loseStack stack cause).firmware = s.firmware := by
  unfold State.loseStack
  grind [State.firmware, State.firmware_settleGathers, State.firmware_postEvent]

theorem State.firmware_reheat (s : State) : (s.reheat).firmware = s.firmware := rfl

theorem State.firmware_scrubLine (s : State) (stack stripe ecc : Nat) :
    (s.scrubLine stack stripe ecc).firmware = s.firmware := by
  unfold State.scrubLine
  grind [State.firmware_strike, State.firmware_fetchLine, State.firmware_fetchStack]

theorem State.firmware_scrubParity (s : State) (stripe : Nat) : (s.scrubParity stripe).firmware = s.firmware := by
  unfold State.scrubParity
  have hread :=
    State.firmware_foldl (f := fun s k => if s.isLost k then s else (s.fetchStack k stripe).2) (fun s k => by grind [
      State.firmware_fetchStack]) (otherStacks (parityStack stripe)) s
  grind [State.firmware_putStack, State.firmware_bump]

/-! ### The management controller -/

theorem State.firmware_writeRing (s : State) (r k : Nat) (v : Double) : (s.writeRing r k v).firmware = s.firmware := rfl

theorem State.firmware_writeHandler (s : State) (q k : Nat) (v : Double) :
    (s.writeHandler q k v).firmware = s.firmware := by
  unfold State.writeHandler
  grind [State.firmware, State.firmware_setHandler]

theorem State.firmware_writeWindow (s : State) (w k : Nat) (v : Double) : (s.writeWindow w k v).firmware = s.firmware := by
  unfold State.writeWindow
  grind [State.firmware]

theorem State.firmware_writeUnit (s : State) (u k : Nat) (v : Double) : (s.writeUnit u k v).firmware = s.firmware := rfl

theorem State.firmware_writePool (s : State) (n k : Nat) (v : Double) : (s.writePool n k v).firmware = s.firmware := by
  unfold State.writePool
  grind [State.firmware, State.firmware_setPoolDouble]

theorem State.firmware_registerWrite (s : State) (off : Nat) (v : Double) :
    (s.registerWrite off v).firmware = s.firmware := by
  unfold State.registerWrite
  grind (splits := 60) [State.firmware, State.firmware_reheat, State.firmware_writeRing, State.firmware_writeHandler,
    State.firmware_writeWindow, State.firmware_writeUnit, State.firmware_writePool, State.firmware_mapQueue,
    State.firmware_setJob]

theorem State.firmware_freeSems (s : State) (port : Nat) : (s.freeSems port).firmware = s.firmware := rfl

theorem State.firmware_answerHost (s : State) (port status : Nat) (data : List Double) :
    (s.answerHost port status data).firmware = s.firmware := rfl

theorem State.firmware_refuseHost (s : State) (port : Nat) : (s.refuseHost port).firmware = s.firmware := rfl

theorem State.firmware_hostWindowAtomic (s : State) (port kind offset size : Nat) (payload : List Double) :
    (s.hostWindowAtomic port kind offset size payload).firmware = s.firmware := by
  unfold State.hostWindowAtomic
  grind [State.firmware_windowWrite, State.firmware_noteWindow, State.firmware_answerHost]

/-! ### Fetch, a turn and a tick -/

theorem State.firmware_fetchMem (s : State) (u : FarUser) (job die asid va : Nat) :
    (s.fetchMem u job die asid va).2.firmware = s.firmware := by
  unfold State.fetchMem
  grind [State.firmware, State.firmware_hitCode, State.firmware_translate, State.firmware_fillFrom, State.firmware_farDo]

theorem State.firmware_fetchFor (s : State) (c : Ctx) : (s.fetchFor c).2.firmware = s.firmware := by
  unfold State.fetchFor
  grind [State.firmware, State.firmware_fetchMem, State.firmware_farDone, State.firmware_mapIssuer, State.firmware_buffer]

theorem State.firmware_takeWaitingTrap (s : State) (c : Ctx) (k : Cause) :
    (s.takeWaitingTrap c k).firmware = s.firmware := by
  unfold State.takeWaitingTrap
  grind [State.firmware, State.firmware_mapIssuer, State.firmware_takeTrap]

theorem State.firmware_turn (s : State) : (s.turn).2.firmware = s.firmware := by
  unfold State.turn
  grind [State.firmware, State.firmware_takeWaitingTrap, State.firmware_fetchFor, State.firmware_takeFetchTrap,
    State.firmware_takeTrap]

theorem State.firmware_endYields (s : State) (cluster core group : Nat) (me : ThreadRef) :
    (s.endYields cluster core group me).firmware = s.firmware := rfl

theorem State.firmware_countThrottled (s : State) : (s.countThrottled).firmware = s.firmware := by
  unfold State.countThrottled
  split
  · exact State.firmware_foldl (fun s k => s.firmware_bump k throttleCycles) _ s
  · rfl

theorem State.firmware_tick (s : State) : (s.tick).firmware = s.firmware := by
  unfold State.tick
  grind [State.firmware, State.firmware_countThrottled]

end Sys2Proof.Machine
end

section
/-! The steps of a BTE command, whichever way they end, leave the device and its firmware as they were. -/

namespace Sys2Proof.Machine
open Sys2Proof

section
variable {α β : Type} {w : DeviceState × Nat × Nat} {s t : State}

/-- A step of a command that starts with the device as `w` leaves it so, however it ends. -/
structure BteSteady (w : DeviceState × Nat × Nat) (x : BteM α) : Prop where
  keeps : ∀ s, s.firmware = w → (x s).2.firmware = w

theorem BteSteady.pure (a : α) : BteSteady w (Pure.pure a : BteM α) := ⟨fun _ h => h⟩

theorem BteSteady.throw (e : Halt) : BteSteady w (MonadExcept.throw e : BteM α) := ⟨fun _ h => h⟩

theorem BteSteady.bind {x : BteM α} {f : α → BteM β} (hx : BteSteady w x) (hf : ∀ a, BteSteady w (f a)) :
    BteSteady w (x >>= f) := by
  refine ⟨fun s h => ?_⟩
  have hs := hx.keeps s h
  change (ExceptT.bindCont f (x s).1 (x s).2).2.firmware = w
  cases (x s).1 with
  | ok a => exact (hf a).keeps _ hs
  | error e => exact hs

/-- What a command reads of the state is a state of the same device. -/
theorem BteSteady.get {f : State → BteM β} (hf : ∀ s, s.firmware = w → BteSteady w (f s)) :
    BteSteady w (MonadState.get >>= f) :=
  ⟨fun s h => (hf s h).keeps s h⟩

theorem BteSteady.set (h : t.firmware = w) : BteSteady w (MonadStateOf.set t : BteM PUnit) := ⟨fun _ _ => h⟩

/-- An update of the state that leaves the device as it is. -/
theorem bteDo_steady {f : State → State} (hf : ∀ s, (f s).firmware = s.firmware) : BteSteady w (bteDo f) :=
  ⟨fun s h => (hf s).trans h⟩

theorem BteSteady.ite {p : Prop} [Decidable p] {x y : BteM α} (hx : BteSteady w x) (hy : BteSteady w y) :
    BteSteady w (if p then x else y) := by
  split
  · exact hx
  · exact hy

/-- A conditional step before a rest that comes either way. -/
theorem BteSteady.whenThen {p : Prop} [Decidable p] {x y : BteM α} (hy : BteSteady w y) (hx : BteSteady w y → BteSteady w x) :
    BteSteady w (if p then x else y) := .ite (hx hy) hy

/-- A value found in either of two ways, before a rest that uses it. -/
theorem BteSteady.iteBind {p : Prop} [Decidable p] {x y : BteM α} {k : α → BteM β} (hx : BteSteady w x) (hy : BteSteady w y)
    (hk : ∀ a, BteSteady w (k a)) : BteSteady w (if p then x >>= k else y >>= k) := .ite (.bind hx hk) (.bind hy hk)

theorem BteSteady.mapM {f : α → BteM β} (hf : ∀ a, BteSteady w (f a)) (l : List α) : BteSteady w (l.mapM f) := by
  induction l with
  | nil => exact .pure _
  | cons a l ih =>
    rw [List.mapM_cons]
    exact .bind (hf a) fun _ => .bind ih fun _ => .pure _

theorem BteSteady.forIn {f : α → β → BteM (ForInStep β)} (hf : ∀ a b, BteSteady w (f a b)) (l : List α) (b : β) :
    BteSteady w (ForIn.forIn l b f) := by
  induction l generalizing b with
  | nil => exact .pure _
  | cons a l ih =>
    rw [List.forIn_cons]
    refine .bind (hf a b) fun r => ?_
    cases r with
    | done b => exact .pure b
    | yield b => exact ih b

theorem bteNeed_steady (b : Bool) (h : Halt) : BteSteady w (bteNeed b h) := .ite (.pure _) (.throw h)

theorem bteSlot_steady (r : BteRef) : BteSteady w (bteSlot r) := .get fun _ _ => .pure _

theorem bteMap_steady (r : BteRef) (f : Slot → Slot) : BteSteady w (bteMap r f) := bteDo_steady fun _ => rfl
end

section
variable {w : DeviceState × Nat × Nat} (r : BteRef)

theorem bteLookFar_steady (kind target off : Nat) (data : List Double) : BteSteady w (bteLookFar r kind target off data) :=
  .get fun s h => .bind (.set ((s.firmware_farDo ..).trans h)) fun _ => .pure _

theorem bteReadSeg_steady (va n : Nat) : BteSteady w (bteReadSeg r va n) := by
  refine .get fun s h => .bind (.set ((s.firmware_devPeek ..).trans h)) fun _ => ?_
  split
  · exact .pure _
  · exact .throw _
  · exact .throw _
  · split
    · exact .pure _
    · exact .pure _
    · split
      · refine .bind (bteLookFar_steady ..) fun got => ?_
        split
        · exact .pure _
        · exact .throw _
      · exact .throw _

theorem bteReadLines_steady (va n fuel : Nat) : BteSteady w (bteReadLines r va n fuel) := by
  induction fuel generalizing va n with
  | zero => exact .pure _
  | succ fuel ih =>
    refine .ite (.pure _) ?_
    exact .bind (bteReadSeg_steady ..) fun _ => .bind (ih ..) fun _ => .pure _

theorem bteRead_steady (addr n : Nat) : BteSteady w (bteRead r addr n) := by
  refine .get fun s _ => ?_
  split
  · exact .throw _
  · exact bteReadLines_steady ..
  · exact .pure _

theorem bteBytes_steady (addr n : Nat) : BteSteady w (bteBytes r addr n) :=
  .bind (bteRead_steady ..) fun _ => .get fun _ _ => .pure _

theorem bteDouble_steady (addr : Nat) : BteSteady w (bteDouble r addr) := .bind (bteBytes_steady ..) fun _ => .pure _

theorem bteWriteSeg_steady (va : Nat) (bs : List Byte) : BteSteady w (bteWriteSeg r va bs) := by
  refine .get fun s h => .bind (.set ((s.firmware_devPoke ..).trans h)) fun _ => ?_
  split
  · exact .pure _
  · exact .throw _
  · exact .throw _
  · exact .throw _
  · refine .ite (.bind (bteLookFar_steady ..) fun _ => .pure _) (bteDo_steady fun s => ?_)
    exact (State.firmware_mapSlot ..).trans (State.firmware_bteMessage ..)

theorem bteWriteLines_steady (va : Nat) (bs : List Byte) (fuel : Nat) : BteSteady w (bteWriteLines r va bs fuel) := by
  induction fuel generalizing va bs with
  | zero => exact .pure _
  | succ fuel ih =>
    refine .ite (.pure _) ?_
    exact .bind (bteWriteSeg_steady ..) fun _ => ih ..

theorem bteWrite_steady (addr : Nat) (bs : List Byte) : BteSteady w (bteWrite r addr bs) := by
  refine .get fun s _ => ?_
  split
  · exact .throw _
  · exact bteWriteLines_steady ..
  · exact bteDo_steady fun s => State.firmware_writeLocal ..

theorem bteWriteOnceLines_steady (n va : Nat) (bs : List Byte) (fuel : Nat) :
    BteSteady w (bteWriteOnceLines r n va bs fuel) := by
  induction fuel generalizing va bs with
  | zero => exact .pure _
  | succ fuel ih =>
    refine .ite (.pure _) (.bind (bteSlot_steady r) fun x => .ite ?_ (ih ..))
    exact .bind (bteWriteSeg_steady ..) fun _ => .bind (bteMap_steady ..) fun _ => ih ..

theorem bteWriteOnce_steady (n addr : Nat) (bs : List Byte) : BteSteady w (bteWriteOnce r n addr bs) := by
  refine .get fun s _ => ?_
  split
  · exact .throw _
  · exact bteWriteOnceLines_steady ..
  · refine .bind (bteSlot_steady r) fun x => .ite ?_ (.pure _)
    exact .bind (bteDo_steady fun s => State.firmware_writeLocal ..) fun _ => bteMap_steady ..

theorem bteOwn_steady (addr n : Nat) : BteSteady w (bteOwn r addr n) := bteDo_steady fun _ => rfl

theorem bteDisown_steady (addr n : Nat) : BteSteady w (bteDisown r addr n) := bteDo_steady fun _ => rfl

theorem bteStore_steady (addr : Nat) (bs : List Byte) : BteSteady w (bteStore r addr bs) :=
  .bind (bteOwn_steady ..) fun _ => .bind (bteWrite_steady ..) fun _ => bteDisown_steady ..

theorem bteFinish_steady : BteSteady w (bteFinish r) := .get fun _ _ => .ite (.throw _) (.pure _)
end

section
variable {w : DeviceState × Nat × Nat} (r : BteRef)

/-! ### Queues (09 R223) -/

theorem bteLook_steady (addr : Nat) : BteSteady w (bteLook r addr) := by
  refine .get fun s _ => ?_
  split
  · exact .pure _
  · refine .bind (bteBytes_steady ..) fun _ => .get fun _ _ => .ite (.pure _) ?_
    exact .bind (bteBytes_steady ..) fun _ => .pure _

theorem bteConsume_steady (q addr : Nat) (d : QueueDesc) (p : List Double) : BteSteady w (bteConsume r q addr d p) :=
  .bind (bteWrite_steady ..) fun _ => bteDo_steady fun _ => rfl

/-! ### Copies (09 R224 to R226) -/

theorem bteBits_steady (bit n : Nat) : BteSteady w (bteBits r bit n) := .bind (bteRead_steady ..) fun _ => .pure _

theorem bteElem_steady (t : Tile) (xf : Nat) (table : List Byte) (i j : Nat) : BteSteady w (bteElem r t xf table i j) := by
  refine .ite (.pure _) (.ite (.bind (bteMap_steady ..) fun _ => .pure _) (.bind (bteBits_steady ..) fun c => ?_))
  split
  · exact .pure _
  · exact .bind (bteMap_steady ..) fun _ => .pure _

theorem bteWriteBits_steady (bit n c : Nat) : BteSteady w (bteWriteBits r bit n c) :=
  .ite (bteWriteOnce_steady ..) (.bind (bteBytes_steady ..) fun _ => bteWriteOnce_steady ..)

theorem bteCount_steady (bytes : Nat) (m : Made) : BteSteady w (bteCount r bytes m) := bteMap_steady ..

theorem bteEmit_steady (t : Tile) (p : Int) (q : Nat) (m : Made) : BteSteady w (bteEmit r t p q m) :=
  .ite (.bind (bteMap_steady ..) fun _ => bteCount_steady ..) (.bind (bteWriteBits_steady ..) fun _ => bteCount_steady ..)

theorem bteElement_steady (t : Tile) (xf : Nat) (table : List Byte) (n : Nat) : BteSteady w (bteElement r t xf table n) := by
  refine .ite (bteEmit_steady ..) (.ite (.pure _) (.bind (bteElem_steady ..) fun e => ?_))
  exact .ite (bteEmit_steady ..) (bteEmit_steady ..)

theorem bteRecord_steady (ra oa : Nat) (rec : List Byte) (ovf : Option (List Byte)) :
    BteSteady w (bteRecord r ra oa rec ovf) := by
  cases ovf with
  | some o =>
    exact .bind (bteWriteOnce_steady ..) fun _ => .bind (bteWriteOnce_steady ..) fun _ => bteCount_steady ..
  | none => exact .bind (bteWriteOnce_steady ..) fun _ => bteCount_steady ..

theorem bteEncode_steady (t : Tile) (n : Nat) : BteSteady w (bteEncode r t n) := by
  refine .bind (.mapM (fun k => .bind (bteElem_steady ..) fun e => ?_) _) fun cs => bteRecord_steady ..
  cases e with
  | code | missing | fill => exact .pure _

theorem bteDecodeAt_steady (t : Tile) (ra : Nat) : BteSteady w (bteDecodeAt r t ra) := by
  refine .bind (bteRead_steady ..) fun bs => ?_
  split
  · exact .bind (bteMap_steady ..) fun _ => .pure _
  · refine .ite (.bind (bteMap_steady ..) fun _ => .pure _) (.ite (.pure _) (.bind (bteRead_steady ..) fun bs => ?_))
    split
    · exact .bind (bteMap_steady ..) fun _ => .pure _
    · exact .pure _

theorem bteDecode_steady (t : Tile) (n : Nat) : BteSteady w (bteDecode r t n) :=
  .bind (bteDecodeAt_steady ..) fun _ =>
    .ite (bteMap_steady ..) (.bind (bteWriteOnce_steady ..) fun _ => bteCount_steady ..)

theorem bteTranslate_steady (va : Nat) : BteSteady w (bteTranslate r va) := by
  refine .get fun s h => .ite (.throw _) ?_
  have hfirst := (s.firmware_translate r.cmd.asid va .read).trans h
  refine .bind (.set hfirst) fun _ => ?_
  split
  · exact .pure _
  · refine .ite ?_ (.throw _)
    have hstep := (State.firmware_mapStep _ r.cmd.asid va).trans hfirst
    refine .bind (.set hstep) fun _ => .ite (.throw _) (.ite ?_ (.throw _))
    refine .bind (.set ((State.firmware_translate _ r.cmd.asid va .read).trans hstep)) fun _ => ?_
    split
    · exact .pure _
    · exact .throw _

theorem bteFoot_steady (t : Tile) : BteSteady w (bteFoot r t) := by
  refine .bind (bteSlot_steady r) fun sl => ?_
  split
  · exact .pure _
  · refine .bind (bteTranslate_steady ..) fun ph => ?_
    split
    · exact .ite (.throw _) (.bind (bteMap_steady ..) fun _ => .pure _)
    · exact .throw _

theorem bteCompact_steady (t : Tile) (n : Nat) : BteSteady w (bteCompact r t n) := by
  refine .bind (bteFoot_steady ..) fun foot => .bind (bteNeed_steady ..) fun _ => .bind (bteTranslate_steady ..) fun ph => ?_
  split
  · refine .bind (bteNeed_steady ..) fun _ => .get fun s h => .bind (.set ((s.firmware_currentRecord ..).trans h)) fun _ =>
      ?_
    split
    · exact bteRecord_steady ..
    · exact .bind (bteMap_steady ..) fun _ => bteRecord_steady ..
  · exact .throw _

theorem btePieces_steady (total : Nat) {f : Nat → BteM Unit} (hf : ∀ k, BteSteady w (f k)) (fuel : Nat) :
    BteSteady w (btePieces r total f fuel) := by
  induction fuel with
  | zero => exact .pure _
  | succ fuel ih =>
    refine .bind (bteSlot_steady r) fun sl => .ite ?_ (.pure _)
    exact .bind (hf _) fun _ => .bind (bteMap_steady ..) fun _ => ih

theorem bteTable_steady (t : Tile) (xf : Nat) : BteSteady w (bteTable r t xf) := by
  refine .bind (bteSlot_steady r) fun sl => .ite (.pure _)
    (.bind (bteBytes_steady ..) fun bs => .bind (bteMap_steady ..) fun _ => ?_)
  exact .ite (.bind (bteDo_steady fun _ => rfl) fun _ => .pure _) (.pure _)

theorem bteEnd_steady (t : Tile) (total : Nat) : BteSteady w (bteEnd r t total) := by
  refine .bind (bteSlot_steady r) fun sl => .ite (.ite ?_ (.ite (.throw _) (.pure _))) (bteFinish_steady r)
  exact .get fun _ _ => bteMap_steady ..

theorem bteCopy_steady : BteSteady w (bteCopy r) := by
  refine .bind (bteTable_steady ..) fun table => ?_
  dsimp only
  split
  · exact .bind (btePieces_steady r _ (bteEncode_steady r _) _) fun _ => bteEnd_steady ..
  · split
    · exact .bind (btePieces_steady r _ (bteDecode_steady r _) _) fun _ => bteEnd_steady ..
    · split
      · exact .bind (btePieces_steady r _ (bteCompact_steady r _) _) fun _ => bteEnd_steady ..
      · exact .bind (btePieces_steady r _ (bteElement_steady r _ _ _) _) fun _ => bteEnd_steady ..

/-! ### Reductions (09 R230, R231) -/

theorem bteReduction_steady (addr : Nat) : BteSteady w (bteReduction r addr) :=
  .bind (bteBytes_steady ..) fun _ => .bind (bteBytes_steady ..) fun _ => .pure _

theorem bteContribute_steady (b : Reduction) (phase : Nat) (data : Nat → Option (List Int)) :
    BteSteady w (bteContribute r b phase data) := by
  refine .bind (.mapM (fun _ => .bind (bteTranslate_steady ..) fun _ => .pure _) _) fun places => ?_
  refine .bind (.forIn (fun x _ => ?_) _ _) fun _ => .pure _
  obtain ⟨buf, ph, d⟩ := x
  dsimp only
  split
  · exact .pure _
  · exact .bind (bteDo_steady fun s => State.firmware_bteMessage ..) fun _ => .pure _
  · exact .bind (bteDo_steady fun _ => rfl) fun _ => .pure _

theorem bteSpoil_steady (t : Tile) (b : Reduction) : BteSteady w (bteSpoil r t b) :=
  .get fun _ _ => .bind (bteDo_steady fun _ => rfl) fun _ => bteStore_steady ..

theorem bteCollect_steady (b : Reduction) (phase : Nat) : BteSteady w (bteCollect r b phase) := bteDo_steady fun _ => rfl

theorem bteScales_steady (t : Tile) (b : Reduction) :
    BteSteady w (bteScales r t b) :=
  .bind (bteBytes_steady ..) fun _ => .pure _

theorem bteAwait_steady (next n : Nat) : BteSteady w (bteAwait r next n) :=
  .bind (bteMap_steady ..) fun _ => .ite (.throw _) (.pure _)

theorem bteExps_steady (t : Tile) (b : Reduction) : BteSteady w (bteExps r t b) := .bind (bteBytes_steady ..) fun _ => .pure _

theorem bteScaleMax_steady : BteSteady w (bteScaleMax r) := by
  refine .bind (bteReduction_steady ..) fun b => .bind (bteNeed_steady ..) fun _ => .bind (bteSlot_steady r) fun _ =>
    .whenThen ?_ fun hrest => .bind (bteScales_steady ..) fun _ => .bind (bteOwn_steady ..) fun _ =>
      .bind (bteSpoil_steady ..) fun _ => .bind (bteContribute_steady ..) fun _ => .bind (bteAwait_steady ..) fun _ => hrest
  refine .bind (bteSlot_steady r) fun _ => .bind (bteSlot_steady r) fun _ => .bind (bteNeed_steady ..) fun _ =>
    .bind (bteSlot_steady r) fun _ => .whenThen (bteFinish_steady r) fun hrest => .get fun _ _ => ?_
  exact .bind (bteStore_steady ..) fun _ => .bind (bteCollect_steady ..) fun _ => .bind (bteCount_steady ..) fun _ =>
    .bind (bteMap_steady ..) fun _ => hrest

theorem bteMantissas_steady (t : Tile) (b : Reduction) (scales : List Nat) (es : List Int) :
    BteSteady w (bteMantissas r t b scales es) := by
  refine .bind (.mapM (fun n => .bind (bteElem_steady ..) fun c => ?_) _) fun _ => .pure _
  cases c with
  | code | missing | fill => exact .bind (.pure _) fun _ => .pure _

theorem bteReduced_steady (t : Tile) (b : Reduction) (n : Nat) (vs : List Val) : BteSteady w (bteReduced r t b n vs) :=
  .bind (bteWriteOnce_steady ..) fun _ => .whenThen (bteCount_steady ..) fun hrest => .bind (bteWriteOnce_steady ..) fun _ =>
    hrest

theorem bteIntegerSum_steady : BteSteady w (bteIntegerSum r) := by
  refine .bind (bteReduction_steady ..) fun b => .bind (bteNeed_steady ..) fun _ => .bind (bteExps_steady ..) fun es =>
    .bind (bteSlot_steady r) fun _ => .whenThen ?_ fun hrest => .bind (bteScales_steady ..) fun _ =>
      .bind (bteMantissas_steady ..) fun _ => .whenThen ?_ fun hspoil => .bind (bteOwn_steady ..) fun _ => hspoil
  · refine .bind (bteSlot_steady r) fun _ => .whenThen ?_ fun hrest => .whenThen ?_ fun hawait => ?_
    · refine .bind (bteSlot_steady r) fun _ => .bind (bteSlot_steady r) fun _ => .bind (bteNeed_steady ..) fun _ =>
        .get fun _ _ => .bind (btePieces_steady r _ (fun _ => bteReduced_steady ..) _) fun _ => .bind (bteSlot_steady r) fun
          _ => ?_
      exact .whenThen (bteFinish_steady r) fun hfinish => .bind (bteCollect_steady ..) fun _ => .bind (bteMap_steady ..) fun
        _ => hfinish
    · exact .bind (bteAwait_steady ..) fun _ => hrest
    · exact .bind (bteSlot_steady r) fun _ => .bind (bteNeed_steady ..) fun _ => .get fun _ _ =>
        .bind (bteContribute_steady ..) fun _ => .bind (bteCollect_steady ..) fun _ => hawait
  · exact .bind (bteSpoil_steady ..) fun _ => .bind (bteContribute_steady ..) fun _ => .bind (bteAwait_steady ..) fun _ =>
      hrest

theorem bteArrived_steady (rank : Nat) : BteSteady w (bteArrived r rank) :=
  .bind (bteReduction_steady ..) fun _ => .bind (bteSlot_steady r) fun _ => .get fun _ _ => .ite (bteMap_steady ..) (.pure _)

/-! ### Waits, signals and appends (09 R227, R232) -/

theorem bteRemote_steady (addr n : Nat) : BteSteady w (bteRemote r addr n) := by
  refine .get fun s _ => ?_
  split
  · exact .throw _
  · refine .get fun s h => .bind (.set ((s.firmware_devPeek ..).trans h)) fun _ => ?_
    split
    · exact .pure _
    · exact .pure _
    · exact .throw _
    · exact .throw _
  · exact .pure _

theorem bteWaitval_steady : BteSteady w (bteWaitval r) :=
  .bind (bteDo_steady fun _ => rfl) fun _ => .bind (bteDouble_steady ..) fun _ => .ite (.throw _) (.throw _)

theorem bteSignal_steady : BteSteady w (bteSignal r) := by
  refine .ite (.throw _) (.bind (bteSlot_steady r) fun _ => .whenThen (bteFinish_steady r) fun hfinish => ?_)
  have hmark : BteSteady w (do bteMap r fun k => { k with next := 1, bytes := 8 }; bteFinish r) :=
    .bind (bteMap_steady ..) fun _ => hfinish
  refine .ite (.bind (bteRemote_steady ..) fun far => ?_) (.bind (bteStore_steady ..) fun _ => hmark)
  split
  · exact .bind (bteDo_steady fun s => State.firmware_bteMessage ..) fun _ => hmark
  · exact .bind (bteDouble_steady ..) fun _ => .bind (bteStore_steady ..) fun _ => hmark

theorem bteQueue_steady : BteSteady w (bteQueue r) :=
  .bind (bteNeed_steady ..) fun _ => .bind (bteBytes_steady ..) fun _ => .get fun _ _ => .bind (bteNeed_steady ..) fun _ =>
    .pure _

theorem bteAppend_steady : BteSteady w (bteAppend r) := by
  refine .bind (bteQueue_steady r) fun d => .bind (bteSlot_steady r) fun _ => .whenThen ?_ fun hrest =>
    .bind (bteRemote_steady ..) fun far => ?_
  · refine .bind (bteQueue_steady r) fun d => .bind (bteSlot_steady r) fun _ => .bind (bteSlot_steady r) fun _ =>
      .whenThen ?_ fun hrest => ?_
    · refine .bind (bteSlot_steady r) fun _ => .ite (.get fun _ _ => .ite ?_ (.pure _)) (bteFinish_steady r)
      refine .bind (bteWrite_steady ..) fun _ => .bind (bteDisown_steady ..) fun _ => .bind (bteRemote_steady ..) fun _ =>
        .whenThen ?_ fun hrest => .bind (bteDo_steady fun _ => rfl) fun _ => hrest
      exact .bind (bteMap_steady ..) fun _ => bteFinish_steady r
    · exact .bind (bteNeed_steady ..) fun _ => .bind (bteOwn_steady ..) fun _ => .bind (bteWrite_steady ..) fun _ =>
        .bind (bteMap_steady ..) fun _ => hrest
  · split
    · exact .bind (bteDo_steady fun s => State.firmware_bteMessage ..) fun _ => .throw _
    · exact .bind (bteStore_steady ..) fun _ => .bind (bteMap_steady ..) fun _ => hrest

/-! ### Launches and graphs (10 R247 to R250; 09 R229) -/

theorem bteLaunchSlot_steady : BteSteady w (bteLaunchSlot r) := by
  refine .bind (bteSlot_steady r) fun sl => ?_
  split
  · exact .pure _
  · refine .get fun s _ => ?_
    split
    · exact .throw _
    · exact .bind (bteDo_steady fun _ => rfl) fun _ => .bind (bteMap_steady ..) fun _ => .pure _

theorem bteGlobal_steady (addr n : Nat) : BteSteady w (bteGlobal r addr n) :=
  .bind (bteNeed_steady ..) fun _ => bteBytes_steady ..

theorem bteTask_steady (l n : Nat) : BteSteady w (bteTask r l n) :=
  .bind (bteGlobal_steady ..) fun _ => bteDo_steady fun _ => State.firmware_pushRecord ..

theorem bteTasks_steady (l count fuel : Nat) : BteSteady w (bteTasks r l count fuel) := by
  induction fuel with
  | zero => exact .pure _
  | succ fuel ih =>
    refine .bind (bteSlot_steady r) fun _ => .get fun _ _ => .ite ?_ (.pure _)
    exact .bind (bteTask_steady ..) fun _ => .bind (bteMap_steady ..) fun _ => ih

theorem bteLaunch_steady : BteSteady w (bteLaunch r) := by
  refine .bind (bteLaunchSlot_steady r) fun l => .bind (bteTasks_steady ..) fun _ => .get fun _ _ => .ite ?_ (.pure _)
  exact .bind (bteMap_steady ..) fun _ => bteDo_steady fun _ => State.firmware_stopPushes ..

theorem bteGraphAt_steady : BteSteady w (bteGraphAt r) := .bind (bteBytes_steady ..) fun _ => .pure _

theorem bteGraphAreas_steady : BteSteady w (bteGraphAreas r) :=
  .bind (bteGraphAt_steady r) fun _ => .bind (.mapM (fun _ => .bind (bteBytes_steady ..) fun _ => .pure _) _) fun _ => .pure _

theorem btePatches_steady : BteSteady w (btePatches r) := .ite (.pure _) (.bind (bteBytes_steady ..) fun _ => .pure _)

theorem bteNode_steady (g : Graph) (l n node : Nat) (bs : List Byte) : BteSteady w (bteNode r g l n node bs) :=
  bteDo_steady fun _ => State.firmware_pushRecord ..

theorem bteRoots_steady (g : Graph) (l n : Nat) : BteSteady w (bteRoots r g l n) := by
  refine .bind (.mapM (fun _ => bteGlobal_steady ..) _) fun nodes => .bind (bteStore_steady ..) fun _ =>
    .bind (bteDo_steady fun _ => rfl) fun _ => .bind (.forIn (fun x _ => ?_) _ _) fun _ => .pure _
  exact .ite (.bind (bteNode_steady ..) fun _ => .pure _) (.pure _)

theorem bteReplay_steady (f : Replay → Replay) : BteSteady w (bteReplay r f) := bteDo_steady fun _ => rfl

theorem bteSuccessors_steady (g : Graph) (l n node succs addr j fuel : Nat) :
    BteSteady w (bteSuccessors r g l n node succs addr j fuel) := by
  induction fuel generalizing j with
  | zero => exact .pure _
  | succ fuel ih =>
    refine .ite (.bind (bteBytes_steady ..) fun _ => .bind (bteBytes_steady ..) fun _ =>
      .iteBind (bteGlobal_steady ..) (.pure _) fun bs => .bind (bteStore_steady ..) fun _ => .get fun _ _ => .whenThen ?_
        fun hrest =>
        .bind (bteNode_steady ..) fun _ => hrest) (.pure _)
    exact .bind (bteReplay_steady ..) fun _ => ih _

theorem bteNodesDone_steady (g : Graph) (l n fuel : Nat) : BteSteady w (bteNodesDone r g l n fuel) := by
  induction fuel with
  | zero => exact .pure _
  | succ fuel ih =>
    refine .get fun s _ => ?_
    split
    · exact .pure _
    · exact .bind (bteBytes_steady ..) fun _ => .bind (bteSuccessors_steady ..) fun _ => .bind (bteReplay_steady ..) fun _ =>
        ih

theorem bteNumber_steady (g : Graph) : BteSteady w (bteNumber r g) := by
  refine .bind (bteNeed_steady ..) fun _ => .bind (bteSlot_steady r) fun _ => .ite (.bind (btePatches_steady r) fun _ =>
    .bind (bteNeed_steady ..) fun _ => .get fun _ _ => .bind (bteNeed_steady ..) fun _ => .bind (bteRemote_steady ..) fun far
      => ?_) (.pure _)
  split
  · exact .bind (bteDo_steady fun _ => State.firmware_bteMessage ..) fun _ => .throw _
  · exact .bind (bteStore_steady ..) fun _ => bteMap_steady ..

theorem bteGraph_steady : BteSteady w (bteGraph r) := by
  refine .bind (bteGraphAt_steady r) fun g => .bind (bteNumber_steady ..) fun _ => .bind (bteSlot_steady r) fun _ =>
    .bind (bteLaunchSlot_steady r) fun l => .bind (bteSlot_steady r) fun _ => .whenThen ?_ fun hrest =>
      .bind (bteNeed_steady ..) fun _ => .whenThen ?_ fun hpatch => .bind (bteOwn_steady ..) fun _ =>
        .bind (bteBytes_steady ..) fun _ => .bind (bteWrite_steady ..) fun _ => hpatch
  · refine .bind (bteSlot_steady r) fun _ => .whenThen ?_ fun hrest => .bind (bteNeed_steady ..) fun _ => .get fun _ _ =>
      .bind (bteNeed_steady ..) fun _ => .bind (bteRoots_steady ..) fun _ => .bind (bteMap_steady ..) fun _ => hrest
    refine .bind (bteSlot_steady r) fun _ => .whenThen ?_ fun hrest => .bind (bteNodesDone_steady ..) fun _ => .get fun _ _
      => .ite
      (.bind (bteStore_steady ..) fun _ => .bind (bteMap_steady ..) fun _ => hrest)
      (.get fun _ _ => .get fun _ _ => .whenThen hrest fun _ => .bind (bteMap_steady ..) fun _ => hrest)
    refine .bind (bteMap_steady ..) fun _ => .bind (bteSlot_steady r) fun _ => .get fun _ _ => .ite ?_ (.pure _)
    exact bteDo_steady fun _ => State.firmware_stopPushes ..
  · refine .bind (btePatches_steady r) fun _ => .bind (.forIn (fun x _ => ?_) _ _) fun _ =>
      .bind (bteDisown_steady ..) fun _ => .bind (bteMap_steady ..) fun _ => hrest
    exact .bind (bteWrite_steady ..) fun _ => .pure _

end

end Sys2Proof.Machine
end

section
/-! Task submission, the commands of the BTE, requests of peers and hosts, and every instruction word leave the device and its
firmware as they were. -/

namespace Sys2Proof.Machine
open Sys2Proof

section
variable {α β : Type} {w : DeviceState × Nat × Nat} {s t : State} (b : TaskBy)

/-- A submission's step that starts with the device as `w` leaves it so, where it goes on. -/
structure TaskSteady (w : DeviceState × Nat × Nat) (x : TaskM α) : Prop where
  keeps : ∀ s a t, s.firmware = w → x s = .ok (a, t) → t.firmware = w

theorem TaskSteady.pure (a : α) : TaskSteady w (Pure.pure a : TaskM α) := by
  refine ⟨fun s _ _ h hok => ?_⟩
  cases hok
  exact h

theorem TaskSteady.throw (e : TaskHalt) : TaskSteady w (MonadExcept.throw e : TaskM α) := ⟨fun _ _ _ _ h => nomatch h⟩

theorem TaskSteady.bind {x : TaskM α} {f : α → TaskM β} (hx : TaskSteady w x) (hf : ∀ a, TaskSteady w (f a)) :
    TaskSteady w (x >>= f) := by
  refine ⟨fun s c u h hok => ?_⟩
  change (x s >>= fun p => f p.1 p.2 : Except TaskHalt (β × State)) = _ at hok
  cases ha : x s with
  | error e =>
    rw [ha] at hok
    cases hok
  | ok p =>
    rw [ha] at hok
    exact (hf p.1).keeps p.2 c u (hx.keeps s p.1 p.2 h ha) hok

theorem TaskSteady.get {f : State → TaskM β} (hf : ∀ s, s.firmware = w → TaskSteady w (f s)) :
    TaskSteady w (MonadState.get >>= f) :=
  ⟨fun s a t h => (hf s h).keeps s a t h⟩

theorem TaskSteady.set (h : t.firmware = w) : TaskSteady w (MonadStateOf.set t : TaskM PUnit) := by
  refine ⟨fun _ _ _ _ hok => ?_⟩
  cases hok
  exact h

theorem TaskSteady.update {f : State → State} (hf : ∀ s, (f s).firmware = s.firmware) :
    TaskSteady w (modify f : TaskM PUnit) := by
  refine ⟨fun s _ _ h hok => ?_⟩
  cases hok
  exact (hf s).trans h

theorem TaskSteady.ite {p : Prop} [Decidable p] {x y : TaskM α} (hx : TaskSteady w x) (hy : TaskSteady w y) :
    TaskSteady w (if p then x else y) := by
  split
  · exact hx
  · exact hy

theorem TaskSteady.mapM {f : α → TaskM β} (hf : ∀ a, TaskSteady w (f a)) (l : List α) : TaskSteady w (l.mapM f) := by
  induction l with
  | nil => exact .pure _
  | cons a l ih =>
    rw [List.mapM_cons]
    exact .bind (hf a) fun _ => .bind ih fun _ => .pure _

theorem TaskSteady.forIn {f : α → β → TaskM (ForInStep β)} (hf : ∀ a b, TaskSteady w (f a b)) (l : List α) (b : β) :
    TaskSteady w (ForIn.forIn l b f) := by
  induction l generalizing b with
  | nil => exact .pure _
  | cons a l ih =>
    rw [List.forIn_cons]
    refine .bind (hf a b) fun r => ?_
    cases r with
    | done b => exact .pure b
    | yield b => exact ih b

theorem taskLines_steady (va n fuel : Nat) : TaskSteady w (taskLines b va n fuel) := by
  induction fuel generalizing va n with
  | zero => exact .pure _
  | succ fuel ih =>
    refine .ite (.pure _) (.get fun s h => .ite (.throw _) ?_)
    have hpeek := (s.firmware_peek b.asid va (min n (lineBytes - va % lineBytes))).trans h
    have hrest (bs : List Byte) (va n : Nat) : TaskSteady w (do return bs ++ (← taskLines b va n fuel)) :=
      .bind (ih ..) fun _ => .pure _
    dsimp only
    split
    next hs => exact .bind (.set (by rwa [hs] at hpeek)) fun _ => .bind (.pure _) fun _ => hrest ..
    · exact .bind (.throw _) fun _ => hrest ..
    · exact .bind (.throw _) fun _ => hrest ..
    · split
      · exact .bind (.pure _) fun _ => hrest ..
      · exact .bind (.throw _) fun _ => hrest ..

theorem taskRead_steady (va n : Nat) : TaskSteady w (taskRead b va n) := .ite (.throw _) (taskLines_steady ..)

theorem taskWriteSeg_steady (va : Nat) (bs : List Byte) : TaskSteady w (taskWriteSeg b va bs) := by
  refine .get fun s h => ?_
  have hpoke := (s.firmware_poke deviceOwner b.asid va bs).trans h
  split
  next hs => exact .set (by rwa [hs] at hpoke)
  · exact .throw _
  next hs =>
    rw [hs] at hpoke
    exact .set ((State.firmware_farDo ..).trans hpoke)
  · exact .throw _

theorem taskWrite_steady (va v : Nat) : TaskSteady w (taskWrite b va v) :=
  .bind (taskWriteSeg_steady ..) fun _ => .ite (taskWriteSeg_steady ..) (.pure _)

theorem taskPool_steady (pool : Nat) : TaskSteady w (taskPool b pool) :=
  .bind (taskRead_steady ..) fun _ => .ite (.throw _) (.pure _)

theorem taskTake_steady (pool : Nat) (ds : List Double) : TaskSteady w (taskTake b pool ds) := by
  refine .ite (.get fun _ _ => .throw _) (.bind (taskRead_steady ..) fun _ => .bind (taskWrite_steady ..) fun _ => ?_)
  exact .bind (.update fun _ => rfl) fun _ => .pure _

theorem taskHandle_steady (h : Nat) (k : HandleKind) : TaskSteady w (taskHandle b h k) := by
  refine .ite (.throw _)
    (.bind (taskRead_steady ..) fun _ => .get fun _ _ => .bind (taskPool_steady ..) fun _ => .ite ?_ (.pure _))
  exact .bind (taskTake_steady ..) fun _ => .bind (taskWrite_steady ..) fun _ => .bind (.update fun _ => rfl) fun _ => .pure _

theorem taskSubmit_steady (desc : Nat) (tag : Double) : TaskSteady w (taskSubmit b desc tag) := by
  refine .get fun _ _ => .get fun _ _ => .ite (.throw _)
    (.bind (taskRead_steady ..) fun _ => .ite (.throw _) (.get fun _ _ => ?_))
  refine .bind (.mapM (fun _ => .bind (taskHandle_steady ..) fun _ => .pure _) _) fun _ =>
    .bind (.forIn (fun _ _ => .bind (taskWrite_steady ..) fun _ => .pure _) _ _) fun _ => .bind (.update fun _ => rfl) fun
      _ =>
      .bind (.update fun _ => State.firmware_mapLaunch ..) fun _ => .update fun s => ?_
  exact (State.firmware_pushReady _).trans (s.firmware_returnBuffers none)

theorem State.firmware_submit {c : Crew} {asid desc : Nat} {u : FarUser} (h : s.submit c asid desc u = .ok t) :
    t.firmware = s.firmware := by
  unfold State.submit at h
  generalize hx : taskSubmit _ desc _ = x at h
  cases hr : x.run s with
  | error e => rw [hr] at h; cases h
  | ok r =>
    rw [hr] at h
    cases h
    subst hx
    exact (taskSubmit_steady _ desc _).keeps s r.1 r.2 rfl hr

theorem State.firmware_performTsub (s : State) (f : Flight) : (s.performTsub f).firmware = s.firmware := by
  unfold State.performTsub
  grind [State.firmware_submit, State.firmware_submitted, State.firmware_farDone, State.firmware_farDo,
    State.firmware_mapFlight]
end

section
variable {s : State}

/-! ### Steps that run a command's body -/

theorem State.firmware_runCommand {body : BteM Unit} (r : BteRef) (h : BteSteady s.firmware body) :
    (s.runCommand r body).firmware = s.firmware := by
  have hbody := h.keeps s rfl
  unfold State.runCommand
  generalize body s = x at hbody
  obtain ⟨_ | _, t⟩ := x
  · exact (State.firmware_haltCommand ..).trans hbody
  · exact hbody

theorem State.firmware_runLaunch {body : BteM Unit} (r : BteRef) (h : BteSteady s.firmware body) :
    (s.runLaunch r body).firmware = s.firmware := by
  have hbody := h.keeps s rfl
  unfold State.runLaunch
  generalize body s = x at hbody
  obtain ⟨e | _, t⟩ := x
  · cases e with
    | stop => exact (State.firmware_stopLaunch ..).trans hbody
    | _ => exact (State.firmware_haltCommand ..).trans hbody
  · exact hbody

theorem State.firmware_runCopy (s : State) (r : BteRef) : (s.runCopy r).firmware = s.firmware := by
  unfold State.runCopy
  split
  · exact State.firmware_asStream (fun _ => State.firmware_runCommand r (bteCopy_steady r)) s
  · exact State.firmware_runCommand r (bteCopy_steady r)

theorem State.firmware_copyStep (s : State) (c k xf : Nat) : (s.copyStep c k xf).firmware = s.firmware := by
  unfold State.copyStep
  split
  · exact State.firmware_runCopy ..
  · rfl

theorem State.firmware_reduceStep {body : BteRef → BteM Unit} (h : ∀ r, BteSteady s.firmware (body r)) (c k xf : Nat) :
    (s.reduceStep c k xf body).firmware = s.firmware := by
  unfold State.reduceStep
  split
  · exact State.firmware_runCommand _ (h _)
  · rfl

theorem State.firmware_typeStep {body : BteRef → BteM Unit} (h : ∀ r, BteSteady s.firmware (body r)) (c k type_ : Nat) :
    (s.typeStep c k type_ body).firmware = s.firmware := by
  unfold State.typeStep
  split
  · exact State.firmware_runCommand _ (h _)
  · rfl

theorem State.firmware_launchStep (s : State) (c k : Nat) : (s.launchStep c k).firmware = s.firmware := by
  unfold State.launchStep
  split
  · rfl
  · exact State.firmware_runLaunch _ (bteLaunch_steady _)

theorem State.firmware_graphStep (s : State) (c k : Nat) (ws : List SlotWait) :
    (s.graphStep c k ws).firmware = s.firmware := by
  unfold State.graphStep
  split
  · rfl
  · split
    · exact (State.firmware_runLaunch _ (bteGraph_steady _)).trans (State.firmware_mapSlot ..)
    · rfl

theorem State.firmware_acceptAt (s : State) (c k : Nat) (cmd : Command) : (s.acceptAt c k cmd).firmware = s.firmware := by
  refine Eq.trans ?_ (s.firmware_putAt c k cmd)
  unfold State.acceptAt
  dsimp only
  split
  · exact State.firmware_runLaunch _ (.bind (bteGraphAt_steady _) fun _ => bteNumber_steady ..)
  · rfl

theorem State.firmware_nodeDone (s : State) (replay node : Nat) : (s.nodeDone replay node).firmware = s.firmware :=
  State.firmware_graphStep ..

theorem firmware_lookEnds (r : BteRef) (c q : Nat) (x : Except Halt Bool × State) :
    (lookEnds r c q x).firmware = x.2.firmware := by
  unfold lookEnds
  split
  · rfl
  · rfl
  · rfl
  · exact State.firmware_postEvent ..
  · rfl

theorem firmware_entryEnds (r : BteRef) (c q : Nat) (x : Except Halt Bool × State) :
    (entryEnds r c q x).firmware = x.2.firmware := by
  unfold entryEnds
  split
  · rfl
  · exact State.firmware_postEvent ..
  · rfl

theorem bteKeeps_steady {w : DeviceState × Nat × Nat} (r : BteRef) (addr : Nat) : BteSteady w (bteKeeps r addr) := by
  refine .get fun s _ => ?_
  split
  · exact .pure _
  · exact .bind (bteBytes_steady ..) fun _ => .pure _

theorem bteLookOnce_steady {w : DeviceState × Nat × Nat} (r : BteRef) (c q addr : Nat) :
    BteSteady w (bteLookOnce r c q addr) := by
  refine .bind (bteLook_steady ..) fun got => ?_
  split
  · exact .pure _
  · exact .get fun _ _ => .whenThen (.pure _) fun hrest => .bind (bteConsume_steady ..) fun _ => hrest

theorem State.firmware_lookQueue (s : State) (c q : Nat) : (s.lookQueue c q).firmware = s.firmware := by
  unfold State.lookQueue
  dsimp only
  split
  · rfl
  · refine (firmware_lookEnds (s.lookRef c q) c q (bteLookOnce (s.lookRef c q) c q (s.queueEntry c q).addr _)).trans ?_
    refine ((bteLookOnce_steady ..).keeps _ rfl).trans ?_
    split <;> rfl

theorem State.firmware_writeRecord (s : State) (sl : Slot) (r : BteRef) : (s.writeRecord sl r).firmware = s.firmware := by
  have hstore := fun (r : BteRef) addr bs => (bteStore_steady (w := s.firmware) r addr bs).keeps s rfl
  unfold State.writeRecord
  grind [State.firmware_recordDone, State.firmware_releaseSlot, State.firmware_mapSlot, State.firmware_postEvent]

/-! ### The end of a task -/

theorem State.firmware_taskEnded (s : State) (r : Record) (o : Origin) (die : Nat) (faulted : Bool) (status : Nat) :
    (s.taskEnded r o die faulted status).firmware = s.firmware := by
  unfold State.taskEnded
  grind [State.firmware_mapLaunch, State.firmware_retireHandler, State.firmware_taskDone, State.firmware_nodeDone,
    State.firmware_graphStep, State.firmware_settleLaunch, State.firmware_stopPushes]

theorem State.firmware_failRecord (s : State) (q : QueuedRec) (cluster status : Nat) :
    (s.failRecord q cluster status).firmware = s.firmware := by
  unfold State.failRecord
  grind [State.firmware, State.firmware_freeTask, State.firmware_taskEnded, State.firmware_farDone]

theorem State.firmware_popRecord (s : State) (cluster : Nat) : (s.popRecord cluster).firmware = s.firmware := by
  unfold State.popRecord
  grind [State.firmware, State.firmware_returnBuffers, State.firmware_refill, State.firmware_failRecord,
    State.firmware_load,
    State.firmware_choose]

theorem State.firmware_finishCrew (s : State) (c : Crew) : (s.finishCrew c).firmware = s.firmware := by
  unfold State.finishCrew
  grind [State.firmware_joinCrew, State.firmware_mapCrew, State.firmware_freeTask, State.firmware_dropFrame,
    State.firmware_taskEnded, State.firmware_removeCrew]

/-! ### Requests that are served -/

/-- The state that serving a request leaves. -/
def Served.state : Served → State
  | .done _ _ s | .fault _ _ s | .far _ _ s | .pushed s | .held s => s

theorem State.firmware_serveRead (s : State) {k : List Byte → Bool → State → Served}
    (hk : ∀ bs p s, (k bs p s).state.firmware = s.firmware) (asid va n : Nat) :
    (s.serveRead asid va n k).state.firmware = s.firmware := by
  unfold State.serveRead
  grind [Served.state, State.firmware_devPeek]

theorem State.firmware_serveWrite (s : State) {k : State → Served} (hk : ∀ s, (k s).state.firmware = s.firmware)
    (me asid va : Nat)
    (bs : List Byte) : (s.serveWrite me asid va bs k).state.firmware = s.firmware := by
  unfold State.serveWrite
  grind [Served.state, State.firmware_devPoke]

theorem State.firmware_serveRuns (s : State) (asid va : Nat) (runs : List (Nat × List Byte)) :
    (s.serveRuns asid va runs).state.firmware = s.firmware := by
  induction runs generalizing s with
  | nil => rfl
  | cons x runs ih => exact s.firmware_serveWrite ih ..

theorem State.firmware_serveDouble (s : State) (asid va : Nat) (f : Nat → Nat) :
    (s.serveDouble asid va f).state.firmware = s.firmware :=
  s.firmware_serveRead (fun _ _ s => s.firmware_serveWrite (fun _ => rfl) ..) ..

theorem State.firmware_serve (s : State) (source tag kind asid va : Nat) (payload : List Double) (job die : Nat) :
    (s.serve source tag kind asid va payload job die).state.firmware = s.firmware := by
  unfold State.serve
  dsimp only
  split
  · exact s.firmware_serveRead (fun _ _ _ => rfl) ..
  · exact State.firmware_serveRuns ..
  · exact s.firmware_serveRead (fun _ _ _ => rfl) ..
  · exact State.firmware_serveDouble ..
  · exact State.firmware_serveDouble ..
  · exact State.firmware_serveDouble ..
  · grind [Served.state, State.firmware, State.firmware_devTranslate]
  · split
    · refine s.firmware_serveRead (fun _ _ s => s.firmware_serveWrite (fun s => ?_) ..) ..
      grind [Served.state, State.firmware_servePushes]
    · rfl

/-- The state that receiving an active message leaves. -/
def Received.state : Received → State
  | .status _ s | .wait s | .held s => s

theorem State.firmware_receive (s : State) (port source tag job : Nat) (payload : List Double) :
    (s.receive port source tag job payload).state.firmware = s.firmware := by
  unfold State.receive
  dsimp only
  split
  · rfl
  · split
    · rfl
    · split
      · rfl
      · generalize hp : s.agentPeek _ _ _ _ _ _ = p
        have hpeek : p.2.firmware = s.firmware := hp ▸ s.firmware_agentPeek ..
        obtain ⟨_ | _ | _, t⟩ := p
        · dsimp only
          generalize hq : t.agentPoke _ _ _ _ _ _ = q
          have hpoke : q.2.firmware = t.firmware := hq ▸ t.firmware_agentPoke ..
          obtain ⟨_ | _ | _, u⟩ := q
          · exact (State.firmware_pushRecord ..).trans (hpoke.trans hpeek)
          · exact (State.firmware_deviceFault ..).trans (hpoke.trans hpeek)
          · exact hpoke.trans hpeek
        · exact (State.firmware_deviceFault ..).trans hpeek
        · exact hpeek

theorem State.firmware_amsgReceive (s : State) (port source tag job : Nat) (payload : List Double) :
    (s.amsgReceive port source tag job payload).firmware = s.firmware := by
  have hreceive := s.firmware_receive port source tag job payload
  unfold State.amsgReceive
  grind [Received.state, State.firmware_refusePeer, State.firmware_noteTag, State.firmware_respond,
    State.firmware_portCount,
    State.firmware_countConsumed]

theorem State.firmware_retryDevice (s : State) (l : List DeviceAccess) : (s.retryDevice l).firmware = s.firmware := by
  induction l generalizing s with
  | nil => exact State.firmware_returnBuffers ..
  | cons a l ih => cases a <;> grind [State.retryDevice, State.firmware, State.firmware_amsgReceive]

theorem State.firmware_hostRead (s : State) {k : List Byte → Bool → State → Served}
    (hk : ∀ bs p s, (k bs p s).state.firmware = s.firmware) (port asid va n fuel : Nat) :
    (s.hostRead port asid va n k fuel).state.firmware = s.firmware := by
  induction fuel generalizing s va n k with
  | zero => exact hk ..
  | succ fuel ih =>
    have hmore (s : State) (va n : Nat) (bs : List Byte) (bad : Bool) :
        (s.hostRead port asid va n (fun cs b s => k (bs ++ cs) (bad || b) s) fuel).state.firmware = s.firmware :=
      ih s (fun _ _ _ => hk ..) va n
    unfold State.hostRead
    grind [Served.state, State.firmware_devPeek, State.firmware_farDo]

theorem State.firmware_hostWriteLines (s : State) (port asid va : Nat) (bs : List Byte) (fuel : Nat) :
    (s.hostWriteLines port asid va bs fuel).state.firmware = s.firmware := by
  induction fuel generalizing s va bs with
  | zero => rfl
  | succ fuel ih => grind [State.hostWriteLines, Served.state, State.firmware_devPoke, State.firmware_newMessage]

theorem State.firmware_hostWrite (s : State) (port asid va : Nat) (bs : List Byte) :
    (s.hostWrite port asid va bs).state.firmware = s.firmware := by
  unfold State.hostWrite
  grind [Served.state, State.firmware_devReadyLines, State.firmware_hostWriteLines]

theorem State.firmware_serveHost (s : State) (port kind asid va size : Nat) (payload : List Double) :
    (s.serveHost port kind asid va size payload).state.firmware = s.firmware := by
  unfold State.serveHost
  split
  · split
    · exact s.firmware_serveRead (fun _ _ _ => rfl) ..
    · refine s.firmware_hostRead (fun _ _ s => ?_) ..
      exact s.firmware_farDone (.host port)
  · exact State.firmware_hostWrite ..
  · exact s.firmware_serveRead (fun _ _ s => s.firmware_serveWrite (fun _ => rfl) ..) ..

theorem State.firmware_hostMemory (s : State) (port kind offset size : Nat) (payload : List Double) :
    (s.hostMemory port kind offset size payload).firmware = s.firmware := by
  have hserve := fun asid va => s.firmware_serveHost port kind asid va size payload
  unfold State.hostMemory
  grind [Served.state, State.firmware_refuseHost, State.firmware_answerHost, State.firmware_farDone,
    State.firmware_postEvent,
    State.firmware_newMessage]
end

section
variable {s t : State} {c : Ctx} {i : Instr} {o : OpSpec} {body : Ctx → List (List Nat) → State → Except Stop State}

/-- A word's body, where it ends in a state, leaves the firmware and ROLLBACK_MIN as they were. -/
structure KeepsFirmware (s : State) (r : Except Stop State) : Prop where
  keeps : ∀ t, r = .ok t → t.firmware = s.firmware

/-- A step, where it goes on, leaves the firmware and ROLLBACK_MIN as they were. -/
structure StepKeepsFirmware (f : State → Host.Outcome State Fault Refusal) : Prop where
  keeps : ∀ s t, f s = .next t → t.firmware = s.firmware

theorem KeepsFirmware.ok (h : t.firmware = s.firmware) : KeepsFirmware s (.ok t) := by
  refine ⟨fun _ hok => ?_⟩
  cases hok
  exact h

theorem KeepsFirmware.error (e : Stop) : KeepsFirmware s (.error e) := ⟨fun _ h => nomatch h⟩

theorem KeepsFirmware.bind {α : Type} {x : Except Stop α} {k : α → Except Stop State} (h : ∀ a, KeepsFirmware s (k a)) :
    KeepsFirmware s (x >>= k) := by
  refine ⟨fun t ht => ?_⟩
  obtain ⟨a, -, ha⟩ := Claim.exceptBind_eq_ok ht
  exact (h a).keeps t ha

theorem KeepsFirmware.ite {p : Prop} [Decidable p] {x y : Except Stop State} (hx : KeepsFirmware s x)
    (hy : KeepsFirmware s y) :
    KeepsFirmware s (if p then x else y) := by
  split
  · exact hx
  · exact hy

theorem KeepsFirmware.guard {p : Prop} [Decidable p] {e : Stop} {k : PUnit → Except Stop State}
    (h : ∀ a, KeepsFirmware s (k a)) :
    KeepsFirmware s (if p then .error e >>= k else k ⟨⟩) := .ite (.error e) (h _)

theorem StepKeepsFirmware.next {f : State → State} (h : ∀ s, (f s).firmware = s.firmware) :
    StepKeepsFirmware fun s => .next (f s) := by
  refine ⟨fun s t ht => ?_⟩
  cases ht
  exact h s

theorem Ctx.firmware_fetch {uses : Slice → List Use} {ks : List Nat} {args : List (List Nat)}
    (h : c.fetch uses ks s = .ok (args, t)) : t.firmware = s.firmware := by
  obtain ⟨hports, -⟩ := Claim.fetch_portsOnly h
  rw [hports]
  rfl

/-- A word's trap, its wait and its body: none changes the firmware. -/
theorem runOp_keepsFirmware (hbody : ∀ c args s, KeepsFirmware s (body c args s)) : StepKeepsFirmware (runOp i o body) := by
  refine ⟨fun s t h => ?_⟩
  rcases runOp_cases i o body s with ⟨-, hfault⟩ | ⟨c, -, ⟨k, as, htrap⟩ | hwait | hqueued |
    ⟨args, s', u, hfetch, hu, hnext⟩⟩
  · rw [hfault] at h
    cases h
  · rw [htrap] at h
    cases h
    exact State.firmware_takeTrap ..
  · rw [hwait] at h
    cases h
    rfl
  · rw [hqueued] at h
    cases h
    exact State.firmware_holdBindings ..
  · rw [hnext] at h
    cases h
    exact ((hbody c args s').keeps t hu).trans (Ctx.firmware_fetch hfetch)

theorem KeepsFirmware.issueFlight (o : Launching) (addrs datas results : List Nat) :
    KeepsFirmware s (.ok (s.issueFlight c i o addrs datas results)) := .ok (State.firmware_issueFlight ..)

/-- A body that writes a field and goes on. -/
theorem KeepsFirmware.writeField (use : Slice → Use) (vals : List Nat) :
    KeepsFirmware s (.ok ((s.writeField c use vals).retireNext c)) := .ok (State.firmware_writeField ..)
end

section
variable {i : Instr}

theorem laneOp_keepsFirmware (o : OpSpec) (dst : Slice → Use) (f : Slice → List Nat → Nat) :
    StepKeepsFirmware (laneOp i o dst f) := by
  refine ⟨fun s t h => ?_⟩
  unfold laneOp at h
  exact (runOp_keepsFirmware fun _ _ _ => .writeField ..).keeps s t h

theorem addSub_keepsFirmware (d a b : BitVec 7) (f : Nat) (g : Int → Int → Int) :
    StepKeepsFirmware (addSub i d a b f g) := by
  unfold addSub
  split <;> exact laneOp_keepsFirmware ..

theorem exec_of_access_keepsFirmware {args : List (List Nat)} {a : Claim.Access} (h : Claim.accessOf args i = some a) :
    StepKeepsFirmware (exec i) := by
  refine ⟨fun s t hs => ?_⟩
  rw [Claim.exec_of_accessOf h] at hs
  refine (runOp_keepsFirmware fun c args s => ?_).keeps s t hs
  unfold Claim.accessBody
  split
  · exact .bind fun _ => .bind fun _ => .issueFlight ..
  · exact .error _

theorem qntOp_keepsFirmware (d a : BitVec 7) (l : BitVec 4) (fixed : Bool) : StepKeepsFirmware (qntOp i d a l fixed) := by
  refine runOp_keepsFirmware fun c args s => .bind fun _ => .ok ?_
  split
  · rfl
  · exact State.firmware_startFlight ..

theorem tlbi_keepsFirmware {a : BitVec 7} {legal : Nat → Bool} {drop : State → Nat → State}
    (hdrop : ∀ s v, (drop s v).firmware = s.firmware) : StepKeepsFirmware (tlbi i a legal drop) := by
  refine runOp_keepsFirmware fun c args s => ?_
  split
  · exact .ok rfl
  · refine .bind fun _ => .ok ((State.firmware_retireNext ..).trans ?_)
    split
    · rfl
    · exact hdrop ..

theorem qadj_keepsFirmware {d a : BitVec 7} {f : State → Nat → Nat → Int → State}
    (hf : ∀ s die job n, (f s die job n).firmware = s.firmware) : StepKeepsFirmware (qadj i d a f) := by
  refine runOp_keepsFirmware fun c args s => ?_
  split
  · exact .ok rfl
  · refine .ok ((State.firmware_retireNext ..).trans ((State.firmware_writeField ..).trans ?_))
    split
    · exact hf ..
    · rfl

theorem tryMat_keepsFirmware {s : State} {c : Ctx} {t : BitVec 7} {la e an bn : Nat} {a b : MatOp} {o : EngOp} :
    KeepsFirmware s (s.tryMat c i t la e a b an bn o) := by
  refine .bind fun _ => ?_
  split
  · exact .error _
  · rename_i u hu
    refine .ok ?_
    split
    · exact State.firmware_withTokens (fun _ => rfl) ..
    · exact State.firmware_issueMat hu

end

section

theorem execTrap_keepsFirmware (k : BitVec 18) : StepKeepsFirmware (execTrap k) := by
  refine ⟨fun s t h => ?_⟩
  unfold execTrap at h
  split at h
  · cases h
  · split at h
    · rename_i e _
      rcases e with ⟨cause, as⟩ | _ | _
      · cases h
        exact State.firmware_takeTrap ..
      · cases h
        rfl
      · cases h
        exact State.firmware_holdBindings ..
    · cases h
      exact State.firmware_takeTrap ..

theorem execMts_keepsFirmware (a : BitVec 7) (n : BitVec 5) : StepKeepsFirmware (execMts a n) := by
  refine runOp_keepsFirmware fun c args s => .bind fun _ => .ok ((State.firmware_retireEach ..).trans ?_)
  have hlanes : (if n.toNat = 0x10 && !c.gang.isSeq then s.mapIssuer c (writeTaddrs (c.lanes.zip (args.getD 0 [])))
      else s).firmware = s.firmware := by
    split <;> rfl
  dsimp only
  split
  · split
    · exact (State.firmware_mapCrew ..).trans hlanes
    · exact hlanes
  · exact hlanes

theorem execQuiet_keepsFirmware (d a b : BitVec 7) (l : BitVec 4) : StepKeepsFirmware (execQuiet d a b l) := by
  refine runOp_keepsFirmware fun c args s => ?_
  dsimp only
  split
  · split
    · exact .ok (State.firmware_endQuiet ..)
    · exact .ite (.ok (State.firmware_endQuiet ..)) (.error _)
  · refine .bind fun _ => ?_
    split
    · exact .ok (State.firmware_endQuiet ..)
    · exact .ok rfl

theorem execXcpr_keepsFirmware (d a : BitVec 7) (x : BitVec 6) (k : BitVec 1) (l : BitVec 4) :
    StepKeepsFirmware (execXcpr d a x k l) := by
  refine runOp_keepsFirmware fun c args s => ?_
  split
  · exact .ok rfl
  · refine .bind fun _ => .bind fun _ => .bind fun _ => .bind fun _ => .ok ?_
    exact (State.firmware_mapGang ..).trans (State.firmware_sendTicket ..)

theorem execMapf_keepsFirmware (d a : BitVec 7) : StepKeepsFirmware (execMapf d a) := by
  refine runOp_keepsFirmware fun c args s => .guard fun _ => ?_
  dsimp only
  generalize hlanes : s.mapLanes _ _ _ = r
  have hkept : r.2.2.firmware = s.firmware := hlanes ▸ s.firmware_mapLanes ..
  obtain ⟨_ | _, sts, t⟩ := r
  · exact .ok hkept
  · exact .ok ((State.firmware_writeField ..).trans hkept)

theorem execTclr_keepsFirmware (k x : BitVec 1) (n : BitVec 5) : StepKeepsFirmware (execTclr k x n) := by
  refine runOp_keepsFirmware fun c args s => .bind fun _ => ?_
  dsimp only
  split
  · exact .bind fun _ => .ok (State.firmware_enqueue ..)
  · refine .bind fun _ => ?_
    split
    · exact .bind fun _ => .ok (State.firmware_enqueue ..)
    · exact .ite (.error _) (.error _)

theorem execTdrn_keepsFirmware (d a : BitVec 7) (x : BitVec 6) (k : BitVec 1) (l : BitVec 4) :
    StepKeepsFirmware (execTdrn d a x k l) := by
  refine runOp_keepsFirmware fun c args s => .bind fun _ => .bind fun _ => .bind fun _ => ?_
  split
  · exact .error _
  · refine .bind fun _ => .bind fun _ => .bind fun _ => .ok ((State.firmware_enqueue ..).trans ?_)
    split <;> exact State.firmware_wordFlight ..

theorem execTstg_keepsFirmware (t b : BitVec 7) : StepKeepsFirmware (execTstg t b) := by
  refine runOp_keepsFirmware fun c args s => .bind fun _ => .bind fun _ => .bind fun _ => .bind fun _ => ?_
  split
  · exact .error _
  · refine .bind fun _ => .bind fun _ => ?_
    split
    · exact .error _
    next img u hu =>
      have himage := State.firmware_takeImage hu
      exact .ok ((State.firmware_enqueue ..).trans himage)

theorem execTtbl_keepsFirmware (t a : BitVec 7) : StepKeepsFirmware (execTtbl t a) := by
  refine runOp_keepsFirmware fun c args s => .bind fun _ => .bind fun _ => ?_
  dsimp only
  split
  · refine .bind fun _ => .bind fun _ => .bind fun _ => ?_
    split
    · exact .error _
    next img u hu =>
      have himage := State.firmware_takeImage hu
      exact .ok ((State.firmware_enqueue ..).trans himage)
  · exact .error _

theorem execQstat_keepsFirmware (d : BitVec 7) (n : BitVec 3) : StepKeepsFirmware (execQstat d n) := by
  refine runOp_keepsFirmware fun c args s => ?_
  dsimp only
  split
  · exact .error _
  · exact .writeField ..

theorem execSetx_keepsFirmware (a : BitVec 7) (w : BitVec 1) (o : BitVec 9) : StepKeepsFirmware (execSetx a w o) := by
  refine runOp_keepsFirmware fun c args s => ?_
  split
  · exact .ok rfl
  · exact .bind fun _ => .ok rfl

theorem execYld_keepsFirmware : StepKeepsFirmware execYld := by
  refine runOp_keepsFirmware fun c args s => .ok ?_
  split <;> rfl

theorem execFence_keepsFirmware (x : BitVec 3) (r : BitVec 2) : StepKeepsFirmware (execFence x r) := by
  refine runOp_keepsFirmware fun c args s => .bind fun _ => .ok ?_
  split
  · exact State.firmware_startFlight ..
  · rfl

theorem execLdx_keepsFirmware (t a b : BitVec 7) (l : BitVec 4) : StepKeepsFirmware (execLdx t a b l) := by
  refine runOp_keepsFirmware fun c args s => .guard fun _ => .guard fun _ => .bind fun _ => .ok ?_
  split
  · rfl
  · exact State.firmware_startFlight ..

theorem execCflush_keepsFirmware (a : BitVec 7) : StepKeepsFirmware (execCflush a) := by
  refine runOp_keepsFirmware fun c args s => .guard fun _ => .bind fun _ => .ok ?_
  split
  · rfl
  · exact State.firmware_startFlight ..

theorem execCbt_keepsFirmware (a : BitVec 7) (l : BitVec 4) : StepKeepsFirmware (execCbt a l) := by
  refine runOp_keepsFirmware fun c args s => ?_
  split
  · exact .ok rfl
  · exact .guard fun _ => .guard fun _ => .bind fun _ => .ok (State.firmware_startPalette ..)

theorem execCbtReg_keepsFirmware (b : BitVec 7) (l : BitVec 4) : StepKeepsFirmware (execCbtReg b l) := by
  refine runOp_keepsFirmware fun c args s => ?_
  split
  · exact .ok rfl
  · exact .ok (State.firmware_startPalette ..)

theorem execMcrd_keepsFirmware (t a b : BitVec 7) : StepKeepsFirmware (execMcrd t a b) := by
  refine runOp_keepsFirmware fun c args s => ?_
  split
  · exact .bind fun _ => .guard fun _ => .guard fun _ => .bind fun _ => .ok (State.firmware_startFlight ..)
  · exact .ok rfl

theorem execTsub_keepsFirmware (t a : BitVec 7) (l : BitVec 4) : StepKeepsFirmware (execTsub t a l) := by
  refine runOp_keepsFirmware fun c args s => ?_
  split
  · exact .ok rfl
  · exact .guard fun _ => .guard fun _ => .bind fun _ => .bind fun _ => .issueFlight ..

theorem execAmsg_keepsFirmware (t b : BitVec 7) (l : BitVec 4) : StepKeepsFirmware (execAmsg t b l) := by
  refine runOp_keepsFirmware fun c args s => ?_
  split
  · exact .ok rfl
  · exact .ite (.issueFlight ..) (.ok (State.firmware_issueFlight ..))

theorem execXcp_keepsFirmware (d a : BitVec 7) (x : BitVec 6) (k : BitVec 1) (l : BitVec 4) :
    StepKeepsFirmware (execXcp d a x k l) := by
  refine runOp_keepsFirmware fun c args s => ?_
  split
  · exact .ok rfl
  · exact .bind fun _ => .ok (State.firmware_sendTicket ..)

theorem execGrpl_keepsFirmware (t a b : BitVec 7) (l : BitVec 4) : StepKeepsFirmware (execGrpl t a b l) := by
  refine runOp_keepsFirmware fun c args s => ?_
  split
  · exact .bind fun _ => .ok (State.firmware_sendTicket ..)
  · exact .ok rfl

theorem execXqap_keepsFirmware (d a : BitVec 7) (x : BitVec 6) (k : BitVec 1) : StepKeepsFirmware (execXqap d a x k) := by
  refine runOp_keepsFirmware fun c args s => ?_
  split
  · exact .bind fun _ => .ok rfl
  · exact .ok rfl

theorem execTlbiAll_keepsFirmware : StepKeepsFirmware execTlbiAll := by
  refine runOp_keepsFirmware fun c args s => .ok ((State.firmware_retireNext ..).trans ?_)
  split <;> rfl

theorem execDmma_keepsFirmware (t a b : BitVec 7) (l : BitVec 4) : StepKeepsFirmware (execDmma t a b l) := by
  refine runOp_keepsFirmware fun c args s => .bind fun _ => .bind fun _ => ?_
  split
  · exact .error _
  · exact .bind fun _ => tryMat_keepsFirmware

theorem execTcfg_keepsFirmware (w : BitVec 1) (e g : BitVec 2) (x : BitVec 1) (n : BitVec 5) :
    StepKeepsFirmware (execTcfg w e g x n) := by
  refine runOp_keepsFirmware fun c args s => .bind fun _ => ?_
  dsimp only
  split <;> exact .bind fun _ => .ok rfl

theorem execUnpkCb_keepsFirmware (d a b : BitVec 7) : StepKeepsFirmware (execUnpkCb d a b) :=
  runOp_keepsFirmware fun _ _ _ => .writeField ..

theorem execShfl_keepsFirmware (d a b : BitVec 7) (m : BitVec 2) : StepKeepsFirmware (execShfl d a b m) :=
  runOp_keepsFirmware fun _ _ _ => .writeField ..

theorem execVote_keepsFirmware (d a : BitVec 7) (f : BitVec 4) : StepKeepsFirmware (execVote d a f) :=
  runOp_keepsFirmware fun _ _ _ => .writeField ..

theorem execRdx_keepsFirmware (d a : BitVec 7) (f : BitVec 4) : StepKeepsFirmware (execRdx d a f) :=
  runOp_keepsFirmware fun _ _ _ => .writeField ..

theorem execScan_keepsFirmware (d a : BitVec 7) (e : BitVec 1) (f : BitVec 4) : StepKeepsFirmware (execScan d a e f) :=
  runOp_keepsFirmware fun _ _ _ => .writeField ..

theorem execMfs_keepsFirmware (d : BitVec 7) (n : BitVec 5) : StepKeepsFirmware (execMfs d n) :=
  runOp_keepsFirmware fun _ _ _ => .writeField ..

theorem queueOp_keepsFirmware {i : Instr} (o : OpSpec) (dst : Slice → Use) (size : Nat) (la : BitVec 4)
    (f : Slice → List Nat → Nat) :
    StepKeepsFirmware (queueOp i o dst size la f) := runOp_keepsFirmware fun _ _ _ => .bind fun _ => .issueFlight ..

theorem execQntHealth_keepsFirmware (d : BitVec 7) (l : BitVec 4) : StepKeepsFirmware (execQntHealth d l) :=
  runOp_keepsFirmware fun _ _ _ => .bind fun _ => .ok (State.firmware_issueFlight ..)

theorem execNop_keepsFirmware : StepKeepsFirmware execNop := runOp_keepsFirmware fun _ _ _ => .ok rfl

theorem execBra_keepsFirmware (o : BitVec 18) : StepKeepsFirmware (execBra o) := runOp_keepsFirmware fun _ _ _ => .ok rfl

theorem execBraZ_keepsFirmware (r : BitVec 7) (o : BitVec 18) : StepKeepsFirmware (execBraZ r o) :=
  runOp_keepsFirmware fun _ _ _ => .ok rfl

theorem execFmt_keepsFirmware (i : BitVec 16) : StepKeepsFirmware (execFmt i) := runOp_keepsFirmware fun _ _ _ => .ok rfl

theorem execWin_keepsFirmware (i : BitVec 18) : StepKeepsFirmware (execWin i) := runOp_keepsFirmware fun _ _ _ => .ok rfl

theorem execRply_keepsFirmware : StepKeepsFirmware execRply := runOp_keepsFirmware fun _ _ _ => .ok rfl

theorem bindQueue_keepsFirmware (i : Instr) (q : BitVec 3) (p : Option Nat) : StepKeepsFirmware (bindQueue i q p) :=
  runOp_keepsFirmware fun _ _ _ => .bind fun _ => .ok rfl

theorem execBrc_keepsFirmware (r : BitVec 7) (o : BitVec 18) : StepKeepsFirmware (execBrc r o) :=
  runOp_keepsFirmware fun _ _ _ => .bind fun _ => .ok rfl

theorem execRcp_keepsFirmware (o : BitVec 18) : StepKeepsFirmware (execRcp o) :=
  runOp_keepsFirmware fun _ _ _ => .bind fun _ => .ok rfl

theorem execWaitp_keepsFirmware (a : BitVec 7) (p : BitVec 3) : StepKeepsFirmware (execWaitp a p) :=
  runOp_keepsFirmware fun _ _ _ => .bind fun _ => .ok rfl

theorem execJoin_keepsFirmware : StepKeepsFirmware execJoin :=
  runOp_keepsFirmware fun _ _ _ => .bind fun _ => .bind fun _ => .ok rfl

theorem execLoop_keepsFirmware (r : BitVec 7) (len : BitVec 8) : StepKeepsFirmware (execLoop r len) :=
  runOp_keepsFirmware fun _ _ _ => .bind fun _ => .bind fun _ => .ok rfl

theorem execCall_keepsFirmware (r : BitVec 7) (o : BitVec 18) : StepKeepsFirmware (execCall r o) :=
  runOp_keepsFirmware fun _ _ _ => .ok (State.firmware_writeField ..)

theorem execRet_keepsFirmware (a : BitVec 7) : StepKeepsFirmware (execRet a) :=
  runOp_keepsFirmware fun _ _ _ => .guard fun _ => .guard fun _ => .ok rfl

theorem execRegang_keepsFirmware : StepKeepsFirmware execRegang := runOp_keepsFirmware fun _ _ _ => .ite (.ok rfl) (.ok rfl)

theorem execExit_keepsFirmware : StepKeepsFirmware execExit := runOp_keepsFirmware fun _ _ _ => .bind fun _ => .ok rfl

theorem barrierOp_keepsFirmware (i : Instr) (count : BitVec 5) (n : BitVec 4) (f : Slice → Slice) :
    StepKeepsFirmware (barrierOp i count n f) := runOp_keepsFirmware fun _ _ _ => .bind fun _ => .bind fun _ => .ok rfl

theorem execMwait_keepsFirmware (d a : BitVec 7) : StepKeepsFirmware (execMwait d a) :=
  runOp_keepsFirmware fun _ _ _ => .ite (.ok (State.firmware_writeField ..)) (.ok rfl)

theorem execEret_keepsFirmware : StepKeepsFirmware execEret := runOp_keepsFirmware fun _ _ _ => .bind fun _ => .ok rfl

theorem execEretAbandon_keepsFirmware : StepKeepsFirmware execEretAbandon :=
  runOp_keepsFirmware fun _ _ _ => .bind fun _ => .ok (State.firmware_abandonCrew ..)

theorem execXwait_keepsFirmware (d a : BitVec 7) : StepKeepsFirmware (execXwait d a) :=
  runOp_keepsFirmware fun _ _ _ => .bind fun _ => .ok (State.firmware_xwaitDone ..)

theorem execXwaitAll_keepsFirmware (d : BitVec 7) : StepKeepsFirmware (execXwaitAll d) :=
  runOp_keepsFirmware fun _ _ _ => .bind fun _ => .ok (State.firmware_xwaitDone ..)

theorem execTlbiPage_keepsFirmware (a : BitVec 7) : StepKeepsFirmware (execTlbiPage a) := tlbi_keepsFirmware fun _ _ => rfl

theorem execTlbiAsid_keepsFirmware (a : BitVec 7) : StepKeepsFirmware (execTlbiAsid a) := tlbi_keepsFirmware fun _ _ => rfl

theorem execSpcfg_keepsFirmware (o z : BitVec 1) (w : BitVec 4) : StepKeepsFirmware (execSpcfg o z w) :=
  runOp_keepsFirmware fun _ _ _ => .bind fun _ => .ite (.ok rfl) (.ok rfl)

theorem execQadjInjected_keepsFirmware (d a : BitVec 7) : StepKeepsFirmware (execQadjInjected d a) :=
  qadj_keepsFirmware fun _ _ _ _ => State.firmware_countInjected ..

theorem execQadjConsumed_keepsFirmware (d a : BitVec 7) : StepKeepsFirmware (execQadjConsumed d a) :=
  qadj_keepsFirmware fun _ _ _ _ => State.firmware_countConsumed ..

theorem execQadjClearLost_keepsFirmware (d a : BitVec 7) : StepKeepsFirmware (execQadjClearLost d a) :=
  qadj_keepsFirmware fun _ _ _ _ => State.firmware_clearLost ..

theorem execQadjQueryToLost_keepsFirmware (d a : BitVec 7) : StepKeepsFirmware (execQadjQueryToLost d a) :=
  qadj_keepsFirmware fun _ _ _ _ => State.firmware_loseQueried ..

theorem execTmma_keepsFirmware (t a b : BitVec 7) (l : BitVec 4) : StepKeepsFirmware (execTmma t a b l) :=
  runOp_keepsFirmware fun _ _ _ => .bind fun _ => tryMat_keepsFirmware

theorem execTbnd_keepsFirmware (t a : BitVec 7) (l : BitVec 4) : StepKeepsFirmware (execTbnd t a l) :=
  runOp_keepsFirmware fun _ _ _ => .bind fun _ => .bind fun _ => .ok (State.firmware_wordFlight ..)

/-- Word by word: each moves its crew on, writes registers, starts a flight or hands an engine its work. -/
theorem exec_word_keepsFirmware {i : Instr} (hword : i.isWord = true) : StepKeepsFirmware (exec i) := by
  refine ⟨fun s u h => ?_⟩
  cases i with
  | and | andi | or | ori | xor | xori | shl | shr | shli | shri | sra | bfx | bfi | clz | popc | imul | imulh |
  imad | imin | imax | iaddi | icmp | lea | lui | sel | coal | mkab | tsta | pack | unpk | dot8 | dot4 |
  fadd | fsub | fmul | fmin | fmax | ffma | fcmp => exact (laneOp_keepsFirmware ..).keeps s u h
  | iadd | isub => exact (addSub_keepsFirmware ..).keeps s u h
  | ld | ldw | ldq | lda | mon | st | stw | stq | stl | aadd | amin | amax | aand | aor | axor | axch | acas | afadd
  | jdec | prom | spawn => exact (exec_of_access_keepsFirmware (args := []) rfl).keeps s u h
  | unpkCb d a b => exact (execUnpkCb_keepsFirmware d a b).keeps s u h
  | shfl d a b m => exact (execShfl_keepsFirmware d a b m).keeps s u h
  | vote d a f => exact (execVote_keepsFirmware d a f).keeps s u h
  | rdx d a f => exact (execRdx_keepsFirmware d a f).keeps s u h
  | scan d a e f => exact (execScan_keepsFirmware d a e f).keeps s u h
  | mfs d n => exact (execMfs_keepsFirmware d n).keeps s u h
  | qstat d n => exact (execQstat_keepsFirmware d n).keeps s u h
  | cvt | dqt | frcp | frsq | fsqrt | fexp2 | flog2 | fsin | fcos | ftanh => exact (queueOp_keepsFirmware ..).keeps s u h
  | qnt | qntFix => exact (qntOp_keepsFirmware ..).keeps s u h
  | qntHealth d l => exact (execQntHealth_keepsFirmware d l).keeps s u h
  | nop => exact execNop_keepsFirmware.keeps s u h
  | bra o => exact (execBra_keepsFirmware o).keeps s u h
  | braZ r o => exact (execBraZ_keepsFirmware r o).keeps s u h
  | fmt i => exact (execFmt_keepsFirmware i).keeps s u h
  | win i => exact (execWin_keepsFirmware i).keeps s u h
  | rply => exact execRply_keepsFirmware.keeps s u h
  | qbind | qbindUn => exact (bindQueue_keepsFirmware ..).keeps s u h
  | brc r o => exact (execBrc_keepsFirmware r o).keeps s u h
  | rcp o => exact (execRcp_keepsFirmware o).keeps s u h
  | waitp a p => exact (execWaitp_keepsFirmware a p).keeps s u h
  | join => exact execJoin_keepsFirmware.keeps s u h
  | loop r len => exact (execLoop_keepsFirmware r len).keeps s u h
  | call r o => exact (execCall_keepsFirmware r o).keeps s u h
  | ret a => exact (execRet_keepsFirmware a).keeps s u h
  | setx a w o => exact (execSetx_keepsFirmware a w o).keeps s u h
  | mts a n => exact (execMts_keepsFirmware a n).keeps s u h
  | regang => exact execRegang_keepsFirmware.keeps s u h
  | exit => exact execExit_keepsFirmware.keeps s u h
  | bar | bara => exact (barrierOp_keepsFirmware ..).keeps s u h
  | yld => exact execYld_keepsFirmware.keeps s u h
  | mwait d a => exact (execMwait_keepsFirmware d a).keeps s u h
  | quiet d a b l => exact (execQuiet_keepsFirmware d a b l).keeps s u h
  | eret => exact execEret_keepsFirmware.keeps s u h
  | eretAbandon => exact execEretAbandon_keepsFirmware.keeps s u h
  | trap k => exact (execTrap_keepsFirmware k).keeps s u h
  | fence x r => exact (execFence_keepsFirmware x r).keeps s u h
  | ldx t a b l => exact (execLdx_keepsFirmware t a b l).keeps s u h
  | cflush a => exact (execCflush_keepsFirmware a).keeps s u h
  | cbt a l => exact (execCbt_keepsFirmware a l).keeps s u h
  | cbtReg b l => exact (execCbtReg_keepsFirmware b l).keeps s u h
  | mcrd t a b => exact (execMcrd_keepsFirmware t a b).keeps s u h
  | tsub t a l => exact (execTsub_keepsFirmware t a l).keeps s u h
  | amsg t b l => exact (execAmsg_keepsFirmware t b l).keeps s u h
  | xcp d a x k l => exact (execXcp_keepsFirmware d a x k l).keeps s u h
  | grpl t a b l => exact (execGrpl_keepsFirmware t a b l).keeps s u h
  | xqap d a x k => exact (execXqap_keepsFirmware d a x k).keeps s u h
  | xcpr d a x k l => exact (execXcpr_keepsFirmware d a x k l).keeps s u h
  | xwait d a => exact (execXwait_keepsFirmware d a).keeps s u h
  | xwaitAll d => exact (execXwaitAll_keepsFirmware d).keeps s u h
  | tlbiPage a => exact (execTlbiPage_keepsFirmware a).keeps s u h
  | tlbiAsid a => exact (execTlbiAsid_keepsFirmware a).keeps s u h
  | tlbiAll => exact execTlbiAll_keepsFirmware.keeps s u h
  | spcfg o z w => exact (execSpcfg_keepsFirmware o z w).keeps s u h
  | qadjInjected d a => exact (execQadjInjected_keepsFirmware d a).keeps s u h
  | qadjConsumed d a => exact (execQadjConsumed_keepsFirmware d a).keeps s u h
  | qadjClearLost d a => exact (execQadjClearLost_keepsFirmware d a).keeps s u h
  | qadjQueryToLost d a => exact (execQadjQueryToLost_keepsFirmware d a).keeps s u h
  | tmma t a b l => exact (execTmma_keepsFirmware t a b l).keeps s u h
  | dmma t a b l => exact (execDmma_keepsFirmware t a b l).keeps s u h
  | tbnd t a l => exact (execTbnd_keepsFirmware t a l).keeps s u h
  | tcfg w e g x n => exact (execTcfg_keepsFirmware w e g x n).keeps s u h
  | tclr k x n => exact (execTclr_keepsFirmware k x n).keeps s u h
  | tdrn d a x k l => exact (execTdrn_keepsFirmware d a x k l).keeps s u h
  | tstg t b => exact (execTstg_keepsFirmware t b).keeps s u h
  | ttbl t a => exact (execTtbl_keepsFirmware t a).keeps s u h
  | mapf d a => exact (execMapf_keepsFirmware d a).keeps s u h
  | _ => cases hword
end

end Sys2Proof.Machine
end

section
/-! Every step of a device agent but the nine that boot, reset or fail the device leaves it and its firmware as they were. -/

namespace Sys2Proof.Machine
set_option Elab.async false
open Sys2Proof

theorem execLoadDataArrival_keepsFirmware (fl part word : Nat) : StepKeepsFirmware (execLoadDataArrival fl part word) := by
  refine ⟨fun s t h => ?_⟩
  unfold execLoadDataArrival at h
  grind [State.firmware_arrival, State.firmware_load]

theorem execAtomicReturn_keepsFirmware (fl part : Nat) : StepKeepsFirmware (execAtomicReturn fl part) :=
  .next fun _ => State.firmware_arrival ..

theorem execStoreAck_keepsFirmware (fl part : Nat) : StepKeepsFirmware (execStoreAck fl part) :=
  .next fun _ => State.firmware_arrival ..

theorem execSfqResult_keepsFirmware (fl part word : Nat) : StepKeepsFirmware (execSfqResult fl part word) :=
  .next fun _ => State.firmware_queueArrival ..

theorem execCvqResult_keepsFirmware (fl part word : Nat) : StepKeepsFirmware (execCvqResult fl part word) :=
  .next fun _ => State.firmware_queueArrival ..

theorem execPaletteArrival_keepsFirmware (fl : Nat) : StepKeepsFirmware (execPaletteArrival fl) := by
  refine ⟨fun s t h => ?_⟩
  unfold execPaletteArrival at h
  grind [State.firmware, State.firmware_performed, State.firmware_mapFlight, State.firmware_mapGang,
    State.firmware_settleFlights]

theorem execXcprDataArrival_keepsFirmware (cluster slot row : Nat) :
    StepKeepsFirmware (execXcprDataArrival cluster slot row) := by
  refine ⟨fun s t h => ?_⟩
  unfold execXcprDataArrival at h
  grind [State.firmware, State.firmware_mapGang, State.firmware_mapSlot, State.firmware_endCommand]

theorem execHomeRequest_keepsFirmware (fl part : Nat) : StepKeepsFirmware (execHomeRequest fl part) := by
  refine ⟨fun s t h => ?_⟩
  unfold execHomeRequest at h
  grind [State.firmware_onPart, State.firmware_performTsub, State.firmware_homeRequest]

theorem execTranslationRequest_keepsFirmware (fl part : Nat) : StepKeepsFirmware (execTranslationRequest fl part) := by
  refine ⟨fun s t h => ?_⟩
  unfold execTranslationRequest at h
  grind [State.firmware_onPart, State.firmware_translationRequest]

theorem execFillReturn_keepsFirmware (fill : Nat) : StepKeepsFirmware (execFillReturn fill) := by
  refine ⟨fun s t h => ?_⟩
  unfold execFillReturn at h
  grind [State.firmware, State.firmware_endFills]

theorem execWriteBack_keepsFirmware (asid line : Nat) : StepKeepsFirmware (execWriteBack asid line) := by
  refine ⟨fun s t h => ?_⟩
  unfold execWriteBack at h
  grind [State.firmware_evict]

theorem execWriteBackAck_keepsFirmware (wb : Nat) : StepKeepsFirmware (execWriteBackAck wb) := by
  refine ⟨fun s t h => ?_⟩
  unfold execWriteBackAck at h
  grind [State.firmware, State.firmware_flushEnded]

theorem execOwnershipRelease_keepsFirmware (owner : Nat) : StepKeepsFirmware (execOwnershipRelease owner) := by
  refine ⟨fun s t h => ?_⟩
  unfold execOwnershipRelease at h
  grind [State.firmware]

theorem execFaultReport_keepsFirmware (fl part : Nat) : StepKeepsFirmware (execFaultReport fl part) := by
  refine ⟨fun s t h => ?_⟩
  unfold execFaultReport at h
  grind [State.firmware, State.firmware_onPart, State.firmware_dropPart, State.firmware_abandonCrew,
    State.firmware_mapParts, State.firmware_mapFlight, State.firmware_changeLog]

theorem execHandlerEntry_keepsFirmware (crew member party : Nat) :
    StepKeepsFirmware (execHandlerEntry crew member party) := by
  refine ⟨fun s t h => ?_⟩
  unfold execHandlerEntry at h
  grind [State.firmware, State.firmware_enterForFaults]

theorem execFaultLogReply_keepsFirmware (fl part : Nat) : StepKeepsFirmware (execFaultLogReply fl part) := by
  refine ⟨fun s t h => ?_⟩
  unfold execFaultLogReply at h
  grind [State.firmware, State.firmware_onPart, State.firmware_performed, State.firmware_changeLog, State.firmware_mapParts,
    State.firmware_settleFlights]

theorem execMcrdRequestArrival_keepsFirmware (fl : Nat) : StepKeepsFirmware (execMcrdRequestArrival fl) := by
  refine ⟨fun s t h => ?_⟩
  unfold execMcrdRequestArrival at h
  grind [State.firmware_onPart, State.firmware_mcrdArrive]

theorem execMcrdLineSend_keepsFirmware (stream : Nat) : StepKeepsFirmware (execMcrdLineSend stream) := by
  refine ⟨fun s t h => ?_⟩
  unfold execMcrdLineSend at h
  grind [State.firmware, State.firmware_sendLine]

theorem execMcrdTailReplay_keepsFirmware (stream : Nat) : StepKeepsFirmware (execMcrdTailReplay stream) := by
  refine ⟨fun s t h => ?_⟩
  unfold execMcrdTailReplay at h
  grind [State.firmware, State.firmware_sendLine]

theorem execMcrdLineDeliver_keepsFirmware (delivery : Nat) : StepKeepsFirmware (execMcrdLineDeliver delivery) := by
  refine .next fun s => ?_
  split
  · rfl
  · exact (State.firmware_settleStream ..).trans (State.firmware_foldl (fun s f => State.firmware_deliverTo ..) _ _)

theorem execSpcfgComplete_keepsFirmware (die : Nat) : StepKeepsFirmware (execSpcfgComplete die) := by
  refine ⟨fun s t h => ?_⟩
  unfold execSpcfgComplete at h
  grind [State.firmware, State.firmware_drainWays, State.firmware_resize, State.firmware_mapGang]

theorem execMwaitTimeout_keepsFirmware (crew member slice : Nat) :
    StepKeepsFirmware (execMwaitTimeout crew member slice) := by
  refine ⟨fun s t h => ?_⟩
  unfold execMwaitTimeout at h
  grind [State.firmware, State.firmware_mapGang]

theorem execSpuriousWake_keepsFirmware (crew member slice : Nat) :
    StepKeepsFirmware (execSpuriousWake crew member slice) := by
  refine ⟨fun s t h => ?_⟩
  unfold execSpuriousWake at h
  grind [State.firmware, State.firmware_mapGang]

theorem execYldExpire_keepsFirmware (crew member party : Nat) : StepKeepsFirmware (execYldExpire crew member party) := by
  refine ⟨fun s t h => ?_⟩
  unfold execYldExpire at h
  grind [State.firmware, State.firmware_mapGang]

theorem execQuietTimeout_keepsFirmware (crew member party : Nat) :
    StepKeepsFirmware (execQuietTimeout crew member party) := by
  refine ⟨fun s t h => ?_⟩
  unfold execQuietTimeout at h
  grind [State.firmware, State.firmware_mapGang]

theorem execEngineInstructionStart_keepsFirmware (engine pos : Nat) :
    StepKeepsFirmware (execEngineInstructionStart engine pos) := by
  refine ⟨fun s t h => ?_⟩
  unfold execEngineInstructionStart at h
  grind [State.firmware, State.firmware_seenBy, State.firmware_mapEngine]

theorem execTmmaComplete_keepsFirmware (engine pos cycles : Nat) :
    StepKeepsFirmware (execTmmaComplete engine pos cycles) := by
  refine ⟨fun s t h => ?_⟩
  unfold execTmmaComplete at h
  grind [State.firmware, State.firmware_finishMat]

theorem execDmmaComplete_keepsFirmware (engine pos : Nat) : StepKeepsFirmware (execDmmaComplete engine pos) := by
  refine ⟨fun s t h => ?_⟩
  unfold execDmmaComplete at h
  grind [State.firmware, State.firmware_finishMat]

theorem execDrainComplete_keepsFirmware (engine pos : Nat) : StepKeepsFirmware (execDrainComplete engine pos) := by
  refine ⟨fun s t h => ?_⟩
  unfold execDrainComplete at h
  grind [State.firmware, State.firmware_retireOp, State.firmware_seenBy, State.firmware_writeDrain,
    State.firmware_mapCanvas, State.firmware_mapCluster, State.firmware_deliverWord]

theorem execTclrComplete_keepsFirmware (engine pos : Nat) : StepKeepsFirmware (execTclrComplete engine pos) := by
  refine ⟨fun s t h => ?_⟩
  unfold execTclrComplete at h
  grind [State.firmware, State.firmware_mapCanvas, State.firmware_retireOp]

theorem execTstgComplete_keepsFirmware (engine pos : Nat) : StepKeepsFirmware (execTstgComplete engine pos) := by
  refine ⟨fun s t h => ?_⟩
  unfold execTstgComplete at h
  grind [State.firmware, State.firmware_mapEngine, State.firmware_retireOp]

theorem execTtblComplete_keepsFirmware (engine pos : Nat) : StepKeepsFirmware (execTtblComplete engine pos) := by
  refine ⟨fun s t h => ?_⟩
  unfold execTtblComplete at h
  grind [State.firmware, State.firmware_mapEngine, State.firmware_retireOp]

theorem execTokenArbitration_keepsFirmware : StepKeepsFirmware execTokenArbitration := by
  refine .next fun s => Eq.trans ?_ (s.firmware_addTokens (bitsOf s.tokenCtl 24 16))
  dsimp only
  split
  · exact State.firmware_grant ..
  · refine State.firmware_foldl (fun s e => ?_) _ _
    split
    · exact State.firmware_grant ..
    · rfl

theorem execTokenAge_keepsFirmware (easel : Nat) : StepKeepsFirmware (execTokenAge easel) := by
  refine ⟨fun s t h => ?_⟩
  unfold execTokenAge at h
  grind [State.firmware]

theorem execRecordPush_keepsFirmware (push : Nat) : StepKeepsFirmware (execRecordPush push) := by
  refine ⟨fun s t h => ?_⟩
  unfold execRecordPush at h
  grind [State.firmware, State.firmware_makePush]

theorem execRecordPop_keepsFirmware (cluster : Nat) : StepKeepsFirmware (execRecordPop cluster) := by
  refine ⟨fun s t h => ?_⟩
  unfold execRecordPop at h
  grind [State.firmware, State.firmware_popRecord]

theorem execSchedAge_keepsFirmware (rec_ : Nat) : StepKeepsFirmware (execSchedAge rec_) := by
  refine ⟨fun s t h => ?_⟩
  unfold execSchedAge at h
  grind [State.firmware]

theorem execSkipLimit_keepsFirmware (rec_ : Nat) : StepKeepsFirmware (execSkipLimit rec_) := by
  refine ⟨fun s t h => ?_⟩
  unfold execSkipLimit at h
  grind [State.firmware]

theorem execCrewStart_keepsFirmware (crew : Nat) : StepKeepsFirmware (execCrewStart crew) := by
  refine ⟨fun s t h => ?_⟩
  unfold execCrewStart at h
  grind [State.firmware, State.firmware_resume]

theorem execCrewDone_keepsFirmware (crew : Nat) : StepKeepsFirmware (execCrewDone crew) := by
  refine ⟨fun s t h => ?_⟩
  unfold execCrewDone at h
  grind [State.firmware, State.firmware_mapCrew, State.firmware_finishCrew]

theorem execPreemptRequest_keepsFirmware (context : Nat) : StepKeepsFirmware (execPreemptRequest context) := by
  refine ⟨fun s t h => ?_⟩
  unfold execPreemptRequest at h
  grind [State.firmware, State.firmware_mapCrew]

theorem execPreemptWait_keepsFirmware (rec_ : Nat) : StepKeepsFirmware (execPreemptWait rec_) := by
  refine ⟨fun s t h => ?_⟩
  unfold execPreemptWait at h
  grind [State.firmware, State.firmware_mapCrew, State.firmware_fitIn, State.firmware_load]

theorem execPreemptStopped_keepsFirmware (crew : Nat) : StepKeepsFirmware (execPreemptStopped crew) := by
  refine ⟨fun s t h => ?_⟩
  unfold execPreemptStopped at h
  grind [State.firmware, State.firmware_takeFrames, State.firmware_writeEasel, State.firmware_rotate]

theorem execContextSaved_keepsFirmware (crew : Nat) : StepKeepsFirmware (execContextSaved crew) := by
  refine ⟨fun s t h => ?_⟩
  unfold execContextSaved at h
  grind [State.firmware, State.firmware_writeFrame, State.firmware_mapCrew, State.firmware_takeIn,
    State.firmware_streamTight]

theorem execStandbyResume_keepsFirmware (crew : Nat) : StepKeepsFirmware (execStandbyResume crew) := by
  refine ⟨fun s t h => ?_⟩
  unfold execStandbyResume at h
  grind [State.firmware, State.firmware_resume]

theorem execPacketAccept_keepsFirmware (cluster : Nat) : StepKeepsFirmware (execPacketAccept cluster) := by
  refine ⟨fun s t h => ?_⟩
  unfold execPacketAccept at h
  grind [State.firmware, State.firmware_mapCluster, State.firmware_turn, State.firmware_acceptAt]

theorem execQueueLook_keepsFirmware (cluster entry : Nat) : StepKeepsFirmware (execQueueLook cluster entry) :=
  .next fun _ => State.firmware_lookQueue ..

theorem execCopy_keepsFirmware (cluster slot : Nat) : StepKeepsFirmware (execCopy cluster slot) :=
  .next fun _ => State.firmware_copyStep ..

theorem execTranspose_keepsFirmware (cluster slot : Nat) : StepKeepsFirmware (execTranspose cluster slot) :=
  .next fun _ => State.firmware_copyStep ..

theorem execConvert_keepsFirmware (cluster slot : Nat) : StepKeepsFirmware (execConvert cluster slot) :=
  .next fun _ => State.firmware_copyStep ..

theorem execConvertTranspose_keepsFirmware (cluster slot : Nat) :
    StepKeepsFirmware (execConvertTranspose cluster slot) :=
  .next fun _ => State.firmware_copyStep ..

theorem execQuantise_keepsFirmware (cluster slot : Nat) : StepKeepsFirmware (execQuantise cluster slot) :=
  .next fun _ => State.firmware_copyStep ..

theorem execQuantiseTranspose_keepsFirmware (cluster slot : Nat) :
    StepKeepsFirmware (execQuantiseTranspose cluster slot) :=
  .next fun _ => State.firmware_copyStep ..

theorem execCrumbEncode_keepsFirmware (cluster slot : Nat) : StepKeepsFirmware (execCrumbEncode cluster slot) :=
  .next fun _ => State.firmware_copyStep ..

theorem execCrumbDecode_keepsFirmware (cluster slot : Nat) : StepKeepsFirmware (execCrumbDecode cluster slot) :=
  .next fun _ => State.firmware_copyStep ..

theorem execPaletteExpand_keepsFirmware (cluster slot : Nat) : StepKeepsFirmware (execPaletteExpand cluster slot) :=
  .next fun _ => State.firmware_copyStep ..

theorem execGather_keepsFirmware (cluster slot : Nat) : StepKeepsFirmware (execGather cluster slot) :=
  .next fun _ => State.firmware_copyStep ..

theorem execScatter_keepsFirmware (cluster slot : Nat) : StepKeepsFirmware (execScatter cluster slot) :=
  .next fun _ => State.firmware_copyStep ..

theorem execScaleMax_keepsFirmware (cluster slot : Nat) :
    StepKeepsFirmware (execScaleMax cluster slot) :=
  .next fun _ => State.firmware_reduceStep bteScaleMax_steady ..

theorem execAlignedIntegerSum_keepsFirmware (cluster slot : Nat) :
    StepKeepsFirmware (execAlignedIntegerSum cluster slot) :=
  .next fun _ => State.firmware_reduceStep bteIntegerSum_steady ..

theorem execFill_keepsFirmware (cluster slot : Nat) : StepKeepsFirmware (execFill cluster slot) :=
  .next fun _ => State.firmware_copyStep ..

theorem execLaunch_keepsFirmware (cluster slot : Nat) : StepKeepsFirmware (execLaunch cluster slot) :=
  .next fun _ => State.firmware_launchStep ..

theorem execGraph_keepsFirmware (cluster slot : Nat) : StepKeepsFirmware (execGraph cluster slot) :=
  .next fun _ => State.firmware_graphStep ..

theorem execWaitval_keepsFirmware (cluster slot : Nat) :
    StepKeepsFirmware (execWaitval cluster slot) :=
  .next fun _ => State.firmware_typeStep bteWaitval_steady ..

theorem execSignal_keepsFirmware (cluster slot : Nat) :
    StepKeepsFirmware (execSignal cluster slot) :=
  .next fun _ => State.firmware_typeStep bteSignal_steady ..

theorem execWaitvalRead_keepsFirmware (cluster slot : Nat) : StepKeepsFirmware (execWaitvalRead cluster slot) := by
  refine .next fun s => ?_
  split
  · exact State.firmware_runCommand _ (bteWaitval_steady _)
  · rfl

theorem execWaitvalTimeout_keepsFirmware (cluster slot : Nat) : StepKeepsFirmware (execWaitvalTimeout cluster slot) := by
  refine ⟨fun s t h => ?_⟩
  unfold execWaitvalTimeout at h
  grind [State.firmware, State.firmware_endCommand]

theorem execLaunchSlotGrant_keepsFirmware (cluster slot : Nat) : StepKeepsFirmware (execLaunchSlotGrant cluster slot) := by
  refine ⟨fun s t h => ?_⟩
  unfold execLaunchSlotGrant at h
  grind [State.firmware, State.firmware_graphStep, State.firmware_mapSlot, State.firmware_launchStep]

theorem execGraphBufferReady_keepsFirmware (cluster slot : Nat) :
    StepKeepsFirmware (execGraphBufferReady cluster slot) :=
  .next fun _ => State.firmware_graphStep ..

theorem execGraphNodesStart_keepsFirmware (cluster slot : Nat) : StepKeepsFirmware (execGraphNodesStart cluster slot) :=
  .next fun _ => State.firmware_graphStep ..

theorem execXqapAppend_keepsFirmware (cluster slot : Nat) : StepKeepsFirmware (execXqapAppend cluster slot) := by
  refine .next fun s => ?_
  split
  · split
    · exact State.firmware_runCommand _ (bteAppend_steady _)
    · rfl
  · rfl

theorem execReductionContribution_keepsFirmware (cluster slot rank : Nat) :
    StepKeepsFirmware (execReductionContribution cluster slot rank) := by
  refine .next fun s => ?_
  split
  · split
    · exact State.firmware_runCommand _ (bteArrived_steady ..)
    · rfl
  · rfl

theorem execBteSlotResume_keepsFirmware (cluster slot : Nat) : StepKeepsFirmware (execBteSlotResume cluster slot) := by
  refine ⟨fun s t h => ?_⟩
  unfold execBteSlotResume at h
  grind [State.firmware, State.firmware_mapSlot]

theorem execCompletionRecordWrite_keepsFirmware (cluster slot : Nat) :
    StepKeepsFirmware (execCompletionRecordWrite cluster slot) := by
  refine ⟨fun s t h => ?_⟩
  unfold execCompletionRecordWrite at h
  grind [State.firmware, State.firmware_writeRecord]

theorem execRingCoalCount_keepsFirmware (ring : Nat) : StepKeepsFirmware (execRingCoalCount ring) := by
  refine ⟨fun s t h => ?_⟩
  unfold execRingCoalCount at h
  grind [State.firmware_raiseRing]

theorem execRingCoalTime_keepsFirmware (ring : Nat) : StepKeepsFirmware (execRingCoalTime ring) := by
  refine ⟨fun s t h => ?_⟩
  unfold execRingCoalTime at h
  grind [State.firmware_raiseRing]

theorem execEventRecordDrain_keepsFirmware : StepKeepsFirmware execEventRecordDrain := by
  refine ⟨fun s t h => ?_⟩
  unfold execEventRecordDrain at h
  grind [State.firmware, State.firmware_agentPoke, State.firmware_recordWritten, State.firmware_farDone,
    State.firmware_writeLocal]

theorem execRingRdIndexWrite_keepsFirmware (ring : Nat) (value : BitVec 64) :
    StepKeepsFirmware (execRingRdIndexWrite ring value) := by
  refine ⟨fun s t h => ?_⟩
  unfold execRingRdIndexWrite at h
  grind [State.firmware, State.firmware_mapRing]

theorem execMigrationStart_keepsFirmware (unit : Nat) : StepKeepsFirmware (execMigrationStart unit) := by
  refine ⟨fun s t h => ?_⟩
  unfold execMigrationStart at h
  grind [State.firmware, State.firmware_walked, State.firmware_mapUnit, State.firmware_abortMigration]

theorem execMigrationCopyDone_keepsFirmware (unit ecc : Nat) : StepKeepsFirmware (execMigrationCopyDone unit ecc) := by
  refine ⟨fun s t h => ?_⟩
  unfold execMigrationCopyDone at h
  grind [State.firmware, State.firmware_leafRead, State.firmware_abortMigration, State.firmware_streamLines,
    State.firmware_mapUnit]

theorem execMigrationRoundDone_keepsFirmware (unit ecc : Nat) : StepKeepsFirmware (execMigrationRoundDone unit ecc) := by
  refine ⟨fun s t h => ?_⟩
  unfold execMigrationRoundDone at h
  grind [State.firmware, State.firmware_leafRead, State.firmware_abortMigration, State.firmware_streamLines,
    State.firmware_mapUnit]

theorem execMigrationFreeze_keepsFirmware (unit : Nat) : StepKeepsFirmware (execMigrationFreeze unit) := by
  refine ⟨fun s t h => ?_⟩
  unfold execMigrationFreeze at h
  grind [State.firmware, State.firmware_leafRead, State.firmware_abortMigration, State.firmware_mapUnit]

theorem execMigrationDone_keepsFirmware (unit : Nat) : StepKeepsFirmware (execMigrationDone unit) := by
  refine ⟨fun s t h => ?_⟩
  unfold execMigrationDone at h
  grind [State.firmware, State.firmware_leafRead, State.firmware_abortMigration, State.firmware_lastCopy,
    State.firmware_poke, State.firmware_tlbiPage, State.firmware_retarget, State.firmware_mapUnit,
    State.firmware_migrationEvent]

theorem execFaultResume_keepsFirmware (context : Nat) : StepKeepsFirmware (execFaultResume context) := by
  refine .next fun s => ?_
  have hwrites : ∀ (wbs : List WriteBack) (s : State),
      (wbs.foldl (fun s w => s.makeWriteBack { w with fault := none }) s).firmware = s.firmware :=
    State.firmware_foldl fun s w => s.firmware_makeWriteBack { w with fault := none }
  dsimp only
  split
  · exact s.firmware_replay context fun _ _ _ => true
  · split
    · rfl
    · split
      · rfl
      · split
        · exact hwrites ..
        · split
          · exact State.firmware_retryDevice ..
          · rfl

theorem execFaultResumeAbort_keepsFirmware (context : Nat) : StepKeepsFirmware (execFaultResumeAbort context) := by
  refine .next fun s => ?_
  split
  · exact State.firmware_abandonCrew ..
  · split
    · exact State.firmware_abortSlot ..
    · split
      · rfl
      · split
        · exact State.firmware_foldl State.firmware_flushEnded _ _
        · split
          · exact State.firmware_dropDevice ..
          · rfl

theorem execTlbiRequestPage_keepsFirmware (asid va : Nat) : StepKeepsFirmware (execTlbiRequestPage asid va) := by
  refine ⟨fun s t h => ?_⟩
  unfold execTlbiRequestPage at h
  grind [State.firmware_tlbiPage]

theorem execTlbiRequestAsid_keepsFirmware (asid : Nat) : StepKeepsFirmware (execTlbiRequestAsid asid) := by
  refine ⟨fun s t h => ?_⟩
  unfold execTlbiRequestAsid at h
  grind [State.firmware_tlbiAsid]

theorem execTlbiRequestAll_keepsFirmware : StepKeepsFirmware execTlbiRequestAll :=
  .next fun _ => State.firmware_tlbiAll ..

theorem execSemaphoreTake_keepsFirmware (sem owner : Nat) : StepKeepsFirmware (execSemaphoreTake sem owner) := by
  refine ⟨fun s t h => ?_⟩
  unfold execSemaphoreTake at h
  grind [State.firmware]

theorem execSemaphoreFree_keepsFirmware (sem owner : Nat) : StepKeepsFirmware (execSemaphoreFree sem owner) := by
  refine ⟨fun s t h => ?_⟩
  unfold execSemaphoreFree at h
  grind [State.firmware]

theorem execQueueTableWrite_keepsFirmware (cluster entry : Nat) (value : BitVec 64) :
    StepKeepsFirmware (execQueueTableWrite cluster entry value) := by
  refine ⟨fun s t h => ?_⟩
  cases hon : value.getLsbD 0 with
  | false =>
    have hwrite := exec_queueTableWrite_disabled (s := s) (cluster := cluster) (entry := entry) hon
    cases hwrite.symm.trans h
    rfl
  | true =>
    have hwrite := exec_queueTableWrite_enabled (s := s) (cluster := cluster) (entry := entry) hon
    cases hwrite.symm.trans h
    exact (firmware_entryEnds ..).trans ((bteKeeps_steady ..).keeps _ rfl)

theorem execDoorbell_keepsFirmware (cluster entry : Nat) : StepKeepsFirmware (execDoorbell cluster entry) :=
  .next fun _ => State.firmware_lookQueue ..

theorem execJobEntryWrite_keepsFirmware (die entry : Nat) (value : BitVec 64) :
    StepKeepsFirmware (execJobEntryWrite die entry value) := by
  refine ⟨fun s t h => ?_⟩
  unfold execJobEntryWrite at h
  grind [State.firmware_setJob, State.firmware_startWaves]

theorem execDroppedClear_keepsFirmware : StepKeepsFirmware execDroppedClear := by
  refine ⟨fun s t h => ?_⟩
  unfold execDroppedClear at h
  grind [State.firmware]

theorem execCounterClear_keepsFirmware (offset : Nat) : StepKeepsFirmware (execCounterClear offset) := by
  refine ⟨fun s t h => ?_⟩
  unfold execCounterClear at h
  grind [State.firmware]

theorem execAttestationStart_keepsFirmware : StepKeepsFirmware execAttestationStart := by
  refine ⟨fun s t h => ?_⟩
  unfold execAttestationStart at h
  grind [State.firmware]

theorem execAttestationReportDone_keepsFirmware : StepKeepsFirmware execAttestationReportDone := by
  refine ⟨fun s t h => ?_⟩
  unfold execAttestationReportDone at h
  grind [State.firmware]

theorem execRegisterWrite_keepsFirmware (offset : Nat) (value : BitVec 64) :
    StepKeepsFirmware (execRegisterWrite offset value) :=
  .next fun _ => State.firmware_registerWrite ..

theorem execMessageInject_keepsFirmware (msg : Nat) : StepKeepsFirmware (execMessageInject msg) := by
  refine ⟨fun s t h => ?_⟩
  unfold execMessageInject at h
  grind [State.firmware, State.firmware_inject]

theorem execMessageResponse_keepsFirmware (msg code : Nat) (payload : List (BitVec 64)) :
    StepKeepsFirmware (execMessageResponse msg code payload) := by
  refine ⟨fun s t h => ?_⟩
  unfold execMessageResponse at h
  grind [State.firmware, State.firmware_answered, State.firmware_failMessage, State.firmware_countInjected]

theorem execInboundFabricRequest_keepsFirmware (origin tag kind offset size job : Nat) (payload : List (BitVec 64)) :
    StepKeepsFirmware (execInboundFabricRequest origin tag kind offset size job payload) := by
  refine .next fun s => ?_
  dsimp only
  split
  · rfl
  · split
    · exact State.firmware_refusePeer ..
    · split
      · exact (State.firmware_countConsumed ..).trans (State.firmware_refusePeer ..)
      · generalize hserve : s.serve _ _ _ _ _ _ _ _ = r
        have hkept : r.state.firmware = s.firmware := hserve ▸ s.firmware_serve ..
        cases r with
        | done data poison u => exact (State.firmware_respond ..).trans ((State.firmware_countConsumed ..).trans hkept)
        | pushed u => exact (State.firmware_countConsumed ..).trans hkept
        | fault code va u =>
          exact (State.firmware_postEvent ..).trans ((State.firmware_countConsumed ..).trans
            ((State.firmware_refusePeer ..).trans hkept))
        | far target off u => exact (State.firmware_newMessage ..).trans hkept
        | held u => exact hkept

theorem execAmsgReceive_keepsFirmware (origin tag job : Nat) (payload : List (BitVec 64)) :
    StepKeepsFirmware (execAmsgReceive origin tag job payload) := by
  refine ⟨fun s t h => ?_⟩
  unfold execAmsgReceive at h
  grind [State.firmware_amsgReceive]

theorem execRespTimeout_keepsFirmware (msg : Nat) : StepKeepsFirmware (execRespTimeout msg) := by
  refine ⟨fun s t h => ?_⟩
  unfold execRespTimeout at h
  grind [State.firmware, State.firmware_toQuery]

theorem execQueryWait_keepsFirmware (msg : Nat) : StepKeepsFirmware (execQueryWait msg) := by
  refine ⟨fun s t h => ?_⟩
  unfold execQueryWait at h
  grind [State.firmware]

theorem execQueryReceive_keepsFirmware (source tag : Nat) : StepKeepsFirmware (execQueryReceive source tag) := by
  refine ⟨fun s t h => ?_⟩
  unfold execQueryReceive at h
  grind [State.firmware, State.firmware_performed]

theorem execQueryAnswer_keepsFirmware (msg performed : Nat) : StepKeepsFirmware (execQueryAnswer msg performed) := by
  refine ⟨fun s t h => ?_⟩
  unfold execQueryAnswer at h
  grind [State.firmware, State.firmware_performed, State.firmware_deliverMessage, State.firmware_loseMessage]

theorem execWaveStart_keepsFirmware (job : Nat) : StepKeepsFirmware (execWaveStart job) := by
  refine ⟨fun s t h => ?_⟩
  unfold execWaveStart at h
  grind [State.firmware, State.firmware_runPass]

theorem execDown_keepsFirmware (job wave pass : Nat) : StepKeepsFirmware (execDown job wave pass) := by
  refine ⟨fun s t h => ?_⟩
  unfold execDown at h
  grind [State.firmware_runPass]

theorem execUp_keepsFirmware (job wave pass child : Nat) (payload : List (BitVec 64)) :
    StepKeepsFirmware (execUp job wave pass child payload) := by
  refine ⟨fun s t h => ?_⟩
  unfold execUp at h
  grind [State.firmware, State.firmware_putWave, State.firmware_settleWave]

theorem execDecide_keepsFirmware (job wave lost : Nat) : StepKeepsFirmware (execDecide job wave lost) := by
  refine ⟨fun s t h => ?_⟩
  unfold execDecide at h
  grind [State.firmware_takeDecision]

theorem execPortRetrain_keepsFirmware (port : Nat) : StepKeepsFirmware (execPortRetrain port) := by
  refine ⟨fun s t h => ?_⟩
  unfold execPortRetrain at h
  grind [State.firmware, State.firmware_mapLink, State.firmware_portCount]

theorem execRetrainLimit_keepsFirmware (port : Nat) : StepKeepsFirmware (execRetrainLimit port) := by
  refine .next fun s => ?_
  split
  · split
    · exact State.firmware_foldl State.firmware_toQuery _ _
    · rfl
  · rfl

theorem execHostRequest_keepsFirmware (port kind offset size : Nat) (payload : List (BitVec 64)) :
    StepKeepsFirmware (execHostRequest port kind offset size payload) := by
  refine ⟨fun s t h => ?_⟩
  unfold execHostRequest at h
  grind [State.firmware_hostMemory, State.firmware_answerHost, State.firmware_windowWrite, State.firmware_noteWindow,
    State.firmware_hostWindowAtomic]

theorem execHostHotReset_keepsFirmware (port : Nat) : StepKeepsFirmware (execHostHotReset port) := by
  refine ⟨fun s t h => ?_⟩
  unfold execHostHotReset at h
  grind [State.firmware, State.firmware_freeSems]

theorem execHostLinkLoss_keepsFirmware (port : Nat) : StepKeepsFirmware (execHostLinkLoss port) := by
  refine ⟨fun s t h => ?_⟩
  unfold execHostLinkLoss at h
  grind [State.firmware, State.firmware_freeSems]

theorem execControllerFailure_keepsFirmware (stack : Nat) : StepKeepsFirmware (execControllerFailure stack) :=
  .next fun _ => State.firmware_loseStack ..

theorem execUeLimit_keepsFirmware (stack : Nat) : StepKeepsFirmware (execUeLimit stack) := by
  refine ⟨fun s t h => ?_⟩
  unfold execUeLimit at h
  grind [State.firmware_loseStack]

theorem execRefresh_keepsFirmware (_stack : Nat) : StepKeepsFirmware (execRefresh _stack) := by
  refine ⟨fun s t h => ?_⟩
  unfold execRefresh at h
  grind

theorem execCalibration_keepsFirmware (_stack : Nat) : StepKeepsFirmware (execCalibration _stack) := by
  refine ⟨fun s t h => ?_⟩
  unfold execCalibration at h
  grind

theorem execScrub_keepsFirmware (stack line ecc : Nat) : StepKeepsFirmware (execScrub stack line ecc) := by
  refine ⟨fun s t h => ?_⟩
  unfold execScrub at h
  grind [State.firmware_asStream, State.firmware_scrubLine, State.firmware_scrubParity]

theorem execActivate_keepsFirmware (stack bank row mask stream : Nat) :
    StepKeepsFirmware (execActivate stack bank row mask stream) := by
  refine ⟨fun s t h => ?_⟩
  unfold execActivate at h
  grind [State.firmware_openRow]

theorem execSupplementaryActivate_keepsFirmware (stack bank row mask : Nat) :
    StepKeepsFirmware (execSupplementaryActivate stack bank row mask) := by
  refine ⟨fun s t h => ?_⟩
  unfold execSupplementaryActivate at h
  grind [State.firmware, State.firmware_bump]

theorem execPrecharge_keepsFirmware (stack bank row : Nat) : StepKeepsFirmware (execPrecharge stack bank row) := by
  refine ⟨fun s t h => ?_⟩
  unfold execPrecharge at h
  grind [State.firmware]

theorem execSelect_keepsFirmware (stack bank subarray : Nat) : StepKeepsFirmware (execSelect stack bank subarray) := by
  refine ⟨fun s t h => ?_⟩
  unfold execSelect at h
  grind [State.firmware_drive]

theorem execHbmRead_keepsFirmware (fill ecc : Nat) : StepKeepsFirmware (execHbmRead fill ecc) := by
  refine ⟨fun s t h => ?_⟩
  unfold execHbmRead at h
  grind [State.firmware, State.firmware_readFill]

theorem execStripeWrite_keepsFirmware (stripe : Nat) : StepKeepsFirmware (execStripeWrite stripe) :=
  .next fun _ => State.firmware_stripeWrite ..

theorem execParityDelta_keepsFirmware (stripe pos : Nat) : StepKeepsFirmware (execParityDelta stripe pos) := by
  refine ⟨fun s t h => ?_⟩
  unfold execParityDelta at h
  grind [State.firmware, State.firmware_foldDelta]

theorem execGatherWait_keepsFirmware (stripe : Nat) : StepKeepsFirmware (execGatherWait stripe) := by
  refine ⟨fun s t h => ?_⟩
  unfold execGatherWait at h
  grind [State.firmware, State.firmware_stripeWrite]

theorem execLinkLevelReplay_keepsFirmware (port : Nat) : StepKeepsFirmware (execLinkLevelReplay port) := by
  refine ⟨fun s t h => ?_⟩
  unfold execLinkLevelReplay at h
  grind [State.firmware_portCount]

theorem execPortTraining_keepsFirmware (port lanes : Nat) : StepKeepsFirmware (execPortTraining port lanes) := by
  refine ⟨fun s t h => ?_⟩
  unfold execPortTraining at h
  grind [State.firmware_mapLink]

theorem execTicketWrite_keepsFirmware (fl part word : Nat) : StepKeepsFirmware (execTicketWrite fl part word) :=
  .next fun _ => State.firmware_queueArrival ..

end Sys2Proof.Machine
end

section
/-! The firmware rule (14 R325): the nine steps of the device that change its state, the firmware in force or ROLLBACK_MIN
  keep
it, and every other step leaves all three as they were. -/

namespace Sys2Proof.Machine
open Sys2Proof Sys2Proof.Claim

/-- The steps that change the device state, the firmware in force, or ROLLBACK_MIN. -/
def steersDevice : Instr → Bool
  | .powerOnReset | .reset | .resetDone | .bootVerify | .trainingDone _ | .bridgeRetryFail _ | .internalParityError
  | .thermalSensorUpdate .. | .telemetryRefresh => true
  | _ => false

/-- Every step but those nine leaves the device state, the firmware and ROLLBACK_MIN as they were. -/
theorem exec_agent_keepsFirmware {e : Instr} (hagent : e.isWord = false) (hsteer : steersDevice e = false) :
    StepKeepsFirmware (exec e) := by
  refine ⟨fun s u h => ?_⟩
  cases e with
  | loadDataArrival fl part word => exact (execLoadDataArrival_keepsFirmware fl part word).keeps s u h
  | atomicReturn fl part => exact (execAtomicReturn_keepsFirmware fl part).keeps s u h
  | storeAck fl part => exact (execStoreAck_keepsFirmware fl part).keeps s u h
  | sfqResult fl part word => exact (execSfqResult_keepsFirmware fl part word).keeps s u h
  | cvqResult fl part word => exact (execCvqResult_keepsFirmware fl part word).keeps s u h
  | paletteArrival fl => exact (execPaletteArrival_keepsFirmware fl).keeps s u h
  | xcprDataArrival cluster slot row => exact (execXcprDataArrival_keepsFirmware cluster slot row).keeps s u h
  | homeRequest fl part => exact (execHomeRequest_keepsFirmware fl part).keeps s u h
  | translationRequest fl part => exact (execTranslationRequest_keepsFirmware fl part).keeps s u h
  | fillReturn fill => exact (execFillReturn_keepsFirmware fill).keeps s u h
  | writeBack asid line => exact (execWriteBack_keepsFirmware asid line).keeps s u h
  | writeBackAck wb => exact (execWriteBackAck_keepsFirmware wb).keeps s u h
  | ownershipRelease owner => exact (execOwnershipRelease_keepsFirmware owner).keeps s u h
  | faultReport fl part => exact (execFaultReport_keepsFirmware fl part).keeps s u h
  | handlerEntry crew member party => exact (execHandlerEntry_keepsFirmware crew member party).keeps s u h
  | faultLogReply fl part => exact (execFaultLogReply_keepsFirmware fl part).keeps s u h
  | mcrdRequestArrival fl => exact (execMcrdRequestArrival_keepsFirmware fl).keeps s u h
  | mcrdLineSend stream => exact (execMcrdLineSend_keepsFirmware stream).keeps s u h
  | mcrdTailReplay stream => exact (execMcrdTailReplay_keepsFirmware stream).keeps s u h
  | mcrdLineDeliver delivery => exact (execMcrdLineDeliver_keepsFirmware delivery).keeps s u h
  | spcfgComplete die => exact (execSpcfgComplete_keepsFirmware die).keeps s u h
  | mwaitTimeout crew member slice => exact (execMwaitTimeout_keepsFirmware crew member slice).keeps s u h
  | spuriousWake crew member slice => exact (execSpuriousWake_keepsFirmware crew member slice).keeps s u h
  | yldExpire crew member party => exact (execYldExpire_keepsFirmware crew member party).keeps s u h
  | quietTimeout crew member party => exact (execQuietTimeout_keepsFirmware crew member party).keeps s u h
  | engineInstructionStart engine pos => exact (execEngineInstructionStart_keepsFirmware engine pos).keeps s u h
  | tmmaComplete engine pos cycles => exact (execTmmaComplete_keepsFirmware engine pos cycles).keeps s u h
  | dmmaComplete engine pos => exact (execDmmaComplete_keepsFirmware engine pos).keeps s u h
  | drainComplete engine pos => exact (execDrainComplete_keepsFirmware engine pos).keeps s u h
  | tclrComplete engine pos => exact (execTclrComplete_keepsFirmware engine pos).keeps s u h
  | tstgComplete engine pos => exact (execTstgComplete_keepsFirmware engine pos).keeps s u h
  | ttblComplete engine pos => exact (execTtblComplete_keepsFirmware engine pos).keeps s u h
  | tokenArbitration => exact execTokenArbitration_keepsFirmware.keeps s u h
  | tokenAge easel => exact (execTokenAge_keepsFirmware easel).keeps s u h
  | recordPush push => exact (execRecordPush_keepsFirmware push).keeps s u h
  | recordPop cluster => exact (execRecordPop_keepsFirmware cluster).keeps s u h
  | schedAge rec => exact (execSchedAge_keepsFirmware rec).keeps s u h
  | skipLimit rec => exact (execSkipLimit_keepsFirmware rec).keeps s u h
  | crewStart crew => exact (execCrewStart_keepsFirmware crew).keeps s u h
  | crewDone crew => exact (execCrewDone_keepsFirmware crew).keeps s u h
  | preemptRequest crew => exact (execPreemptRequest_keepsFirmware crew).keeps s u h
  | preemptWait rec => exact (execPreemptWait_keepsFirmware rec).keeps s u h
  | preemptStopped crew => exact (execPreemptStopped_keepsFirmware crew).keeps s u h
  | contextSaved crew => exact (execContextSaved_keepsFirmware crew).keeps s u h
  | standbyResume crew => exact (execStandbyResume_keepsFirmware crew).keeps s u h
  | packetAccept cluster => exact (execPacketAccept_keepsFirmware cluster).keeps s u h
  | queueLook cluster entry => exact (execQueueLook_keepsFirmware cluster entry).keeps s u h
  | copy cluster slot => exact (execCopy_keepsFirmware cluster slot).keeps s u h
  | transpose cluster slot => exact (execTranspose_keepsFirmware cluster slot).keeps s u h
  | convert cluster slot => exact (execConvert_keepsFirmware cluster slot).keeps s u h
  | convertTranspose cluster slot => exact (execConvertTranspose_keepsFirmware cluster slot).keeps s u h
  | quantise cluster slot => exact (execQuantise_keepsFirmware cluster slot).keeps s u h
  | quantiseTranspose cluster slot => exact (execQuantiseTranspose_keepsFirmware cluster slot).keeps s u h
  | crumbEncode cluster slot => exact (execCrumbEncode_keepsFirmware cluster slot).keeps s u h
  | crumbDecode cluster slot => exact (execCrumbDecode_keepsFirmware cluster slot).keeps s u h
  | paletteExpand cluster slot => exact (execPaletteExpand_keepsFirmware cluster slot).keeps s u h
  | gather cluster slot => exact (execGather_keepsFirmware cluster slot).keeps s u h
  | scatter cluster slot => exact (execScatter_keepsFirmware cluster slot).keeps s u h
  | scaleMax cluster slot => exact (execScaleMax_keepsFirmware cluster slot).keeps s u h
  | alignedIntegerSum cluster slot => exact (execAlignedIntegerSum_keepsFirmware cluster slot).keeps s u h
  | fill cluster slot => exact (execFill_keepsFirmware cluster slot).keeps s u h
  | launch cluster slot => exact (execLaunch_keepsFirmware cluster slot).keeps s u h
  | graph cluster slot => exact (execGraph_keepsFirmware cluster slot).keeps s u h
  | waitval cluster slot => exact (execWaitval_keepsFirmware cluster slot).keeps s u h
  | signal cluster slot => exact (execSignal_keepsFirmware cluster slot).keeps s u h
  | waitvalRead cluster slot => exact (execWaitvalRead_keepsFirmware cluster slot).keeps s u h
  | waitvalTimeout cluster slot => exact (execWaitvalTimeout_keepsFirmware cluster slot).keeps s u h
  | launchSlotGrant cluster slot => exact (execLaunchSlotGrant_keepsFirmware cluster slot).keeps s u h
  | graphBufferReady cluster slot => exact (execGraphBufferReady_keepsFirmware cluster slot).keeps s u h
  | graphNodesStart cluster slot => exact (execGraphNodesStart_keepsFirmware cluster slot).keeps s u h
  | xqapAppend cluster slot => exact (execXqapAppend_keepsFirmware cluster slot).keeps s u h
  | reductionContribution cluster slot rank => exact (execReductionContribution_keepsFirmware cluster slot rank).keeps s u h
  | bteSlotResume cluster slot => exact (execBteSlotResume_keepsFirmware cluster slot).keeps s u h
  | completionRecordWrite cluster slot => exact (execCompletionRecordWrite_keepsFirmware cluster slot).keeps s u h
  | ringCoalCount ring => exact (execRingCoalCount_keepsFirmware ring).keeps s u h
  | ringCoalTime ring => exact (execRingCoalTime_keepsFirmware ring).keeps s u h
  | eventRecordDrain => exact execEventRecordDrain_keepsFirmware.keeps s u h
  | ringRdIndexWrite ring value => exact (execRingRdIndexWrite_keepsFirmware ring value).keeps s u h
  | migrationStart unit => exact (execMigrationStart_keepsFirmware unit).keeps s u h
  | migrationCopyDone unit ecc => exact (execMigrationCopyDone_keepsFirmware unit ecc).keeps s u h
  | migrationRoundDone unit ecc => exact (execMigrationRoundDone_keepsFirmware unit ecc).keeps s u h
  | migrationFreeze unit => exact (execMigrationFreeze_keepsFirmware unit).keeps s u h
  | migrationDone unit => exact (execMigrationDone_keepsFirmware unit).keeps s u h
  | faultResume context => exact (execFaultResume_keepsFirmware context).keeps s u h
  | faultResumeAbort context => exact (execFaultResumeAbort_keepsFirmware context).keeps s u h
  | tlbiRequestPage asid va => exact (execTlbiRequestPage_keepsFirmware asid va).keeps s u h
  | tlbiRequestAsid asid => exact (execTlbiRequestAsid_keepsFirmware asid).keeps s u h
  | tlbiRequestAll => exact execTlbiRequestAll_keepsFirmware.keeps s u h
  | semaphoreTake sem owner => exact (execSemaphoreTake_keepsFirmware sem owner).keeps s u h
  | semaphoreFree sem owner => exact (execSemaphoreFree_keepsFirmware sem owner).keeps s u h
  | queueTableWrite cluster entry value => exact (execQueueTableWrite_keepsFirmware cluster entry value).keeps s u h
  | doorbell cluster entry => exact (execDoorbell_keepsFirmware cluster entry).keeps s u h
  | jobEntryWrite die entry value => exact (execJobEntryWrite_keepsFirmware die entry value).keeps s u h
  | droppedClear => exact execDroppedClear_keepsFirmware.keeps s u h
  | counterClear offset => exact (execCounterClear_keepsFirmware offset).keeps s u h
  | attestationStart => exact execAttestationStart_keepsFirmware.keeps s u h
  | attestationReportDone => exact execAttestationReportDone_keepsFirmware.keeps s u h
  | registerWrite offset value => exact (execRegisterWrite_keepsFirmware offset value).keeps s u h
  | messageInject msg => exact (execMessageInject_keepsFirmware msg).keeps s u h
  | messageResponse msg code payload => exact (execMessageResponse_keepsFirmware msg code payload).keeps s u h
  | inboundFabricRequest origin tag kind offset size job payload =>
    exact (execInboundFabricRequest_keepsFirmware origin tag kind offset size job payload).keeps s u h
  | amsgReceive origin tag job payload => exact (execAmsgReceive_keepsFirmware origin tag job payload).keeps s u h
  | respTimeout msg => exact (execRespTimeout_keepsFirmware msg).keeps s u h
  | queryWait msg => exact (execQueryWait_keepsFirmware msg).keeps s u h
  | queryReceive source tag => exact (execQueryReceive_keepsFirmware source tag).keeps s u h
  | queryAnswer msg performed => exact (execQueryAnswer_keepsFirmware msg performed).keeps s u h
  | waveStart job => exact (execWaveStart_keepsFirmware job).keeps s u h
  | down job wave pass => exact (execDown_keepsFirmware job wave pass).keeps s u h
  | up job wave pass child payload => exact (execUp_keepsFirmware job wave pass child payload).keeps s u h
  | decide job wave lost => exact (execDecide_keepsFirmware job wave lost).keeps s u h
  | portRetrain port => exact (execPortRetrain_keepsFirmware port).keeps s u h
  | retrainLimit port => exact (execRetrainLimit_keepsFirmware port).keeps s u h
  | hostRequest port kind offset size payload =>
    exact (execHostRequest_keepsFirmware port kind offset size payload).keeps s u h
  | hostHotReset port => exact (execHostHotReset_keepsFirmware port).keeps s u h
  | hostLinkLoss port => exact (execHostLinkLoss_keepsFirmware port).keeps s u h
  | controllerFailure stack => exact (execControllerFailure_keepsFirmware stack).keeps s u h
  | ueLimit stack => exact (execUeLimit_keepsFirmware stack).keeps s u h
  | refresh stack => exact (execRefresh_keepsFirmware stack).keeps s u h
  | calibration stack => exact (execCalibration_keepsFirmware stack).keeps s u h
  | scrub stack line ecc => exact (execScrub_keepsFirmware stack line ecc).keeps s u h
  | activate stack bank row mask stream => exact (execActivate_keepsFirmware stack bank row mask stream).keeps s u h
  | supplementaryActivate stack bank row mask =>
    exact (execSupplementaryActivate_keepsFirmware stack bank row mask).keeps s u h
  | precharge stack bank row => exact (execPrecharge_keepsFirmware stack bank row).keeps s u h
  | select stack bank subarray => exact (execSelect_keepsFirmware stack bank subarray).keeps s u h
  | hbmRead fill ecc => exact (execHbmRead_keepsFirmware fill ecc).keeps s u h
  | stripeWrite stripe => exact (execStripeWrite_keepsFirmware stripe).keeps s u h
  | parityDelta stripe pos => exact (execParityDelta_keepsFirmware stripe pos).keeps s u h
  | gatherWait stripe => exact (execGatherWait_keepsFirmware stripe).keeps s u h
  | linkLevelReplay port => exact (execLinkLevelReplay_keepsFirmware port).keeps s u h
  | portTraining port lanes => exact (execPortTraining_keepsFirmware port lanes).keeps s u h
  | ticketWrite fl part word => exact (execTicketWrite_keepsFirmware fl part word).keeps s u h
  | powerOnReset | reset | resetDone | bootVerify | trainingDone | bridgeRetryFail | internalParityError
  | thermalSensorUpdate | telemetryRefresh => cases hsteer
  | _ => cases hagent

theorem exec_keepsFirmware {i : Instr} (hsteer : steersDevice i = false) : StepKeepsFirmware (exec i) := by
  cases hword : i.isWord with
  | true => exact exec_word_keepsFirmware hword
  | false => exact exec_agent_keepsFirmware hword hsteer

/-! ### The nine steps -/

/-- The firmware rule, and a bound that ROLLBACK_MIN has reached. -/
structure FirmwareHeld (least : Nat) (s : State) : Prop where
  rule : FirmwareRule s
  bound : least ≤ s.rollbackMin

section
variable {least : Nat} {s t : State}

theorem FirmwareHeld.of_firmware_eq (h : FirmwareHeld least s) (heq : t.firmware = s.firmware) : FirmwareHeld least t := by
  obtain ⟨hdevice, hversion, hmin⟩ : t.device = s.device ∧ t.fwVersion = s.fwVersion ∧ t.rollbackMin = s.rollbackMin := by
    simpa [State.firmware] using heq
  refine ⟨fun hup => ?_, hmin ▸ h.bound⟩
  rw [hdevice] at hup
  rw [hmin, hversion]
  exact h.rule hup

/-- Outside TRAINING and READY the rule asks nothing. -/
theorem FirmwareHeld.of_down (h : FirmwareHeld least s) (hmin : t.rollbackMin = s.rollbackMin)
    (hdown : ¬(t.device = .training ∨ t.device = .ready)) : FirmwareHeld least t :=
  ⟨fun hup => absurd hup hdown, hmin ▸ h.bound⟩

theorem FirmwareHeld.of_reset (h : FirmwareHeld least s) (hmin : t.rollbackMin = s.rollbackMin)
    (hreset : t.device = .reset) :
    FirmwareHeld least t :=
  h.of_down hmin (by simp [hreset])

theorem FirmwareHeld.of_enterFatal (h : FirmwareHeld least s) (cause : Nat) : FirmwareHeld least (s.enterFatal cause) := by
  unfold State.enterFatal
  split
  · exact h
  · exact h.of_down rfl (by simp)

/-- RESET is left to BOOT. -/
theorem FirmwareHeld.of_resetDone (h : FirmwareHeld least s) (hs : exec .resetDone s = .next t) : FirmwareHeld least t := by
  obtain rfl := Host.Outcome.next.inj hs
  split
  · exact h.of_down rfl (by simp)
  · exact h

/-- The boot ROM puts an image in force only where its version is not below ROLLBACK_MIN. -/
theorem FirmwareHeld.of_bootVerify (h : FirmwareHeld least s) (hs : exec .bootVerify s = .next t) :
    FirmwareHeld least t := by
  obtain rfl := Host.Outcome.next.inj hs
  split
  · exact h
  · split
    · rename_i hok
      exact ⟨fun _ => State.rollbackMin_le_of_imageOk (Bool.and_eq_true_iff.mp hok).1, h.bound⟩
    · exact h.of_down rfl (by simp)

/-- Training is left to READY with the firmware that was in force, and the stacks lost with it change nothing of it. -/
theorem FirmwareHeld.of_trainingDone (h : FirmwareHeld least s) {failed : Nat}
    (hs : exec (.trainingDone failed) s = .next t) :
    FirmwareHeld least t := by
  obtain rfl := Host.Outcome.next.inj hs
  split
  · exact h
  · rename_i htraining
    have hready : FirmwareHeld least { s with device := .ready } :=
      ⟨fun _ => h.rule (.inl (not_not.mp htraining)), h.bound⟩
    exact hready.of_firmware_eq (State.firmware_foldl (fun s k => s.firmware_loseStack k 1) _ _)

/-- ROLLBACK_MIN rises no further than the version in force. -/
theorem FirmwareHeld.of_telemetryRefresh (h : FirmwareHeld least s) (hs : exec .telemetryRefresh s = .next t) :
    FirmwareHeld least t := by
  obtain rfl := Host.Outcome.next.inj (exec_telemetryRefresh.symm.trans hs)
  exact ⟨fun hup => max_le (h.rule hup) (min_le_right _ _), le_max_of_le_left h.bound⟩

theorem FirmwareHeld.of_bridgeRetryFail (h : FirmwareHeld least s) {segment : Nat}
    (hs : exec (.bridgeRetryFail segment) s = .next t) : FirmwareHeld least t := by
  obtain rfl := Host.Outcome.next.inj hs
  split
  · exact h.of_enterFatal 1
  · exact h

theorem FirmwareHeld.of_thermalSensorUpdate (h : FirmwareHeld least s) {sensor celsius : Nat}
    (hs : exec (.thermalSensorUpdate sensor celsius) s = .next t) : FirmwareHeld least t := by
  obtain rfl := Host.Outcome.next.inj ((exec_thermalSensorUpdate sensor celsius).symm.trans hs)
  have hsensed : FirmwareHeld least (s.sensed sensor celsius) := h.of_firmware_eq rfl
  split
  · exact hsensed.of_enterFatal 2
  · exact hsensed

/-! ### Every step -/

/-- An instruction or a step of the device keeps what holds of the firmware. -/
theorem FirmwareHeld.of_exec {i : Instr} (h : FirmwareHeld least s) (hs : exec i s = .next t) : FirmwareHeld least t := by
  cases hsteer : steersDevice i with
  | false => exact h.of_firmware_eq ((exec_keepsFirmware hsteer).keeps s t hs)
  | true =>
    cases i with
    | powerOnReset => exact Host.Outcome.next.inj hs ▸ h.of_reset rfl rfl
    | reset => exact Host.Outcome.next.inj hs ▸ h.of_reset rfl rfl
    | resetDone => exact h.of_resetDone hs
    | bootVerify => exact h.of_bootVerify hs
    | trainingDone => exact h.of_trainingDone hs
    | bridgeRetryFail => exact h.of_bridgeRetryFail hs
    | internalParityError => exact Host.Outcome.next.inj hs ▸ h.of_enterFatal 3
    | thermalSensorUpdate => exact h.of_thermalSensorUpdate hs
    | telemetryRefresh => exact h.of_telemetryRefresh hs
    | _ => cases hsteer

/-- A thread's turn does too: before its instruction it leaves the firmware alone. -/
theorem FirmwareHeld.of_runThread {th : ThreadRef} (h : FirmwareHeld least s) (hs : s.runThread th = .next t) :
    FirmwareHeld least t := by
  have hturn : FirmwareHeld least (State.turn { s with cur := th }).2 := h.of_firmware_eq (State.firmware_turn _)
  unfold State.runThread at hs
  split at hs <;> rename_i heq <;> rw [heq] at hturn
  · exact Host.Outcome.next.inj hs ▸ hturn
  · exact Host.Outcome.next.inj hs ▸ hturn
  · exact hturn.of_exec hs

theorem FirmwareHeld.of_step (h : FirmwareHeld least s) (hs : step s = .next t) : FirmwareHeld least t :=
  step_keeps (FirmwareHeld least)
    (fun _ _ _ h => h.of_firmware_eq rfl)
    (fun s h => h.of_firmware_eq s.firmware_tick)
    (fun _ _ _ h _ he => h.of_exec he)
    (fun _ _ _ h hr => h.of_runThread hr)
    (fun s k n g th h => h.of_firmware_eq (s.firmware_endYields k n g th)) h hs

end

end Sys2Proof.Machine
end

section
open Sys2Proof Sys2Proof.Machine Sys2Proof.Claim

/-- Settles O59: of the nine steps that touch the device state, the firmware or ROLLBACK_MIN, the boot ROM checks the
version it puts in force, and ROLLBACK_MIN rises no further than that version. -/
theorem everyStepKeepsTheFirmwareRule : Obligations.EveryStepKeepsTheFirmwareRule := by
  intro s t hrule hs
  have hheld : FirmwareHeld s.rollbackMin t := FirmwareHeld.of_step ⟨hrule, le_rfl⟩ hs
  exact ⟨hheld.rule, hheld.bound⟩

end
